-- ==== Sys2Proof/Word.lean ====
section
/-! DEFINITION. The word types, their plainest arithmetic, and the sparse table that holds what the spec
gives many of (cores, ports, sessions, registers): a list of key and value pairs with strictly rising keys. -/

namespace Sys2Proof

abbrev Byte := BitVec 8
abbrev Half := BitVec 16
abbrev Word := BitVec 32
abbrev DWord := BitVec 64
abbrev VReg := BitVec 512

/-- Entries of a sparse table, in strictly rising key order. -/
abbrev Tab (α : Type) := List (Nat × α)

namespace Tab

/-- The entry of key `k`, if the table lists one. -/
def find? {α : Type} : Tab α → Nat → Option α
  | [], _ => none
  | (j, v) :: t, k => if j = k then some v else Tab.find? t k

/-- The entry of key `k`, `d` where the table lists none. -/
def get {α : Type} (d : α) (t : Tab α) (k : Nat) : α :=
  (t.find? k).getD d

/-- The table with the entry of key `k` set to `v`. -/
def put {α : Type} : Tab α → Nat → α → Tab α
  | [], k, v => [(k, v)]
  | (j, u) :: t, k, v =>
    if k < j then (k, v) :: (j, u) :: t
    else if k = j then (k, v) :: t
    else (j, u) :: Tab.put t k v

/-- The table without an entry of key `k`. -/
def del {α : Type} (t : Tab α) (k : Nat) : Tab α := t.filter (fun e => e.1 ≠ k)

/-- The first entry, in key order, that a test accepts. -/
def search {α : Type} (t : Tab α) (f : Nat → α → Bool) : Option (Nat × α) :=
  List.find? (fun e => f e.1 e.2) t

/-- The table with every entry updated. -/
def mapVals {α : Type} (t : Tab α) (f : Nat → α → α) : Tab α := List.map (fun e => (e.1, f e.1 e.2)) t

/-- Keys strictly rising. -/
def wf {α : Type} (t : Tab α) : Bool := decide (t.Pairwise (fun a b => a.1 < b.1))

end Tab

/-- `n` is the value of `len` bits of `w` from bit `lo`. -/
def bits {n : Nat} (w : BitVec n) (lo len : Nat) : Nat := (w.toNat >>> lo) % 2 ^ len

/-- Bit `k` of `w`. -/
def bit {n : Nat} (w : BitVec n) (k : Nat) : Bool := w.toNat.testBit k

/-- `w` with `len` bits from bit `lo` replaced by the low bits of `v`. -/
def setBits {n : Nat} (w : BitVec n) (lo len v : Nat) : BitVec n :=
  BitVec.ofNat n (w.toNat - ((w.toNat >>> lo) % 2 ^ len) <<< lo + (v % 2 ^ len) <<< lo)

/-- `w` with bit `k` set to `b`. -/
def setBit {n : Nat} (w : BitVec n) (k : Nat) (b : Bool) : BitVec n := setBits w k 1 (if b then 1 else 0)

/-- 1 for true, 0 for false. -/
def b2n (b : Bool) : Nat := if b then 1 else 0

/-- The least number of pieces of size `b` that hold `a`. -/
def ceilDiv (a b : Nat) : Nat := (a + b - 1) / b

/-- The little-endian value of a list of bytes. -/
def leNat : List Byte → Nat
  | [] => 0
  | b :: t => b.toNat + 256 * leNat t

/-- The `n` little-endian bytes of `v`. -/
def leBytes : Nat → Nat → List Byte
  | 0, _ => []
  | n + 1, v => BitVec.ofNat 8 v :: leBytes n (v / 256)

/-- `n` bytes of a message from offset `off`, read little-endian; bytes beyond its end read zero. -/
def leAt (m : List Byte) (off n : Nat) : Nat := leNat ((m.drop off).take n)

end Sys2Proof
end

