-- ==== Sys2Proof/Syntax.lean ====
section
/-! DEFINITION. The commands of the KW1: one constructor of `Instr` for each row of the spec's table of operations
and events, with the operands its rules name. What an outside party or a physical process decides (the bytes of a
message, what a sensor reads, which sites failed a test) is an operand. -/

namespace Sys2Proof

/-- A logical position: parish, logical column and logical row within it (R14, R15). The 599,040 values are exactly
the logical cores. -/
structure Pos where
  parish : Fin 78
  col : Fin 80
  row : Fin 96
  deriving DecidableEq, Repr

/-- The eight bits every instruction begins with (R44): PN negates predicate PS. -/
structure Pred where
  pn : BitVec 1
  ps : BitVec 3
  deriving DecidableEq, Repr

/-- Format R (R45); `rsv` is the reserved field [2:0]. -/
structure FmtR where
  pr : Pred
  rd : BitVec 5
  ra : BitVec 5
  rb : BitVec 5
  rsv : BitVec 3
  deriving DecidableEq, Repr

/-- Format I (R45). -/
structure FmtI where
  pr : Pred
  rd : BitVec 5
  ra : BitVec 5
  imm : BitVec 11
  deriving DecidableEq, Repr

/-- Format U (R45), without H, which selects the operation of class 0x3. -/
structure FmtU where
  pr : Pred
  rd : BitVec 5
  imm : BitVec 18
  deriving DecidableEq, Repr

/-- Format B (R45). -/
structure FmtB where
  pr : Pred
  ra : BitVec 5
  rb : BitVec 5
  off : BitVec 11
  deriving DecidableEq, Repr

/-- Format V (R45). -/
structure FmtV where
  pr : Pred
  vd : BitVec 4
  va : BitVec 4
  vb : BitVec 4
  vc : BitVec 4
  mode : BitVec 3
  deriving DecidableEq, Repr

/-- Format VM (R45). -/
structure FmtVM where
  pr : Pred
  vd : BitVec 4
  ra : BitVec 5
  off : BitVec 12
  deriving DecidableEq, Repr

/-- Format Q (R45); `n1` is n - 1. -/
structure FmtQ where
  pr : Pred
  q : BitVec 3
  vr : BitVec 4
  n1 : BitVec 2
  pd : BitVec 3
  rs : BitVec 5
  rsv : BitVec 3
  deriving DecidableEq, Repr

/-- Format T (R45). -/
structure FmtT where
  pr : Pred
  lvl : BitVec 2
  idx : BitVec 12
  rs : BitVec 5
  one : BitVec 1
  rsv : BitVec 1
  deriving DecidableEq, Repr

/-- Format M (R45). -/
structure FmtM where
  pr : Pred
  acc : BitVec 2
  w : BitVec 1
  a : BitVec 4
  b : BitVec 3
  sa : BitVec 5
  sb : BitVec 5
  rsv : BitVec 1
  deriving DecidableEq, Repr

/-- Format D (R45). -/
structure FmtD where
  pr : Pred
  ra : BitVec 5
  rd : BitVec 5
  rsv : BitVec 12
  deriving DecidableEq, Repr

/-- A carter channel (R205). -/
inductive Chan where
  | load | store
  deriving DecidableEq, Repr

/-- A pipe of the matrix engine (R58). -/
inductive Pipe where
  | load | row
  deriving DecidableEq, Repr

/-- A port of a crossroads (R108). -/
inductive Dir where
  | n | e | s | w | c
  deriving DecidableEq, Repr

/-- A frequency source (R228). -/
inductive Src where
  | ref | mon | tlane | synce
  deriving DecidableEq, Repr

/-- Who makes a register access (R486). -/
inductive RegPath where
  | steward
  | session (id : BitVec 12)
  | core (p : Pos)
  deriving DecidableEq, Repr

/-- The straps of R32. -/
structure Straps where
  img : Bool
  mgmt : Bool
  addr : BitVec 3
  test : Bool
  deriving DecidableEq, Repr

/-- What training a fabric port found (R282, R286): the electrical lanes that failed in each direction, lane 16 the spare,
and the groups whose optical lanes and codeword lock passed. -/
structure TrainObs where
  txBad : List (Fin 17)
  rxBad : List (Fin 17)
  group0 : Bool
  group1 : Bool
  cause : BitVec 4
  delayPs : BitVec 32
  peerFeid : BitVec 24
  peerPort : BitVec 6
  peerVerux1 : Bool
  peerDomain : BitVec 16
  deriving DecidableEq, Repr

/-- Why a rail is removed (R386): its current (0.1 A) or its voltage (mV) as the hardware reads it, or its last
regulator failing. -/
inductive RailObs where
  | overcurrent (deciA : Nat)
  | undervoltage (mv : Nat)
  | regulator
  deriving DecidableEq, Repr

/-- The guest's answer to one attestation step (R426): whether it offers SPDM 1.3, the capabilities and the algorithms asked for;
the anchor its chain leads to; the nonce a signature covers and whether it is valid under the chain's key; the measurement
blocks, and the digest of the response. -/
inductive GuestAnswer where
  | versions (v13 : Bool)
  | capabilities (ok : Bool)
  | algorithms (sm2sm3 : Bool)
  | certificate (anchor : BitVec 256) (chainOk : Bool)
  | challenge (nonce : BitVec 256) (sigOk : Bool)
  | measurements (nonce : BitVec 256) (sigOk : Bool) (blocks : List (Byte × BitVec 256)) (digest : BitVec 256)
  deriving DecidableEq, Repr

/-- What a start finds by test and measurement (R440 to R445, R450): the parts of a start that no command decides. -/
structure StartObs where
  straps : Straps
  /-- a populated stack that fails training (cause 0), margining (1) or a test (2): R445 -/
  stackFail : List (Fin 64 × Fin 3)
  /-- rows that fail the retention test: stack and row locator (R445, R507) -/
  rowsFail : List (Fin 64 × BitVec 32)
  /-- sectors whose rail does not come up (R454) -/
  sectorFail : List (Fin 16)
  /-- parishes whose rail does not come into regulation (R442) -/
  parishFail : List (Fin 78)
  /-- parishes whose fuse block is unreadable, wells under an unreadable block, and any unreadable block (R438) -/
  fuseDark : List (Fin 78)
  fuseWells : List (Fin 4992)
  /-- fabric and host ports whose lane block of the fuses is unreadable (R438) -/
  fusePorts : List (Fin 64)
  fuseHosts : List (Fin 4)
  fuseBad : Bool
  /-- sites that fail the mesh test or a known-answer run, in the order found: parish, column, physical row -/
  siteFail : List (Fin 78 × Fin 80 × Fin 100)
  /-- beat reference at 0.72 V and at V_min in Mbeat/s, and junction temperature in degrees (R443) -/
  rates : List (Fin 78 × Nat × Nat × Int)
  ports : List (Fin 64 × TrainObs)
  hostUp : List (Fin 4)
  /-- guest sites whose link trained: mainband modules trained, and what the guest answers during the start (R418, R426) -/
  guestUp : List (Fin 4 × BitVec 4 × List GuestAnswer)
  /-- PRIMARY was continuously healthy for 100 ms (R231) -/
  primaryHealthy : Bool
  /-- envelopes whose read is corrupted on the bus: device B, the configuration envelope (R36) -/
  readFail : List (Bool × Bool)
  /-- ledger slots whose SRAM copy fails its check at a warm restart (R343) -/
  ledgerBad : List (BitVec 16)
  /-- whether device A and device B take the records appended (R437) -/
  appendOk : Bool × Bool
  /-- TAI seconds as step 8 begins, where time of day is valid then (R327, R394) -/
  tod : Option (BitVec 48) := none
  /-- milliseconds the start took (R455) -/
  ms : Nat
  deriving DecidableEq, Repr

/-- What a frame that a host port receives carries beside its contents (R320): its VLAN tag, whether its check sequence is
wrong, the CE mark of its IP header, and its bytes, of the longest where a message takes several frames. -/
structure Frame where
  vlan : Option (BitVec 12)
  fcsBad : Bool
  ce : Bool
  bytes : Nat := 64
  deriving DecidableEq, Repr

/-- The addresses of an IP packet; an IPv4 one is its mapped IPv6 one (R320). -/
structure Addrs where
  src : BitVec 128
  dst : BitVec 128
  deriving DecidableEq, Repr

/-- An operand that a frame of a host port brings, and the frame (R320). -/
structure Framed (α : Type) where
  val : α
  f : Frame
  deriving DecidableEq, Repr

/-- An operand that one of the two planes' copies brings, and whether the copy fails its check (R268). -/
structure Copied (α : Type) where
  val : α
  bad : Bool
  deriving DecidableEq, Repr


/-- A time in ns at a controller, and how much of it passed in a refresh window (R196, R203). -/
structure Latency where
  ns : Nat
  waitNs : Nat
  deriving DecidableEq, Repr

/-- An operand of a block of reads, and the longest time in ns at each controller that they reach (R196). -/
structure Slowed (α : Type) where
  val : α
  slow : List (Fin 64 × Nat)
  deriving DecidableEq, Repr

/-- A packet of the fabric (R291): the header flit and the data flits. -/
structure FabPkt where
  hdr : BitVec 512
  data : List (BitVec 512)
  deriving DecidableEq, Repr

/-- A packet that asks for memory, and the time in ns at the controller that its access takes here (R196, R303). -/
structure Timed where
  pkt : FabPkt
  ns : Nat
  deriving DecidableEq, Repr

/-- A PTP message's clock domain and its seconds (R326). -/
structure PtpTime where
  domain : Byte
  sec : BitVec 48
  deriving DecidableEq, Repr

/-- An ICMP echo request: the address it asks and its data (R320). -/
structure Echo where
  target : BitVec 128
  data : List Byte
  deriving DecidableEq, Repr

/-- A signed envelope (R408), header fields and body. -/
structure Envelope where
  magic : BitVec 32
  format : Half
  kind : Byte
  version : Word
  rollback : Byte
  bodyLen : DWord
  reservedZero : Bool
  digest : BitVec 256
  signature : BitVec 512
  signerKey : BitVec 512
  body : List Byte
  deriving DecidableEq, Repr

/-- What the configuration records of R435 hold once read: each field from its home chapter, with the default of
that chapter where the record is absent. The spec gives the records' headers and not the bytes of their bodies. -/
structure Cfg where
  -- IDENTITY (R295, R320)
  feid : BitVec 24 := 0
  macs : List (BitVec 48) := []
  /-- port, address and its VLAN ID (R320); an IPv4 address is its mapped IPv6 one -/
  ips : List (Nat × BitVec 128 × Option (BitVec 12)) := []
  /-- the PTP domain (R326) -/
  ptpDomain : Byte := 0
  -- SITE_PROFILE (R389)
  rampUp : Nat := 3000
  rampDown : Nat := 3000
  floorPct : Nat := 85
  floorWindow : Nat := 60
  floorHold : Nat := 60
  levelBand : Nat := 500
  loans : Bool := false
  slot : Nat := 0
  slotWidth : Nat := 5
  slotPeriod : Nat := 300
  deferMaxMs : Nat := 100
  cap : Nat := 30000
  capMax : Nat := 32000
  -- ROUTE_TABLE (R296)
  routes : List (Nat × BitVec 128) := []
  -- CLOCK_PLAN (R231, R245)
  primary : Nat := 0
  tlanePort : Nat := 0
  tlaneLane : Nat := 0
  syncePort : Nat := 0
  synceLane : Nat := 0
  phaseLimit : Nat := 10
  bellN : Nat := 160
  -- DOMAIN (R311, R395)
  domain : Bool := false
  domainId : Half := 0
  root : Bool := false
  level : Nat := 0
  levels : Nat := 1
  pathMetres : Nat := 0
  parentPort : Nat := 0
  childMask : DWord := 0
  guardG : Nat := 0
  partners : List (BitVec 24) := []
  -- HOST_PORTS (R320, R322, R326)
  mgmtAllowed : BitVec 4 := 0
  /-- prefixes and their lengths; an IPv4 address is its mapped IPv6 one -/
  mgmtPrefixes : List (BitVec 128 × Nat) := []
  hpEnable : BitVec 4 := 15
  hpPolarity : List Byte := []
  ptpPort : Nat := 0
  ptpBackup : Nat := 1
  pfcPrio : Option Nat := none
  -- MEMORY (R195, R200)
  memBounded : Bool := true
  scrubHours : Nat := 24
  ceRowLimit : Nat := 8
  -- CORE (R74)
  ceLimit : Nat := 16
  -- GUEST_SITE (R420, R425, R426, R428), by site
  gsClasses : List (Nat × BitVec 5) := []
  gsRate : List (Nat × DWord) := []
  gsAnchors : List (Nat × BitVec 256) := []
  gsExpected : List (Nat × Byte × BitVec 256) := []
  gsReattestHours : List (Nat × Nat) := []
  /-- rail voltages in mV (R21) -/
  gsMv : List (Nat × Nat) := []
  -- PORT_EXPECT (R435)
  portExpect : DWord := 0
  deriving DecidableEq, Repr

/-- A device's directory (R434): its fields, the reserved bytes 7 and 16 to 59, and whether bytes 64 and above are erased. -/
structure Directory where
  magic : BitVec 32
  format : BitVec 16
  device : BitVec 8
  rsv7 : BitVec 8
  imageLen : BitVec 64
  rsv16 : BitVec 352
  crc : BitVec 32
  erasedAbove : Bool
  deriving DecidableEq, Repr

/-- A store image: a firmware and a configuration envelope (R408), the directory before it (R434),
and what the configuration records of the body hold (R435). -/
structure StoreImage where
  dir : Directory
  fw : Envelope
  cfg : Envelope
  content : Cfg
  deriving DecidableEq, Repr

/-- What comes of a PLDM firmware update over MCTP (R412, R413): the request that starts it, or the image transferred, to be
verified, written and activated; or its end without one. -/
inductive PldmUpdate where
  | request
  | image (img : StoreImage)
  | cancel
  deriving DecidableEq, Repr

/-- One parish's telemetry (R373): rail current (0.1 A) and voltage (mV), its four sensors (0.1 degree), the least slack
of its margin sentinels (ps), its beat rate (Mbeat/s), its activity. -/
structure ParishTel where
  parish : Fin 78
  deciA : Half
  mv : Half
  temps : Vector Half 4
  slackPs : Half
  rate : Half
  /-- matrix, SRAM and link activity counts -/
  activity : Word × Word × Word := (0, 0, 0)
  deriving DecidableEq, Repr

/-- One set of telemetry (R373): what the reeve reads at a 10 microsecond step. -/
structure Telemetry where
  inputW : Nat
  inputMv : Nat
  inputDeciA : Nat
  /-- measured power of hub, stacks, optics, guests and regulator loss -/
  overheadW : Nat
  /-- power the running runs' grants and the hub would draw without ballast (R390) -/
  demandW : Nat
  /-- power of one parish at quota 256 (the activity model of R401) -/
  parishW : Nat
  /-- the mean input power, net of loans, over FLOOR_WINDOW (R390, R398) -/
  meanW : Nat
  parishes : List ParishTel
  /-- stack temperatures in 0.1 degree -/
  stackTemps : List (Fin 64 × Half)
  /-- optical engines by port: supply current in mA, laser temperature in 0.1 degree -/
  engines : List (Fin 64 × Half × Half)
  /-- regulators by rail, the second of two marked: output and input current in 0.1 A, temperature in 0.1 degree, fault flag -/
  regulators : List (Fin 112 × Bool × Half × Half × Half × Bool)
  /-- inlet and outlet of the top and the bottom cold plate, 0.1 degree -/
  plates : Vector Half 4
  energyUj : Nat
  /-- energy by the activity model of R401 before its scale: by allotment its own and the ballast in its parishes, all
  ballast, and what no allotment accounts for, in microjoules -/
  est : List (Fin 16 × Nat × Nat)
  ballastUj : Nat
  unattrUj : Nat
  deriving DecidableEq, Repr

/-- The source monitor's reading of one window (R232): ratios in ppm to REF, or to MON where REF has failed or fails in the window
(R235), none where the source has no edge; and REF's ratio to MON. -/
structure MonObs where
  tlane : Option Int
  synce : Option Int
  muxout : Option Int
  refVsMon : Option Int
  /-- a pulse shorter than 2.4 ns resulted from a forced switch (R234) -/
  shortPulse : Bool
  deriving DecidableEq, Repr

/-- An image of the module's answer to a host read: none where the RDMA READ failed. -/
abbrev HostData := Option (List Byte)

/-- The commands, in the order of the spec's table. -/
inductive Instr where
  -- board, power, start (R22 to R35, R440 to R450)
  | powerEnRise
  | powerEnFall
  | resetNFall
  | resetNRise (o : StartObs)
  | resetReleaseImplied (o : StartObs)
  | startupSlotWait (o : StartObs)
  | warmN
  | warmRestart (o : StartObs)
  | undervoltageLockout
  | hubSectorLost (h : Fin 16) (cause : BitVec 1)
  | escapeTableLoad
  | railFault (rail : Fin 112) (o : RailObs)
  | thermalTrip (stack : Bool) (unit : Fin 78) (deciC : BitVec 16)
  -- scalar ALU (R47)
  | add (p : Pos) (f : FmtR)
  | sub (p : Pos) (f : FmtR)
  | and (p : Pos) (f : FmtR)
  | or (p : Pos) (f : FmtR)
  | xor (p : Pos) (f : FmtR)
  | sll (p : Pos) (f : FmtR)
  | srl (p : Pos) (f : FmtR)
  | sra (p : Pos) (f : FmtR)
  | slt (p : Pos) (f : FmtR)
  | sltu (p : Pos) (f : FmtR)
  | min (p : Pos) (f : FmtR)
  | max (p : Pos) (f : FmtR)
  | mul (p : Pos) (f : FmtR)
  | mulh (p : Pos) (f : FmtR)
  | mulhu (p : Pos) (f : FmtR)
  | div (p : Pos) (f : FmtR)
  | divu (p : Pos) (f : FmtR)
  | rem (p : Pos) (f : FmtR)
  | remu (p : Pos) (f : FmtR)
  | addi (p : Pos) (f : FmtI)
  | slti (p : Pos) (f : FmtI)
  | andi (p : Pos) (f : FmtI)
  | ori (p : Pos) (f : FmtI)
  | xori (p : Pos) (f : FmtI)
  | slli (p : Pos) (f : FmtI)
  | srli (p : Pos) (f : FmtI)
  | srai (p : Pos) (f : FmtI)
  | luh (p : Pos) (f : FmtU)
  | llo (p : Pos) (f : FmtU)
  | lw (p : Pos) (f : FmtI)
  | sw (p : Pos) (f : FmtI)
  | lh (p : Pos) (f : FmtI)
  | lhu (p : Pos) (f : FmtI)
  | sh (p : Pos) (f : FmtI)
  -- branches and system (R47, R48)
  | branchEq (p : Pos) (f : FmtB)
  | branchNe (p : Pos) (f : FmtB)
  | branchLt (p : Pos) (f : FmtB)
  | branchGe (p : Pos) (f : FmtB)
  | branchLtu (p : Pos) (f : FmtB)
  | branchGeu (p : Pos) (f : FmtB)
  | loop (p : Pos) (f : FmtB)
  | jal (p : Pos) (f : FmtU) (h : BitVec 1)
  | jalr (p : Pos) (f : FmtR)
  | nop (p : Pos) (f : FmtR)
  | endIssue (p : Pos) (f : FmtR)
  | endRetire (p : Pos)
  | fence (p : Pos) (f : FmtR)
  | fenceDone (p : Pos)
  | csrr (p : Pos) (f : FmtR)
  | csrw (p : Pos) (f : FmtR)
  | bellwait (p : Pos) (f : FmtR)
  -- predicates (R52)
  | pcmpEq (p : Pos) (f : FmtR)
  | pcmpNe (p : Pos) (f : FmtR)
  | pcmpLt (p : Pos) (f : FmtR)
  | pcmpGe (p : Pos) (f : FmtR)
  | pcmpLtu (p : Pos) (f : FmtR)
  | pcmpGeu (p : Pos) (f : FmtR)
  | pset (p : Pos) (f : FmtR)
  | pand (p : Pos) (f : FmtR)
  | por (p : Pos) (f : FmtR)
  | pxor (p : Pos) (f : FmtR)
  | pnot (p : Pos) (f : FmtR)
  -- vector (R54 to R57)
  | vadd (p : Pos) (f : FmtV)
  | vsub (p : Pos) (f : FmtV)
  | vmul (p : Pos) (f : FmtV)
  | vfma (p : Pos) (f : FmtV)
  | vmax (p : Pos) (f : FmtV)
  | vmin (p : Pos) (f : FmtV)
  | vabs (p : Pos) (f : FmtV)
  | vexp2 (p : Pos) (f : FmtV)
  | vrcp (p : Pos) (f : FmtV)
  | vrsqrt (p : Pos) (f : FmtV)
  | vredsum (p : Pos) (f : FmtV)
  | vredmax (p : Pos) (f : FmtV)
  | vcmp (p : Pos) (f : FmtV)
  | vsel (p : Pos) (f : FmtV)
  | vcvt (p : Pos) (f : FmtV)
  | viadd (p : Pos) (f : FmtV)
  | vand (p : Pos) (f : FmtV)
  | vor (p : Pos) (f : FmtV)
  | vxor (p : Pos) (f : FmtV)
  | vsrl (p : Pos) (f : FmtV)
  | vld (p : Pos) (f : FmtVM)
  | vst (p : Pos) (f : FmtVM)
  | vbcast (p : Pos) (f : FmtVM)
  | vins (p : Pos) (f : FmtVM)
  | vext (p : Pos) (f : FmtVM)
  -- matrix engine (R58 to R62)
  | wld (p : Pos) (f : FmtM)
  | mma (p : Pos) (f : FmtM)
  | accz (p : Pos) (f : FmtM)
  | accrd (p : Pos) (f : FmtM)
  | accwr (p : Pos) (f : FmtM)
  | msync (p : Pos) (f : FmtM)
  | msyncDone (p : Pos)
  | matrixCommandStart (p : Pos) (pipe : Pipe)
  -- queues (R63, R64)
  | qpopV (p : Pos) (f : FmtQ)
  | qpushV (p : Pos) (f : FmtQ)
  | qpopS (p : Pos) (f : FmtQ)
  | qpushS (p : Pos) (f : FmtQ)
  | qvoid (p : Pos) (f : FmtQ)
  | qlast (p : Pos) (f : FmtQ)
  | qstat (p : Pos) (f : FmtQ)
  | queueWaitEnd (p : Pos)
  -- tallies (R65, R257 to R261)
  | tinc (p : Pos) (f : FmtT)
  | tdec (p : Pos) (f : FmtT)
  | twait (p : Pos) (f : FmtT)
  | twaitd (p : Pos) (f : FmtT)
  | tread (p : Pos) (f : FmtT)
  | tallyOperationArrival (p : Pos) (carter : Bool) (lvl : Copied (BitVec 2))
  | tallyAnswer (p : Pos)
  -- DMA launch (R66)
  | dld (p : Pos) (f : FmtD)
  | dst (p : Pos) (f : FmtD)
  | dstat (p : Pos) (f : FmtD)
  -- top-k, sampling, random (R67 to R70)
  | tkinit (p : Pos) (f : FmtV)
  | tkpush (p : Pos) (f : FmtV)
  | tkrd (p : Pos) (f : FmtV)
  | tkrdi (p : Pos) (f : FmtV)
  | sample (p : Pos) (f : FmtV)
  | rand (p : Pos) (f : FmtV)
  -- core SRAM and swap (R74, R79)
  | sramCeWriteback (p : Pos) (addr : BitVec 17)
  | bankSwap (p : Pos)
  -- mesh (R110 to R136)
  | tokenTransfer (p : Pos) (out : Dir) (bad : Bool)
  | slotAdvance (p : Pos)
  | sum (p : Pos)
  | refill (p : Pos) (q : Fin 4)
  | deadmap (path : RegPath) (par : Fin 78) (col : Fin 80) (hi : Bool) (value : DWord)
  | fallow (path : RegPath) (par : Fin 78) (hi : Bool) (value : DWord)
  | ctrclr (path : RegPath) (offset : BitVec 24) (value : DWord)
  -- sections, bell (R147 to R175, R245 to R256)
  | sectionLoaderFill (a : Fin 16)
  | bellTick (shortPulse : Bool)
  | bellWave (par : Fin 78) (low : Copied (BitVec 8))
  | sectionOverrun (a : Fin 16)
  | graceExpiry (a : Fin 16)
  | coreLost (p : Pos)
  | quiescenceCheck (a : Fin 16)
  | signatureCompare (a : Slowed (Fin 16))
  | riserCalibration (par : Fin 78) (dA : Half) (dB : Half) (skew : Half)
  | deadlock (a : Fin 16)
  | watchSnapshotDone (a : Fin 16)
  | crierPlaneDown (plane : BitVec 1) (sector : Bool) (unit : Fin 78) (link : Half)
  | hubTally (path : RegPath) (idx : BitVec 12) (value : DWord)
  | parishTally (path : RegPath) (par : Fin 78) (idx : Byte) (value : DWord)
  -- wells, memory, carter (R178 to R225)
  | read (id : Slowed Nat)
  | write (id : Slowed Nat)
  | memoryAccess (id : Nat) (time : Latency)
  | readResp (id : Nat)
  | writeAck (id : Nat)
  | sramWrite (p : Pos) (loader : Bool) (k : Slowed Nat)
  | sramRead (id : Nat)
  | sramReadResp (id : Nat)
  | sramWriteAck (id : Nat)
  | refreshWindow (group : Fin 8) (second : Bool)
  | scrubRead (stack : Fin 64)
  | ceHourlyRoll
  | stackOffline (stack : Fin 64) (cause : Fin 3)
  | descriptorStart (p : Pos) (ch : Chan)
  | carterRequest (p : Pos) (ch : Chan)
  | descriptorComplete (p : Pos) (ch : Chan)
  | resume (path : RegPath) (par : Fin 78)
  | skip (path : RegPath) (par : Fin 78) (fill : BitVec 2)
  | abort (path : RegPath) (par : Fin 78) (all : Bool)
  | dmaDrainTimeout (p : Pos)
  -- clocks (R226 to R244)
  | monitorWindow (o : MonObs)
  | edgeGap (src : Src) (shortPulse : Bool)
  | primarySwitch
  | clkSelect (path : RegPath) (value : DWord)
  | muxSwitchComplete
  | muxStuck (shortPulse : Bool)
  | fmeterStart (path : RegPath) (value : DWord)
  | fmeterDone (count : BitVec 48)
  | fmeterTimeout
  -- fabric (R280 to R319)
  | marker (count : DWord) (period : BitVec 18) (domainId : Half) (level : BitVec 3) (oos : Bool) (atPeriod atPs : Nat)
  | markerLost
  | markerSend
  | codeword (port : Fin 64) (group : BitVec 1) (lseq : BitVec 10) (symErr : List (Fin 8 × Nat)) (ctrl flits : Nat)
  | ack (port : Fin 64) (group : BitVec 1) (lseq : BitVec 10)
  | nak (port : Fin 64) (group : BitVec 1) (lseq : BitVec 10)
  | credit (port : Fin 64) (vc : Fin 25) (n : Nat)
  | train (port : Fin 64) (o : TrainObs)
  | gfail (port : Fin 64) (lost : BitVec 1) (lseq : BitVec 10)
  | groupLost (port : Fin 64) (group : BitVec 1) (cause : BitVec 4)
  | portTraining (port : Fin 64)
  | trainingComplete (port : Fin 64) (o : TrainObs)
  | retrainTimer (port : Fin 64)
  | portCtl (path : RegPath) (port : Fin 64) (value : DWord)
  | portDrainTimeout (port : Fin 64)
  | fabricRead (port : Fin 64) (pkt : Timed)
  | fabricWrite (port : Fin 64) (pkt : Timed)
  | fabricReadResp (port : Fin 64) (pkt : FabPkt)
  | fabricWriteAck (port : Fin 64) (pkt : FabPkt)
  | notice (port : Fin 64) (pkt : FabPkt)
  | transferTimeout (id : Nat)
  | reduce (port : Fin 64) (pkt : Slowed FabPkt)
  | reductionTrigger (entry : Slowed (BitVec 12))
  | reductionStall (entry : BitVec 12)
  | reductionPoisonFill (entry : Slowed (BitVec 12))
  | noEntryTimeout (port : Slowed (Fin 64))
  | tallyInc (port : Option (Fin 64)) (pkt : FabPkt)
  | stretch (port : Fin 64) (pkt : FabPkt)
  | domain (port : Fin 64) (pkt : FabPkt)
  | routeCmdRead (path : RegPath)
  | routeCmdWrite (path : RegPath)
  -- sessions and commands (R320 to R371)
  | send (qp : Framed Nat) (msg : List Byte)
  | openSession (qp : Nat)
  | close (ses : BitVec 12)
  | allot (ses : BitVec 12) (wintab : HostData)
  | release (a : Fin 16)
  | load (a : Fin 16)
  | run (a : Fin 16)
  | halt (ses : BitVec 12)
  | status (ses : BitVec 12)
  | stats (ses : BitVec 12)
  | ledgerRead (ses : BitVec 12)
  | setOp (ses : BitVec 12)
  | contextSave (a : Fin 16)
  | contextRestore (a : Fin 16)
  | resetFunction (a : Fin 16)
  | routeAmend (ses : Slowed (BitVec 12)) (a : Option (Fin 16))
  | fwStage (ses : BitVec 12) (img : Option StoreImage)
  | queuedCommandStart (a : Fin 16)
  | cmReq (port : Framed (Fin 4)) (qp : Nat) (mtu : Nat) (ip : Addrs)
  | rdmaWrite (qp : Framed Nat) (rkey : Word) (va : Nat) (data : List Byte)
  | rdmaRead (qp : Framed Nat) (rkey : Word) (va : Nat) (len : Nat)
  | ringConsumerPoll (ses : BitVec 12) (ring : Fin 18)
  | qpError (qp : Nat)
  | sessionExpired (ses : BitVec 12)
  | hostPortDown (port : Fin 4)
  | hpCtl (path : RegPath) (port : Fin 4) (value : DWord)
  | ptp (port : Framed (Fin 4)) (time : PtpTime) (ns : BitVec 30) (offset : Word)
  | hostTodLost
  | taiSecond
  | todSec (path : RegPath)
  | cnp (qp : Framed Nat)
  | arp (port : Framed (Fin 4)) (target : Word)
  | neighbourDiscovery (port : Framed (Fin 4)) (target : BitVec 128)
  | icmpEcho (port : Framed (Fin 4)) (echo : Echo)
  -- power (R372 to R405)
  | reeveTelemetry (o : Telemetry)
  | deferMaxExpiry (a : Fin 16)
  | floorHoldExpiry
  | droop (par : Fin 78) (ns : Nat)
  | droopEnd (par : Fin 78)
  | parishThrottle (par : Fin 78) (deciC : Half)
  | throttleStep (par : Fin 78) (hot : Bool)
  | stackThrottle (stack : Fin 64) (deciC : Half)
  | reeveFailover
  | loanRequest (port : Fin 64) (pkt : FabPkt)
  | loanCollection
  | loanGrant (port : Fin 64) (pkt : FabPkt)
  | loanDecline (port : Fin 64) (pkt : FabPkt)
  | loanExpiry (k : Fin 16)
  | energyRescale
  | cap (path : RegPath) (value : DWord)
  | capMax (path : RegPath) (value : DWord)
  | railCtl (path : RegPath) (par : Fin 78) (value : DWord)
  -- SPDM and PLDM (R406 to R415, R504)
  | getVersion
  | getCapabilities (version : Byte)
  | negotiateAlgorithms (asym hash meas : Word)
  | getDigests
  | getCertificate (slot : BitVec 4) (off len : Half)
  | challenge (slot : BitVec 4) (nonce : BitVec 256)
  | getMeasurements (index : Byte) (nonce : BitVec 256)
  | getTid
  | getPldmVersion (typ : Byte)
  | getPldmTypes
  | getPldmCommands (typ : Byte)
  | pldmSensorRead (id : Half)
  | pldmFirmwareUpdate (u : PldmUpdate)
  | pldmShutdown (slack : List (Fin 78 × Nat)) (appendOk : Bool × Bool)
  -- guests (R418 to R432)
  | guestPacket (site : Fin 4) (pkt : Slowed FabPkt)
  | guestTraining (site : Fin 4) (mods : BitVec 4)
  | guestTrainingTimeout (site : Fin 4)
  | guestSpdmResponse (site : Fin 4) (ans : GuestAnswer)
  | guestAttestTimeout (site : Fin 4)
  | reattestPeriodExpiry (site : Fin 4)
  | gsCtlFence (path : RegPath) (site : Fin 4)
  | gsCtlReattest (path : RegPath) (site : Fin 4)
  | fenceDrainTimeout (site : Fin 4)
  | ruleCmdRead (path : RegPath) (site : Fin 4)
  | ruleCmdWrite (path : RegPath) (site : Fin 4)
  | guestNoResponse (id : Nat)
  | guestLost (site : Fin 4) (cause : BitVec 2)
  -- records, fuses, restart requests (R437 to R455)
  | wearAppend (slack : List (Fin 78 × Nat)) (okA okB : Bool)
  | appendSite (path : RegPath)
  | revokeFwKey (path : RegPath) (key : BitVec 4)
  | programOwner (path : RegPath) (slot : BitVec 4)
  | revokeOwner (path : RegPath) (slot : BitVec 4)
  | fuseProgrammingDone (ok : Bool)
  | bootSelect (path : RegPath) (value : DWord)
  | warmReq (path : RegPath)
  | shutdown (path : RegPath) (slack : List (Fin 78 × Nat)) (appendOk : Bool × Bool)
  -- fault steward, registers (R466 to R505)
  | softRepair (k : Nat)
  | suspectHold (path : RegPath) (hold : Bool)
  | suspectClear (path : RegPath)
  | stewardRestart (k : Fin 8) (inTenMinutes : Nat)
  | unlock (path : RegPath) (block : BitVec 24) (value : DWord)
  | registerWrite (path : RegPath) (offset : BitVec 24) (value : DWord)
  | postedWriteDone (block : BitVec 24)
  -- later rows
  | hostLinkUp (port : Fin 4)
  | regulatorLoss (rail : Fin 112) (second : Bool)
  | ackIntervalExpiry (port : Fin 64) (group : BitVec 1)
  | reduceOutPortTimeout (port : Fin 64)
  | pfcPause (port : Framed (Fin 4)) (prio : BitVec 3)
  | rdmaReadResponse (ses : Framed (BitVec 12)) (ring : Fin 18) (consumer : DWord)
  | mctpEventRead
  deriving DecidableEq, Repr

end Sys2Proof
end

