-- ==== Sys2Proof/Decode.lean ====
section
/-! DEFINITION. Decoding a word of the table. The table of operations and events gives no row any bits: every row's
"fields" is empty. No word spells a command, and the decoder refuses every one. (The instruction words of R44 and R45
are operand forms of the core's commands: they are written out in Machine/Operands.lean.) -/

namespace Sys2Proof

/-- The command a word of `nbits` bits spells by the table's bits: none, since no row has bits. -/
def decodeTableWord (_nbits _w : Nat) : Option Instr := none

end Sys2Proof
end

