-- ==== Sys2Proof/Config.lean ====
section
/-! DEFINITION. What the spec leaves to the implementation or to chance: values without a body, so that nothing can
be proved of any one of them. Each is named in the assumption log. -/

namespace Sys2Proof.Config

/-- FREE VALUE (log entry 2). The k-th value the module draws: tokens, keys, nonces and other values whose number
the spec does not state. -/
opaque freeValue : Nat → BitVec 512

/-- FREE VALUE (log entry 9). A byte of memory whose contents the spec calls lost or undefined, by the loss that
made it so and the byte's address. -/
opaque lostByte : Nat → Nat → Byte

/-- SM3 over a byte string (R406, R408, R426): a standard the spec names and does not restate. -/
opaque sm3 : List Byte → BitVec 256

/-- SM2 verification of a signature over a digest under a public key (R408, R409). -/
opaque sm2Verify : (key : BitVec 512) → (digest : BitVec 256) → (signature : BitVec 512) → Bool

/-- SM2 signature of the module's device key over a digest and the value drawn for it (R414, R415). -/
opaque sm2Sign : (digest : BitVec 256) → (draw : BitVec 512) → BitVec 512

/-- The four firmware public keys of Onarel the boot ROM holds (R410). -/
opaque firmwareKey : Fin 4 → BitVec 512

/-- The device certificate chain of SPDM slot 0 (R407). -/
opaque certificateChain : List Byte

/-- The device identity of the fuses: serial, stepping and date registers of R491, by offset. -/
opaque identity : Nat → DWord

/-- The digest of a measurement block of the module (R415), by block index. -/
opaque measurement : Nat → BitVec 256

/-- FREE VALUE (log entry 2). What the receiver of a lane reads as optical power, by port and lane and by tick (R317). -/
opaque rxPower : Nat → Nat → BitVec 16

/-- The voltage of the JEDEC supply of a MEM-SGn rail, in mV (R21). -/
opaque stackMv : Nat

/-- The voltage of a guest rail in mV above 700 where the configuration store gives none (R21: 700 to 950 mV). -/
opaque guestMv : Nat → Fin 251

/-- FREE VALUE (log entry 20). The flits a channel's receive buffer holds, which the spec does not give: a channel's credits
when they are full (R293, R475). -/
opaque linkCredits : Nat → Nat

/-- FREE VALUE (log entry 66). The body bytes of a record of a type with some entries, whose layout the spec does not give
(R436). -/
opaque recordLength : Nat → Nat → Nat

/-- The router within its sector (0 to 15, by row and then column) to which an attachment of R447 that is neither a
well nor a memory controller is wired, by its place in the attachment table. -/
opaque attachment : Nat → BitVec 4

end Sys2Proof.Config
end

