-- ==== Sys2Proof/Machine/Geometry.lean ====
section
/-! DEFINITION. Where things are: parishes and their rows (R14), core IDs (R15, R50), wells and their sectors (R15,
R17), stacks (R18), ports and guest sites of the sectors (R19). Lengths in micrometres. -/

namespace Sys2Proof.Machine

/-- The parish after the last of each parish row (R14). -/
def rowEnds : List Nat := [4, 12, 22, 33, 45, 56, 66, 74, 78]

/-- The first parish of a parish row (R14). -/
def rowFirst (r : Nat) : Nat := if r = 0 then 0 else (rowEnds[r - 1]?).getD 78

/-- The number of parishes of a parish row, n_k (R14). -/
def rowCount (k : Nat) : Nat := rowFirst (k + 1) - rowFirst k

/-- The parish row of a parish (R14). -/
def parishRow (p : Nat) : Nat :=
  min 8 (rowEnds.countP fun e => decide (e ≤ p))

/-- Logical x of a column of a parish (R15). -/
def logicalX (parish col : Nat) : Nat :=
  let k := parishRow parish
  40 * (12 - rowCount k) + 80 * (parish - rowFirst k) + col

/-- Logical y of a logical row of a parish (R15). -/
def logicalY (parish row : Nat) : Nat := 96 * parishRow parish + row

/-- The position of a core ID, if one has it (R15). -/
def posOfId (n : Nat) : Option Pos :=
  let x := n % 1024
  let y := n / 1024
  let k := y / 96
  let start := 40 * (12 - rowCount k)
  if k < 9 ∧ start ≤ x ∧ x < start + 80 * rowCount k then
    if h : rowFirst k + (x - start) / 80 < 78 then
      some { parish := ⟨rowFirst k + (x - start) / 80, h⟩
             col := ⟨(x - start) % 80, Nat.mod_lt _ (by decide)⟩
             row := ⟨y % 96, Nat.mod_lt _ (by decide)⟩ }
    else none
  else none

/-- The hub sector of a point, x east and y north in micrometres (R16). -/
def sectorOf (x y : Int) : Nat :=
  let c := if x < -48000 then 0 else if x < 0 then 1 else if x < 48000 then 2 else 3
  let r := if y > 48000 then 0 else if y > 0 then 1 else if y > -48000 then 2 else 3
  4 * r + c

/-- The sector that serves a well of a parish (R15, R17). -/
def wellSector (parish : Nat) (w : Nat × Nat) : Nat :=
  let x : Int := -144000 + 300 * (logicalX parish 0 : Int) + 1500 + 3000 * (w.1 : Int)
  let y : Int := 135000 - 30000 * (parishRow parish : Int) - 1875 - 3750 * (w.2 : Int)
  sectorOf x y

/-- The sector above a stack (R18). -/
def stackSector (m : Nat) : Nat := 4 * (m / 8 / 2) + m % 8 / 2

/-- The sectors along the rim of the plate, clockwise from port 0, and the port after the last of each (R19). -/
def rimSectors : List Nat := [0, 1, 2, 3, 7, 11, 15, 14, 13, 12, 8, 4]
def rimEnds : List Nat := [2, 8, 14, 18, 24, 30, 34, 40, 46, 50, 56, 62]

/-- The sector of a fabric port (R19): ports 62 and 63 close the round in sector 0. -/
def portSector (p : Nat) : Nat :=
  (rimSectors[rimEnds.countP fun e => decide (e ≤ p)]?).getD 0

/-- The sector of a guest site (R19). -/
def siteSector : Nat → Nat
  | 0 => 1 | 1 => 7 | 2 => 14 | _ => 8

/-- The sector of a host port's MAC (R19). -/
def hostPortSector (h : Nat) : Nat := if h < 2 then 0 else 3

/-- The positions of a parish, column by column. -/
def parishPositions (p : Fin 78) : List Pos :=
  (List.finRange 80).flatMap fun c => (List.finRange 96).map fun r => { parish := p, col := c, row := r }

end Sys2Proof.Machine

namespace Sys2Proof

/-- The core ID of a position: (y << 10) | x (R50). -/
def Pos.id (p : Pos) : Nat := Machine.logicalY p.parish p.row * 1024 + Machine.logicalX p.parish p.col

/-- The well that serves a position: (i, j) (R15). -/
def Pos.well (p : Pos) : Nat × Nat := (p.col / 10, p.row / 12)

end Sys2Proof
end

