-- ==== Sys2Proof/Machine/State.lean ====
section
/-! DEFINITION. The state of the KW1 as plain data: everything the spec gives the module, unit by unit, the reasons
for which a step stops, and the state at reset. Units the device has many of are held in sparse tables. -/

namespace Sys2Proof.Machine

/-- The spec gives the module no condition in which it stops as a machine: every fault of R457 is a next state with
its event. No command raises one of these. -/
inductive Fault where
  deriving DecidableEq, Repr

/-- A command without a meaning. -/
inductive Refusal where
  /-- raised by the dispatch for a row that has no meaning yet; safe -/
  | notModelled (mnemonic : String)
  deriving DecidableEq, Repr

/-! ### Tokens, banks, the core -/

/-- A token (R109), also an entry of a queue (R63). -/
structure Token where
  data : BitVec 128
  colour : BitVec 2
  void : Bool
  poison : Bool
  last : Bool
  deriving DecidableEq, Repr

/-- States of a configuration bank (R78). -/
inductive BankState where
  | empty | filling | complete | active
  deriving DecidableEq, Repr

/-- A configuration bank (R76): 8 KiB as cells that read 0 where unlisted, the blocks of 64 bytes that have
arrived, and the words with an uncorrectable error (R80). -/
structure Bank where
  st : BankState := .empty
  data : Tab Byte := []
  got : BitVec 128 := 0
  /-- blocks the section loader could not read (R460) -/
  unread : BitVec 128 := 0
  ue : List Nat := []
  /-- words read after an uncorrectable error: they carry the poison pattern (R75) -/
  poison : List Nat := []
  /-- the run it was filled for, by its place among the program's fills; complete only after its launch (R160) -/
  run : Nat := 0
  late : Bool := false
  deriving DecidableEq, Repr

/-- A weight buffer (R42, R59): the format code and sparse flag it was loaded with, and the block's bytes. -/
structure WBuf where
  fmt : BitVec 4
  sparse : Bool
  block : List Byte
  poison : Bool
  deriving DecidableEq, Repr

/-- The top-k unit (R42, R68): the kept entries, best first, as value and index. -/
structure TopK where
  k : Nat := 64
  smallest : Bool := false
  counter : Word := 0
  kept : List (Word × Word) := []
  poison : Bool := false
  deriving DecidableEq, Repr

/-- A matrix command as issued (R58, R59): addresses are captured with it. `discard` is an MMA from a queue that
was predicated off (R53). -/
inductive MCmd where
  | wld (buf : BitVec 1) (fmt : BitVec 4) (sparse : Bool) (addr : Word)
  | mma (acc : BitVec 2) (buf : BitVec 1) (rows : Nat) (src : BitVec 3) (addr pitch : Word) (discard : Bool)
  | accz (acc : BitVec 2)
  | accrd (acc : BitVec 2) (pair : BitVec 3) (vd : BitVec 4)
  | accwr (acc : BitVec 2) (pair : BitVec 3) (data : VReg) (poison : BitVec 4)
  deriving DecidableEq, Repr

/-- An MMA that has started: the queue entries it needs and those taken so far (R61), and how many of its rows have issued
(R374). -/
structure MRun where
  cmd : MCmd
  need : Nat := 0
  got : List Token := []
  done : Nat := 0
  deriving DecidableEq, Repr

/-- A carter descriptor (R209). -/
structure Desc where
  rbase : Nat
  step0 : Word
  step1 : Word
  step2 : Word
  cnt0 : Nat
  cnt1 : Nat
  cnt2 : Nat
  blen : Nat
  lbase : Nat
  lpitch : Nat
  rmode : BitVec 3
  factor : Nat
  esize : BitVec 2
  tbind : Bool
  tlvl : BitVec 2
  tidx : BitVec 12
  tn : Nat
  statEn : Bool
  statAddr : Nat
  deriving DecidableEq, Repr

/-- One request of a walk (R213): the burst number in walk order, the byte offset within the burst, the length. -/
structure Piece where
  burst : Nat
  off : Nat
  len : Nat
  deriving DecidableEq, Repr

/-- A descriptor under way: how far its walk has issued, the stream bytes arrived or settled and not yet written
(value, or none to keep the local byte; poison; whether it arrived), its books, whether a request of it was aborted,
and whether ABORT has cut its walk short (R217, R221). -/
structure DescRun where
  d : Desc
  serial : Nat
  next : Nat := 0
  nextOff : Nat := 0
  redo : List Piece := []
  outstanding : List Piece := []
  buf : Tab (Option Byte × Bool × Bool) := []
  skips : Nat := 0
  bytes : Nat := 0
  poison : Bool := false
  aborted : Bool := false
  cut : Bool := false
  deriving DecidableEq, Repr

/-- The latched halt point of a channel (R219, R220). -/
structure Latch where
  serial : Nat
  piece : Piece
  status : BitVec 4
  dpa : Nat
  deriving DecidableEq, Repr

/-- A carter channel (R205, R219, R180). -/
structure Channel where
  running : List DescRun := []
  waiting : List Desc := []
  serial : Nat := 0
  halted : Bool := false
  failed : List Latch := []
  latch : Option Latch := none
  credits : Nat := 8
  deriving DecidableEq, Repr

/-- The queue operations that push (R63). -/
inductive PushOp where
  | v | s | void | last
  deriving DecidableEq, Repr

/-- The tally operations (R258). -/
inductive TallyOp where
  | inc | dec | waitGe | waitGeDec | readVal
  deriving DecidableEq, Repr

/-- What a core waits for, with the instruction that waits (R48, R58, R64, R65, R66). -/
inductive Wait where
  | none
  | pop (vec off : Bool) (f : FmtQ)
  | push (op : PushOp) (off : Bool) (f : FmtQ)
  | tally (op : TallyOp) (f : FmtT)
  | answer (op : TallyOp) (f : FmtT) (value : Nat)
  | bell (target : Word)
  | fence
  | msync
  | matrixFull (c : MCmd)
  | carterFull (ch : Chan) (f : FmtD)
  deriving DecidableEq, Repr

/-- Whether and how a core issues (R48, R49, R79, R82). -/
inductive CoreMode where
  | noBank | running | ended | retired | halted
  deriving DecidableEq, Repr

/-- A core (R38 to R83): its registers, poison bits, queues, engines, banks and data SRAM. -/
structure Core where
  mode : CoreMode := .noBank
  pc : Nat := 0
  wait : Wait := .none
  s : Vector Word 32 := Vector.replicate 32 0
  p : Byte := 1
  v : Vector VReg 16 := Vector.replicate 16 0
  acc : Vector (Vector Word 128) 4 := Vector.replicate 4 (Vector.replicate 128 0)
  w : Vector (Option WBuf) 2 := Vector.replicate 2 Option.none
  t : Vector Half 16 := Vector.replicate 16 0
  tstart : Vector Half 16 := Vector.replicate 16 0
  topk : TopK := {}
  sp : Word := 0
  vp : Vector (BitVec 4) 16 := Vector.replicate 16 0
  accp : BitVec 4 := 0
  taskidx : Word := 0
  colour : BitVec 2 := 0
  secseq : Word := 0
  rngctr : Word := 0
  vstat : BitVec 4 := 0
  bellHi : Word := 0
  beats : BitVec 48 := 0
  beatsOvf : Bool := false
  beatsHi : Word := 0
  mq : List MCmd := []
  /-- beats of the tick's allowance that MMA rows have used (R374) -/
  rowBeats : Nat := 0
  mrun : Option MRun := Option.none
  load : Channel := {}
  store : Channel := {}
  /-- the channel whose turn at the CARTER endpoint is next is the store channel (R120) -/
  storeTurn : Bool := false
  /-- the drain of its channels is over: descriptors are held (R223) -/
  drained : Bool := false
  inq : Vector (List Token) 4 := Vector.replicate 4 []
  outq : Vector (List Token) 4 := Vector.replicate 4 []
  /-- elastic regions: the slot of the head entry and the entries held (R129) -/
  spill : Vector (Nat × Nat) 4 := Vector.replicate 4 (0, 0)
  qcfg : Vector (BitVec 128) 8 := Vector.replicate 8 0
  hold : Option (Nat × Token) := Option.none
  bankA : Bank := {}
  bankB : Bank := {}
  activeB : Bool := false
  nextFill : Nat := 0
  sram : Tab Byte := []
  sramInit : Nat := 0
  sramPoison : List Nat := []
  ue : List Nat := []
  ce : List Nat := []
  writeback : List Nat := []
  ceCount : Nat := 0
  ceRaised : Bool := false
  /-- the answers to direct-view accesses that wait to leave, oldest first (R120) -/
  answers : List Nat := []
  dead : Bool := false
  deriving DecidableEq, Repr

/-- A crossroads (R108 to R126): the current slot, the tokens moved per outbound port and taken per inbound port in
it, the inbound latches, and the tokens a SUM holds. Vectors are in port order N, E, S, W, Core. -/
structure Xroad where
  slot : Nat := 0
  moved : Vector Nat 5 := Vector.replicate 5 0
  taken : Vector Nat 5 := Vector.replicate 5 0
  latch : Vector (Option Token) 5 := Vector.replicate 5 none
  /-- those that have handed on or taken the token at each inbound port: outbound ports 0 to 4, SUM 5 (R113) -/
  done : Vector (List Nat) 5 := Vector.replicate 5 []
  sumOut : List Token := []
  sumDone : List Nat := []
  linkRaised : List Nat := []
  mixRaised : Bool := false
  /-- at a tap (R178, R179): by slot index the core whose tokens arrived last and the data tokens still due of a packet, and the
  answers that wait for a slot -/
  arrived : Tab Nat := []
  due : Tab Nat := []
  replies : List (BitVec 128) := []
  /-- the counters STAT[n] of the position (R142) that count happenings, not beats -/
  stat : Tab DWord := []
  deriving DecidableEq, Repr

/-! ### Parishes, tallies, requests -/

/-- A waiter at a tally's home (R261): the core, its operation and count. -/
structure Waiter where
  core : Pos
  op : TallyOp
  n : Nat
  deriving DecidableEq, Repr

/-- A tally operation on its way to its home (R260): source core and unit (control unit or carter), level, index. -/
structure TallyMsg where
  src : Pos
  carter : Bool
  lvl : BitVec 2
  idx : BitVec 12
  op : TallyOp
  n : Nat
  /-- its source's sequence number, by which a receiver knows the second copy (R268) -/
  seq : Byte := 0
  deriving DecidableEq, Repr

/-- A parish: its bell copy, supply, power, rates, tallies and crier planes. Registers of its block that have no
other home are in `State.regs`. -/
structure Parish where
  bell : DWord := 0
  railOn : Bool := false
  dark : Bool := false
  isolated : Bool := false
  tripped : Bool := false
  planeA : Bool := true
  planeB : Bool := true
  grant : Nat := 256
  /-- the grant the next bell tick applies (R373) -/
  nextGrant : Nat := 256
  throttle : Nat := 256
  droop : Bool := false
  droopTimes : List Nat := []
  /-- when the droop window ends, in nanoseconds (R383) -/
  droopEnd : Nat := 0
  /-- the grant applied so far in the tick, in quota nanoseconds, and up to which nanosecond; and that of the whole tick the last
  wave ended (R382) -/
  gSum : Nat := 0
  gSince : Nat := 0
  gPast : Nat := 0
  /-- the quota of ballast rows that the reeve has chosen, 0 for none (R393) -/
  ballast : Nat := 0
  trim : Int := 0
  opOfs : Int := 0
  suspectOfs : Nat := 0
  issueCap : Nat := 256
  /-- the issue cap as the last launch found it (R466) -/
  launchCap : Nat := 256
  rateNom : Nat := 0
  rateFloor : Nat := 0
  tallies : Tab Half := []
  waiters : Tab (List Waiter) := []
  fallowBase : BitVec 80 := 0
  /-- data-SRAM errors corrected in the parish's cores (R74) -/
  sramCe : Nat := 0
  /-- bell ticks for which it has been quiet (R272) -/
  quiet : Nat := 0
  deriving DecidableEq, Repr

/-- Where a carter's well request is (R178, R181). -/
inductive Stage where
  | toWell | atMem | atField | atGuest | atFabric | fieldResp | toCarter
  deriving DecidableEq, Repr

/-- A carter's well request or its response (R178): the requester, its descriptor and piece, the address, the data
and a poison bit for each byte, and STATUS. `target` is the core of a direct-view access. -/
structure Req where
  core : Pos
  ch : Chan
  serial : Nat
  piece : Piece
  addr : Nat
  stage : Stage
  status : BitVec 4 := 0
  data : List Byte := []
  poison : List Bool := []
  /-- a store's source carried POISON (R217) -/
  dirty : Bool := false
  target : Option Pos := none
  feid : BitVec 24 := 0
  window : Nat := 0
  site : Nat := 0
  lost : Bool := false
  deriving DecidableEq, Repr

/-! ### Allotments, programs and runs -/

/-- States of an allotment (R146). -/
inductive AState where
  | free | idle | loaded | running | halted
  deriving DecidableEq, Repr

/-- A section descriptor (R153). -/
structure Sect where
  secseq : Nat
  launch : Nat
  deadline : Nat
  grace : Nat
  opPref : Nat
  floor : Nat
  recheck : Bool
  third : Bool
  records : Nat
  recOfs : List Nat
  compl : List (Nat × Nat)
  outs : List (Nat × Nat × Nat)
  launch2 : Nat
  deadline2 : Nat
  launch3 : Nat
  deadline3 : Nat
  deriving DecidableEq, Repr

/-- A loaded program (R152). -/
structure Prog where
  planId : DWord
  dpa : Nat
  variants : Nat
  sects : List Sect
  deriving DecidableEq, Repr

/-- A run: the index of its section and its number, 1 to 3 (R147). -/
structure RunId where
  sect : Nat
  num : Nat
  deriving DecidableEq, Repr

/-- The reasons for which an allotment halts at the next tick (R82, R354, R464, R469). -/
inductive HaltWhy where
  | fault | haltCmd | close | malformed
  deriving DecidableEq, Repr

/-- The books of a run from its launch to its end: the tick of its launch, its tallies and POISON_WRITES then (R264,
R463), the cores that swapped late (R160). -/
structure RunBook where
  launchTick : Nat := 0
  parishStart : Tab (Tab Half) := []
  hubStart : Tab Word := []
  poisonAt : Nat := 0
  lateCores : Nat := 0
  imbalances : Nat := 0
  /-- the granted point, the floor and the ceiling settled at the launch (R376) -/
  point : Nat := 6
  floor : Nat := 0
  ceiling : Nat := 256
  /-- the deficit in 1/256 beats, and the largest stretch asked for (R382) -/
  deficit : Nat := 0
  lastK : Nat := 0
  deriving DecidableEq, Repr

/-- A program in execution (R147 to R174, R353): its RUN command, its start tick and the stretches applied (R255), each
by the deadline tick it moved and its ticks;
the runs whose fill has started, in order, with their colours (R148), how many of them have launched and how many have
ended, and their books; what the RUN completion reports; and what the reeve keeps for it. -/
structure Exec where
  lsn : Nat
  start : Nat
  stretches : List (Nat × Nat) := []
  fills : List (RunId × BitVec 2) := []
  launched : Nat := 0
  ended : Nat := 0
  books : Tab RunBook := []
  /-- the runs whose SECTION_OVERRUN was raised (R163) -/
  overran : List RunId := []
  badFills : List Nat := []
  invalid : List RunId := []
  residue : Nat := 0
  residueAt : List (Nat × Nat) := []
  overrun : Bool := false
  outOfStep : Bool := false
  suspect : Bool := false
  malformed : Bool := false
  mismatch : Bool := false
  lateSwap : Bool := false
  /-- what was raised once per run, by run, event and unit -/
  once : List (Option RunId × Nat × Nat) := []
  /-- the blocks of bodies read so far for the latest fills: fill, well and address (R158) -/
  bodyReads : List (Nat × Nat × Nat) := []
  /-- the signatures of a recheck section's runs, and the ended runs whose CRC is not finished (R173) -/
  sigs : List DWord := []
  sigDue : List Nat := []
  windowWrites : Tab Nat := []
  /-- a limit is deferred for the run under way; an issue cap is (R381, R466) -/
  deferred : Bool := false
  capDeferred : Bool := false
  deadlock : Bool := false
  deadlockTick : Nat := 0
  observed : Bool := false
  deriving DecidableEq, Repr

/-- An allotment (R144 to R149, R350). -/
structure Allot where
  st : AState := .free
  owner : Nat := 0
  parishes : BitVec 80 := 0
  tag : Nat := 0
  weight : Nat := 1
  loaderShare : Nat := 45
  stripeFirst : Nat := 0
  stripeCount : Nat := 0
  windows : Tab (BitVec 128) := []
  hubBase : Nat := 0
  hubCount : Nat := 0
  key : DWord := 0
  mask : Half := 0
  snapDpa : Nat := 0
  snapLen : Nat := 0
  rkey : Word := 0
  colour : BitVec 2 := 0
  opCeil : Nat := 7
  /-- the deferral of a limit, or of an issue cap, is over: it applies in full (R381, R466) -/
  deferOver : Bool := false
  capOver : Bool := false
  prog : Option Prog := none
  exec : Option Exec := none
  haltAt : Option HaltWhy := none
  queue : List Nat := []
  active : Option Nat := none
  /-- HALT commands waiting for the halt, by LSN (R354) -/
  halts : List Nat := []
  /-- the header of the snapshot under way (R274) -/
  snap : Option (List Byte) := none
  /-- the parishes probe for lost cores (R83) -/
  probing : Bool := false
  /-- the last tick it acted on (R248), and whether a launch, a deadline or a run end fell on that tick (R251) -/
  acted : Nat := 0
  actedOn : Bool := false
  lastSeq : Word := 0
  deriving DecidableEq, Repr

/-! ### Bell, memory, clocks -/

/-- A stretch request that has arrived (R252, R255), with the module that made it. -/
structure StretchReq where
  src : BitVec 24
  tag : Nat
  td : Nat
  k : Nat
  ti : Nat
  deriving DecidableEq, Repr

/-- The bell unit (R245 to R256, R277). -/
structure Bell where
  count : DWord := 0
  n : Nat := 160
  member : Bool := false
  outOfStep : Bool := false
  parentOos : Bool := false
  calibrated : Bool := false
  level : Nat := 0
  guardG : Nat := 1
  bad : Nat := 0
  good : Nat := 0
  errRaised : Bool := false
  /-- the ticks that are suspect for a short pulse, and every tick counted as suspect (R251) -/
  forced : List Nat := []
  suspects : List Nat := []
  requests : List StretchReq := []
  /-- copies forwarded, up the tree (true) or down it (R314) -/
  forwarded : List (Bool × StretchReq) := []
  parentDomain : Option (Half × Nat × Bool × Nat) := none
  deriving DecidableEq, Repr

/-- A memory controller and its stack (R186 to R203). -/
structure Stack where
  online : Bool := false
  inSet : Bool := false
  hot : Bool := false
  deciC : Nat := 0
  halved : Bool := false
  acts : Tab Nat := []
  /-- tracked rows, oldest first: row locator, its hourly counts (this hour first), whether its event stands -/
  rows : List (Nat × List Nat × Bool) := []
  scrubPos : Nat := 0
  deriving DecidableEq, Repr

/-- The sources, the mux, the monitor and the meter (R226 to R243). -/
structure Clk where
  sel : Src := .ref
  lastForced : Bool := false
  refOk : Bool := true
  monOk : Bool := true
  switching : Option Src := none
  tlaneOk : Bool := false
  synceOk : Bool := false
  refFailed : Bool := false
  /-- the sources that have shown a gap of edges in the window in progress (R232) -/
  gaps : List Src := []
  primaryPending : Bool := false
  meterRunning : Bool := false
  deriving DecidableEq, Repr

/-! ### Fabric -/

/-- States of a fabric port (R287); the codes of PORT_STATUS (R317) in order. -/
inductive PortState where
  | disabled | training | up | degraded | down | draining | unpopulated
  deriving DecidableEq, Repr

/-- What a codeword carries that is acted on when it is taken (R283, R284): the end of a packet, or a link control flit. -/
inductive LinkItem where
  | packet (k : FabPkt)
  | control (kind : Byte) (args : List Nat)
  deriving DecidableEq, Repr

/-- A codeword as the retry buffer keeps it (R283, R285): its control word, what it carries, and how many of its slots hold
flits. -/
structure Codeword where
  lseq : BitVec 10
  ctrlMap : BitVec 10
  items : List LinkItem
  flits : Nat
  deriving DecidableEq, Repr

/-- A FEC group of a port (R285): the next LSEQ to send, the codewords held unacknowledged, the next LSEQ expected, the
first not yet acknowledged, and the ticks of the NAKs received in the last millisecond. -/
structure Group where
  ok : Bool := false
  sendSeq : BitVec 10 := 0
  held : List Codeword := []
  recvSeq : BitVec 10 := 0
  lastAck : BitVec 10 := 0
  discarding : Bool := false
  naks : List Nat := []
  deriving DecidableEq, Repr

/-- A fabric port (R280 to R294). `queued` holds the packets waiting to be sent, each with its channel and the flits
left; `ctrl` the control flits waiting; `sentClasses` the classes of the last flits sent, newest first (R294); `redQ` the
packets received on the reduction channel that no entry has taken, in order (R308, R310). -/
structure Port where
  st : PortState := .disabled
  en : Bool := true
  g0 : Group := {}
  g1 : Group := {}
  cause : BitVec 4 := 0
  spare : Bool := false
  spareLane : BitVec 5 := 0
  peer : Option (BitVec 24 × BitVec 6) := none
  peerDomain : Half := 0
  delayPs : Word := 0
  attempts : Nat := 0
  ctrl : List (Byte × List Nat) := []
  sentClasses : List Nat := []
  queued : List (Nat × FabPkt × Nat) := []
  credits : Tab Nat := []
  redQ : List FabPkt := []
  /-- REDUCE packets for the port since it is draining: they wait (R290, R309) -/
  parkedRed : List FabPkt := []
  deriving DecidableEq, Repr

/-- An input of a reduction entry (R308): the SEQ it owes next and the packets staged, by SEQ. -/
structure RedIn where
  next : Nat := 0
  staged : Tab (List (BitVec 512) × BitVec 32) := []
  deriving DecidableEq, Repr

/-- A reduction entry (R307, R308): its eight words; inputs by port number, 64 for LOCAL; the lowest SEQ not complete;
whether the LOCAL contribution has started; the stall timeouts passed; the inputs (port and SEQ) given up by R309 whose
packets may still come. -/
structure Red where
  words : BitVec 512 := 0
  ins : Tab RedIn := []
  seq : Nat := 0
  started : Bool := false
  stalls : Nat := 0
  filled : List (Nat × Nat) := []
  deriving DecidableEq, Repr

/-- A completion record (R306). -/
structure Rx where
  tag : Nat
  tid : Nat
  count : Nat := 0
  saturated : Bool := false
  bind : Option Nat := none
  deriving DecidableEq, Repr

/-! ### Sessions -/

/-- States of a session (R331). -/
inductive SesState where
  | attached | detached
  deriving DecidableEq, Repr

/-- An event as raised (R367): the code, its allotment, the tick, the occurrences it stands for and the payload
fields in order, each with its width in bytes. -/
structure Event where
  code : Nat
  allot : Option Nat := none
  tick : Nat := 0
  /-- TAI nanoseconds of the first occurrence, 0 where time of day was not valid -/
  tod : Nat := 0
  count : Nat := 1
  payload : List (Nat × Nat) := []
  deriving DecidableEq, Repr

/-- A ring in host memory as the device keeps it (R328 to R330). -/
structure Ring where
  addr : Nat := 0
  rkey : Word := 0
  l : Nat := 6
  prod : Nat := 0
  cons : Nat := 0
  waiting : List Event := []
  lost : Nat := 0
  polling : Bool := false
  /-- the tick of the last read of CONSUMER -/
  polledAt : Option Nat := none
  deriving DecidableEq, Repr

/-- A ledger entry (R344), with the command's bytes while it is not DONE. -/
structure LEntry where
  opcode : Byte := 0
  status : Byte := 0
  st : BitVec 2 := 0
  allot : Byte := 0
  ses : BitVec 12 := 0
  epoch : Half := 0
  seq : Word := 0
  detail : Half := 0
  lsn : Nat := 0
  hostTag : DWord := 0
  doneTick : Nat := 0
  result : BitVec 192 := 0
  body : List Byte := []
  deriving DecidableEq, Repr

/-- A session (R332). `imm` is its immediate commands in acceptance order, by LSN; `heldRecs` the completions that
wait for the session or its ring, as they stand in the ledger, in LSN order (R345). -/
structure Session where
  st : SesState := .attached
  qp : Nat := 0
  epoch : Half := 0
  nextSeq : Word := 1
  grant : Nat := 0
  held : Nat := 0
  mgmt : Bool := false
  lease : Nat := 900
  token : DWord := 0
  version : Half := 1
  mask : Half := 0
  cring : Ring := {}
  erings : Tab Ring := []
  eaddr : Nat := 0
  erkey : Word := 0
  el : Nat := 6
  imm : List Nat := []
  heldRecs : List LEntry := []
  dropped : Nat := 0
  devall : Word := 0
  regsKey : Word := 0
  compWritten : Nat := 0
  /-- by event code: the millisecond it was last raised in, and the event its later occurrences make (R337) -/
  limited : Tab (Nat × Option Event) := []
  /-- closing, by the CLOSE command of an LSN, or by expiry, 0 (R334, R349) -/
  closing : Option Nat := none
  /-- the allotments its closing has released -/
  closed : List Nat := []
  /-- it has ended, and only completions that are still to be written keep it (R345, R349) -/
  ending : Bool := false
  evWritten : Nat := 0
  /-- the LSN of its first OPEN -/
  since : Nat := 0
  deriving DecidableEq, Repr

/-- A queue pair (R323, R338): its port, the session bound to it, an OPEN waiting to execute. -/
structure Qp where
  port : Nat := 0
  ses : Option Nat := none
  opening : Option (List Byte) := none
  /-- the peer's address -/
  src : BitVec 128 := 0
  rate : Nat := 0
  /-- the VLAN of the address it connects to, and the tick of its last CNP -/
  vlan : Option (BitVec 12) := none
  cnpTick : Option Nat := none
  deriving DecidableEq, Repr

/-- The ledger (R343, R371): entries by slot. -/
structure Ledger where
  entries : Tab LEntry := []
  nextLsn : Nat := 1
  alloc : Nat := 0
  /-- slots changed and not yet mirrored -/
  dirty : List Nat := []
  deriving DecidableEq, Repr

/-- Time of day (R326, R327, R370). -/
structure Tod where
  sec : BitVec 48 := 0
  ns : BitVec 30 := 0
  nsLatched : BitVec 30 := 0
  valid : Bool := false
  holdover : Bool := false
  port : Nat := 0
  offset : Word := 0
  secTick : DWord := 0
  secLast : BitVec 48 := 0
  deriving DecidableEq, Repr

/-- A host port (R320, R321). -/
structure HostPort where
  up : Bool := false
  en : Bool := true
  paused : Option Nat := none
  deriving DecidableEq, Repr

/-! ### Power, guests, faults -/

/-- A loan (R397): peer, lent or borrowed, amount in watts, expiry tick, identifier. -/
structure Loan where
  feid : BitVec 24
  borrowed : Bool
  amount : Nat
  expiry : Nat
  id : Word
  deriving DecidableEq, Repr

/-- The reeve (R372 to R403). Power is in watts but for the envelope, in microwatts, since a step of R390 may move it by
less than a watt. -/
structure Reeve where
  steward : Nat := 1
  standby : Bool := true
  /-- the acting steward's watchdog has expired and its standby has still to take over (R372) -/
  failing : Bool := false
  cap : Nat := 30000
  capMax : Nat := 32000
  inputW : Nat := 0
  inputMv : Nat := 0
  inputDeciA : Nat := 0
  /-- the cold plates: top inlet and outlet, bottom inlet and outlet, 0.1 degree -/
  plates : Vector Half 4 := Vector.replicate 4 0
  /-- optical engines and regulators as last read (R373) -/
  engines : List (Fin 64 × Half × Half) := []
  /-- activity of the parishes as last read: matrix, SRAM and link counts (R373) -/
  activity : Tab (Word × Word × Word) := []
  regulators : List (Fin 112 × Bool × Half × Half × Half × Bool) := []
  overheadW : Nat := 0
  demandW : Nat := 0
  parishW : Nat := 0
  envelope : Nat := 0
  meanW : Nat := 0
  jobTime : Bool := false
  jobEnding : Bool := false
  rampHeld : Bool := false
  slotWait : Bool := false
  /-- the TAI second at which the start-up slot comes, where time of day was valid as step 8 began (R394) -/
  slotAt : Option Nat := none
  parked : Bool := false
  loans : Tab Loan := []
  /-- requests of partners being collected (R395): peer, amount, slack, identifier -/
  collecting : List (BitVec 24 × Nat × Int × Word) := []
  /-- own requests not yet answered: peer, identifier, and the allotment whose run is late -/
  asked : List (BitVec 24 × Word × Nat) := []
  loanIds : Nat := 0
  /-- the budget has fallen by a loan's expiry (R397) -/
  loanCut : Bool := false
  energy : DWord := 0
  ballast : DWord := 0
  unattr : DWord := 0
  est : Tab DWord := []
  ballastA : Tab DWord := []
  /-- the scale of the energy model, and since the last rescale its raw energy, what was charged and what the native
  meter counted; the difference carried over (R401) -/
  scale : Nat × Nat := (1, 1)
  rawUj : Nat := 0
  chargedUj : Nat := 0
  nativeUj : Nat := 0
  carryUj : Int := 0
  deriving DecidableEq, Repr

/-- States of a guest site (R419); the codes of GS_STATE in order. -/
inductive GState where
  | absent | off | training | attesting | opened | fenced | lost
  deriving DecidableEq, Repr

/-- A guest site and its gatehouse (R418 to R431). `step` is the attestation step whose answer is awaited, 0 for none;
`draining` the fence's drain. -/
structure Guest where
  st : GState := .off
  cause : BitVec 4 := 0
  mods : BitVec 4 := 0
  side : Bool := false
  rules : Tab (BitVec 256) := []
  step : Nat := 0
  draining : Bool := false
  digest : BitVec 256 := 0
  /-- the nonce of the challenge or measurement request whose answer is awaited (R426) -/
  nonce : BitVec 256 := 0
  /-- the tick of a FENCE write while ATTESTING: a pass in the same step leaves the site FENCED (R430) -/
  fenceAt : Option Nat := none
  /-- the two token buckets (R425): bytes, thousandths of a packet, and the tick of their last filling -/
  byteTok : Nat := 0
  packetTok : Nat := 0
  tokTick : Option Nat := none
  /-- the tick from which the time that credits are withheld is still to be counted (R425, R431) -/
  heldAt : Option Nat := none
  /-- the millisecond of the last GATEHOUSE_DENY, and the event its later refusals make (R367, R424) -/
  denied : Option (Nat × Option Event) := none
  deriving DecidableEq, Repr

/-- A guest's request under way in the fabric (R420, R425): its site, the RTAG and TYPE the guest sent. -/
structure GuestReq where
  site : Nat
  rtag : Nat
  typ : Nat
  deriving DecidableEq, Repr

/-- An entry of the suspect table (R466, R480). -/
structure Suspect where
  kind : BitVec 2
  parish : Nat
  column : Nat := 0
  row : Nat := 0
  port : BitVec 2 := 0
  strikes : Nat := 0
  ceStrikes : Nat := 0
  st : BitVec 2 := 0
  deriving DecidableEq, Repr

/-- A soft repair waiting (R467): parish, column, physical row. -/
structure Repair where
  parish : Fin 78
  col : Fin 80
  row : Nat
  deriving DecidableEq, Repr

/-! ### Boot, store, fuses -/

/-- The module's states (R453), with the states before a boot: no rails, and cold reset (R32). -/
inductive MState where
  | ready | degradedReady | booting | training | mgmtOnly | restarting | shuttingDown | shutdownDone | recovery
  | off | coldReset | strapHalt
  deriving DecidableEq, Repr

/-- The pins of R32. ALERT_N and THERMTRIP_N are open drain: true is released. -/
structure Pins where
  powerEn : Bool := false
  resetN : Bool := false
  warmN : Bool := true
  pwrGood : Bool := false
  alertN : Bool := true
  thermtripN : Bool := true
  deriving DecidableEq, Repr

/-- A bad row of data SRAM in the fuse map (R71, R438): its core site (parish, column, physical row), bank and row, and the
spare row of the bank that stands for it. -/
structure SramRow where
  site : Nat × Nat × Nat
  bank : Nat
  row : Nat
  spare : Nat
  deriving DecidableEq, Repr

/-- Bring-up state (R440 to R455). -/
structure Boot where
  st : MState := .off
  step : Nat := 0
  straps : Straps := { img := false, mgmt := false, addr := 0, test := false }
  imageB : Bool := false
  fallback : Bool := false
  cause : BitVec 12 := 0
  epoch : Half := 0
  cfg : Cfg := {}
  set : List Nat := []
  warmHeld : Bool := false
  stopped : Bool := false
  uvlo : Bool := false
  rejectA : BitVec 4 := 0
  rejectB : BitVec 4 := 0
  startMs : Nat := 0
  /-- a WEAR append that came due during a warm restart (R454): slacks, and whether devices A and B take it -/
  appendDue : Option (List (Fin 78 × Nat) × Bool × Bool) := none
  /-- a PPR append that came due during a warm restart (R454) -/
  pprDue : Bool := false
  /-- the stacks are in self-refresh (R450, R452) -/
  selfRefresh : Bool := false
  /-- a PLDM firmware update is in progress (R412) -/
  pldmUpdate : Bool := false
  sectors : BitVec 16 := 0
  /-- rails removed by R386 or R472, by the order of R21's table: 78 field, 16 hub, CLK, 8 stack groups, 4 optical,
  4 guest, HK -/
  railsOff : List Nat := []
  escapeLoaded : Bool := true
  configAdjusted : Bool := false
  fuseBad : Bool := false
  /-- wells dead at this start: parish * 64 + j * 8 + i (R177, R438) -/
  deadWells : List Nat := []
  /-- the assignment of spare SRAM rows, and the fabric and host ports the fuse maps keep down (R71, R438) -/
  spareRows : List SramRow := []
  fusePorts : List Nat := []
  fuseHosts : List Nat := []
  /-- the digests of measurement blocks 1 to 5, fixed from a start on (R415) -/
  meas : List (BitVec 256) := []
  geomBuilt : Bool := false
  geomTick : Nat := 0
  deriving DecidableEq, Repr

/-- What a WEAR record holds (R436): counts of starts, restarts and lockouts; of each parish its trim, least sentinel slack and
trips; of each stack its corrected errors. -/
structure Wear where
  coldStarts : Nat := 0
  warmRestarts : Nat := 0
  uvlos : Nat := 0
  trims : List (Nat × Int) := []
  slack : List (Nat × Nat) := []
  trips : Tab Nat := []
  corrected : Tab Nat := []
  deriving DecidableEq, Repr

/-- What a record holds, by its TYPE: 1 WEAR, 2 PPR, the rows awaiting repair (R436). -/
inductive RecBody where
  | wear (w : Wear)
  | ppr (rows : List (Nat × Word))
  deriving DecidableEq, Repr

/-- A whole record of the record region: SEQ, PAGES and LENGTH of its header, and its body (R436). MAGIC and CRC are those of a
valid record. -/
structure StoreRec where
  seq : Nat
  pages : Nat
  length : Nat
  body : RecBody
  deriving DecidableEq, Repr

/-- The record region of a device (R433, R436): the valid records, each with the page it begins at, in the order written, and
the page the next one goes to. -/
structure RecRegion where
  recs : List (Nat × StoreRec) := []
  next : Nat := 0
  deriving DecidableEq, Repr

/-- The configuration store (R433 to R437): the image and the record region of each device; SEQ of the last append and
whether it was written; the rows awaiting repair as they now stand; the undervoltage lockouts. -/
structure Store where
  a : Option StoreImage := none
  b : Option StoreImage := none
  recsA : RecRegion := {}
  recsB : RecRegion := {}
  seq : Nat := 0
  pprList : List (Nat × Word) := []
  lastOk : Bool := false
  uvlos : Nat := 0
  deriving DecidableEq, Repr

/-- A fuse command under way (R439). -/
inductive FuseOp where
  | appendSite (entry : Word)
  | revokeFw (key : Nat)
  | programOwner (slot : Nat) (hash : BitVec 256)
  | revokeOwner (slot : Nat)
  deriving DecidableEq, Repr

/-- An owner key slot (R410). -/
structure Owner where
  programmed : Bool := false
  revoked : Bool := false
  hash : BitVec 256 := 0
  deriving DecidableEq, Repr

/-- The fuses (R1, R410, R411, R438, R439). -/
structure Fuses where
  orderB : Bool := true
  orderF : Bool := true
  guests : Nat := 4
  grade : Nat := 1
  dead : List (Nat × Nat × Nat) := []
  sramRows : List SramRow := []
  /-- bad lanes: fabric port and electrical lane; host port and lane -/
  badLanes : List (Nat × Nat) := []
  hostLanes : List (Nat × Nat) := []
  /-- bad bond wires: well, direction, wire -/
  wires : List (Nat × Nat × Nat) := []
  deadWells : List Nat := []
  coeff : Tab Nat := []
  infield : List Word := []
  fwRevoked : BitVec 4 := 0
  owner0 : Owner := {}
  owner1 : Owner := {}
  rollFw : Nat := 0
  rollCfg : Nat := 0
  busy : Option FuseOp := none
  deriving DecidableEq, Repr

/-- Fault-steward and fault state (R466, R467, R478), and the wear history gathered since the last record append (R25, R436):
trips of each parish, corrected errors of each stack, cold starts and warm restarts. -/
structure Ras where
  suspects : Tab Suspect := []
  hold : Bool := false
  repairs : List Repair := []
  restarts : Tab Nat := []
  retired : List Nat := []
  trips : Tab Nat := []
  corrected : Tab Nat := []
  colds : Nat := 0
  warms : Nat := 0
  deriving DecidableEq, Repr

/-- The key guard of a block (R489, R498). -/
structure Guard where
  armed : Bool := false
  locked : Bool := false
  notArmed : Bool := false
  faults : Nat := 0
  armedBy : BitVec 12 := 0
  deriving DecidableEq, Repr

/-- A posted write that has not taken effect (R494). -/
structure Posted where
  offset : Nat
  value : DWord
  deriving DecidableEq, Repr

/-- What the module has sent (the model's record of its outputs). -/
inductive Out where
  | completion (ses : Nat) (e : LEntry) (status : Byte) (reack : Bool) (expected : Word) (held dropped : Nat)
  | event (ses ring : Nat) (e : Event)
  | board (e : Event)
  | packet (port : Nat) (p : FabPkt)
  | link (port : Nat) (kind : Byte) (args : List Nat)
  | rdma (qp : Nat) (rkey : Word) (addr : Nat) (data : List Byte)
  | rdmaRead (qp : Nat) (data : List Byte)
  | rdmaNak (qp : Nat)
  | ringRead (ses ring : Nat) (rkey : Word) (addr : Nat)
  | disconnect (qp : Nat)
  | cnp (qp : Nat)
  | cm (port qp : Nat) (accept : Bool)
  | eth (port : Nat) (kind : Nat) (data : List Byte)
  | guest (site : Nat) (p : FabPkt)
  | guestAsk (site step : Nat) (nonce : BitVec 256)
  | spdm (code : Byte) (data : List Nat)
  | pldm (code : Byte) (data : List Nat)
  deriving DecidableEq, Repr

/-! ### The whole -/

/-- The state of the module. `fresh`, `events`, `out` and `pending` are the model's own: the counter of free values,
the log of events raised and messages sent (newest first), and the queue of waiting commands. -/
structure State where
  pins : Pins := {}
  boot : Boot := {}
  store : Store := {}
  /-- failed regulators (R22): the rail by its place in R21's table, and whether it is the second -/
  failedRegs : List (Nat × Bool) := []
  fuses : Fuses := {}
  cores : Tab Core := []
  xroads : Tab Xroad := []
  parishes : Tab Parish := []
  allots : Tab Allot := []
  bell : Bell := {}
  hub : Tab Word := []
  hubWait : Tab (List Waiter) := []
  tallyOps : List TallyMsg := []
  /-- by source, a core's ID: the sequence number of its next crier message (R268, R501) -/
  crierSeq : Tab Byte := []
  /-- the parishes in which something that R272 lists has happened since they were last judged -/
  stirred : List Nat := []
  reqs : Tab Req := []
  nextReq : Nat := 0
  mem : Tab Byte := []
  memInit : Nat := 0
  /-- words that carry the poison marker, or in a stack of `memFills` those that do not -/
  memPoison : List Nat := []
  /-- stacks filled with the poison marker (R450), each with the loss of its data -/
  memFills : Tab Nat := []
  memUe : List Nat := []
  memCe : List Nat := []
  mcs : Tab Stack := []
  clk : Clk := {}
  ports : Tab Port := []
  routes : Tab (BitVec 128) := []
  reds : Tab Red := []
  rxs : Tab Rx := []
  /-- packets waiting for a channel, with their port of arrival (R297); packets for this module on their way in the hub;
  crier messages held for the reload of the hub crier's tables, with their port (R269) -/
  fabWait : List (Option Nat × FabPkt) := []
  fabLocal : List FabPkt := []
  crierHeld : List (Nat × FabPkt) := []
  /-- the tick of the last route write through the ROUTE block (R318) -/
  routeBusy : Option Nat := none
  ses : Tab Session := []
  qps : Tab Qp := []
  ledger : Ledger := {}
  tod : Tod := {}
  hps : Tab HostPort := []
  reeve : Reeve := {}
  guests : Tab Guest := []
  guestReqs : Tab GuestReq := []
  spdmVer : Bool := false
  spdmAlgo : Bool := false
  ras : Ras := {}
  unreadBoard : List Event := []
  regs : Tab DWord := []
  guards : Tab Guard := []
  posted : Tab Posted := []
  fresh : Nat := 0
  events : List Event := []
  out : List Out := []
  pending : List Instr := []
  deriving DecidableEq, Repr

/-- The module as the power-up sequence of R35 finds it: input applied, POWER_EN and RESET_N low, every rail off,
nothing in any table, and every register at the reset value its table gives. -/
def State.reset : State := {}

end Sys2Proof.Machine
end

