-- ==== Sys2Proof/Machine/Events.lean ====
section
/-! DEFINITION. Events: their codes (R482), their delivery to rings and to the board controller (R329, R330, R367,
R368), and the counters that count them (R480, R501). -/

namespace Sys2Proof.Machine

/-- An event's code from its class and its number there (R482). -/
def evOf (c n : Nat) : Nat := 4096 * c + n

/-- CORE_ILLEGAL_OP (R482). -/
def evCoreIllegalOp := evOf 0x1 0x01
/-- CORE_SRAM_UE (R482). -/
def evCoreSramUe := evOf 0x1 0x02
/-- CORE_LOST (R482). -/
def evCoreLost := evOf 0x1 0x03
/-- POISON_CONSUMED (R482). -/
def evPoisonConsumed := evOf 0x1 0x04
/-- CORE_SRAM_CE_THRESHOLD (R482). -/
def evCoreSramCeThreshold := evOf 0x1 0x20
/-- SECTION_OVERRUN (R482). -/
def evSectionOverrun := evOf 0x2 0x01
/-- RESIDUE_TOKEN (R482). -/
def evResidueToken := evOf 0x2 0x02
/-- DEADLOCK (R482). -/
def evDeadlock := evOf 0x2 0x03
/-- RECHECK_MISMATCH (R482). -/
def evRecheckMismatch := evOf 0x2 0x05
/-- MESH_COLOUR_MIX (R482). -/
def evMeshColourMix := evOf 0x2 0x20
/-- MESH_LINK_ERROR (R482). -/
def evMeshLinkError := evOf 0x2 0x21
/-- SECTION_IMAGE_MALFORMED (R482). -/
def evSectionImageMalformed := evOf 0x2 0x22
/-- SECTION_LATE_SWAP (R482). -/
def evSectionLateSwap := evOf 0x2 0x23
/-- DMA_HALT (R482). -/
def evDmaHalt := evOf 0x3 0x01
/-- MEM_UE (R482). -/
def evMemUe := evOf 0x3 0x02
/-- MEM_CE_THRESHOLD (R482). -/
def evMemCeThreshold := evOf 0x3 0x03
/-- WINDOW_FAULT (R482). -/
def evWindowFault := evOf 0x3 0x04
/-- BOUND_EXCEEDED (R482). -/
def evBoundExceeded := evOf 0x3 0x05
/-- STACK_OFFLINE (R482). -/
def evStackOffline := evOf 0x3 0x20
/-- DMA_DRAIN_TIMEOUT (R482). -/
def evDmaDrainTimeout := evOf 0x3 0x21
/-- TALLY_UNDERFLOW (R482). -/
def evTallyUnderflow := evOf 0x4 0x01
/-- TALLY_OVERFLOW (R482). -/
def evTallyOverflow := evOf 0x4 0x02
/-- TALLY_IMBALANCE (R482). -/
def evTallyImbalance := evOf 0x4 0x03
/-- BELL_STRETCH (R482). -/
def evBellStretch := evOf 0x4 0x04
/-- BELL_SUSPECT_TICK (R482). -/
def evBellSuspectTick := evOf 0x4 0x05
/-- TALLY_RANGE (R482). -/
def evTallyRange := evOf 0x4 0x20
/-- TALLY_FOREIGN (R482). -/
def evTallyForeign := evOf 0x4 0x21
/-- CRIER_PLANE_DOWN (R482). -/
def evCrierPlaneDown := evOf 0x4 0x22
/-- CRIER_ISOLATED (R482). -/
def evCrierIsolated := evOf 0x4 0x23
/-- CLOCK_FAILOVER (R482). -/
def evClockFailover := evOf 0x5 0x01
/-- MUX_STUCK (R482). -/
def evMuxStuck := evOf 0x5 0x02
/-- TIMEBASE_PHASE_ERROR (R482). -/
def evTimebasePhaseError := evOf 0x5 0x03
/-- CLOCK_REF_FAULT (R482). -/
def evClockRefFault := evOf 0x5 0x20
/-- CLOCK_MONITOR_FAULT (R482). -/
def evClockMonitorFault := evOf 0x5 0x21
/-- LINK_RETRY_STORM (R482). -/
def evLinkRetryStorm := evOf 0x6 0x01
/-- PORT_DEGRADED (R482). -/
def evPortDegraded := evOf 0x6 0x02
/-- PORT_DOWN (R482). -/
def evPortDown := evOf 0x6 0x03
/-- REDUCTION_STALL (R482). -/
def evReductionStall := evOf 0x6 0x04
/-- TRANSFER_TIMEOUT (R482). -/
def evTransferTimeout := evOf 0x6 0x05
/-- UNROUTABLE (R482). -/
def evUnroutable := evOf 0x6 0x06
/-- FABRIC_DROP (R482). -/
def evFabricDrop := evOf 0x6 0x20
/-- DOMAIN_REFUSED (R482). -/
def evDomainRefused := evOf 0x6 0x21
/-- XFER_COUNT_OVERFLOW (R482). -/
def evXferCountOverflow := evOf 0x6 0x22
/-- SESSION_GAP (R482). -/
def evSessionGap := evOf 0x7 0x01
/-- SESSION_STALE (R482). -/
def evSessionStale := evOf 0x7 0x02
/-- COMMAND_MALFORMED (R482). -/
def evCommandMalformed := evOf 0x7 0x03
/-- NO_CREDIT (R482). -/
def evNoCredit := evOf 0x7 0x04
/-- HOST_TOD_LOST (R482). -/
def evHostTodLost := evOf 0x7 0x20
/-- HOST_PORT_DOWN (R482). -/
def evHostPortDown := evOf 0x7 0x21
/-- SESSION_EXPIRED (R482). -/
def evSessionExpired := evOf 0x7 0x22
/-- EVENTS_LOST (R482). -/
def evEventsLost := evOf 0x7 0x23
/-- PARISH_THROTTLE (R482). -/
def evParishThrottle := evOf 0x8 0x01
/-- DROOP (R482). -/
def evDroop := evOf 0x8 0x02
/-- THERMAL_TRIP (R482). -/
def evThermalTrip := evOf 0x8 0x03
/-- RAIL_FAULT (R482). -/
def evRailFault := evOf 0x8 0x04
/-- CAP_DEFERRED (R482). -/
def evCapDeferred := evOf 0x8 0x05
/-- RAMP_LIMITED (R482). -/
def evRampLimited := evOf 0x8 0x06
/-- LEVEL_BREAK (R482). -/
def evLevelBreak := evOf 0x8 0x20
/-- MARGIN_LOW (R482). -/
def evMarginLow := evOf 0x8 0x21
/-- STACK_THROTTLE (R482). -/
def evStackThrottle := evOf 0x8 0x22
/-- REEVE_FAILOVER (R482). -/
def evReeveFailover := evOf 0x8 0x23
/-- GUEST_FENCED (R482). -/
def evGuestFenced := evOf 0x9 0x01
/-- GATEHOUSE_DENY (R482). -/
def evGatehouseDeny := evOf 0x9 0x02
/-- KEY_LOCKOUT (R482). -/
def evKeyLockout := evOf 0x9 0x03
/-- IMAGE_REJECTED (R482). -/
def evImageRejected := evOf 0x9 0x04
/-- GUEST_NO_RESPONSE (R482). -/
def evGuestNoResponse := evOf 0x9 0x20
/-- GUEST_LOST (R482). -/
def evGuestLost := evOf 0x9 0x21
/-- KAT_FAIL (R482). -/
def evKatFail := evOf 0xA 0x01
/-- STACK_TRAIN_FAIL (R482). -/
def evStackTrainFail := evOf 0xA 0x02
/-- DEGRADED_READY (R482). -/
def evDegradedReady := evOf 0xA 0x03
/-- RECOVERY_MODE (R482). -/
def evRecoveryMode := evOf 0xA 0x20
/-- RECORD_APPEND_FAIL (R482). -/
def evRecordAppendFail := evOf 0xA 0x21
/-- SHUTDOWN_DONE (R482). -/
def evShutdownDone := evOf 0xA 0x22
/-- HUB_SECTOR_LOST (R482). -/
def evHubSectorLost := evOf 0xB 0x01
/-- SUSPECT_UNIT (R482). -/
def evSuspectUnit := evOf 0xB 0x02
/-- SOFT_REPAIR (R482). -/
def evSoftRepair := evOf 0xB 0x20
/-- STEWARD_RESTART (R482). -/
def evStewardRestart := evOf 0xB 0x21
/-- BOOKS_IMBALANCE (R482). -/
def evBooksImbalance := evOf 0xB 0x22

/-- The board-directed events (R482). -/
def boardDirected : List Nat :=
  [0x3003, 0x3020, 0x4022, 0x4023, 0x5001, 0x5002, 0x5020, 0x5021, 0x6001, 0x6002, 0x6003, 0x6021] ++
  [0x7021, 0x7022, 0x8003, 0x8004, 0x8020, 0x8021, 0x8023, 0x9001, 0x9003, 0x9004, 0x9021, 0xA001] ++
  [0xA002, 0xA003, 0xA020, 0xA021, 0xA022, 0xB001, 0xB002, 0xB020, 0xB021, 0xB022]
/-- The non-maskable events (R482). -/
def nonMaskable : List Nat := [0x5001, 0x5020, 0x5021, 0x8003, 0x8004, 0xB001]

/-! ### Registers with no structured home -/

/-- The reset value of a register of `State.regs`, by offset: the Reset columns of R203, R243, R277, R278, R316,
R317 and R404 that are not zero. -/
def regReset (o : Nat) : DWord :=
  if 0x200000 ≤ o ∧ o < 0x300000 then
    if o % 0x4000 = 0x38 then 8 else if o % 0x4000 = 0x40 then 0x1801 else 0
  else if 0x100000 ≤ o ∧ o < 0x140000 then if o % 0x1000 = 0x60 then 64 else 0
  else if o = 0x30048 ∨ o = 0x20050 then 10
  else if 0xA1000 ≤ o ∧ o < 0xA5000 then if o % 0x1000 = 0x20 then 256 else if o % 0x1000 = 0x28 then 20 else 0
  else if o = 0xC0028 then 50
  else if o = 0xC0030 then 100
  else 0

/-- The value held for the register at offset `o`. -/
def State.reg (s : State) (o : Nat) : DWord := (s.regs.find? o).getD (regReset o)

/-- `s` with the register at offset `o` holding `v`. -/
def State.setReg (s : State) (o : Nat) (v : DWord) : State := { s with regs := s.regs.put o v }

/-- A 48-bit counter with OVF in bit 63, `n` more (R501, R502): it wraps to 0 and OVF is sticky. -/
def count48 (v : DWord) (n : Nat) : DWord :=
  let t := bits v 0 48 + n
  BitVec.ofNat 64 (t % 2 ^ 48 + (if bit v 63 || decide (t ≥ 2 ^ 48) then 2 ^ 63 else 0))

/-- The counter at offset `o` counts `n` more. -/
def State.bump (s : State) (o : Nat) (n : Nat := 1) : State := s.setReg o (count48 (s.reg o) n)

/-- Sets the bits of `m` in the register at offset `o`. -/
def State.orReg (s : State) (o : Nat) (m : DWord) : State := s.setReg o (s.reg o ||| m)

/-! ### Free values and messages sent -/

/-- The free value the next draw yields. -/
def State.draw (s : State) : BitVec 512 := Config.freeValue s.fresh

/-- `s` after a draw. -/
def State.drawn (s : State) : State := { s with fresh := s.fresh + 1 }

/-- Appends a message to what the module has sent. -/
def State.send (s : State) (o : Out) : State := { s with out := o :: s.out }

/-! ### Rings (R328 to R330) -/

/-- Whether a ring has a free slot (R329). -/
def Ring.room (r : Ring) : Bool := decide (r.prod - r.cons < 2 ^ r.l)

/-- An event waiting for room: a repeat of a code that waits is coalesced through COUNT (saturating, 16 bits); at
256 waiting the newest is dropped, but a non-maskable code always keeps its latest record (R330). DEDUCED (log entry
11): a coalesced record keeps the first TICK and takes the latest payload; a non-maskable record displaces the newest
maskable one. -/
def Ring.hold (r : Ring) (e : Event) : Ring :=
  if r.waiting.any (fun w => w.code = e.code) then
    { r with waiting := r.waiting.map fun w =>
        if w.code = e.code then { e with count := min 65535 (w.count + e.count), tick := w.tick, tod := w.tod } else w }
  else if r.waiting.length < 256 then { r with waiting := r.waiting ++ [e] }
  else if nonMaskable.contains e.code then
    let rev := r.waiting.reverse
    let keep := (rev.takeWhile (fun w => nonMaskable.contains w.code))
    let rest := (rev.dropWhile (fun w => nonMaskable.contains w.code)).drop 1
    { r with waiting := rest.reverse ++ keep.reverse ++ [e], lost := r.lost + 1 }
  else { r with lost := r.lost + 1 }

/-- The event ring `j` of a session (R328). -/
def Session.ering (x : Session) (j : Nat) : Ring :=
  (x.erings.find? j).getD { addr := x.eaddr + 64 * j * (1 + 2 ^ x.el), rkey := x.erkey, l := x.el }

/-- Whether the session is ATTACHED. -/
def Session.attached (x : Session) : Bool := decide (x.st = .attached)

/-- The width an event's field takes in its record: 1, 2, 4 or 8 bytes (R367). -/
def fieldWidth (n : Nat) : Nat := if n ≤ 1 then 1 else if n ≤ 2 then 2 else if n ≤ 4 then 4 else 8

/-- An event's fields in order, each aligned to its width (R367); a longer one, as FABRIC_DROP's header bytes, in whole. -/
def payloadBytes (l : List (Nat × Nat)) : List Byte :=
  l.foldl (fun acc f =>
    let w := fieldWidth f.2
    acc ++ List.replicate ((w - acc.length % w) % w) 0 ++ leBytes (max w f.2) f.1) []

/-- The 64-byte record of an event (R367): TOD is 0 where time of day is not valid as it is written (R327). -/
def Event.bytes (e : Event) (valid : Bool) : List Byte :=
  let flags := b2n (nonMaskable.contains e.code) + 2 * b2n (boardDirected.contains e.code)
  (leBytes 2 e.code ++ leBytes 1 flags ++ leBytes 1 (e.allot.getD 0xFF) ++ leBytes 2 (min 65535 e.count) ++ leBytes 2 0 ++
    leBytes 8 e.tick ++ leBytes 8 (if valid then e.tod else 0) ++ payloadBytes e.payload ++ List.replicate 40 0).take 64

/-- Frames sent for a QP are counted at its port (R370). -/
def State.txOn (s : State) (qp n : Nat) : State := s.bump (0x90028 + 0x1000 * (s.qps.get {} qp).port) n

/-- Frames of a message of some bytes at the path MTU of 4,096 bytes (R323). -/
def mtuFrames (n : Nat) : Nat := max 1 (ceilDiv n 4096)

/-- A host buffer of some bytes is read: the RDMA READ and its response count at the QP's port (R370). -/
def State.hostFetch (s : State) (qp n : Nat) : State := (s.txOn qp 1).bump (0x90020 + 0x1000 * (s.qps.get {} qp).port) (mtuFrames n)

/-- Record PRODUCER of a ring is written to its slot, and then PRODUCER (R328, R329). -/
def State.writeSlot (s : State) (qp : Nat) (r : Ring) (record : List Byte) : State :=
  ((s.send (.rdma qp r.rkey (r.addr + 64 + 64 * (r.prod % 2 ^ r.l)) record)).send
    (.rdma qp r.rkey r.addr (leBytes 8 (r.prod + 1)))).txOn qp 2

/-- An event goes into the free slot of a session's ring (R328, R329). -/
def State.writeEvent (s : State) (id j : Nat) (x : Session) (r : Ring) (e : Event) : State :=
  ((s.send (.event id j e)).writeSlot x.qp r (e.bytes s.tod.valid))

/-- The time of day as records carry it: TAI nanoseconds, 0 where it is not valid (R327). -/
def State.todNow (s : State) : Nat := if s.tod.valid then s.tod.sec.toNat * 1000000000 + s.tod.ns.toNat else 0

/-- Posts an event to ring `j` of session `id`: written where the session is attached and the ring has room and
nothing waits before it, held otherwise (R329, R330). -/
def State.postEvent (s : State) (id j : Nat) (e : Event) : State :=
  match s.ses.find? id with
  | none => s
  | some x =>
    let r := x.ering j
    if x.attached && r.room && r.waiting.isEmpty && decide (r.lost = 0) then
      let y := { x with erings := x.erings.put j { r with prod := r.prod + 1 }, evWritten := x.evWritten + 1 }
      { s with ses := s.ses.put id y }.writeEvent id j x r e
    else { s with ses := s.ses.put id { x with erings := x.erings.put j (r.hold e) } }

/-- Where an event is delivered (R368): an allotment's ring, ring 0 of every open session, ring 0 of one session.
Stewards receive every event, and the board controller the board-directed ones. -/
inductive Dest where
  | allot (a : Nat)
  | sessions
  | session (id : Nat)
  deriving DecidableEq, Repr

/-- Whether a mask of classes masks the code (R368). -/
def masked (mask : Half) (code : Nat) : Bool :=
  bit mask (code / 0x1000) && !nonMaskable.contains code

/-- Delivers an event to one destination, under the masks of R347 (ring 0) and R350 (ring 1 + a). -/
def State.deliver (s : State) (e : Event) : Dest → State
  | .allot a =>
    let al := s.allots.get {} a
    if al.st = .free ∨ masked al.mask e.code then s else s.postEvent al.owner (1 + a) e
  | .session id =>
    match s.ses.find? id with
    | none => s
    | some x => if x.ending ∨ masked x.mask e.code then s else s.postEvent id 0 e
  | .sessions =>
    s.ses.foldl (fun t x => if x.2.ending ∨ masked x.2.mask e.code then t else t.postEvent x.1 0 e) s

/-- An event enters the log, is counted in RAS EVENTS[class] (R480), is sent to the board controller where the index directs
it there, with ALERT_N low while unread (R32), and is delivered to rings. -/
def State.raiseEvent (s : State) (e : Event) (dests : List Dest) : State :=
  let s := { s with events := e :: s.events }.bump (0x60180 + 8 * (e.code / 0x1000))
  let s := if boardDirected.contains e.code then
      { s with unreadBoard := s.unreadBoard ++ [e], pins := { s.pins with alertN := false } }.send (.board e)
    else s
  dests.foldl (fun t d => t.deliver e d) s

/-- Raises an event now, with the bell's tick and the time of day (R367). -/
def State.raise (s : State) (code : Nat) (al : Option Nat) (payload : List (Nat × Nat)) (dests : List Dest)
    (count : Nat := 1) : State :=
  s.raiseEvent { code := code, allot := al, tick := s.bell.count.toNat, tod := s.todNow, count := count, payload := payload } dests

/-- Raises an event to one allotment. -/
def State.raiseA (s : State) (code a : Nat) (payload : List (Nat × Nat)) : State :=
  s.raise code (some a) payload [.allot a]

end Sys2Proof.Machine
end

