-- ==== Sys2Proof/Machine/Records.lean ====
section
/-! DEFINITION. The record regions of the two devices (R433, R436, R437): the newest record of each type, and an append with the
erase of a sector it enters. -/

namespace Sys2Proof.Machine

/-- The pages of a sector of the record region: 64 KiB of 4 KiB each (R433, R436). -/
def sectorPages : Nat := 16

/-- The pages of the region: 256 sectors (R433). -/
def regionPages : Nat := 256 * sectorPages

/-- The TYPE of a record (R436). -/
def StoreRec.typ (r : StoreRec) : Nat :=
  match r.body with
  | .wear _ => 1
  | .ppr _ => 2

/-- The record of a type with the highest SEQ. -/
def newestOf (l : List StoreRec) (typ : Nat) : Option StoreRec :=
  l.foldl (fun o r =>
    if r.typ ≠ typ then o
    else match o with
      | some q => if q.seq < r.seq then some r else some q
      | none => some r) none

/-- The valid records of a region. -/
def RecRegion.all (d : RecRegion) : List StoreRec := d.recs.map (·.2)

/-- A record is written at the next page. -/
def RecRegion.put (d : RecRegion) (r : StoreRec) : RecRegion :=
  { recs := d.recs ++ [(d.next, r)], next := (d.next + r.pages) % regionPages }

/-- The records in the sector of the next page. -/
def RecRegion.inSector (d : RecRegion) : List (Nat × StoreRec) :=
  d.recs.filter fun e => decide (e.1 / sectorPages = d.next / sectorPages)

/-- The sector of the next page is erased, and each record in it that was the newest of its TYPE is written again (R437). -/
def RecRegion.erase (d : RecRegion) : RecRegion :=
  let keep := d.inSector.filter fun e => decide (newestOf d.all e.2.typ = some e.2)
  keep.foldl (fun d e => d.put e.2)
    { recs := d.recs.filter fun e => decide (e.1 / sectorPages ≠ d.next / sectorPages), next := d.next }

/-- An append: a record lies in one sector (DESIGN CHOICE, log entry 66), and a sector that still holds data is erased before it
is written from its start (R437). -/
def RecRegion.append (r : StoreRec) : Nat → RecRegion → RecRegion
  | 0, d => d.put r
  | fuel + 1, d =>
    let at' := d.next % sectorPages
    if at' = 0 ∧ !d.inSector.isEmpty then d.erase.append r fuel
    else if at' + r.pages ≤ sectorPages then d.put r
    else RecRegion.append r fuel { d with next := (d.next + sectorPages - at') % regionPages }

/-- LENGTH of a record's body, which the spec does not give: a free value (log entry 66) that fits 16 pages with the header. -/
def RecBody.length (b : RecBody) : Nat :=
  (match b with
   | .wear _ => Config.recordLength 1 0
   | .ppr l => Config.recordLength 2 l.length) % (4096 * sectorPages - 31)

/-- A record with its header: the pages its header and body fill (R436). -/
def RecBody.record (b : RecBody) (seq : Nat) : StoreRec :=
  { seq := seq, pages := ceilDiv (32 + b.length) 4096, length := b.length, body := b }

/-- Every valid record of the two devices. -/
def Store.records (x : Store) : List StoreRec := x.recsA.all ++ x.recsB.all

/-- The valid record of a TYPE with the highest SEQ, whichever device holds it (R437). -/
def Store.newest (x : Store) (typ : Nat) : Option StoreRec := newestOf x.records typ

/-- What the newest WEAR record holds; without one, nothing is known. -/
def Store.wear (x : Store) : Wear :=
  match (x.newest 1).map (fun r => r.body) with
  | some (RecBody.wear w) => w
  | _ => {}

/-- The rows that the newest PPR record lists. -/
def Store.pprRows (x : Store) : List (Nat × Word) :=
  match (x.newest 2).map (fun r => r.body) with
  | some (RecBody.ppr l) => l
  | _ => []

/-- An append to device A and then to device B; one that a device does not take leaves that device's records as they are
(R437). -/
def Store.append (x : Store) (b : RecBody) (okA okB : Bool) : Store :=
  let r := b.record (x.seq + 1)
  { x with
      seq := x.seq + 1, lastOk := okA || okB
      recsA := if okA then x.recsA.append r 16 else x.recsA
      recsB := if okB then x.recsB.append r 16 else x.recsB }

/-- The store as a start finds it: the append sequence goes on from the newest record, and the rows awaiting repair are those of
the newest PPR record (R437). -/
def Store.load (x : Store) : Store :=
  { x with seq := (x.records.map (·.seq)).foldl max 0, pprList := x.pprRows, lastOk := false }

/-- The store image of a device, B or A. -/
def Store.image (x : Store) (b : Bool) : Option StoreImage := if b then x.b else x.a

def Store.setImage (x : Store) (b : Bool) (i : Option StoreImage) : Store := if b then { x with b := i } else { x with a := i }

/-- The trim of a parish in the newest WEAR record. -/
def Store.trim (x : Store) (p : Nat) : Int := ((x.wear.trims.find? fun e => e.1 = p).map (·.2)).getD 0

end Sys2Proof.Machine
end

