-- ==== Sys2Proof/Machine/Ops.lean ====
section
/-! DEFINITION. The named operations over the state that more than one family uses: access to cores, parishes and
allotments; charging and halting runs; the column map (R133 to R135); suspect units (R466, R467); and taking a core
exception (R80 to R82, R464) as one shared operation. -/

namespace Sys2Proof.Machine

/-! ### Access -/

/-- The core at a logical position. -/
def State.core (s : State) (p : Pos) : Core := s.cores.get {} p.id

/-- `s` with the core at a position replaced. -/
def State.setCore (s : State) (p : Pos) (c : Core) : State := { s with cores := s.cores.put p.id c }

/-- `s` with the core at a position updated. -/
def State.updCore (s : State) (p : Pos) (f : Core → Core) : State := s.setCore p (f (s.core p))

/-- The crossroads at a logical position. -/
def State.xroad (s : State) (p : Pos) : Xroad := s.xroads.get {} p.id

def State.setXroad (s : State) (p : Pos) (x : Xroad) : State := { s with xroads := s.xroads.put p.id x }

/-- A parish. -/
def State.parish (s : State) (p : Nat) : Parish := s.parishes.get {} p

def State.setParish (s : State) (p : Nat) (x : Parish) : State := { s with parishes := s.parishes.put p x }

def State.updParish (s : State) (p : Nat) (f : Parish → Parish) : State := s.setParish p (f (s.parish p))

/-- Something happens in a parish by which it is not quiet (R272). -/
def State.stir (s : State) (par : Nat) : State := { s with stirred := s.stirred.insert par }

/-- The core at a position has retired an instruction that is no wait, and is left as `c`; one that stays at the instruction
has retired none (R272). -/
def State.retire (s : State) (p : Pos) (c : Core) : State :=
  { s with cores := s.cores.put p.id c, stirred := if c.wait = .none then s.stirred.insert p.parish else s.stirred }

/-- An allotment. -/
def State.allot (s : State) (a : Nat) : Allot := s.allots.get {} a

def State.setAllot (s : State) (a : Nat) (x : Allot) : State := { s with allots := s.allots.put a x }

def State.updAllot (s : State) (a : Nat) (f : Allot → Allot) : State := s.setAllot a (f (s.allot a))

/-- `s` with the program in execution of an allotment updated, where there is one. -/
def State.updExec (s : State) (a : Nat) (f : Exec → Exec) : State :=
  s.updAllot a fun x => { x with exec := x.exec.map f }

/-- The allotment that contains a parish, if any (R144). -/
def State.allotOf (s : State) (par : Nat) : Option Nat :=
  (s.allots.search (fun _ x => decide (x.st ≠ .free) && bit x.parishes par)).map (·.1)

/-- The allotment that holds a tag, if any (R144). -/
def State.allotOfTag (s : State) (tag : Nat) : Option Nat :=
  (s.allots.search (fun _ x => decide (x.st ≠ .free ∧ x.tag = tag))).map (·.1)

/-- The parishes of an allotment, in ascending order. -/
def Allot.parishList (x : Allot) : List (Fin 78) := (List.finRange 78).filter fun p => bit x.parishes p

/-- The bell tick. -/
def State.tick (s : State) : Nat := s.bell.count.toNat

/-! ### Runs -/

/-- The section of a run in a program. -/
def Prog.sectOf (g : Prog) (r : RunId) : Option Sect := g.sects[r.sect]?

/-- SECSEQ of a run of an allotment's program; all ones where no run is under way (R367). -/
def Allot.secseqOf (x : Allot) (r : Option RunId) : Nat :=
  match x.prog, r with
  | some g, some r => ((g.sectOf r).map (·.secseq)).getD 0xFFFFFFFF
  | _, _ => 0xFFFFFFFF

/-- The run under way: the oldest that has launched and not ended. -/
def Exec.curRun (e : Exec) : Option RunId :=
  if e.ended < e.launched then (e.fills[e.ended]?).map (·.1) else none

/-- The places of the live runs, launched and not ended, in order. -/
def Exec.live (e : Exec) : List Nat := (List.range (e.launched - e.ended)).map (e.ended + ·)

/-- The book of a run, by its place. -/
def Exec.book (e : Exec) (i : Nat) : RunBook := Tab.get {} e.books i

def Exec.updBook (e : Exec) (i : Nat) (f : RunBook → RunBook) : Exec := { e with books := e.books.put i (f (e.book i)) }

def Allot.curRun (x : Allot) : Option RunId := x.exec.bind Exec.curRun

/-- The number of a run, zero where none is under way (R367). -/
def runNum (r : Option RunId) : Nat := (r.map (·.num)).getD 0

/-- Marks a run's results invalid. -/
def Exec.charge (e : Exec) (r : RunId) : Exec :=
  if e.invalid.contains r then e else { e with invalid := e.invalid ++ [r] }

/-- Marks the results of a run of an allotment invalid, where there is one. -/
def State.chargeRun (s : State) (a : Nat) (r : Option RunId) : State :=
  match r with
  | some r => s.updExec a fun e => e.charge r
  | none => s

/-- Marks the results of the run under way in an allotment invalid. -/
def State.chargeCur (s : State) (a : Nat) : State := s.chargeRun a (s.allot a).curRun

/-- The ACTIVE bank, or the bank that was. -/
def Core.active (c : Core) : Bank := if c.activeB then c.bankB else c.bankA

/-- The run a core executes: that of its ACTIVE bank (R79, R147). -/
def State.coreRun (s : State) (p : Pos) : Option RunId :=
  let c := s.core p
  match s.allotOf p.parish with
  | none => none
  | some a =>
    if c.active.st = .active then (s.allot a).exec.bind fun e => (e.fills[c.active.run]?).map (·.1) else (s.allot a).curRun

/-- The run of an allotment that carries a colour, where one was filled with it (R148). -/
def Exec.runOfColour (e : Exec) (c : BitVec 2) : Option RunId :=
  (e.fills.reverse.find? (fun x => x.2 = c)).map (·.1)

/-- Whether an allotment's program in execution has noted a once-per-run mark for a run, the one under way unless another is
named. -/
def State.noted (s : State) (a kind key : Nat) (r : Option RunId := (s.allot a).curRun) : Bool :=
  match (s.allot a).exec with
  | some e => e.once.contains (r, kind, key)
  | none => false

/-- Notes a once-per-run mark. -/
def State.note (s : State) (a kind key : Nat) (r : Option RunId := (s.allot a).curRun) : State :=
  s.updExec a fun e => { e with once := (r, kind, key) :: e.once }

/-- The allotment halts at the next bell tick, after step 3 of R248; the first reason stands, but a fault goes before
a command (R479). -/
def State.haltNext (s : State) (a : Nat) (why : HaltWhy) : State :=
  if (s.allot a).st = .running then
    s.updAllot a fun x => { x with haltAt :=
      match x.haltAt with
      | some .haltCmd => some why
      | some .close => if why = .haltCmd then some .close else some why
      | some w => some w
      | none => some why }
  else s

/-- A run of an allotment, the one under way unless another is named, fails by a fault: its results are invalid and the
allotment halts at the next tick (R82, R464, R469). -/
def State.failRun (s : State) (a : Nat) (r : Option RunId := (s.allot a).curRun) : State :=
  (s.chargeRun a r).haltNext a .fault

/-! ### The column map (R133 to R137) -/

/-- Base offset of a parish block (R488). -/
def parishBase (p : Nat) : Nat := 0x400000 + 0x10000 * p

/-- Nanoseconds of a tick count at the present period: n periods of 6.4 ns (R245). -/
def State.ticksNs (s : State) (t : Nat) : Nat := t * s.bell.n * 32 / 5

/-- Beats of a parish in a tick, from its beat reference (R140, R374); until the first reading, from the rate measured at
bring-up. -/
def State.beatsOf (s : State) (par : Nat) : Nat :=
  let rate := bits (s.reg (parishBase par + 0x1520)) 0 16
  (if rate = 0 then (s.parish par).rateNom else rate) * s.ticksNs 1 / 1000

/-- The grant in fact applied (R382, R384, R402). -/
def Parish.gEff (x : Parish) : Nat := let g := min x.grant x.throttle; if x.droop then g / 2 else g

/-- The grant applied over a tick of `ns` nanoseconds so far, in quota nanoseconds, and as it stands for the rest of it (R382). -/
def Parish.gOver (x : Parish) (ns : Nat) : Nat := x.gSum + x.gEff * (ns - x.gSince)

/-- The parish with the grant applied up to a nanosecond of the tick settled, before it changes there (R382). -/
def Parish.settleGrant (x : Parish) (ns : Nat) : Parish :=
  if ns ≤ x.gSince then x else { x with gSum := x.gOver ns, gSince := ns }

/-- The beats a core of a parish may keep its matrix row pipe busy in a tick (R374). -/
def State.allowance (s : State) (par : Nat) : Nat := ceilDiv ((s.parish par).gEff * s.beatsOf par) 256

/-- Whether DEADMAP marks a physical row of a column dead (R141). -/
def State.rowDead (s : State) (par col r : Nat) : Bool :=
  if r < 64 then bit (s.reg (parishBase par + 0x1000 + 0x10 * col)) r
  else bit (s.reg (parishBase par + 0x1008 + 0x10 * col)) (r - 64)

/-- The live physical rows of a column, from the north (R133). -/
def State.liveRows (s : State) (par col : Nat) : List Nat :=
  (List.range 100).filter fun r => !s.rowDead par col r

/-- Whether a column is marked fallow in FALLOW (R141). -/
def State.fallowBit (s : State) (par col : Nat) : Bool :=
  if col < 64 then bit (s.reg (parishBase par + 0x1500)) col
  else bit (s.reg (parishBase par + 0x1508)) (col - 64)

/-- Whether a column is fallow: marked, or with more than four dead sites (R133, R136). -/
def State.fallow (s : State) (par col : Nat) : Bool :=
  s.fallowBit par col || decide ((s.liveRows par col).length < 96)

/-- The physical row of a logical row (R133); 0 in a column that has no such site. -/
def State.physRow (s : State) (par col row : Nat) : Nat := ((s.liveRows par col)[row]?).getD 0

/-- The logical position held at a physical site, if it holds one. -/
def State.logicalRow (s : State) (par col phys : Nat) : Option Nat :=
  let l := s.liveRows par col
  let i := l.findIdx (· == phys)
  if i < 96 ∧ i < l.length then some i else none

/-- Whether a position holds a core that can work: its column is not fallow, its parish is powered. -/
def State.alive (s : State) (p : Pos) : Bool :=
  let x := s.parish p.parish
  x.railOn && !x.dark && !s.fallow p.parish p.col

/-- The usable logical cores: those of columns that are not fallow, in parishes that are lit and not isolated. -/
def State.usableCores (s : State) : Nat :=
  ((List.range 78).map fun par =>
    let x := s.parish par
    if x.railOn && !x.dark && !x.isolated then
      96 * ((List.range 80).filter fun c => !s.fallow par c).length
    else 0).sum

/-- A unit is lost with a cause of R448: a module in service is DEGRADED_READY, and raises the event for a new
cause. -/
def State.degrade (s : State) (bitNo : Nat) : State :=
  if s.boot.st = .ready ∨ s.boot.st = .degradedReady then
    let new := !bit s.boot.cause bitNo
    let s := { s with boot := { s.boot with st := .degradedReady, cause := setBit s.boot.cause bitNo true } }
    if new then
      s.raise evDegradedReady none [(s.boot.cause.toNat, 2), (s.usableCores, 4), (s.boot.set.length, 1)] [.sessions]
    else s
  else s

/-- Fallow columns of a parish, and of the device. -/
def State.fallowColumns (s : State) (par : Nat) : List Nat := (List.range 80).filter fun c => s.fallow par c
def State.fallowCount (s : State) : Nat := ((List.range 78).map fun p => (s.fallowColumns p).length).sum

/-- Whether the fallow columns are within the grade (R1). -/
def State.gradeMet (s : State) : Bool := decide (s.fallowCount ≤ if s.fuses.grade = 1 then 12 else 40)

/-- Columns made fallow beyond the grade degrade a module in service (R1, R448). -/
def State.checkGrade (s : State) : State := if s.gradeMet then s else s.degrade 1

/-- Whether a position's core issues nothing: it does not work, or its allotment is HALTED (R146). -/
def State.frozen (s : State) (p : Pos) : Bool :=
  !s.alive p ||
    (match s.allotOf p.parish with
     | some a => decide ((s.allot a).st = .halted)
     | none => false)

/-! ### Rails (R21, R22), numbered in the order of R21's table -/

/-- HUB-HSnn. -/
def hubRail (h : Nat) : Nat := 78 + h
def clkRail : Nat := 94
/-- MEM-SGn. -/
def memRail (g : Nat) : Nat := 95 + g
/-- The optical rail of a fabric port's engine. -/
def optRail (p : Nat) : Nat := 103 + p / 16
/-- GST-GSn. -/
def guestRail (g : Nat) : Nat := 107 + g
def hkRail : Nat := 111

/-- The rails with two regulators (R21). -/
def twoRegulators (rail : Nat) : Bool := decide (rail < 79 ∨ rail = clkRail)

/-- Whether a regulator has failed. DESIGN CHOICE (log entry 79): a failed regulator stays failed over every restart. -/
def State.regFailed (s : State) (rail : Nat) (second : Bool) : Bool := s.failedRegs.contains (rail, second)

/-- A regulator fails. -/
def State.failReg (s : State) (rail : Nat) (second : Bool) : State :=
  if s.regFailed rail second then s else { s with failedRegs := (rail, second) :: s.failedRegs }

/-- Whether no regulator of a rail works: both have failed, or the only one (R22, R386). -/
def State.regsDown (s : State) (rail : Nat) : Bool :=
  if twoRegulators rail then s.regFailed rail false && s.regFailed rail true
  else s.regFailed rail false || s.regFailed rail true

/-- Whether a rail that R386 or R472 removes stands. -/
def State.railUp (s : State) (rail : Nat) : Bool := !s.boot.railsOff.contains rail

/-! ### Suspect units (R466, R467, R480) -/

/-- The index of a suspect entry for a unit. -/
def Ras.indexOf (r : Ras) (kind : BitVec 2) (par col row : Nat) (port : BitVec 2) : Option Nat :=
  (r.suspects.search (fun _ e => decide (e.kind = kind ∧ e.parish = par ∧ e.column = col ∧ e.row = row ∧
    e.port = port))).map (·.1)

/-- The suspect entry of an index. -/
def Ras.entry (r : Ras) (i : Nat) : Suspect := (r.suspects.find? i).getD { kind := 0, parish := 0 }

/-- A strike: the unit's entry counts it; a unit without one takes the lowest free of the 256 (R466). DESIGN CHOICE
(log entry 12): with all 256 in use a new unit is not entered. -/
def Ras.strike (r : Ras) (kind : BitVec 2) (par col row : Nat) (port : BitVec 2) (ce : Bool) : Ras × Option Nat :=
  match r.indexOf kind par col row port with
  | some i =>
    let e := r.entry i
    let e : Suspect := { e with strikes := e.strikes + 1, ceStrikes := e.ceStrikes + b2n ce }
    ({ r with suspects := r.suspects.put i e }, some i)
  | none =>
    match (List.range 256).find? (fun i => (r.suspects.find? i).isNone) with
    | none => (r, none)
    | some i =>
      let e : Suspect := { kind := kind, parish := par, column := col, row := row, port := port,
                           strikes := 1, ceStrikes := b2n ce }
      ({ r with suspects := r.suspects.put i e }, some i)

/-- SUSPECT_UNIT of an entry with an action (R483, R506). -/
def State.raiseSuspect (s : State) (i action : Nat) : State :=
  let e := s.ras.entry i
  let a := s.allotOf e.parish
  s.raise evSuspectUnit a
    [(e.kind.toNat, 1), (e.parish, 1), (e.column, 1), (e.row, 1), (min e.strikes 15, 1), (action, 1)]
    (if e.kind = 1 then (a.map Dest.allot).toList else [])

/-- A site becomes soft-dead: its repair waits (R467), and the entry shows it (R480). -/
def State.softDead (s : State) (par : Fin 78) (col : Fin 80) (phys : Nat) (i : Option Nat) : State :=
  let rep : Repair := { parish := par, col := col, row := phys }
  let s := if s.ras.repairs.contains rep then s else
    { s with ras := { s.ras with repairs := s.ras.repairs ++ [rep] } }
  match i with
  | none => s
  | some i =>
    let e := s.ras.entry i
    let s := { s with ras := { s.ras with suspects := s.ras.suspects.put i { e with st := 2 } } }
    s.raiseSuspect i 3

/-- A strike of a core site: the third CORE_SRAM_CE_THRESHOLD or any CORE_LOST makes it soft-dead (R466). -/
def State.strikeSite (s : State) (p : Pos) (lost : Bool) : State :=
  let phys := s.physRow p.parish p.col p.row
  let r := s.ras.strike 1 p.parish p.col phys 0 (!lost)
  let s := { s with ras := r.1 }
  let n : Nat := match r.2 with
    | some i => (s.ras.entry i).ceStrikes
    | none => 0
  if lost ∨ n ≥ 3 then s.softDead p.parish p.col phys r.2 else s

/-- A strike of a parish: the suspect offset rises by 10 mV to at most 30; a strike at 30 raises SUSPECT_UNIT and
lowers the issue cap by 32 to no less than 128 (R466). -/
def State.strikeParish (s : State) (par : Nat) : State :=
  let r := s.ras.strike 0 par 0 0 0 false
  let s := { s with ras := r.1 }
  let x := s.parish par
  let s := match r.2 with
    | some i =>
      let e := s.ras.entry i
      { s with ras := { s.ras with suspects := s.ras.suspects.put i { e with st := 1 } } }
    | none => s
  if x.suspectOfs ≥ 30 then
    let s := s.setParish par { x with issueCap := max 128 (x.issueCap - 32) }
    match r.2 with
    | some i => s.raiseSuspect i 2
    | none => s
  else s.setParish par { x with suspectOfs := x.suspectOfs + 10 }

/-- RECORD_APPEND_FAIL for each device that could not be written and read back (R437). -/
def State.appendFails (s : State) (typ : Nat) (okA okB : Bool) : State :=
  let f (s : State) (ok : Bool) (d : Nat) : State := if ok then s else s.raise evRecordAppendFail none [(typ, 2), (d, 1)] []
  f (f s okA 0) okB 1

/-- A PPR record is appended (R437). -/
def State.appendPpr (s : State) (okA okB : Bool) : State :=
  { s with store := s.store.append (.ppr s.store.pprList) okA okB }.appendFails 2 okA okB

/-- A changed list of rows awaiting repair is appended as a PPR record (R437). No command carries whether the two devices
take it: a free value decides (log entry 80). One due during a warm restart waits for READY (R454). -/
def State.listRows (s : State) (l : List (Nat × Word)) : State :=
  let t := { s with store := { s.store with pprList := l } }
  if s.boot.st = .restarting then { t with boot := { s.boot with pprDue := true } }
  else t.drawn.appendPpr (bit s.draw 0) (bit s.draw 1)

/-- A strike of a stack row: listed for repair (R466, R200). -/
def State.strikeRow (s : State) (stack : Nat) (row : Word) : State :=
  let s := { s with ras := (s.ras.strike 3 stack 0 row.toNat 0 false).1 }
  let n := s.store.pprList
  if n.contains (stack, row) ∨ n.length ≥ 4096 then s else s.listRows (n ++ [(stack, row)])

/-! ### Core exceptions (R80 to R82, R461, R464) -/

/-- The causes, in the order in which R82 chooses among several. -/
inductive Cause where
  | fetchUe | pc | pred | opcode | reserved | fmt | queue | index | wbuf | rows | poison | addr | align | ro
  deriving DecidableEq, Repr

/-- The cause code (R80). -/
def Cause.code (c : Cause) : Nat :=
  let l : List Cause := [.opcode, .reserved, .pred, .addr, .align, .ro, .pc, .queue, .index, .wbuf, .fmt, .rows]
  if c = .fetchUe then 0x10 else if c = .poison then 0x20 else 1 + l.idxOf c

/-- Rank of a cause in R82's order. -/
def Cause.rank (c : Cause) : Nat :=
  let l : List Cause :=
    [.fetchUe, .pc, .pred, .opcode, .reserved, .fmt, .queue, .index, .wbuf, .rows, .poison, .addr, .align, .ro]
  1 + l.idxOf c

/-- The cause reported when several conditions hold: the first in R82's order. -/
def firstCause : List (Bool × Cause) → Option Cause
  | [] => none
  | (false, _) :: t => firstCause t
  | (true, c) :: t =>
    match firstCause t with
    | none => some c
    | some d => if d.rank < c.rank then some d else some c

/-- The event of a cause (R80). -/
def Cause.event : Cause → Nat
  | .fetchUe => evCoreSramUe
  | .poison => evPoisonConsumed
  | _ => evCoreIllegalOp

/-- The record of a core exception (R367): core ID, cause, PC, instruction word, SECSEQ, run. -/
def coreRecord (p : Pos) (c : Core) (cause : Nat) (word : Word) (run : Nat) : List (Nat × Nat) :=
  [(p.id, 4), (cause, 1), (c.pc, 2), (word.toNat, 4), (c.secseq.toNat, 4), (run, 1)]

/-- The record of POISON_CONSUMED (R367), one layout at every observation point. -/
def poisonRecord (id point pc word secseq run count dpa : Nat) : List (Nat × Nat) :=
  [(id, 4), (0x20, 1), (point, 1), (pc, 2), (word, 4), (secseq, 4), (run, 1), (count, 4), (dpa, 8)]

/-- An observation point met by an allotment (R464): counted; POISON_CONSUMED once per run; with `ends` the run
`r` fails and the allotment halts at the next tick. -/
def State.observe (s : State) (a : Nat) (ends : Bool) (record : List (Nat × Nat))
    (r : Option RunId := (s.allot a).curRun) : State :=
  let s := s.bump (0x60100 + 8 * a)
  let s := if s.noted a evPoisonConsumed 0 r then s
    else (s.raiseA evPoisonConsumed a record).note a evPoisonConsumed 0 r
  if ends then s.failRun a r else s

/-- Taking a core exception: the event is raised, the core halts at the faulting instruction, and its allotment halts
at the next tick with the run the core executes invalid (R82, R464). -/
def State.except (s : State) (p : Pos) (word : Word) (k : Cause) : State :=
  let c := s.core p
  let s := s.setCore p { c with mode := .halted }
  match s.allotOf p.parish with
  | none => s
  | some a =>
    let r := s.coreRun p
    if k = .poison then
      s.observe a true (poisonRecord p.id 0 c.pc word.toNat c.secseq.toNat (runNum r) 1 0) r
    else (s.raiseA k.event a (coreRecord p c k.code word (runNum r))).failRun a r

end Sys2Proof.Machine
end

