-- ==== Sys2Proof/Machine/Reg.lean ====
section
/-! DEFINITION. Register space as such (R485 to R503): its blocks, who may write, the key guard, posted writes and
absent blocks. What a register does when a write takes effect is in the file of its unit. -/

namespace Sys2Proof.Machine

/-! ### Blocks (R488) -/

/-- The base of a 64 KiB block by its number. -/
def wideBlock (i : Nat) : Nat := 65536 * i

/-- Block bases. -/
def clkBase := wideBlock 0x02
def bellBase := wideBlock 0x03
def reeveBase := wideBlock 0x04
def rasBase := wideBlock 0x06
def ledgerBase := wideBlock 0x08
def hostBase := wideBlock 0x09
def gateBase := wideBlock 0x0A
def fabricBase := wideBlock 0x0C
def routeBase := wideBlock 0x90
def configBase := wideBlock 0xA0
def portBase (n : Nat) : Nat := 0x100000 + 0x1000 * n
def mcBase (m : Nat) : Nat := 0x200000 + 0x4000 * m

/-- The base of the block that holds an offset; none for a reserved address (R488). -/
def blockOf (o : Nat) : Option Nat :=
  if o < 0x010000 then some 0
  else if o < 0x100000 then
    let b := o / 0x10000 * 0x10000
    if [0x020000, 0x030000, 0x040000, 0x060000, 0x080000, 0x090000, 0x0A0000, 0x0C0000].contains b then some b else none
  else if o < 0x140000 then some (o / 0x1000 * 0x1000)
  else if 0x200000 ≤ o ∧ o < 0x300000 then some (o / 0x4000 * 0x4000)
  else if 0x400000 ≤ o ∧ o < 0x8E0000 then some (o / 0x10000 * 0x10000)
  else if 0x900000 ≤ o ∧ o < 0x910000 then some 0x900000
  else if 0xA00000 ≤ o ∧ o < 0xA10000 then some 0xA00000
  else none

/-- The parish whose block an offset lies in. -/
def parishOfOff (o : Nat) : Option Nat := if 0x400000 ≤ o ∧ o < 0x8E0000 then some ((o - 0x400000) / 0x10000) else none

/-- The stack whose memory controller's block an offset lies in. -/
def stackOfOff (o : Nat) : Option Nat := if 0x200000 ≤ o ∧ o < 0x300000 then some ((o - 0x200000) / 0x4000) else none

/-- The port whose block an offset lies in. -/
def portOfOff (o : Nat) : Option Nat := if 0x100000 ≤ o ∧ o < 0x140000 then some ((o - 0x100000) / 0x1000) else none

/-- Whether writes to a block are posted (R494). -/
def postedBlock (o : Nat) : Bool := (parishOfOff o).isSome || (stackOfOff o).isSome

/-- Whether HS00 and its service are up: power is good, and the module is past the boot ROM. -/
def State.up (s : State) : Bool :=
  s.pins.pwrGood && !s.boot.stopped &&
    (match s.boot.st with
     | .off | .coldReset | .strapHalt | .recovery => false
     | _ => true)

/-- Whether a hub sector is in service (R480). -/
def State.sectorUp (s : State) (h : Nat) : Bool := bit s.boot.sectors h

/-- Whether a stack position is populated: all on a B part; on an A part not those of odd row and odd column
(R187). -/
def stackPopulated (orderB : Bool) (m : Nat) : Bool := orderB || !decide (m / 8 % 2 = 1 ∧ m % 2 = 1)

/-- Whether a fabric port is populated: all on an F part, the even ports on an H part (R281). -/
def portPopulated (orderF : Bool) (p : Nat) : Bool := orderF || decide (p % 2 = 0)

/-- Whether a register is held by a unit that is absent or out of service, so that it reads zero and ignores writes
(R490). -/
def State.absent (s : State) (o : Nat) : Bool :=
  match parishOfOff o with
  | some p =>
    let r := o % 0x10000
    let x := s.parish p
    (x.dark || x.isolated || !x.railOn) && !(decide (r < 0x1000) || decide (0x4000 ≤ r ∧ r < 0x5000))
  | none =>
    match stackOfOff o with
    | some m => !stackPopulated s.fuses.orderB m || !s.sectorUp (stackSector m)
    | none =>
      match portOfOff o with
      | some p => !portPopulated s.fuses.orderF p || !s.sectorUp (portSector p)
      | none => (blockOf o).isNone

/-! ### The key guard (R496 to R500) -/

/-- The guard of a block. -/
def State.guard (s : State) (b : Nat) : Guard := s.guards.get {} b

def State.setGuard (s : State) (b : Nat) (g : Guard) : State := { s with guards := s.guards.put b g }

/-- The next write from a management session consumes the arm (R498). -/
def State.consumeArm (s : State) (path : RegPath) (b : Nat) : State :=
  match path with
  | .session _ => s.setGuard b { s.guard b with armed := false }
  | _ => s

/-- Whether a RWK write from a path takes effect: stewards always, a session where the block is armed and not locked
(R497 to R500). -/
def State.keyed (s : State) (path : RegPath) (b : Nat) : Bool :=
  match path with
  | .steward => true
  | .session _ => (s.guard b).armed && !(s.guard b).locked
  | .core _ => false

/-- An open management session (R486). -/
def State.mgmt (s : State) (id : BitVec 12) : Bool :=
  match s.ses.find? id.toNat with
  | some x => x.mgmt && x.attached && !x.ending
  | none => false

/-- What R486 and R487 let a path write: stewards and management sessions every block, a core six registers of its
own parish block. -/
def coreWritable (r : Nat) : Bool := [0x008, 0x1530, 0x1538, 0x2000, 0x2020, 0x2028].contains r

/-- Whether a path reaches a register at all: a core reaches its own parish block. -/
def State.reaches (s : State) (path : RegPath) (o : Nat) : Bool :=
  s.up && (blockOf o).isSome &&
    (match path with
     | .steward => true
     | .session id => s.mgmt id
     | .core p => decide (parishOfOff o = some p.parish.val))

/-- A core's write to a register of its block outside R487's six is ignored and sets CORE_WRITE_IGNORED. -/
def State.coreIgnored (path : RegPath) (o : Nat) : Bool :=
  match path with
  | .core _ => !coreWritable (o % 0x10000)
  | _ => false

/-- The gate of a write to an immediate block: whether it takes effect, with the arm consumed and NOT_ARMED set where
a RWK write found the block unarmed (R486, R490, R493, R498). -/
def State.gate (s : State) (path : RegPath) (o : Nat) (rwk : Bool) : State × Bool :=
  if !s.reaches path o then (s, false)
  else
    let b := (blockOf o).getD 0
    let ok := !rwk || s.keyed path b
    let s := s.consumeArm path b
    if s.absent o then (s, false)
    else if ok then (s, true)
    else (s.setGuard b { s.guard b with notArmed := true }, false)

/-- An immediate write: the effect where the gate lets it through. -/
def State.writeNow (s : State) (path : RegPath) (o : Nat) (rwk : Bool) (eff : State → State) : State :=
  let g := s.gate path o rwk
  if g.2 then eff g.1 else g.1

/-- STATUS of a parish or memory-controller block. -/
def statusOff (b : Nat) : Nat := b + 8

/-- A write to a posted block (R494, R495): dropped with WRITE_LOST while BUSY, else taken, with BUSY set. A steward
write that finds BUSY set waits for it to clear: `done` completes the write pending. -/
def State.postWrite (s : State) (path : RegPath) (o : Nat) (value : DWord) (rwk : Bool) (done : State → State) :
    State :=
  if !s.reaches path o then s
  else
    let b := (blockOf o).getD 0
    if State.coreIgnored path o then s.orReg (statusOff b) 4
    else
      let ok := !rwk || s.keyed path b
      let s := s.consumeArm path b
      if s.absent o then s
      else
        let busy := (s.posted.find? b).isSome
        if busy ∧ path ≠ .steward then s.orReg (statusOff b) 2
        else if !ok then s.setGuard b { s.guard b with notArmed := true }
        else
          let s := if busy then done s else s
          { s with posted := s.posted.put b { offset := o, value := value } }

/-- A tick is suspect: counted once, and the latest shown (R251, R277). -/
def State.countSuspect (s : State) (t : Nat) : State :=
  if s.bell.suspects.contains t then s
  else
    let last := (s.reg (bellBase + 0x40)).toNat
    ({ s with bell := { s.bell with suspects := t :: s.bell.suspects } }.bump (bellBase + 0x38)).setReg (bellBase + 0x40)
      (BitVec.ofNat 64 (max last t))

/-- A tick is suspect for a short pulse (R251). -/
def State.forceSuspect (s : State) (t : Nat) : State :=
  { s with bell := { s.bell with forced := t :: s.bell.forced } }.countSuspect t

/-- A write of a W1C register: the flags written 1 among `m` clear (R493). -/
def State.w1c (s : State) (o : Nat) (m value : DWord) : State := s.setReg o (s.reg o &&& ~~~ (value &&& m))

/-- A write to a key guard's UNLOCK (R498 to R500). -/
def State.unlockWrite (s : State) (path : RegPath) (b : Nat) (value : DWord) : State :=
  match path with
  | .session id =>
    let g := s.guard b
    if g.locked then s
    else if value = 0x6B71 then s.setGuard b { g with armed := true, armedBy := id }
    else if g.faults ≥ 15 then
      (s.setGuard b { g with armed := false, locked := true, faults := 16 }).raise evKeyLockout none [(b, 4)] [.sessions]
    else s.setGuard b { g with armed := false, faults := g.faults + 1 }
  | _ => s

/-- UNLOCK: arms the block, counts a wrong key, or locks it (R498 to R500); a core's write is ignored and shown in
STATUS, a steward is not subject to the guard (R487, R497). It is never posted nor dropped (R489). -/
def execUnlock (path : RegPath) (block : BitVec 24) (value : DWord) (s : State) : Host.Outcome State Fault Refusal :=
  let o := block.toNat + 0xFF8
  .next (if !s.reaches path o ∨ blockOf o ≠ some block.toNat then s
    else if State.coreIgnored path o then s.orReg (statusOff block.toNat) 4
    else if s.absent o then s
    else s.unlockWrite path block.toNat value)

/-! ### Fabric ports as other units see them (R229, R287) -/

/-- A fabric port. -/
def State.port (s : State) (p : Nat) : Port := s.ports.get {} p

/-- Whether a port carries traffic. -/
def Port.carries (x : Port) : Bool := decide (x.st = .up ∨ x.st = .degraded ∨ x.st = .draining)

/-! ### Ranges of the device physical address space -/

/-- Commons windows start here; each covers 16 GiB (R301). -/
def commonsBase : Nat := 0x080000000000
/-- The field SRAM direct view starts here, 128 KiB a core ID (R40). -/
def directBase : Nat := 0x0C0000000000
/-- Register space, 16 MiB (R485). -/
def registerBase : Nat := 0x0E0000000000
/-- Guest windows start here, 64 GiB a site (R422). -/
def guestBase : Nat := 0x0F0000000000

end Sys2Proof.Machine
end

