-- ==== Sys2Proof/Machine/Operands.lean ====
section
/-! DEFINITION. The operand forms of the core's instructions: the word of each format (R44, R45), the registers and
their poison (R42, R43), and the checks every instruction passes before it takes effect (R44, R45, R53, R80, R82). -/

namespace Sys2Proof.Machine

/-! ### Instruction words (R45, R46) -/

/-- Format R with its CLASS and FUNC. -/
def wordR (cls : BitVec 4) (func : BitVec 6) (f : FmtR) : Word :=
  (f.pr.pn ++ f.pr.ps ++ cls ++ func ++ f.rd ++ f.ra ++ f.rb ++ f.rsv : BitVec (1 + 3 + 4 + 6 + 5 + 5 + 5 + 3))

/-- Format I with its CLASS and F3. -/
def wordI (cls : BitVec 4) (f3 : BitVec 3) (f : FmtI) : Word :=
  (f.pr.pn ++ f.pr.ps ++ cls ++ f3 ++ f.rd ++ f.ra ++ f.imm : BitVec (1 + 3 + 4 + 3 + 5 + 5 + 11))

/-- Format U with its CLASS and H. -/
def wordU (cls : BitVec 4) (h : BitVec 1) (f : FmtU) : Word :=
  (f.pr.pn ++ f.pr.ps ++ cls ++ f.rd ++ h ++ f.imm : BitVec (1 + 3 + 4 + 5 + 1 + 18))

/-- Format B with its COND. -/
def wordB (cond : BitVec 3) (f : FmtB) : Word :=
  (f.pr.pn ++ f.pr.ps ++ (0x5 : BitVec 4) ++ cond ++ f.ra ++ f.rb ++ f.off : BitVec (1 + 3 + 4 + 3 + 5 + 5 + 11))

/-- Format V with its CLASS and VFUNC. -/
def wordV (cls : BitVec 4) (vf : BitVec 5) (f : FmtV) : Word :=
  (f.pr.pn ++ f.pr.ps ++ cls ++ vf ++ f.vd ++ f.va ++ f.vb ++ f.vc ++ f.mode :
    BitVec (1 + 3 + 4 + 5 + 4 + 4 + 4 + 4 + 3))

/-- Format VM with its VOP. -/
def wordVM (vop : BitVec 3) (f : FmtVM) : Word :=
  (f.pr.pn ++ f.pr.ps ++ (0x9 : BitVec 4) ++ vop ++ f.vd ++ f.ra ++ f.off : BitVec (1 + 3 + 4 + 3 + 4 + 5 + 12))

/-- Format Q with its QOP. -/
def wordQ (qop : BitVec 4) (f : FmtQ) : Word :=
  (f.pr.pn ++ f.pr.ps ++ (0xB : BitVec 4) ++ qop ++ f.q ++ f.vr ++ f.n1 ++ f.pd ++ f.rs ++ f.rsv :
    BitVec (1 + 3 + 4 + 4 + 3 + 4 + 2 + 3 + 5 + 3))

/-- Format T with its TOP. -/
def wordT (top : BitVec 3) (f : FmtT) : Word :=
  (f.pr.pn ++ f.pr.ps ++ (0xC : BitVec 4) ++ top ++ f.lvl ++ f.idx ++ f.rs ++ f.one ++ f.rsv :
    BitVec (1 + 3 + 4 + 3 + 2 + 12 + 5 + 1 + 1))

/-- Format M with its MOP. -/
def wordM (mop : BitVec 3) (f : FmtM) : Word :=
  (f.pr.pn ++ f.pr.ps ++ (0xA : BitVec 4) ++ mop ++ f.acc ++ f.w ++ f.a ++ f.b ++ f.sa ++ f.sb ++ f.rsv :
    BitVec (1 + 3 + 4 + 3 + 2 + 1 + 4 + 3 + 5 + 5 + 1))

/-- Format D with its DOP. -/
def wordD (dop : BitVec 2) (f : FmtD) : Word :=
  (f.pr.pn ++ f.pr.ps ++ (0xD : BitVec 4) ++ dop ++ f.ra ++ f.rd ++ f.rsv : BitVec (1 + 3 + 4 + 2 + 5 + 5 + 12))

/-! ### Registers (R42, R43) -/

/-- A scalar register: s0 reads 0. -/
def Core.sreg (c : Core) (r : BitVec 5) : Word := if r = 0 then 0 else c.s[r.toNat]

/-- The poison bit of a scalar register; s0 has none. -/
def Core.spois (c : Core) (r : BitVec 5) : Bool := decide (r ≠ 0) && bit c.sp r.toNat

/-- Writes a scalar register and its poison bit; a write to s0 is ignored. -/
def Core.setS (c : Core) (r : BitVec 5) (v : Word) (poison : Bool) : Core :=
  if r = 0 then c else { c with s := c.s.set r.toNat v, sp := setBit c.sp r.toNat poison }

/-- A predicate; p0 is always true. -/
def Core.pred (c : Core) (p : BitVec 3) : Bool := decide (p = 0) || bit c.p p.toNat

/-- Writes a predicate; p0 cannot be written. -/
def Core.setP (c : Core) (p : BitVec 3) (v : Bool) : Core :=
  if p = 0 then c else { c with p := setBit c.p p.toNat v }

/-- A vector register. -/
def Core.vreg (c : Core) (r : BitVec 4) : VReg := c.v[r.toNat]

/-- The poison bits of a vector register, one for each quarter. -/
def Core.vpois (c : Core) (r : BitVec 4) : BitVec 4 := c.vp[r.toNat]

/-- Writes a vector register and its quarters' poison bits. -/
def Core.setV (c : Core) (r : BitVec 4) (v : VReg) (poison : BitVec 4) : Core :=
  { c with v := c.v.set r.toNat v, vp := c.vp.set r.toNat poison }

/-- Lane `i` of a vector register value (R42): 32 bits from bit 32i. -/
def lane (v : VReg) (i : Nat) : Word := BitVec.ofNat 32 (bits v (32 * i) 32)

/-- The vector register value of a list of lanes, lane 0 first. -/
def ofLanes (l : List Word) : VReg := BitVec.ofNat 512 (l.foldr (fun w a => w.toNat + 2 ^ 32 * a) 0)

/-- The 16 lanes of a value. -/
def lanes (v : VReg) : List Word := (List.range 16).map (lane v)

/-- The 64 bytes of a value, byte 0 first. -/
def vbytes (v : VReg) : List Byte := leBytes 64 v.toNat

/-- The value of up to 64 bytes. -/
def ofBytes (l : List Byte) : VReg := BitVec.ofNat 512 (leNat l)

/-- All quarters poisoned, or none (R43: reductions, broadcasts and accumulator reads). -/
def allQuarters (b : Bool) : BitVec 4 := if b then 15 else 0

/-- The next instruction. -/
def Core.next (c : Core) : Core := { c with pc := c.pc + 1 }

/-- The shadow bank. -/
def Core.shadow (c : Core) : Bank := if c.activeB then c.bankA else c.bankB

/-- How many runs of its program a core has swapped to. -/
def Core.swapped (c : Core) : Nat := if c.shadow.st = .complete then c.nextFill - 1 else c.nextFill

/-- A byte of a bank; bytes the image did not fill read 0. -/
def Bank.byte (b : Bank) (a : Nat) : Byte := (b.data.find? a).getD 0

/-- `n` bytes of a bank. -/
def Bank.bytes (b : Bank) (a n : Nat) : List Byte := (List.range n).map fun i => b.byte (a + i)

/-- A little-endian value of `n` bytes of a bank. -/
def Bank.nat (b : Bank) (a n : Nat) : Nat := leNat (b.bytes a n)

/-- Whether an ACCRD that has not run will write a vector register: an instruction that reads it waits (R59). DESIGN CHOICE
(log entry 85): an instruction that writes it does not wait, and the ACCRD overwrites what it wrote when it runs. -/
def Core.accrdPending (c : Core) (r : Nat) : Bool :=
  c.mq.any fun
    | .accrd _ _ vd => decide (vd.toNat = r)
    | _ => false

/-- Whether the core issues: a bank is ACTIVE, END has not issued, no exception halted it, nothing is waited for. -/
def Core.canIssue (c : Core) : Bool := decide (c.mode = .running) && decide (c.wait = .none) && !c.dead

/-! ### Checks and their verdict (R53, R82) -/

/-- What an instruction checks: faults of the word alone, faults of actions it performs even when predicated off,
faults checked only when it takes effect (R53); and the vector registers it reads. -/
structure Check where
  word : List (Bool × Cause) := []
  always : List (Bool × Cause) := []
  on : List (Bool × Cause) := []
  reads : List (BitVec 4) := []

/-- What becomes of an instruction: the core cannot issue it now, it faults, it takes effect, or it is predicated
off. -/
inductive Verdict where
  | stuck
  | fault (k : Cause)
  | on
  | off
  deriving DecidableEq, Repr

/-- Whether the predicate lets an instruction take effect: pPS XOR PN (R44). -/
def Core.takes (c : Core) (pr : Pred) : Bool := c.pred pr.ps != decide (pr.pn = 1)

/-- The operation codes a class of R46 assigns, with the field that holds the code: its lowest bit and its width (R47 to
R70). Classes 0x3 and 0x6 have no such field. -/
def assignedCodes : Nat → Option (Nat × Nat × List Nat)
  | 0x0 => some (18, 6, [0, 1, 2, 3, 4, 5, 6])
  | 0x1 => some (18, 6, List.range 12 ++ [0x10, 0x11, 0x12, 0x18, 0x19, 0x1A, 0x1B])
  | 0x2 => some (21, 3, List.range 8)
  | 0x4 => some (21, 3, List.range 5)
  | 0x5 => some (21, 3, List.range 7)
  | 0x7 => some (18, 6, List.range 6 ++ [8, 9, 0xA, 0xB, 0xC])
  | 0x8 => some (19, 5, List.range 7 ++ [8, 9, 0xA, 0xB, 0xC, 0xD, 0xE, 0xF, 0x11, 0x12, 0x13, 0x14, 0x15])
  | 0x9 => some (21, 3, List.range 5)
  | 0xA => some (21, 3, List.range 6)
  | 0xB => some (20, 4, List.range 7)
  | 0xC => some (21, 3, List.range 5)
  | 0xD => some (22, 2, List.range 3)
  | 0xE => some (19, 5, List.range 6)
  | 0x3 => some (0, 0, [0])
  | 0x6 => some (0, 0, [0])
  | _ => none

/-- Whether a word has an assigned class and operation code (R46). -/
def assignedWord (w : Word) : Bool :=
  match assignedCodes (bits w 24 4) with
  | some (lo, len, l) => l.contains (bits w lo len)
  | none => false

/-- The word of the ACTIVE bank's text at the PC (R39, R76). -/
def Core.text (c : Core) : Word := BitVec.ofNat 32 (c.active.nat (4 * c.pc) 4)

/-- Whether the text at the PC, where there is any, holds an assigned operation. -/
def Core.assigned (c : Core) : Bool := decide (c.pc ≥ 1536) || assignedWord c.text

/-- Faults common to every instruction: an uncorrectable error in its text word, a PC outside the text region, and
PN = 1 with PS = 0 (R39, R44, R80). DESIGN CHOICE (log entry 106): a text word that carries the poison pattern is no
such error. -/
def Core.fetchFaults (c : Core) (pr : Pred) : List (Bool × Cause) :=
  [ (decide (c.pc < 1536) && c.active.ue.contains (c.pc / 2), .fetchUe),
    (decide (c.pc ≥ 1536), .pc),
    (decide (pr.pn = 1 ∧ pr.ps = 0), .pred) ]

/-- The faults of a text word whose class or operation code is unassigned, whatever the command says the core issues (R46,
R82). -/
def Core.unassignedFaults (c : Core) : List (Bool × Cause) :=
  c.fetchFaults { pn := BitVec.ofNat 1 (bits c.text 31 1), ps := BitVec.ofNat 3 (bits c.text 28 3) } ++ [(true, .opcode)]

/-- The word an exception reports: the one the command gives, or the unassigned one in the text. -/
def Core.fetched (c : Core) (w : Word) : Word := if c.assigned then w else c.text

/-- The verdict on an instruction. -/
def Core.judge (c : Core) (pr : Pred) (k : Check) : Verdict :=
  if !c.canIssue then .stuck
  else if !c.assigned then .fault ((firstCause c.unassignedFaults).getD .opcode)
  else if c.takes pr && k.reads.any (fun r => c.accrdPending r.toNat) then .stuck
  else
    match firstCause (c.fetchFaults pr ++ k.word ++ k.always ++ (if c.takes pr then k.on else [])) with
    | some x => .fault x
    | none => if c.takes pr then .on else .off

/-- Runs an instruction whose effect is on its core alone. -/
def State.runCore (s : State) (p : Pos) (w : Word) (pr : Pred) (k : Core → Check) (eff : Core → Core)
    (off : Core → Core := Core.next) : State :=
  let c := s.core p
  match (if s.frozen p then .stuck else c.judge pr (k c)) with
  | .stuck => s
  | .fault x => s.except p (c.fetched w) x
  | .on => s.retire p (eff c)
  | .off => s.retire p (off c)

/-- Runs an instruction whose effect goes beyond its core. -/
def State.runWide (s : State) (p : Pos) (w : Word) (pr : Pred) (k : Core → Check) (eff : State → State)
    (off : State → State) : State :=
  let c := s.core p
  match (if s.frozen p then .stuck else c.judge pr (k c)) with
  | .stuck => s
  | .fault x => s.except p (c.fetched w) x
  | .on => eff s
  | .off => off s

/-- A predicated-off instruction that only issues. -/
def State.skipCore (s : State) (p : Pos) : State := s.retire p (s.core p).next

/-- Runs an instruction that is a wait, whose retirement does not stir the parish, or that retires later (R272). -/
def State.runHold (s : State) (p : Pos) (w : Word) (pr : Pred) (k : Core → Check) (eff : Core → Core) : State :=
  s.runWide p w pr k (fun s => s.setCore p (eff (s.core p))) (fun s => s.skipCore p)

end Sys2Proof.Machine
end

