-- ==== Sys2Proof/Machine/Sram.lean ====
section
/-! DEFINITION. A core's local memory: the address map (R38, R39), data SRAM with its poisoned words and errors (R71
to R75), and the configuration bank as the program reads it (R38, R76). -/

namespace Sys2Proof.Machine

/-- Where a local address range lies (R38). -/
inductive Region where
  | data
  | bank
  | nowhere
  deriving DecidableEq, Repr

/-- The region that holds all of `n` bytes at a local address. -/
def regionOf (a n : Nat) : Region :=
  if a + n ≤ 0x18000 then .data
  else if 0x20000 ≤ a ∧ a + n ≤ 0x22000 then .bank
  else .nowhere

/-- What a byte of data SRAM that nothing has written reads as: zero (log entry 7), or, where the contents were lost
(R136), a free value. -/
def Core.sramDefault (c : Core) (a : Nat) : Byte := if c.sramInit = 0 then 0 else Config.lostByte c.sramInit a

/-- A byte of data SRAM. -/
def Core.byte (c : Core) (a : Nat) : Byte := (c.sram.find? a).getD (c.sramDefault a)

/-- Writes a byte of data SRAM; a byte equal to what an unlisted one reads as is not listed. -/
def Core.setByte (c : Core) (a : Nat) (v : Byte) : Core :=
  if v = c.sramDefault a then { c with sram := c.sram.del a } else { c with sram := c.sram.put a v }

/-- `n` bytes of data SRAM. -/
def Core.bytes (c : Core) (a n : Nat) : List Byte := (List.range n).map fun i => c.byte (a + i)

/-- Writes bytes to data SRAM from an address up. -/
def Core.setBytes (c : Core) (a : Nat) : List Byte → Core
  | [] => c
  | b :: t => (c.setByte a b).setBytes (a + 1) t

/-- The 64-bit words a range of bytes touches. -/
def wordsOf (a n : Nat) : List Nat := if n = 0 then [] else (List.range ((a + n - 1) / 8 - a / 8 + 1)).map (a / 8 + ·)

/-- Whether any word of a range carries the poison pattern. -/
def Core.poisoned (c : Core) (a n : Nat) : Bool := (wordsOf a n).any c.sramPoison.contains

/-- Marks or clears the poison pattern of a word. -/
def Core.setPoison (c : Core) (w : Nat) (b : Bool) : Core :=
  { c with sramPoison := if b then (if c.sramPoison.contains w then c.sramPoison else w :: c.sramPoison)
                         else c.sramPoison.filter (· ≠ w) }

/-- What reading a range meets (R74, R75): words with an uncorrectable error take the poison pattern and are
returned for their event; words with a single-bit error are counted and wait to be written back. -/
def Core.touch (c : Core) (a n : Nat) : Core × List Nat :=
  let ws := wordsOf a n
  let bad := ws.filter c.ue.contains
  let fixed := ws.filter c.ce.contains
  ({ c with
      sramPoison := bad.foldl (fun l w => if l.contains w then l else w :: l) c.sramPoison
      ue := c.ue.filter fun w => !bad.contains w
      ce := c.ce.filter fun w => !fixed.contains w
      writeback := c.writeback ++ fixed
      ceCount := c.ceCount + fixed.length }, bad)

/-- Raises CORE_SRAM_CE_THRESHOLD once a section when corrected errors pass CE_LIMIT, and strikes the site (R74,
R466). -/
def State.checkCe (s : State) (p : Pos) : State :=
  let c := s.core p
  if c.ceCount > s.boot.cfg.ceLimit ∧ !c.ceRaised then
    let s := s.setCore p { c with ceRaised := true }
    let a := s.allotOf p.parish
    let s := s.raise evCoreSramCeThreshold a [(p.id, 4), (c.secseq.toNat, 4), (runNum (s.coreRun p), 1), (c.ceCount, 4)]
      ((a.map Dest.allot).toList)
    s.strikeSite p false
  else s

/-- CORE_SRAM_UE with cause DATA_UE (R75, R80), once for a word; a core halted by an exception reports none (R82). DESIGN
CHOICE (log entry 33): met outside an instruction, the record has word 0 and the core's PC, which is START at a swap. -/
def State.raiseDataUe (s : State) (p : Pos) (word : Word) : State :=
  let c := s.core p
  let a := s.allotOf p.parish
  if c.mode = .halted then s
  else s.raise evCoreSramUe a (coreRecord p c 0x11 word (runNum (s.coreRun p))) ((a.map Dest.allot).toList)

/-- A read of data SRAM by any requester, as far as errors go (R74, R75); the parish counts what was corrected (R74). -/
def State.touchSram (s : State) (p : Pos) (word : Word) (a n : Nat) : State :=
  let c := s.core p
  let t := c.touch a n
  let fixed := t.1.ceCount - c.ceCount
  let s := s.setCore p t.1
  let s := if fixed = 0 then s else s.updParish p.parish fun x => { x with sramCe := x.sramCe + fixed }
  (t.2.foldl (fun s _ => s.raiseDataUe p word) s).checkCe p

/-- The same for a read of the active bank's bytes: an uncorrectable word reads poisoned and is reported once. -/
def State.touchBank (s : State) (p : Pos) (word : Word) (a n : Nat) : State :=
  let c := s.core p
  let b := c.active
  let bad := (wordsOf (a - 0x20000) n).filter b.ue.contains
  let b' := { b with ue := b.ue.filter (fun w => !bad.contains w), poison := b.poison ++ bad }
  let s := s.setCore p (if c.activeB then { c with bankB := b' } else { c with bankA := b' })
  bad.foldl (fun s _ => s.raiseDataUe p word) s

/-- A read of local memory by the program, as far as errors go. -/
def State.touchLocal (s : State) (p : Pos) (word : Word) (a n : Nat) : State :=
  match regionOf a n with
  | .data => s.touchSram p word a n
  | .bank => s.touchBank p word a n
  | .nowhere => s

/-- `n` bytes of local memory. -/
def Core.localBytes (c : Core) (a n : Nat) : List Byte :=
  if a < 0x20000 then c.bytes a n else c.active.bytes (a - 0x20000) n

/-- Whether a range of local memory carries poison. -/
def Core.localPoison (c : Core) (a n : Nat) : Bool :=
  if a < 0x20000 then c.poisoned a n else (wordsOf (a - 0x20000) n).any c.active.poison.contains

/-- A store narrower than a word (R72, R75): the word keeps any poison, and takes the poison of the data. -/
def Core.storeNarrow (c : Core) (a : Nat) (l : List Byte) (poison : Bool) : Core :=
  let c := c.setBytes a l
  if poison then c.setPoison (a / 8) true else c

/-- A store of whole 64-bit words: each word takes the poison given for it, and stored errors are gone. -/
def Core.storeWords (c : Core) (a : Nat) (l : List Byte) (poison : Nat → Bool) : Core :=
  let ws := wordsOf a l.length
  let c := c.setBytes a l
  let c := { c with ue := c.ue.filter (fun w => !ws.contains w), ce := c.ce.filter (fun w => !ws.contains w)
                    writeback := c.writeback.filter (fun w => !ws.contains w) }
  (List.range ws.length).foldl (fun c i => c.setPoison (a / 8 + i) (poison i)) c

/-! ### Address checks (R38, R39, R81) -/

/-- Whether a register can hold an address: bits [31:18] are zero (R38). -/
def overWide (w : Word) : Bool := decide (w.toNat ≥ 2 ^ 18)

/-- Checks of an access of `n` bytes through a register at an effective address, aligned to `al`. -/
def accessChecks (c : Core) (r : BitVec 5) (ea n al : Nat) (store : Bool) : List (Bool × Cause) :=
  [ (c.spois r, .poison),
    (overWide (c.sreg r) || decide (regionOf ea n = .nowhere), .addr),
    (decide (ea % al ≠ 0), .align),
    (store && decide (regionOf ea n = .bank), .ro) ]

end Sys2Proof.Machine
end

