-- ==== Sys2Proof/Machine/Memory.lean ====
section
/-! DEFINITION. Stacked memory (R186 to R204): the interleave hash and its inverse, bytes and poison, errors, refresh,
scrub, the rows tracked for repair, and stacks going out of service. A byte of device memory has the key
stack * 2^36 + offset, and a 64-bit word that key divided by 8. -/

namespace Sys2Proof.Machine

/-! ### The interleave hash (R188, R189) -/

/-- Trailing zero bits of `n`, at most `k`. -/
def trailing : Nat → Nat → Nat
  | 0, _ => 0
  | k + 1, n => if n % 2 = 1 then 0 else 1 + trailing k (n / 2)

/-- The exclusive or of the `b`-bit fields of `x`, `k` of them (R188). -/
def foldXor : Nat → Nat → Nat → Nat
  | 0, _, _ => 0
  | k + 1, x, b => (x % 2 ^ b) ^^^ foldXor k (x / 2 ^ b) b

/-- fold(x, b) of R188 over granule numbers of 33 bits. -/
def fold (x b : Nat) : Nat := foldXor 33 x b

/-- The slot and the stack offset of an interleaved DPA, for a set of `n` stacks (R188). -/
def interleave (n dpa : Nat) : Nat × Nat :=
  let b := trailing 7 n
  let a := n / 2 ^ b
  let g := dpa / 512
  let m := g / 2 ^ b
  let h := (g % 2 ^ b) ^^^ fold m b
  ((m % a) * 2 ^ b + h, (m / a) * 512 + dpa % 512)

/-- The interleaved DPA of a slot and offset (R188). -/
def deinterleave (n slot offset : Nat) : Nat :=
  let b := trailing 7 n
  let a := n / 2 ^ b
  let m := offset / 512 * a + slot / 2 ^ b
  (m * 2 ^ b + ((slot % 2 ^ b) ^^^ fold m b)) * 512 + offset % 512

/-- N, the size of the interleave set (R187). -/
def State.nSet (s : State) : Nat := s.boot.set.length

/-- The key of an interleaved DPA. -/
def State.memKey (s : State) (dpa : Nat) : Nat :=
  let l := interleave s.nSet dpa
  2 ^ 36 * ((s.boot.set[l.1]?).getD 0) + l.2

/-- The slot of a stack in the set (R187). -/
def State.slotOf (s : State) (stack : Nat) : Option Nat :=
  let i := s.boot.set.findIdx (· == stack)
  if i < s.nSet then some i else none

/-- The interleaved view ends at N * 64 GiB; the near-window view starts at 0x0400_0000_0000 (R189). -/
def nearBase : Nat := 0x040000000000

/-- Bytes of a stripe: N * 16 MiB (R190). -/
def State.stripe (s : State) : Nat := 2 ^ 24 * s.nSet

/-- Whether an interleaved range lies in an allotment's quota (R190). -/
def State.inQuota (s : State) (a dpa n : Nat) : Bool :=
  let x := s.allot a
  decide (x.stripeFirst * s.stripe ≤ dpa ∧ dpa + n ≤ (x.stripeFirst + x.stripeCount) * s.stripe)

/-- The interleaved DPA of an address of either view of local memory; none where it names none (R181). -/
def State.viewDpa (s : State) (dpa : Nat) : Option Nat :=
  if dpa < 2 ^ 36 * s.nSet then some dpa
  else if nearBase ≤ dpa ∧ dpa < 2 * nearBase then
    (s.slotOf ((dpa - nearBase) / 2 ^ 36)).map fun i => deinterleave s.nSet i ((dpa - nearBase) % 2 ^ 36)
  else none

/-! ### Bytes, poison (R198, R199) -/

/-- What a byte of device memory that nothing has written reads as: zero, or, where the contents were lost (R201,
R437), a free value (log entry 9). -/
def State.memDefault (s : State) (k : Nat) : Byte :=
  match s.memFills.find? (k / 2 ^ 36) with
  | some i => Config.lostByte i k
  | none => if s.memInit = 0 then 0 else Config.lostByte s.memInit k

/-- Whether a word carries the poison marker (R198, R199). -/
def State.wordPoison (s : State) (w : Nat) : Bool := s.memPoison.contains w != (s.memFills.find? (w / 2 ^ 33)).isSome

/-- A byte of device memory. -/
def State.memByte (s : State) (k : Nat) : Byte := (s.mem.find? k).getD (s.memDefault k)

/-- Writes a byte; a byte equal to what an unlisted one reads as is not listed. -/
def State.setMemByte (s : State) (k : Nat) (v : Byte) : State :=
  if v = s.memDefault k then { s with mem := s.mem.del k } else { s with mem := s.mem.put k v }

/-- The canonical form of device memory: keys rising, no entry equal to the default. -/
def State.memWf (s : State) : Bool := s.mem.wf && s.mem.all fun e => decide (e.2 ≠ s.memDefault e.1)

/-- Writes bytes from a key up. -/
def State.setMemBytes (s : State) (k : Nat) : List Byte → State
  | [] => s
  | b :: t => (s.setMemByte k b).setMemBytes (k + 1) t

/-- `n` bytes of device memory from a key up. -/
def State.memBytes (s : State) (k n : Nat) : List Byte := (List.range n).map fun i => s.memByte (k + i)

/-- Stores or clears the poison marker of a word. -/
def State.setMemPoison (s : State) (w : Nat) (b : Bool) : State :=
  { s with memPoison := if b != (s.memFills.find? (w / 2 ^ 33)).isSome then
        (if s.memPoison.contains w then s.memPoison else w :: s.memPoison)
      else s.memPoison.filter (· ≠ w) }

/-- The stack of a word. -/
def wordStack (w : Nat) : Nat := w / 2 ^ 33

/-- The stack offset of a word. -/
def wordOffset (w : Nat) : Nat := w % 2 ^ 33 * 8

/-! ### Controllers: counters, rows, events -/

/-- A memory controller. -/
def State.mc (s : State) (m : Nat) : Stack := s.mcs.get {} m

def State.setMc (s : State) (m : Nat) (x : Stack) : State := { s with mcs := s.mcs.put m x }

/-- A stack's temperature read-out, in 0.1 degree: above 85 degrees its refresh is doubled, from 85 on its activations are
halved (R186, R193, R385). -/
def Stack.heat (x : Stack) (deciC : Nat) : Stack :=
  { x with deciC := deciC, hot := decide (deciC > 850), halved := decide (deciC ≥ 850) }

/-- Whether a stack answers: in service with its sector powered, and not in self-refresh (R201, R450, R452). -/
def State.stackUp (s : State) (m : Nat) : Bool :=
  (s.mc m).online && s.sectorUp (stackSector m) && !s.boot.selfRefresh

/-- The row locator of a stack offset (R507). -/
def rowLocator (off : Nat) : Nat := bits (BitVec.ofNat 36 off) 20 16 + 2 ^ 16 * (bits (BitVec.ofNat 36 off) 15 4)
  + 2 ^ 20 * (bits (BitVec.ofNat 36 off) 9 6)

/-- The bank of a stack offset: pseudo-channel and bank. -/
def bankOf (off : Nat) : Nat := off / 512 % 64 * 16 + off / 2 ^ 15 % 16

/-- A row's window count: the sum of its hourly counts (R200). -/
def windowCount (r : Nat × List Nat × Bool) : Nat := r.2.1.sum

/-- The tracked row a new row displaces: the lowest window count, the longest tracked on a tie (R200). -/
def displaced : List (Nat × List Nat × Bool) → Option (Nat × List Nat × Bool)
  | [] => none
  | r :: t =>
    match displaced t with
    | none => some r
    | some q => if windowCount r ≤ windowCount q then some r else some q

/-- A corrected error of a row enters its count of this hour (R200). -/
def Stack.trackRow (x : Stack) (loc : Nat) : Stack :=
  if x.rows.any (fun r => r.1 = loc) then
    { x with rows := x.rows.map fun r =>
        if r.1 = loc then (r.1, ((r.2.1.headD 0) + 1) :: r.2.1.drop 1, r.2.2) else r }
  else
    let keep := if x.rows.length < 4096 then x.rows
      else match displaced x.rows with
        | some q => x.rows.filter (fun r => r.1 ≠ q.1)
        | none => x.rows
    { x with rows := keep ++ [(loc, 1 :: List.replicate 23 0, false)] }

/-- MEM_CE_THRESHOLD for each row whose count has reached CE_ROW_LIMIT since it was last below it (R200). -/
def State.checkRows (s : State) (m : Nat) : State :=
  let limit := (s.reg (mcBase m + 0x38)).toNat
  let x := s.mc m
  let new := x.rows.filter fun r => !r.2.2 && decide (windowCount r ≥ limit)
  let s := s.setMc m { x with rows := x.rows.map fun r => (r.1, r.2.1, decide (windowCount r ≥ limit)) }
  new.foldl (fun s r =>
    (s.raise evMemCeThreshold none [(m, 1), (r.1, 4), (windowCount r, 4)] []).strikeRow m (BitVec.ofNat 32 r.1)) s

/-- What reading a word meets (R198): an uncorrectable word takes the marker and MEM_UE is raised once for it, to an
allotment where one is concerned; a single-bit error is corrected, written back and counted for its row. -/
def State.touchWord (s : State) (source core : Nat) (al : Option Nat) (w : Nat) : State :=
  let m := wordStack w
  let off := wordOffset w
  if s.memUe.contains w then
    let s := { s with memUe := s.memUe.filter (· ≠ w), memCe := s.memCe.filter (· ≠ w) }
    let s := (s.setMemPoison w true).bump (mcBase m + 0x28)
    let s := s.setReg (mcBase m + 0x30) (BitVec.ofNat 64 (2 ^ 63 + off))
    s.raise evMemUe al [(m, 1), (off, 8), (source, 1), (core, 4)] ((al.map Dest.allot).toList)
  else if s.memCe.contains w then
    let s := { s with memCe := s.memCe.filter (· ≠ w) }
    let s := s.bump (mcBase m + 0x20)
    let s := { s with ras := { s.ras with corrected := s.ras.corrected.put m (s.ras.corrected.get 0 m + 1) } }
    (s.setMc m ((s.mc m).trackRow (rowLocator off))).checkRows m
  else s

/-- A read of `n` bytes from a key, as far as errors go: every word of the rows touched. -/
def State.touchMem (s : State) (source core : Nat) (al : Option Nat) (k n : Nat) : State :=
  (wordsOf (k / 16 * 16) ((k % 16 + n + 15) / 16 * 16)).foldl (fun s w => s.touchWord source core al w) s

/-- The 16-byte rows a range touches, by number. -/
def rowsOf (k n : Nat) : List Nat := if n = 0 then [] else (List.range ((k + n - 1) / 16 - k / 16 + 1)).map (k / 16 + ·)

/-- The POISON bit of each row read (R199): either of its words carries the marker. -/
def State.rowPoison (s : State) (k n : Nat) : List Bool :=
  (rowsOf k n).map fun r => s.wordPoison (2 * r) || s.wordPoison (2 * r + 1)

/-- Counts poisoned words stored under an allotment (R463). -/
def State.countPoison (s : State) (al : Option Nat) (n : Nat) : State :=
  match al with
  | some a => if n = 0 then s else s.bump (0x60080 + 8 * a) n
  | none => s

/-- A word written anew has no error left. -/
def State.clearErrors (s : State) (w : Nat) : State :=
  { s with memUe := s.memUe.filter (· ≠ w), memCe := s.memCe.filter (· ≠ w) }

/-- A write of bytes from a key, within one 64-byte sector, with the POISON bit of each of its rows (R199): a partial
word is a read-modify-write and stays poisoned; a full word of unpoisoned data is clear; a poisoned row marks both of
its words. -/
def State.storeMem (s : State) (source core : Nat) (al : Option Nat) (k : Nat) (data : List Byte)
    (poison : List Bool) : State :=
  let n := data.length
  let full (w : Nat) : Bool := decide (k ≤ 8 * w ∧ 8 * w + 8 ≤ k + n)
  let s := ((wordsOf k n).filter (fun w => !full w)).foldl (fun s w => s.touchWord source core al w) s
  let s := s.setMemBytes k data
  let s := ((wordsOf k n).filter full).foldl (fun s w =>
    (s.clearErrors w).setMemPoison w false) s
  let bad := ((rowsOf k n).zip poison).filter (·.2)
  let s := bad.foldl (fun s r => ((s.clearErrors (2 * r.1)).setMemPoison (2 * r.1) true |>.clearErrors (2 * r.1 + 1)).setMemPoison
    (2 * r.1 + 1) true) s
  s.countPoison al (2 * bad.length)

/-- Reads `n` bytes of local memory at an interleaved DPA that may cross granules. -/
def State.dpaBytes (s : State) (dpa n : Nat) : List Byte := (List.range n).map fun i => s.memByte (s.memKey (dpa + i))

/-! ### Activations and refresh (R193, R194) -/

/-- An access activates its row (log entry 17); a bank whose count reaches 64 receives an immediate RFM, and the spec
does not state the count that is left: a free value. -/
def State.activate (s : State) (k : Nat) : State :=
  let m := k / 2 ^ 36
  let x := s.mc m
  let b := bankOf (k % 2 ^ 36)
  let c := x.acts.get 0 b + 1
  let s := s.bump (mcBase m + 0x78)
  if c ≥ 64 then
    ((s.setMc m { x with acts := x.acts.put b (bits s.draw 0 6) }).drawn).bump (mcBase m + 0x50)
  else s.setMc m { x with acts := x.acts.put b c }

/-- An access whose command does not say how long it waited on a refresh window: a free value (R203, log entry 113). -/
def State.access (s : State) (k : Nat) : State :=
  ((s.activate k).bump (mcBase (k / 2 ^ 36) + 0x80) (bits s.draw 64 9)).drawn

/-- The pieces of an access, none of which crosses a 64-byte sector: address and offset in the data, length. -/
def sectors (addr : Nat) : Nat → Nat → Nat → List (Nat × Nat × Nat)
  | 0, _, _ => []
  | fuel + 1, off, n =>
    if n = 0 then []
    else
      let k := min n (64 - (addr + off) % 64)
      (addr + off, off, k) :: sectors addr fuel (off + k) (n - k)

def sectorsOf (addr n : Nat) : List (Nat × Nat × Nat) := sectors addr (n / 64 + 2) 0 n

/-- Whether every stack an interleaved range touches is in service. -/
def State.rangeUp (s : State) (d n : Nat) : Bool := (sectorsOf d n).all fun p => s.stackUp (s.memKey p.1 / 2 ^ 36)

/-- An interleaved range is read, sector by sector: rows activated, errors met, bytes counted (R194, R198, R203). A stack out of
service answers nothing. -/
def State.readRange (s : State) (source core : Nat) (al : Option Nat) (d n : Nat) : State :=
  (sectorsOf d n).foldl (fun (s : State) p =>
    let k := s.memKey p.1
    if s.stackUp (k / 2 ^ 36) then
      ((s.access k).touchMem source core al k p.2.2).bump (mcBase (k / 2 ^ 36) + 0x68) p.2.2
    else s) s

/-- Bytes are written from an interleaved address on, sector by sector, poisoned where `bad` says so of a row's first byte in the
data (R194, R199, R203). A stack out of service takes nothing. -/
def State.writeRange (s : State) (source : Nat) (al : Option Nat) (d : Nat) (l : List Byte) (bad : Nat → Bool) : State :=
  (sectorsOf d l.length).foldl (fun (s : State) p =>
    let k := s.memKey p.1
    if s.stackUp (k / 2 ^ 36) then
      ((s.access k).storeMem source 0xFFFFFFFF al k ((l.drop p.2.1).take p.2.2)
        ((List.range (rowsOf k p.2.2).length).map fun i => bad (p.2.1 + (16 * i - k % 16)))).bump
        (mcBase (k / 2 ^ 36) + 0x70) p.2.2
    else s) s

/-- A write of the device itself, from an interleaved address on (R199, R204: source 10). -/
def State.dpaWrite (s : State) (d : Nat) (l : List Byte) (al : Option Nat := none) : State :=
  s.writeRange 10 al d l fun _ => false

/-- The latency of a TC2 access: the largest is kept, and one over 1,600 ns is counted and raises BOUND_EXCEEDED once per
controller per run, with whether the conditions of R195 held: no stack above 85 degrees, no uncorrectable error met, no sector
lost (R196, R203). -/
def State.noteLatency (s : State) (m : Nat) (al : Option Nat) (ns : Nat) (clean : Bool) : State :=
  let o := mcBase m + 0x58
  let s := s.setReg o (BitVec.ofNat 64 (max (s.reg o).toNat (min ns (2 ^ 48 - 1))))
  if ns ≤ 1600 then s
  else
    let s := s.bump (mcBase m + 0x60)
    match al with
    | none => s
    | some a =>
      let held := clean && !(s.mcs.any fun e => e.2.hot) && decide (s.boot.sectors = BitVec.allOnes 16)
      if s.noted a evBoundExceeded m then s
      else (s.raiseA evBoundExceeded a [(m, 1), (ns, 4), (b2n held, 1)]).note a evBoundExceeded m

/-- The same of accesses that led from `s` to `t`, whether or not one met an uncorrectable error, at the controllers `l` names of
those that they reached: a row was activated there (R196). -/
def State.noteSlow (s t : State) (al : Option Nat) (l : List (Fin 64 × Nat)) : State :=
  l.foldl (fun u e => if t.reg (mcBase e.1 + 0x78) ≠ s.reg (mcBase e.1 + 0x78) then
    u.noteLatency e.1 al e.2 (decide (t.memUe.length = s.memUe.length)) else u) t

/-- The stacks of a group (R193): MS(8n) to MS(8n + 7). -/
def groupStacks (g : Nat) : List Nat := (List.range 8).map (8 * g + ·)

/-- REFRESH_WINDOW: each stack of the group performs an all-bank refresh, which subtracts 32 from every bank's count;
in a second window only the stacks above 85 degrees do (R193, R194). -/
def execRefreshWindow (group : Fin 8) (second : Bool) (s : State) : Host.Outcome State Fault Refusal :=
  .next ((groupStacks group).foldl (fun s m =>
    let x := s.mc m
    if s.stackUp m && (!second || x.hot) then
      s.setMc m { x with acts := x.acts.mapVals fun _ n => n - 32 }
    else s) s)

/-! ### Scrub (R200) -/

/-- The allotment whose quota holds an interleaved DPA. -/
def State.quotaHolder (s : State) (dpa : Nat) : Option Nat :=
  (s.allots.search (fun a x => decide (x.st ≠ .free) && s.inQuota a dpa 1)).map (·.1)

/-- SCRUB_READ: a stack of the set reads its next granule and corrects or converts errors; SCRUB_CTRL can stop it
(R200, R203). -/
def execScrubRead (stack : Fin 64) (s : State) : Host.Outcome State Fault Refusal :=
  let m := stack.val
  .next (match s.slotOf m with
    | none => s
    | some i =>
      if !s.stackUp m ∨ !bit (s.reg (mcBase m + 0x40)) 0 then s
      else
        let x := s.mc m
        let off := x.scrubPos * 512
        let s := s.setMc m { x with scrubPos := (x.scrubPos + 1) % 2 ^ 27 }
        let al := s.quotaHolder (deinterleave s.nSet i off)
        ((s.access (2 ^ 36 * m + off)).touchMem 4 0xFFFFFFFF al (2 ^ 36 * m + off) 512).bump (mcBase m + 0x68) 512)

/-- CE_HOURLY_ROLL: every tracked row's hourly counts roll forward (R200). DESIGN CHOICE (log entry 110): a row whose
window count has fallen to 0 is no longer tracked. -/
def execCeHourlyRoll (s : State) : Host.Outcome State Fault Refusal :=
  .next ((List.range 64).foldl (fun s m =>
    match s.mcs.find? m with
    | none => s
    | some x =>
      let rows := x.rows.map fun r => (r.1, 0 :: r.2.1.take 23, r.2.2)
      (s.setMc m { x with rows := rows.filter fun r => decide (windowCount r ≠ 0) }).checkRows m) s)

/-! ### Out of service (R201) -/

/-- The allotments that exist. -/
def State.liveAllots (s : State) : List Nat := (s.allots.filter (fun e => decide (e.2.st ≠ .free))).map (·.1)

/-- A stack goes out of service: STACK_OFFLINE to every allotment and the board controller; the set is unchanged and
the module is DEGRADED_READY with cause STACK (R201, R448). -/
def State.offline (s : State) (m cause : Nat) : State :=
  let x := s.mc m
  if !x.online then s
  else
    let s := s.setMc m { x with online := false }
    (s.raise evStackOffline none [(m, 1), (cause, 1)] (s.liveAllots.map Dest.allot)).degrade 2

/-- STACK_OFFLINE: a stack stops answering, or its rail or sector is lost (R201). -/
def execStackOffline (stack : Fin 64) (cause : Fin 3) (s : State) : Host.Outcome State Fault Refusal :=
  .next (s.offline stack cause)

/-! ### SRAM write-back (R74) -/

/-- SRAM_CE_WRITEBACK: a corrected word that waits for an idle bank is written back (R74). -/
def execSramCeWriteback (p : Pos) (addr : BitVec 17) (s : State) : Host.Outcome State Fault Refusal :=
  .next (s.updCore p fun c => { c with writeback := c.writeback.filter (· ≠ addr.toNat / 8) })

end Sys2Proof.Machine
end

