-- ==== Sys2Proof/Machine/Scalar.lean ====
section
/-! DEFINITION. The scalar classes 0x1 to 0x6: ALU, long immediates, loads and stores, branches and jumps (R47, R48,
R72). -/

namespace Sys2Proof.Machine

/-- A reserved field of format R that is not zero (R45). -/
def rsvR (f : FmtR) : Bool := decide (f.rsv ≠ 0)

/-- An ALU operation on registers: rd := ra op rb, poisoned if either is (R43, R47). -/
def aluR (p : Pos) (func : BitVec 6) (f : FmtR) (op : Word → Word → Word) (s : State) : State :=
  s.runCore p (wordR 0x1 func f) f.pr (fun _ => { word := [(rsvR f, .reserved)] })
    (fun c => (c.setS f.rd (op (c.sreg f.ra) (c.sreg f.rb)) (c.spois f.ra || c.spois f.rb)).next)

/-- An ALU operation with the immediate `v`: rd := ra op v (R47). -/
def aluI (p : Pos) (f3 : BitVec 3) (f : FmtI) (op : Word → Word → Word) (v : Word) (s : State) : State :=
  s.runCore p (wordI 0x2 f3 f) f.pr (fun _ => {})
    (fun c => (c.setS f.rd (op (c.sreg f.ra) v) (c.spois f.ra)).next)

/-- imm11 sign-extended. -/
def simmI (f : FmtI) : Word := f.imm.signExtend 32

/-- imm11 zero-extended, for the logical operations. -/
def uimmI (f : FmtI) : Word := f.imm.setWidth 32

/-- The shift distance, bits [4:0]. -/
def shamt (w : Word) : Nat := w.toNat % 32

def opSll (a b : Word) : Word := a <<< shamt b
def opSrl (a b : Word) : Word := a >>> shamt b
def opSra (a b : Word) : Word := a.sshiftRight (shamt b)
def opSlt (a b : Word) : Word := if a.toInt < b.toInt then 1 else 0
def opSltu (a b : Word) : Word := if a.toNat < b.toNat then 1 else 0
def opMin (a b : Word) : Word := if b.toInt < a.toInt then b else a
def opMax (a b : Word) : Word := if a.toInt < b.toInt then b else a
def opMul (a b : Word) : Word := BitVec.ofNat 32 (a.toNat * b.toNat)
def opMulh (a b : Word) : Word := BitVec.ofInt 32 (a.toInt * b.toInt / 2 ^ 32)
def opMulhu (a b : Word) : Word := BitVec.ofNat 32 (a.toNat * b.toNat / 2 ^ 32)

/-- DIV: quotient truncated toward zero; by zero all ones; 0x80000000 by -1 is 0x80000000 (R47). -/
def opDiv (a b : Word) : Word := if b = 0 then 0xFFFFFFFF else BitVec.ofInt 32 (a.toInt.tdiv b.toInt)

/-- DIVU: by zero all ones (R47). -/
def opDivu (a b : Word) : Word := if b = 0 then 0xFFFFFFFF else BitVec.ofNat 32 (a.toNat / b.toNat)

/-- REM: by zero the dividend; of 0x80000000 by -1 zero (R47). -/
def opRem (a b : Word) : Word := if b = 0 then a else BitVec.ofInt 32 (a.toInt.tmod b.toInt)

/-- REMU: by zero the dividend (R47). -/
def opRemu (a b : Word) : Word := if b = 0 then a else BitVec.ofNat 32 (a.toNat % b.toNat)

/-- ADD (R47). -/
def execAdd (p : Pos) (f : FmtR) (s : State) : Host.Outcome State Fault Refusal :=
  .next (aluR p 0x0 f (fun a b => a + b) s)

/-- SUB (R47). -/
def execSub (p : Pos) (f : FmtR) (s : State) : Host.Outcome State Fault Refusal :=
  .next (aluR p 0x1 f (fun a b => a - b) s)

/-- AND (R47). -/
def execAnd (p : Pos) (f : FmtR) (s : State) : Host.Outcome State Fault Refusal :=
  .next (aluR p 0x2 f (fun a b => a &&& b) s)

/-- OR (R47). -/
def execOr (p : Pos) (f : FmtR) (s : State) : Host.Outcome State Fault Refusal :=
  .next (aluR p 0x3 f (fun a b => a ||| b) s)

/-- XOR (R47). -/
def execXor (p : Pos) (f : FmtR) (s : State) : Host.Outcome State Fault Refusal :=
  .next (aluR p 0x4 f (fun a b => a ^^^ b) s)

/-- SLL (R47). -/
def execSll (p : Pos) (f : FmtR) (s : State) : Host.Outcome State Fault Refusal :=
  .next (aluR p 0x5 f opSll s)

/-- SRL (R47). -/
def execSrl (p : Pos) (f : FmtR) (s : State) : Host.Outcome State Fault Refusal :=
  .next (aluR p 0x6 f opSrl s)

/-- SRA (R47). -/
def execSra (p : Pos) (f : FmtR) (s : State) : Host.Outcome State Fault Refusal :=
  .next (aluR p 0x7 f opSra s)

/-- SLT (R47). -/
def execSlt (p : Pos) (f : FmtR) (s : State) : Host.Outcome State Fault Refusal :=
  .next (aluR p 0x8 f opSlt s)

/-- SLTU (R47). -/
def execSltu (p : Pos) (f : FmtR) (s : State) : Host.Outcome State Fault Refusal :=
  .next (aluR p 0x9 f opSltu s)

/-- MIN (R47). -/
def execMin (p : Pos) (f : FmtR) (s : State) : Host.Outcome State Fault Refusal :=
  .next (aluR p 0xa f opMin s)

/-- MAX (R47). -/
def execMax (p : Pos) (f : FmtR) (s : State) : Host.Outcome State Fault Refusal :=
  .next (aluR p 0xb f opMax s)

/-- MUL (R47). -/
def execMul (p : Pos) (f : FmtR) (s : State) : Host.Outcome State Fault Refusal :=
  .next (aluR p 0x10 f opMul s)

/-- MULH (R47). -/
def execMulh (p : Pos) (f : FmtR) (s : State) : Host.Outcome State Fault Refusal :=
  .next (aluR p 0x11 f opMulh s)

/-- MULHU (R47). -/
def execMulhu (p : Pos) (f : FmtR) (s : State) : Host.Outcome State Fault Refusal :=
  .next (aluR p 0x12 f opMulhu s)

/-- DIV (R47). -/
def execDiv (p : Pos) (f : FmtR) (s : State) : Host.Outcome State Fault Refusal :=
  .next (aluR p 0x18 f opDiv s)

/-- DIVU (R47). -/
def execDivu (p : Pos) (f : FmtR) (s : State) : Host.Outcome State Fault Refusal :=
  .next (aluR p 0x19 f opDivu s)

/-- REM (R47). -/
def execRem (p : Pos) (f : FmtR) (s : State) : Host.Outcome State Fault Refusal :=
  .next (aluR p 0x1a f opRem s)

/-- REMU (R47). -/
def execRemu (p : Pos) (f : FmtR) (s : State) : Host.Outcome State Fault Refusal :=
  .next (aluR p 0x1b f opRemu s)

/-- ADDI (R47). -/
def execAddi (p : Pos) (f : FmtI) (s : State) : Host.Outcome State Fault Refusal :=
  .next (aluI p 0 f (fun a b => a + b) (simmI f) s)

/-- SLTI (R47). -/
def execSlti (p : Pos) (f : FmtI) (s : State) : Host.Outcome State Fault Refusal :=
  .next (aluI p 1 f opSlt (simmI f) s)

/-- ANDI (R47). -/
def execAndi (p : Pos) (f : FmtI) (s : State) : Host.Outcome State Fault Refusal :=
  .next (aluI p 2 f (fun a b => a &&& b) (uimmI f) s)

/-- ORI (R47). -/
def execOri (p : Pos) (f : FmtI) (s : State) : Host.Outcome State Fault Refusal :=
  .next (aluI p 3 f (fun a b => a ||| b) (uimmI f) s)

/-- XORI (R47). -/
def execXori (p : Pos) (f : FmtI) (s : State) : Host.Outcome State Fault Refusal :=
  .next (aluI p 4 f (fun a b => a ^^^ b) (uimmI f) s)

/-- SLLI (R47; the distance is imm11[4:0], DEDUCED, log entry 13). -/
def execSlli (p : Pos) (f : FmtI) (s : State) : Host.Outcome State Fault Refusal :=
  .next (aluI p 5 f opSll (uimmI f) s)

/-- SRLI (R47; the distance is imm11[4:0], DEDUCED, log entry 13). -/
def execSrli (p : Pos) (f : FmtI) (s : State) : Host.Outcome State Fault Refusal :=
  .next (aluI p 6 f opSrl (uimmI f) s)

/-- SRAI (R47; the distance is imm11[4:0], DEDUCED, log entry 13). -/
def execSrai (p : Pos) (f : FmtI) (s : State) : Host.Outcome State Fault Refusal :=
  .next (aluI p 7 f opSra (uimmI f) s)

/-- LUH: rd := imm18 << 14 (R47). -/
def execLuh (p : Pos) (f : FmtU) (s : State) : Host.Outcome State Fault Refusal :=
  .next (s.runCore p (wordU 0x3 1 f) f.pr (fun _ => {})
    (fun c => (c.setS f.rd (f.imm.setWidth 32 <<< 14) false).next))

/-- LLO: rd[17:0] := imm18, rd[31:18] kept (R47); rd contributes, so its poison stays (R43). -/
def execLlo (p : Pos) (f : FmtU) (s : State) : Host.Outcome State Fault Refusal :=
  .next (s.runCore p (wordU 0x3 0 f) f.pr (fun _ => {})
    (fun c => (c.setS f.rd (setBits (c.sreg f.rd) 0 18 f.imm.toNat) (c.spois f.rd)).next))

/-- The effective address ra + imm11 (R47). -/
def scalarEa (c : Core) (f : FmtI) : Nat := (c.sreg f.ra + (simmI f)).toNat

/-- A scalar load of `n` bytes: rd := the value, poisoned if its word carries poison (R43, R47, R75). -/
def scalarLoad (p : Pos) (f3 : BitVec 3) (f : FmtI) (n : Nat) (conv : Nat → Word) (s : State) : State :=
  let w := wordI 0x4 f3 f
  let ea := scalarEa (s.core p) f
  s.runWide p w f.pr (fun c => { on := accessChecks c f.ra ea n n false })
    (fun s =>
      let s := s.touchLocal p w ea n
      let c := s.core p
      s.retire p (c.setS f.rd (conv (leNat (c.localBytes ea n))) (c.localPoison ea n)).next)
    (fun s => s.skipCore p)

/-- A scalar store of `n` bytes: a read-modify-write of its word (R47, R72, R75). -/
def scalarStore (p : Pos) (f3 : BitVec 3) (f : FmtI) (n : Nat) (s : State) : State :=
  let w := wordI 0x4 f3 f
  let ea := scalarEa (s.core p) f
  s.runWide p w f.pr (fun c => { on := accessChecks c f.ra ea n n true })
    (fun s =>
      let s := s.touchSram p w ea n
      let c := s.core p
      s.retire p (c.storeNarrow ea (leBytes n (c.sreg f.rd).toNat) (c.spois f.rd)).next)
    (fun s => s.skipCore p)

/-- LW (R47). -/
def execLw (p : Pos) (f : FmtI) (s : State) : Host.Outcome State Fault Refusal :=
  .next (scalarLoad p 0 f 4 (fun v => BitVec.ofNat 32 v) s)

/-- SW (R47). -/
def execSw (p : Pos) (f : FmtI) (s : State) : Host.Outcome State Fault Refusal :=
  .next (scalarStore p 1 f 4 s)

/-- LH (R47: the halfword sign-extended). -/
def execLh (p : Pos) (f : FmtI) (s : State) : Host.Outcome State Fault Refusal :=
  .next (scalarLoad p 2 f 2 (fun v => (BitVec.ofNat 16 v).signExtend 32) s)

/-- LHU (R47: the halfword zero-extended). -/
def execLhu (p : Pos) (f : FmtI) (s : State) : Host.Outcome State Fault Refusal :=
  .next (scalarLoad p 3 f 2 (fun v => BitVec.ofNat 32 v) s)

/-- SH (R47, R72). -/
def execSh (p : Pos) (f : FmtI) (s : State) : Host.Outcome State Fault Refusal :=
  .next (scalarStore p 4 f 2 s)

/-- A word index of the text region moved by a signed count of instructions. Local addresses are 18 bits (R38), so
an index is 16 bits; one of 1,536 or more lies outside the text region and faults at its fetch (R39). -/
def pcAdd (pc : Nat) (off : Int) : Nat := ((pc : Int) + off).emod 65536 |>.toNat

/-- The local address of a text word. -/
def pcAddr (pc : Nat) : Word := BitVec.ofNat 32 (0x20000 + 4 * pc)

/-- The word index of a jump target ra & 0x3FFFC (R48). -/
def pcOf (a : Word) : Nat := (a.toNat / 4 + 32768) % 65536

/-- A conditional branch: taken, pc + 4 * off11 (R47); a poisoned operand is an observation point (R81). -/
def branchOn (p : Pos) (cond : BitVec 3) (f : FmtB) (test : Word → Word → Bool) (s : State) : State :=
  s.runCore p (wordB cond f) f.pr (fun c => { on := [(c.spois f.ra || c.spois f.rb, .poison)] })
    (fun c => if test (c.sreg f.ra) (c.sreg f.rb) then { c with pc := pcAdd c.pc f.off.toInt } else c.next)

/-- Branch EQ (R47). -/
def execBranchEq (p : Pos) (f : FmtB) (s : State) : Host.Outcome State Fault Refusal :=
  .next (branchOn p 0 f (fun a b => a == b) s)

/-- Branch NE (R47). -/
def execBranchNe (p : Pos) (f : FmtB) (s : State) : Host.Outcome State Fault Refusal :=
  .next (branchOn p 1 f (fun a b => a != b) s)

/-- Branch LT (R47). -/
def execBranchLt (p : Pos) (f : FmtB) (s : State) : Host.Outcome State Fault Refusal :=
  .next (branchOn p 2 f (fun a b => decide (a.toInt < b.toInt)) s)

/-- Branch GE (R47). -/
def execBranchGe (p : Pos) (f : FmtB) (s : State) : Host.Outcome State Fault Refusal :=
  .next (branchOn p 3 f (fun a b => decide (b.toInt ≤ a.toInt)) s)

/-- Branch LTU (R47). -/
def execBranchLtu (p : Pos) (f : FmtB) (s : State) : Host.Outcome State Fault Refusal :=
  .next (branchOn p 4 f (fun a b => decide (a.toNat < b.toNat)) s)

/-- Branch GEU (R47). -/
def execBranchGeu (p : Pos) (f : FmtB) (s : State) : Host.Outcome State Fault Refusal :=
  .next (branchOn p 5 f (fun a b => decide (b.toNat ≤ a.toNat)) s)

/-- LOOP: ra := ra - 1, branch if the result is not zero; rb must be s0 (R45, R47). DEDUCED (log entry 14): with
ra = s0 the result is all ones and the branch is taken. -/
def execLoop (p : Pos) (f : FmtB) (s : State) : Host.Outcome State Fault Refusal :=
  .next (s.runCore p (wordB 6 f) f.pr
    (fun c => { word := [(decide (f.rb ≠ 0), .reserved)], on := [(c.spois f.ra, .poison)] })
    (fun c =>
      let v := c.sreg f.ra - 1
      let c' := c.setS f.ra v false
      if v ≠ 0 then { c' with pc := pcAdd c.pc f.off.toInt } else c'.next))

/-- JAL: rd := pc + 4, pc := pc + 4 * imm18; H must be 0 (R45, R47). -/
def execJal (p : Pos) (f : FmtU) (h : BitVec 1) (s : State) : Host.Outcome State Fault Refusal :=
  .next (s.runCore p (wordU 0x6 h f) f.pr (fun _ => { word := [(decide (h ≠ 0), .reserved)] })
    (fun c => { c.setS f.rd (pcAddr (c.pc + 1)) false with pc := pcAdd c.pc f.imm.toInt }))

/-- JALR: rd := pc + 4, pc := ra & 0x3FFFC (R48); a poisoned ra is an observation point (R81). -/
def execJalr (p : Pos) (f : FmtR) (s : State) : Host.Outcome State Fault Refusal :=
  .next (s.runCore p (wordR 0x0 0x03 f) f.pr
    (fun c => { word := [(rsvR f, .reserved)], on := [(c.spois f.ra, .poison)] })
    (fun c => { c.setS f.rd (pcAddr (c.pc + 1)) false with pc := pcOf (c.sreg f.ra) }))

end Sys2Proof.Machine
end

