-- ==== Sys2Proof/Machine/System.lean ====
section
/-! DEFINITION. The system class 0x0 (R48, R50): NOP, END, FENCE, special registers, BELLWAIT, and the commands by
which END retires and a FENCE ends. -/

namespace Sys2Proof.Machine

/-- NOP (R47). DESIGN CHOICE (log entry 103): its register fields are ignored. -/
def execNop (p : Pos) (f : FmtR) (s : State) : Host.Outcome State Fault Refusal :=
  .next (s.runCore p (wordR 0x0 0x00 f) f.pr (fun _ => { word := [(rsvR f, .reserved)] }) Core.next)

/-- END: stops issue, and retires later; predicated off, issue goes on (R48, R53). -/
def execEndIssue (p : Pos) (f : FmtR) (s : State) : Host.Outcome State Fault Refusal :=
  .next (s.runHold p (wordR 0x0 0x01 f) f.pr (fun _ => { word := [(rsvR f, .reserved)] })
    (fun c => { c with mode := .ended, pc := c.pc + 1 }))

/-- Whether the matrix engine is idle: nothing queued or started (R48, R58). -/
def Core.engineIdle (c : Core) : Bool := c.mq.isEmpty && c.mrun.isNone

/-- Whether a carter channel holds no descriptor. -/
def Channel.idle (ch : Channel) : Bool := ch.running.isEmpty && ch.waiting.isEmpty

/-- END retires once the engine and both carter channels are idle and the output queues have handed on their entries
(R48). -/
def Core.mayRetire (c : Core) : Bool :=
  decide (c.mode = .ended) && c.engineIdle && c.load.idle && c.store.idle && c.outq.toList.all List.isEmpty

/-- What a FENCE waits for (R48): stores take effect at issue and arrived load data is written as it arrives, so
what remains is the matrix engine's commands. -/
def Core.fenceDone (c : Core) : Bool := c.engineIdle

/-- FENCE: waits; it ends at once where nothing it waits for is outstanding (R48). -/
def execFence (p : Pos) (f : FmtR) (s : State) : Host.Outcome State Fault Refusal :=
  .next (s.runHold p (wordR 0x0 0x02 f) f.pr (fun _ => { word := [(rsvR f, .reserved)] })
    (fun c => if c.fenceDone then c.next else { c with wait := .fence }))

/-- FENCE_DONE: the conditions of a waiting FENCE hold and issue resumes (R48). -/
def execFenceDone (p : Pos) (s : State) : Host.Outcome State Fault Refusal :=
  let c := s.core p
  .next (if c.wait = .fence ∧ c.fenceDone then s.setCore p { c with wait := .none, pc := c.pc + 1 } else s)

/-! ### Special registers (R50) -/

/-- The number of a special register: the ra and rb fields together (R48). -/
def csrNo (f : FmtR) : Nat := f.ra.toNat * 32 + f.rb.toNat

/-- The read-only special registers (R50). -/
def csrRo (n : Nat) : Bool := decide (n ≤ 5) || decide (8 ≤ n ∧ n ≤ 0xC)

/-- DSTAT: descriptors held by each channel and their halts (R50). -/
def Core.dstat (c : Core) : Word :=
  BitVec.ofNat 32 ((c.load.running.length + c.load.waiting.length) % 8
    + 16 * ((c.store.running.length + c.store.waiting.length) % 8)
    + 256 * b2n c.load.halted + 512 * b2n c.store.halted)

/-- MSTAT: commands waiting and engine busy (R50). -/
def Core.mstat (c : Core) : Word := BitVec.ofNat 32 (c.mq.length % 8 + 256 * b2n (!c.engineIdle))

/-- The value of a special register that reading does not change (R50); an unassigned number reads zero. -/
def Core.csr (c : Core) (p : Pos) (bell : DWord) (n : Nat) : Word :=
  match n with
  | 0x0 => BitVec.ofNat 32 p.id
  | 0x1 => c.taskidx
  | 0x2 => c.colour.setWidth 32
  | 0x3 => c.secseq
  | 0x4 => bell.setWidth 32
  | 0x5 => c.bellHi
  | 0x6 => c.rngctr
  | 0x7 => c.vstat.setWidth 32
  | 0x8 => c.beats.setWidth 32
  | 0x9 => c.beatsHi
  | 0xA => (c.p ||| 1).setWidth 32
  | 0xB => c.mstat
  | 0xC => c.dstat
  | _ => 0

/-- BEATS as the next read of BEATS_LO finds it: the beats that have passed since the last read are a free value
(log entry 2); OVF is set when the count wraps (R50). -/
def Core.elapse (c : Core) (d : BitVec 512) : Core :=
  let n := bits d 0 48
  { c with beats := c.beats + BitVec.ofNat 48 n
           beatsOvf := c.beatsOvf || decide (c.beats.toNat + n ≥ 2 ^ 48) }

/-- BEATS_HI as a read of BEATS_LO latches it: bits [47:32], OVF in bit 31 (R50). -/
def Core.beatsLatch (c : Core) : Word :=
  BitVec.ofNat 32 (c.beats.toNat / 2 ^ 32 + (if c.beatsOvf then 2 ^ 31 else 0))

/-- CSRR: rd := the special register; BELL_LO latches BELL_HI and BEATS_LO latches BEATS_HI (R48, R50). -/
def execCsrr (p : Pos) (f : FmtR) (s : State) : Host.Outcome State Fault Refusal :=
  let n := csrNo f
  .next (s.runWide p (wordR 0x0 0x04 f) f.pr (fun _ => { word := [(rsvR f, .reserved)] })
    (fun s =>
      let bell := (s.parish p.parish).bell
      let c := s.core p
      let c := if n = 8 then c.elapse s.draw else c
      let v := c.csr p bell n
      let c := if n = 4 then { c with bellHi := (bell >>> 32).setWidth 32 } else c
      let c := if n = 8 then { c with beatsHi := c.beatsLatch } else c
      let s := if n = 8 then s.drawn else s
      s.retire p (c.setS f.rd v false).next)
    (fun s => s.skipCore p))

/-- CSRW: a poisoned source is an observation point; a read-only number raises RO; VSTAT clears the bits written 1,
RNGCTR takes the value, an unassigned number ignores it (R48, R50, R53, R81). -/
def execCsrw (p : Pos) (f : FmtR) (s : State) : Host.Outcome State Fault Refusal :=
  let n := csrNo f
  .next (s.runCore p (wordR 0x0 0x05 f) f.pr
    (fun c => { word := [(rsvR f, .reserved), (csrRo n, .ro)], on := [(c.spois f.rd, .poison)] })
    (fun c =>
      let v := c.sreg f.rd
      (if n = 6 then { c with rngctr := v }
       else if n = 7 then { c with vstat := c.vstat &&& ~~~ (v.setWidth 4) }
       else c).next))

/-- Whether a bell count has reached a BELLWAIT target: compared modulo 2^32 with a window of 2^31 (R48). -/
def bellReached (bell : DWord) (target : Word) : Bool := decide ((bell.setWidth 32 - target : Word).toNat < 2 ^ 31)

/-- BELLWAIT: waits for the parish bell counter; a poisoned ra is an observation point (R48, R53, R81). -/
def execBellwait (p : Pos) (f : FmtR) (s : State) : Host.Outcome State Fault Refusal :=
  let bell := (s.parish p.parish).bell
  .next (s.runHold p (wordR 0x0 0x06 f) f.pr
    (fun c => { word := [(rsvR f, .reserved)], on := [(c.spois f.ra, .poison)] })
    (fun c => if bellReached bell (c.sreg f.ra) then c.next else { c with wait := .bell (c.sreg f.ra) }))

/-- A waiting BELLWAIT whose tick has come resumes issue (R248). -/
def Core.bellRelease (c : Core) (bell : DWord) : Core :=
  match c.wait with
  | .bell t => if bellReached bell t then { c with wait := .none, pc := c.pc + 1 } else c
  | _ => c

end Sys2Proof.Machine
end

