-- ==== Sys2Proof/Machine/Tally.lean ====
section
/-! DEFINITION. Tallies (R65, R257 to R266): the instructions of class 0xC, the arrival of an operation at its home,
misuse, waiters and their release, the answer, and register writes of parish and hub tallies. -/

namespace Sys2Proof.Machine

/-- The home of a tally: level, the core or the parish where it has one, index (R257). -/
structure THome where
  lvl : Nat
  core : Pos
  idx : Nat
  deriving DecidableEq, Repr

/-- The largest value of a level (R257). -/
def tallyMax (lvl : Nat) : Nat := if lvl = 2 then 2 ^ 32 - 1 else 65535

/-- The value of a tally. -/
def State.tally (s : State) (h : THome) : Nat :=
  match h.lvl with
  | 0 => (((s.core h.core).t.toList[h.idx]?).getD 0).toNat
  | 1 => ((s.parish h.core.parish).tallies.get 0 h.idx).toNat
  | _ => (s.hub.get 0 h.idx).toNat

/-- The allotment whose hub range holds an index (R145). -/
def State.hubOwner (s : State) (i : Nat) : Option Nat :=
  (s.allots.search (fun _ x => decide (x.st ≠ .free ∧ x.hubBase ≤ i ∧ i < x.hubBase + x.hubCount))).map (·.1)

/-- A tally of an allotment changes: its parishes stir, of a core or parish tally the home's (R272). -/
def State.stirTally (s : State) (h : THome) : State :=
  if h.lvl = 0 ∨ h.lvl = 1 then s.stir h.core.parish
  else
    match s.hubOwner h.idx with
    | some a => { s with stirred := (s.allot a).parishList.foldl (fun l p => l.insert p.val) s.stirred }
    | none => s

/-- Sets a tally. -/
def State.setTally (s : State) (h : THome) (v : Nat) : State :=
  if s.tally h = v then s
  else
    let s := s.stirTally h
    match h.lvl with
    | 0 => s.updCore h.core fun c => { c with t := c.t.setIfInBounds h.idx (BitVec.ofNat 16 v) }
    | 1 => s.updParish h.core.parish fun x => { x with tallies := x.tallies.put h.idx (BitVec.ofNat 16 v) }
    | _ => { s with hub := s.hub.put h.idx (BitVec.ofNat 32 v) }

/-- The waiters at a home, in order of arrival (R261). -/
def State.waitersAt (s : State) (h : THome) : List Waiter :=
  match h.lvl with
  | 0 => []
  | 1 => (s.parish h.core.parish).waiters.get [] h.idx
  | _ => s.hubWait.get [] h.idx

/-- The waiters at a home replaced. -/
def State.setWaiters (s : State) (h : THome) (l : List Waiter) : State :=
  match h.lvl with
  | 0 => s
  | 1 => s.updParish h.core.parish fun x => { x with waiters := x.waiters.put h.idx l }
  | _ => { s with hubWait := s.hubWait.put h.idx l }

/-- The allotment that owns a tally (R257). -/
def State.tallyOwner (s : State) (h : THome) : Option Nat :=
  if h.lvl = 2 then s.hubOwner h.idx else s.allotOf h.core.parish

/-- The key of a tally for once-per-run marks. -/
def THome.key (h : THome) : Nat :=
  h.lvl + 4 * (h.idx + 4096 * (match h.lvl with | 0 => h.core.id | 1 => h.core.parish.val | _ => 0))

/-- A misuse error: raised once per tally per kind per run to the owner, whose current run is charged (R259). -/
def State.misuse (s : State) (code : Nat) (h : THome) (payload : List (Nat × Nat)) : State :=
  match s.tallyOwner h with
  | none => s
  | some a =>
    let s := if s.noted a code h.key then s else (s.raiseA code a payload).note a code h.key
    s.chargeCur a

/-- Where a waiting core's answer has been given: its answer is on its way back (R65, R261). -/
def Core.answered (c : Core) (v : Nat) : Core :=
  match c.wait with
  | .tally op f => { c with wait := .answer op f v }
  | _ => c

/-- Serves the WAIT_GE_DEC waiters from the head while the value reaches (R261); returns the value left, those served
and those that stay. -/
def serveDec : Nat → List Waiter → Nat × List Waiter × List Waiter
  | v, [] => (v, [], [])
  | v, w :: t =>
    if w.n ≤ v then
      let r := serveDec (v - w.n) t
      (r.1, w :: r.2.1, r.2.2)
    else (v, [], w :: t)

/-- Releases waiters after a value has changed: every WAIT_GE that qualifies, then the WAIT_GE_DEC at the head
(R261). -/
def State.release (s : State) (h : THome) : State :=
  let v := s.tally h
  let ws := s.waitersAt h
  let ge := ws.filter fun w => decide (w.op = .waitGe)
  let dec := ws.filter fun w => decide (w.op ≠ .waitGe)
  let go := ge.filter fun w => decide (w.n ≤ v)
  let stay := ge.filter fun w => decide (v < w.n)
  let d := serveDec v dec
  let s := (s.setTally h d.1).setWaiters h (ws.filter fun w => stay.contains w || d.2.2.contains w)
  (go ++ d.2.1).foldl (fun s w => s.updCore w.core (Core.answered · 0)) s

/-- The same for a core tally, whose one possible waiter is its own core. -/
def State.releaseCore (s : State) (h : THome) : State :=
  let c := s.core h.core
  match c.wait with
  | .tally op f =>
    let n := if f.one = 1 then 1 else (c.sreg f.rs).toNat
    if f.lvl = 0 ∧ f.idx.toNat = h.idx ∧ n ≤ s.tally h then
      let s := s.updCore h.core (Core.answered · 0)
      if op = .waitGeDec then s.setTally h (s.tally h - n) else s
    else s
  | _ => s

/-- INC n at a home, from a source given by its four bytes (R258). -/
def State.tallyInc (s : State) (h : THome) (n src : Nat) : State :=
  let v := s.tally h
  let m := tallyMax h.lvl
  let s := if v + n > m then (s.setTally h m).misuse evTallyOverflow h [(h.lvl, 1), (h.idx, 2), (v, 4), (n, 4), (src, 4)]
    else s.setTally h (v + n)
  if h.lvl = 0 then s.releaseCore h else s.release h

/-- DEC n at a home (R258). -/
def State.tallyDec (s : State) (h : THome) (n src : Nat) : State :=
  let v := s.tally h
  if n > v then s.misuse evTallyUnderflow h [(h.lvl, 1), (h.idx, 2), (v, 4), (n, 4), (src, 4)]
  else s.setTally h (v - n)

/-- A wait at a home (R258, R261): beyond a 16-bit maximum there is no wait and TALLY_RANGE; with n = 0 it returns at
once; otherwise the waiter joins, and is released at once if the value qualifies. -/
def State.tallyWait (s : State) (h : THome) (op : TallyOp) (n : Nat) : State :=
  if n > tallyMax h.lvl then
    (s.misuse evTallyRange h [(h.lvl, 1), (h.idx, 2), (n, 4), (h.core.id, 4)]).updCore h.core (Core.answered · 0)
  else if n = 0 then s.updCore h.core (Core.answered · 0)
  else if h.lvl = 0 then s.releaseCore h
  else (s.setWaiters h (s.waitersAt h ++ [{ core := h.core, op := op, n := n }])).release h

/-- An operation applied at its home (R258). -/
def State.applyTally (s : State) (h : THome) (op : TallyOp) (n : Nat) : State :=
  match op with
  | .inc => s.tallyInc h n h.core.id
  | .dec => s.tallyDec h n h.core.id
  | .readVal => s.updCore h.core (Core.answered · (s.tally h))
  | _ => s.tallyWait h op n

/-! ### The instructions (R65) -/

/-- The count of a tally instruction (R65). -/
def tallyN (c : Core) (f : FmtT) : Nat := if f.one = 1 then 1 else (c.sreg f.rs).toNat

/-- How many tallies a level names (R65). -/
def tallyRange : Nat → Nat
  | 0 => 16 | 1 => 256 | 2 => 4096 | _ => 0

/-- Checks of a tally instruction (R53, R65, R81, R145). -/
def tallyChecks (s : State) (p : Pos) (f : FmtT) (count : Bool) (c : Core) : Check :=
  { word := [(decide (f.rsv ≠ 0) || decide (f.one = 1 ∧ f.rs ≠ 0), .reserved),
             (decide (f.idx.toNat ≥ tallyRange f.lvl.toNat), .index)]
    on := [(count && decide (f.one = 0) && c.spois f.rs, .poison),
           (decide (f.lvl = 2) && decide (s.hubOwner f.idx.toNat ≠ s.allotOf p.parish), .index)] }

/-- The home a core's instruction names. -/
def tallyHome (p : Pos) (f : FmtT) : THome := { lvl := f.lvl.toNat, core := p, idx := f.idx.toNat }

/-- An operation leaves for its home with the next sequence number of its source, modulo 256 (R268, R501). -/
def State.sendTally (s : State) (m : TallyMsg) : State :=
  let n := s.crierSeq.get 0 m.src.id
  { s with tallyOps := s.tallyOps ++ [{ m with seq := n }], crierSeq := s.crierSeq.put m.src.id (n + 1) }

/-- An operation issued by a core's control unit: a core tally's is applied within its two beats; another is on its
way to its home (R65, R260). -/
def State.issueTally (s : State) (p : Pos) (f : FmtT) (op : TallyOp) (n : Nat) : State :=
  if f.lvl = 0 then s.applyTally (tallyHome p f) op n
  else s.sendTally { src := p, carter := false, lvl := f.lvl, idx := f.idx, op := op, n := n }

/-- TINC and TDEC: posted; issue goes on (R65, R260). -/
def tallyPost (p : Pos) (top : BitVec 3) (op : TallyOp) (f : FmtT) (s : State) : State :=
  s.runWide p (wordT top f) f.pr (tallyChecks s p f true)
    (fun s =>
      let t := s.issueTally p f op (tallyN (s.core p) f)
      t.retire p (t.core p).next)
    (fun s => s.skipCore p)

/-- TWAIT, TWAITD, TREAD: hold the core until the answer returns (R65, R260). -/
def tallyHold (p : Pos) (top : BitVec 3) (op : TallyOp) (f : FmtT) (s : State) : State :=
  s.runWide p (wordT top f) f.pr (tallyChecks s p f (decide (op ≠ .readVal)))
    (fun s => (s.updCore p fun c => { c with wait := .tally op f }).issueTally p f op (tallyN (s.core p) f))
    (fun s => s.skipCore p)

/-- TINC (R65). -/
def execTinc (p : Pos) (f : FmtT) (s : State) : Host.Outcome State Fault Refusal := .next (tallyPost p 0 .inc f s)

/-- TDEC (R65). -/
def execTdec (p : Pos) (f : FmtT) (s : State) : Host.Outcome State Fault Refusal := .next (tallyPost p 1 .dec f s)

/-- TWAIT (R65). -/
def execTwait (p : Pos) (f : FmtT) (s : State) : Host.Outcome State Fault Refusal := .next (tallyHold p 2 .waitGe f s)

/-- TWAITD (R65). -/
def execTwaitd (p : Pos) (f : FmtT) (s : State) : Host.Outcome State Fault Refusal :=
  .next (tallyHold p 3 .waitGeDec f s)

/-- TREAD (R65). -/
def execTread (p : Pos) (f : FmtT) (s : State) : Host.Outcome State Fault Refusal := .next (tallyHold p 4 .readVal f s)

/-- The riser of a plane lies under well (3, 3) or (4, 4) (R267). -/
def riserSector (par : Nat) (plane : BitVec 1) : Nat := wellSector par (if plane = 0 then (3, 3) else (4, 4))

/-- The sectors whose nodes a hub crier message passes, along its row and then its column. DESIGN CHOICE (log entry 93): the
spec does not state the hub crier's tables. -/
def crierRoute (a b : Nat) : List Nat :=
  let within (x y : Nat) : List Nat := (List.range 4).filter fun k => decide (min x y ≤ k ∧ k ≤ max x y)
  (within (a % 4) (b % 4)).map (4 * (a / 4) + ·) ++ (within (a / 4) (b / 4)).map (4 * · + b % 4)

/-- Whether the hub crier carries a message between sectors: none that it needs is lost, or tables that avoid the lost
sectors are loaded (R269). -/
def State.crierOpen (s : State) (a b : Nat) : Bool := s.boot.escapeLoaded || (crierRoute a b).all s.sectorUp

/-- Whether a plane of a parish's crier carries messages between the parish and HS00 now: to HS00, or from it (R268, R269). -/
def State.planeOpen (s : State) (par : Nat) (plane : BitVec 1) (toHub : Bool) : Bool :=
  let x := s.parish par
  let r := riserSector par plane
  (if plane = 0 then x.planeA else x.planeB) && (if toHub then s.crierOpen r 0 else s.crierOpen 0 r)

/-- Whether an operation can travel: its parish's crier is not isolated, and a hub operation finds a plane that carries it
(R268, R269). -/
def State.crierReaches (s : State) (m : TallyMsg) : Bool :=
  !(s.parish m.src.parish).isolated &&
    (decide (m.lvl ≠ 2) || s.planeOpen m.src.parish 0 true || s.planeOpen m.src.parish 1 true)

/-- A copy of a crier message that fails its check is dropped and counted where it arrives, in a parish (R268, R278). -/
def State.crierErr (s : State) (par : Nat) : State := s.bump (parishBase par + 0x3820)

/-- TALLY_OPERATION_ARRIVAL: the oldest operation in flight of a core's unit at a level reaches its home and is
applied; a copy that fails its check is dropped, and that of the other plane is still to come (R258, R260, R268, log entry
93). -/
def execTallyOperationArrival (p : Pos) (carter : Bool) (lvl : Copied (BitVec 2)) (s : State) :
    Host.Outcome State Fault Refusal :=
  .next (match s.tallyOps.find? (fun m => decide (m.src = p ∧ m.carter = carter ∧ m.lvl = lvl.val)) with
    | none => s
    | some m =>
      if lvl.bad then (if lvl.val = 1 then s.crierErr p.parish else s)
      else if s.crierReaches m then
        ({ s with tallyOps := s.tallyOps.erase m }).applyTally
          { lvl := m.lvl.toNat, core := p, idx := m.idx.toNat } m.op m.n
      else s)

/-- Whether the answer of a tally's home reaches a core: one from a hub tally finds a plane that carries it from HS00; one that
needs a lost sector is held (R268, R269). -/
def State.answerReaches (s : State) (p : Pos) (lvl : Nat) : Bool :=
  decide (lvl = 0) ||
    (!(s.parish p.parish).isolated && (decide (lvl ≠ 2) || s.planeOpen p.parish 0 false || s.planeOpen p.parish 1 false))

/-- TALLY_ANSWER: the answer of a READ or a released wait reaches the core, which resumes issue (R65, R269). -/
def execTallyAnswer (p : Pos) (s : State) : Host.Outcome State Fault Refusal :=
  let c := s.core p
  .next (match c.wait with
    | .answer op f v =>
      if !s.answerReaches p f.lvl.toNat then s else
      let c := { c with wait := .none }
      if op = .readVal then s.retire p (c.setS f.rs (BitVec.ofNat 32 v) false).next else s.setCore p c.next
    | _ => s)

/-! ### Register writes (R266) -/

/-- Whether an allotment is RUNNING. -/
def State.isRunning (s : State) (a : Option Nat) : Bool :=
  match a with
  | some a => decide ((s.allot a).st = .running)
  | none => false

/-- A write of a hub tally register that takes effect, or is refused while its owner runs (R266). -/
def State.hubTallyWrite (s : State) (i : Nat) (v : DWord) : State :=
  if s.isRunning (s.hubOwner i) then s.orReg (bellBase + 0x50) 1
  else
    let h : THome := { lvl := 2, core := { parish := 0, col := 0, row := 0 }, idx := i }
    (s.setTally h (bits v 0 32)).release h

/-- HUB_TALLY: a register write of a hub tally (R266, R277). -/
def execHubTally (path : RegPath) (idx : BitVec 12) (value : DWord) (s : State) : Host.Outcome State Fault Refusal :=
  .next (s.writeNow path (bellBase + 0x8000 + 8 * idx.toNat) false (fun s => s.hubTallyWrite idx.toNat value))

/-- A write of a parish tally register that takes effect, or is refused while its owner runs (R266). -/
def State.parishTallyWrite (s : State) (par : Fin 78) (i : Nat) (v : DWord) : State :=
  if s.isRunning (s.allotOf par) then s.orReg (parishBase par + 0x3800) 1
  else
    let h : THome := { lvl := 1, core := { parish := par, col := 0, row := 0 }, idx := i }
    (s.setTally h (bits v 0 16)).release h

end Sys2Proof.Machine
end

