-- ==== Sys2Proof/Machine/Taps.lean ====
section
/-! DEFINITION. Slot entries (R112, R113, R116); wells and the taps that reach them (R15, R120 to R123, R177, R179); the header
of a well packet (R178). A well packet moves as one happening, once the slots that carry it are there (log entry 19). -/

namespace Sys2Proof.Machine

/-! ### Slot entries (R112, R113) -/

/-- A slot entry. -/
structure Slot where
  outs : List Nat
  csrc : Nat
  cdst : Nat
  suma : Nat
  sumb : Nat
  bf16 : Bool
  len : Nat
  wrap : Bool
  deriving DecidableEq, Repr

/-- The fields of a slot word. -/
def slotOfWord (w : DWord) : Slot :=
  { outs := (List.range 5).map fun i => bits w (3 * i) 3
    csrc := bits w 15 3, cdst := bits w 18 3, suma := bits w 21 3, sumb := bits w 24 3
    bf16 := bit w 27, len := bits w 29 8 + 1, wrap := bit w 63 }

/-- The current slot of a core's ACTIVE bank (R116). -/
def Core.slot (c : Core) (k : Nat) : Slot := slotOfWord (BitVec.ofNat 64 (c.active.nat (0x1800 + 8 * k) 8))

/-! ### Wells (R15, R177) -/

/-- A well's index: parish * 64 + j * 8 + i. -/
def wellIndex (par : Nat) (w : Nat × Nat) : Nat := par * 64 + w.2 * 8 + w.1

/-- A well's parish and (i, j). -/
def wellParish (w : Nat) : Nat := w / 64
def wellIJ (w : Nat) : Nat × Nat := (w % 8, w / 8 % 8)

def State.wellDead (s : State) (w : Nat) : Bool := s.boot.deadWells.contains w

/-- The square of the distance of two wells of a parish, in micrometres. -/
def wellDist (v w : Nat) : Nat :=
  let a := wellIJ v
  let b := wellIJ w
  (3000 * ((a.1 : Int) - b.1).natAbs) ^ 2 + (3750 * ((a.2 : Int) - b.2).natAbs) ^ 2

/-- The nearest of some wells to `w`, the first of those that tie. -/
def nearest (w : Nat) : List Nat → Option Nat
  | [] => none
  | v :: t =>
    match nearest w t with
    | none => some v
    | some u => if wellDist w v ≤ wellDist w u then some v else some u

/-- The well that adopts a dead well's block: the nearest live well of its parish, the lowest index on a tie (R177). -/
def State.adopter (s : State) (w : Nat) : Option Nat :=
  nearest w (((List.range 64).map (wellParish w * 64 + ·)).filter fun v => !s.wellDead v)

/-- The well that answers for a well: itself, or the one that adopts its block. -/
def State.wellFor (s : State) (w : Nat) : Option Nat := if s.wellDead w then s.adopter w else some w

/-- A well's serving sector. -/
def sectorOfWell (w : Nat) : Nat := wellSector (wellParish w) (wellIJ w)

/-- Whether a well is in service. -/
def State.wellUp (s : State) (w : Nat) : Bool := !s.wellDead w && s.sectorUp (sectorOfWell w)

/-- The well a core's requests use; none where its block reaches no well in service (R17, R177). -/
def State.wellOf (s : State) (p : Pos) : Option Nat :=
  (s.wellFor (wellIndex p.parish p.well)).bind fun w => if s.wellUp w then some w else none

/-! ### Routes of the hub (R184) -/

/-- Whether a minimal route leads from a sector to another within `fuel` hops over routers that are not dark, in x and y on the
grid of four by four sectors. -/
def State.routeUp (s : State) : Nat → Nat → Nat → Bool
  | 0, a, b => decide (a = b) && s.sectorUp a
  | fuel + 1, a, b =>
    s.sectorUp a &&
      (decide (a = b) ||
        (decide (a % 4 ≠ b % 4) && s.routeUp fuel (if a % 4 < b % 4 then a + 1 else a - 1) b) ||
        (decide (a / 4 ≠ b / 4) && s.routeUp fuel (if a / 4 < b / 4 then a + 4 else a - 4) b))

/-- Whether packets pass from a sector to another: over a minimal route, or once the escape table is loaded, or where an end
itself is dark and the packet is answered for it (R184, R472). -/
def State.hubOpen (s : State) (a b : Nat) : Bool :=
  s.boot.escapeLoaded || !s.sectorUp a || !s.sectorUp b || s.routeUp 6 a b

/-- The sector that serves a core. -/
def State.sectorOf (s : State) (p : Pos) : Nat := sectorOfWell ((s.wellOf p).getD (wellIndex p.parish p.well))

/-- Whether packets pass between the well of a core and a sector. -/
def State.hubToWell (s : State) (p : Pos) (b : Nat) : Bool := s.hubOpen (s.sectorOf p) b

/-! ### Taps (R121 to R123, R179) -/

/-- Whether a site is a tap of its well (R121); a dead well has no taps, and the sites of its block have an adopter (R177). -/
def State.isTap (s : State) (p : Pos) : Bool :=
  decide ((p.col.val % 10 = 4 ∨ p.col.val % 10 = 5) ∧ (p.row.val % 12 = 5 ∨ p.row.val % 12 = 6)) &&
    !s.wellDead (wellIndex p.parish p.well)

/-- The four tap positions of a well. -/
def tapsOf (w : Nat) : List Pos :=
  let ij := wellIJ w
  (List.finRange 78).flatMap fun par =>
    if par.val ≠ wellParish w then []
    else ((List.finRange 80).filter fun c => decide (c.val = 10 * ij.1 + 4 ∨ c.val = 10 * ij.1 + 5)).flatMap fun c =>
      ((List.finRange 96).filter fun r => decide (r.val = 12 * ij.2 + 5 ∨ r.val = 12 * ij.2 + 6)).map fun r =>
        { parish := par, col := c, row := r }

/-- The taps of the well that serves a core; a tap whose column is fallow is lost (R121). -/
def State.liveTaps (s : State) (p : Pos) : List Pos :=
  match s.wellFor (wellIndex p.parish p.well) with
  | none => []
  | some w => (tapsOf w).filter s.alive

/-- Whether a crossroads runs the idle table, which joins its core's CARTER endpoint to the nearest tap of its well in both
directions (R123): its core has no ACTIVE bank, or its parish is in no allotment. -/
def State.idleTable (s : State) (p : Pos) : Bool :=
  decide ((s.core p).mode = .noBank) || (s.allotOf p.parish).isNone

/-- The steps from a core to a tap over the mesh, for the choice of the nearest tap. -/
def hopsTo (p q : Pos) : Nat :=
  ((p.col.val : Int) - q.col.val).natAbs + ((p.row.val : Int) - q.row.val).natAbs

/-- The tap the idle table joins a core to: the nearest live tap of its well, the first in tap order on a tie (R123). -/
def State.idleTap (s : State) (p : Pos) : Option Pos :=
  (s.liveTaps p).foldl (fun b q =>
    match b with
    | none => some q
    | some t => if hopsTo p q < hopsTo p t then some q else some t) none

/-- Whether a tap found a core's tokens in a slot of its latest round (R179). -/
def Xroad.heard (x : Xroad) (k id : Nat) : Bool := decide (x.arrived.find? k = some id)

/-- Whether a core and its well can exchange packets: over the idle table, or over a slot in which the core's tokens reached a tap
and whose entry there selects WELL in both directions (R122, R179). DESIGN CHOICE (log entry 108): a core under the idle table
has its pair whatever table the tap runs. -/
def State.paired (s : State) (p : Pos) : Bool :=
  if s.idleTable p then (s.idleTap p).isSome
  else (s.liveTaps p).any fun q => (List.range 64).any fun k =>
    (s.xroad q).heard k p.id &&
      (let e := (s.core q).slot k
       decide (e.csrc = 6 ∧ e.cdst = 6))

/-- Whether a crossroads runs a section's table: its core has an ACTIVE bank, its allotment is not HALTED and its site answers
(R123, R146, R469). -/
def State.meshRuns (s : State) (p : Pos) : Bool :=
  s.alive p && !(s.core p).dead && decide ((s.core p).mode ≠ .noBank) &&
    (match s.allotOf p.parish with
     | some a => decide ((s.allot a).st ≠ .halted)
     | none => false)

/-- Whether a packet between a core and its well may pass the Core port now, out of the core or into it: the core has its pair,
and where its crossroads runs a table the slot it is in gives that direction of the port to the CARTER endpoint (R120, R122). -/
def State.portOpen (s : State) (p : Pos) (out : Bool) : Bool :=
  let e := (s.core p).slot (s.xroad p).slot
  s.paired p && (s.idleTable p || !s.meshRuns p || decide ((if out then e.csrc else e.cdst) = 5))

/-! ### The header of a well packet (R178) -/

/-- The header token's DATA. -/
def wellHeader (typ status len tag src addr core : Nat) : BitVec 128 :=
  BitVec.ofNat 128 (typ + 2 ^ 4 * status + 2 ^ 8 * (len - 1) + 2 ^ 16 * tag + 2 ^ 24 * src + 2 ^ 32 * addr + 2 ^ 80 * core)

def hType (h : BitVec 128) : Nat := bits h 0 4
def hLen (h : BitVec 128) : Nat := bits h 8 6 + 1
def hAddr (h : BitVec 128) : Nat := bits h 32 48

/-- Whether the well answers a header STATUS 1: a reserved field is not zero, or TYPE is 0x0 or 0x9 to 0xF. The rule counts
STATUS in a request, and the address bits beyond a local address of types 0x5 to 0x8, among them. -/
def badHeader (h : BitVec 128) : Bool :=
  let t := hType h
  decide (t = 0 ∨ t ≥ 9) || decide (bits h 14 2 ≠ 0 ∨ bits h 26 6 ≠ 0 ∨ bits h 100 28 ≠ 0) ||
    (decide (t = 1 ∨ t = 2 ∨ t = 5 ∨ t = 6) && decide (bits h 4 4 ≠ 0)) || (decide (5 ≤ t) && decide (bits h 50 30 ≠ 0))

/-- Data tokens that follow a header: the rows touched, of the types that carry data; of a READ_RESP only with STATUS 0. -/
def dataTokens (h : BitVec 128) : Nat :=
  let rows := (hAddr h % 16 + hLen h + 15) / 16
  match hType h with
  | 2 => rows
  | 5 => rows
  | 3 => if bits h 4 4 = 0 then rows else 0
  | 7 => rows
  | _ => 0

/-- The answer to a bad header: its TAG, SRC, ADDR and CORE echoed as a response with STATUS 1, READ_RESP to a READ and
WRITE_ACK to anything else (log entry 92). -/
def badAnswer (h : BitVec 128) : BitVec 128 :=
  wellHeader (if hType h = 1 then 3 else 4) 1 (hLen h) (bits h 16 8) (bits h 24 2) (hAddr h) (bits h 80 20)

/-- A tap takes a token in its current slot (R178, R179): an idle token's core is recorded; a header that is no idle token is
judged, and one that is bad is answered. A well formed one that no carter sent asks nothing of the well (log entry 92). -/
def Xroad.tapTakes (x : Xroad) (t : Token) : Xroad :=
  let k := x.slot
  let due := x.due.get 0 k
  if t.void then { x with arrived := x.arrived.put k (bits t.data 0 20) }
  else if due > 0 then { x with due := x.due.put k (due - 1) }
  else
    let h := t.data
    let x := { x with arrived := x.arrived.put k (bits h 80 20) }
    if badHeader h then { x with replies := x.replies ++ [badAnswer h] } else { x with due := x.due.put k (dataTokens h) }

/-- The reply that a tap sends in its current slot: the oldest for the core whose tokens arrived in that slot, where the entry
selects WELL outbound (R179). -/
def Xroad.reply (x : Xroad) (e : Slot) : Option (BitVec 128) :=
  if e.cdst ≠ 6 then none
  else x.replies.find? fun h => x.heard x.slot (bits h 80 20)

end Sys2Proof.Machine
end

