-- ==== Sys2Proof/Machine/Carter.lean ====
section
/-! DEFINITION. The carter (R205 to R225): descriptors and their checks, the walk and the reshuffle stage, requests and
responses, completion, halts and the choices that end them. -/

namespace Sys2Proof.Machine

/-! ### Access -/

/-- A channel of a core. -/
def Core.chan (c : Core) : Chan → Channel
  | .load => c.load
  | .store => c.store

def Core.setChan (c : Core) (ch : Chan) (x : Channel) : Core :=
  match ch with
  | .load => { c with load := x }
  | .store => { c with store := x }

def State.updChan (s : State) (p : Pos) (ch : Chan) (f : Channel → Channel) : State :=
  s.updCore p fun c => c.setChan ch (f (c.chan ch))

/-- 0 for the load channel, 1 for the store channel. -/
def chanNo : Chan → Nat
  | .load => 0
  | .store => 1

/-- `ch` with the descriptor of a serial updated. -/
def Channel.updRun (x : Channel) (serial : Nat) (f : DescRun → DescRun) : Channel :=
  { x with running := x.running.map fun r => if r.serial = serial then f r else r }

/-! ### Descriptors (R209 to R215) -/

/-- The descriptor of six words (R209). -/
def descOf (w : List DWord) : Desc :=
  let g (i lo len : Nat) : Nat := bits ((w[i]?).getD 0) lo len
  { rbase := g 0 0 48
    step0 := BitVec.ofNat 32 (g 1 0 32), step1 := BitVec.ofNat 32 (g 1 32 32), step2 := BitVec.ofNat 32 (g 2 0 32)
    cnt0 := g 2 32 16 + 1, cnt1 := g 2 48 16 + 1, cnt2 := g 3 0 16 + 1
    lbase := g 3 16 18, blen := g 3 34 6 + 1, lpitch := g 3 40 16
    rmode := BitVec.ofNat 3 (g 4 0 3), factor := g 4 4 4 + 1, esize := BitVec.ofNat 2 (g 4 8 2)
    tbind := decide (g 5 0 1 = 1), tlvl := BitVec.ofNat 2 (g 5 1 2), tidx := BitVec.ofNat 12 (g 5 3 12)
    tn := g 5 16 16 + 1, statEn := decide (g 5 32 1 = 1), statAddr := g 5 33 18 }

/-- Whether a reserved field of the six words is not zero (R209). -/
def descReserved (w : List DWord) : Bool :=
  let g (i lo len : Nat) : Bool := decide (bits ((w[i]?).getD 0) lo len ≠ 0)
  g 0 48 16 || g 3 56 8 || g 4 10 54 || g 4 3 1 || g 5 51 13 || g 5 15 1

/-- Bursts of the walk. -/
def Desc.bursts (d : Desc) : Nat := d.cnt0 * d.cnt1 * d.cnt2

/-- T, the length of the stream (R211). -/
def Desc.total (d : Desc) : Nat := d.blen * d.bursts

/-- E in bytes (R209). -/
def Desc.elem (d : Desc) : Nat := 2 ^ d.esize.toNat

/-- Stream bytes of a frame (R214, R215); 1 with NONE. -/
def Desc.frame (d : Desc) : Nat :=
  match d.rmode.toNat with
  | 1 => 16 * d.factor
  | 2 => 16 * d.factor
  | 3 => 8
  | _ => 1

/-- PP (R214). -/
def Desc.plane (d : Desc) : Nat := if d.lpitch = 0 then d.total / d.factor else d.lpitch

/-- The highest local address reached (R212, R214, R215). -/
def Desc.last (d : Desc) : Nat :=
  match d.rmode.toNat with
  | 0 => if d.lpitch = 0 then d.lbase + d.total - 1
         else d.lbase + (d.cnt2 * d.cnt1 - 1) * d.lpitch + d.cnt0 * d.blen - 1
  | 1 => d.lbase + (d.factor - 1) * d.plane + d.total / d.factor - 1
  | _ => d.lbase + d.total - 1

/-- The rules of R212, R214 and R215 on T, LBASE and LPITCH. -/
def Desc.aligned (d : Desc) : Bool :=
  match d.rmode.toNat with
  | 0 => decide (d.lpitch % 16 = 0 ∧ (d.lpitch = 0 ∨ d.lpitch ≥ d.cnt0 * d.blen))
  | 1 => decide (d.total % (16 * d.factor) = 0 ∧ d.lbase % 16 = 0 ∧ d.lpitch % 16 = 0 ∧
                 (d.lpitch = 0 ∨ d.lpitch ≥ d.total / d.factor))
  | 2 => decide (d.total % (16 * d.factor) = 0 ∧ d.lbase % 16 = 0 ∧ d.lpitch = 0)
  | 3 => decide (d.total % 8 = 0 ∧ d.lpitch = 0)
  | _ => true

/-- The local address of a stream byte (R212, R214); with BPT that of the output byte of the same place. -/
def Desc.localAddr (d : Desc) (q : Nat) : Nat :=
  let f := d.factor
  let e := d.elem
  let n := q / (16 * f)
  let r := q % (16 * f)
  match d.rmode.toNat with
  | 0 => if d.lpitch = 0 then d.lbase + q
         else
           let k := q / d.blen
           d.lbase + k / d.cnt0 * d.lpitch + k % d.cnt0 * d.blen + q % d.blen
  | 1 => d.lbase + r / e % f * d.plane + 16 * n + r / e / f * e + r % e
  | 2 => d.lbase + n * (16 * f) + (r % 16 / e * f + r / 16) * e + r % e
  | _ => d.lbase + q

/-- A burst's loop indices (R211). -/
def Desc.index (d : Desc) (k : Nat) : Nat × Nat × Nat := (k % d.cnt0, k / d.cnt0 % d.cnt1, k / d.cnt0 / d.cnt1)

/-- A burst's remote address, signed (R211). -/
def Desc.raddr (d : Desc) (k : Nat) : Int :=
  let i := d.index k
  (d.rbase : Int) + i.1 * d.step0.toInt + i.2.1 * d.step1.toInt + i.2.2 * d.step2.toInt

/-- Whether a burst fails at the carter (R211). -/
def Desc.outside (d : Desc) (k : Nat) : Bool :=
  decide (d.raddr k < 0 ∨ d.raddr k + d.blen - 1 ≥ 2 ^ 48)

/-- The request of a burst from an offset: to the end of the burst, or to the 64-byte boundary (R213). -/
def Desc.piece (d : Desc) (k off : Nat) : Piece :=
  if d.outside k then { burst := k, off := 0, len := d.blen }
  else
    let a := (d.raddr k).toNat + off
    { burst := k, off := off, len := min (d.blen - off) (64 - a % 64) }

/-- The DPA of a request. DESIGN CHOICE (log entry 112): of one outside the address space, its low 48 bits. -/
def Desc.dpa (d : Desc) (x : Piece) : Nat := ((d.raddr x.burst + x.off) % 2 ^ 48).toNat

/-- Stream offset of a request. -/
def Desc.offset (d : Desc) (x : Piece) : Nat := x.burst * d.blen + x.off

/-! ### Launch (R66, R210) -/

/-- Where a descriptor may lie (R66, R210). -/
def descPlace (a : Nat) : Bool := decide (a + 48 ≤ 0x18000 ∨ 0x21B00 ≤ a ∧ a + 48 ≤ 0x22000)

/-- The six words of a descriptor at a local address. -/
def Core.descWords (c : Core) (a : Nat) : List DWord :=
  (List.range 6).map fun i => BitVec.ofNat 64 (leNat (c.localBytes (a + 8 * i) 8))

/-- Checks of the address register and the place of a descriptor. -/
def launchPlace (c : Core) (f : FmtD) : List (Bool × Cause) :=
  let a := (c.sreg f.ra).toNat
  [(c.spois f.ra, .poison), (overWide (c.sreg f.ra) || !descPlace a, .addr), (decide (a % 16 ≠ 0), .align)]

/-- Checks of R210 on the descriptor itself. -/
def descChecks (s : State) (p : Pos) (c : Core) (a : Nat) : List (Bool × Cause) :=
  let w := c.descWords a
  let d := descOf w
  let m := d.rmode.toNat
  [ (c.localPoison a 48, .poison),
    (descReserved w, .reserved),
    (decide (m ≥ 4), .opcode),
    (decide ((m = 0 ∨ m = 3) ∧ (d.factor ≠ 1 ∨ d.esize ≠ 0)) || decide ((m = 1 ∨ m = 2) ∧ (d.factor = 1 ∨ d.esize = 3)),
      .fmt),
    (!d.aligned || (d.statEn && decide (d.statAddr % 8 ≠ 0)), .align),
    (decide (d.last > 0x17FFF) || (d.statEn && decide (d.statAddr + 8 > 0x18000)), .addr),
    (d.tbind && (decide (d.tidx.toNat ≥ tallyRange d.tlvl.toNat) ||
       (decide (d.tlvl = 2) && decide (s.hubOwner d.tidx.toNat ≠ s.allotOf p.parish))), .index) ]

/-- Fields DLD and DST must have zero. DESIGN CHOICE (log entry 103): rd is among them. -/
def launchRsv (f : FmtD) : List (Bool × Cause) := [(decide (f.rd ≠ 0) || decide (f.rsv ≠ 0), .reserved)]

/-- A launch: the descriptor is copied and waits on its channel, or the control unit stalls on a channel that holds
four (R66). DESIGN CHOICE (log entry 111): at a misaligned address no descriptor is read, and ALIGN is the cause. -/
def State.launch (s : State) (p : Pos) (dop : BitVec 2) (ch : Chan) (f : FmtD) : State :=
  let c := s.core p
  let a := (c.sreg f.ra).toNat
  let s := match c.judge f.pr { word := launchRsv f, on := launchPlace c f } with
    | .on => if s.frozen p then s else s.touchLocal p (wordD dop f) a 48
    | _ => s
  s.runWide p (wordD dop f) f.pr
    (fun c => { word := launchRsv f
                on := launchPlace c f ++
                  (if (launchPlace c f).any (·.1) then [] else descChecks s p c a) })
    (fun s =>
      let c := s.core p
      let x := c.chan ch
      s.retire p (if x.running.length + x.waiting.length ≥ 4 then { c with wait := .carterFull ch f }
        else (c.setChan ch { x with waiting := x.waiting ++ [descOf (c.descWords a)] }).next))
    (fun s => s.skipCore p)

/-- DLD: launches the descriptor at ra on the load channel (R66). -/
def execDld (p : Pos) (f : FmtD) (s : State) : Host.Outcome State Fault Refusal := .next (s.launch p 0 .load f)

/-- DST: launches on the store channel (R66). -/
def execDst (p : Pos) (f : FmtD) (s : State) : Host.Outcome State Fault Refusal := .next (s.launch p 1 .store f)

/-- DSTAT: rd := DSTAT (R66, R50). -/
def execDstat (p : Pos) (f : FmtD) (s : State) : Host.Outcome State Fault Refusal :=
  .next (s.runCore p (wordD 2 f) f.pr
    (fun _ => { word := [(decide (f.ra ≠ 0) || decide (f.rsv ≠ 0), .reserved)] })
    (fun c => (c.setS f.rd c.dstat false).next))

/-! ### Issue (R205, R211, R213) -/

/-- Whether a descriptor has issued its last request. -/
def DescRun.issued (r : DescRun) : Bool := r.cut || (decide (r.next ≥ r.d.bursts) && r.redo.isEmpty)

/-- Whether the channels of a core may issue: its allotment is not HALTED, which stops them (R223). -/
def State.carterRuns (s : State) (p : Pos) : Bool :=
  match s.allotOf p.parish with
  | some a => decide ((s.allot a).st ≠ .halted)
  | none => false

/-- Whether a channel issues new requests: neither halted nor about to halt (R219). -/
def Channel.issuing (x : Channel) : Bool := !x.halted && x.failed.isEmpty

/-- DESCRIPTOR_START: the next waiting descriptor starts once those running have issued their last request (R205). -/
def execDescriptorStart (p : Pos) (ch : Chan) (s : State) : Host.Outcome State Fault Refusal :=
  let x := (s.core p).chan ch
  .next (if s.carterRuns p && x.issuing && x.running.all DescRun.issued then
    match x.waiting with
    | [] => s
    | d :: t => s.updChan p ch fun x =>
        { x with waiting := t, serial := x.serial + 1
                 running := x.running ++ [{ d := d, serial := x.serial }] }
  else s)

/-- The next request of a channel: a failed one to send again before the walk goes on (R221). -/
def Channel.nextPiece (x : Channel) : Option (DescRun × Piece × Bool) :=
  match x.running.find? (fun r => !r.cut && !r.redo.isEmpty) with
  | some r => r.redo.head?.map fun k => (r, k, true)
  | none =>
    match x.running.find? (fun r => !r.issued) with
    | some r => some (r, r.d.piece r.next r.nextOff, false)
    | none => none

/-- The walk past a request. -/
def DescRun.advance (r : DescRun) (k : Piece) (redo : Bool) : DescRun :=
  if redo then { r with redo := r.redo.drop 1 }
  else if k.off + k.len ≥ r.d.blen then { r with next := r.next + 1, nextOff := 0 }
  else { r with nextOff := k.off + k.len }

/-- Byte `i` of an 8 by 8 bit transpose (R215). -/
def transposeByte (l : List Byte) (i : Nat) : Byte :=
  BitVec.ofNat 8 (((List.range 8).map fun j => if bit ((l[j]?).getD 0) i then 2 ^ j else 0).sum)

/-- Stream byte `q` of a store, with the poison of its source (R207, R214, R215, R218). -/
def Core.sourceByte (c : Core) (d : Desc) (q : Nat) : Byte × Bool :=
  if d.rmode = 3 then
    let base := d.lbase + q / 8 * 8
    (transposeByte (c.bytes base 8) (q % 8), c.poisoned base 8)
  else
    let a := d.localAddr q
    (c.byte a, c.poisoned a 1)

/-- The local words a store's request reads. -/
def Desc.sourceWords (d : Desc) (q n : Nat) : List Nat :=
  ((List.range n).flatMap fun i =>
    if d.rmode = 3 then wordsOf (d.lbase + (q + i) / 8 * 8) 8 else [d.localAddr (q + i) / 8]).dedup

/-- The POISON bit of each 16-byte row of a request at a remote address, from the poison of its bytes (R199). -/
def rowBits (addr : Nat) (l : List Bool) : List Bool :=
  (rowsOf addr l.length).map fun r =>
    ((List.range l.length).zip l).any fun x => x.2 && decide ((addr + x.1) / 16 = r)

/-- Order of requests in their channel's walk (R219). -/
def Latch.before (a b : Latch) : Bool :=
  decide (a.serial < b.serial) ||
    (decide (a.serial = b.serial) && (decide (a.piece.burst < b.piece.burst) ||
      (decide (a.piece.burst = b.piece.burst) && decide (a.piece.off < b.piece.off))))

/-- The earliest of the failed requests. -/
def earliest : List Latch → Option Latch
  | [] => none
  | l :: t =>
    match earliest t with
    | none => some l
    | some m => if l.before m then some l else some m

/-- A channel that has met a failure halts once nothing of it is outstanding: the earliest failure in walk order is
latched and DMA_HALT raised (R219, R225). -/
def State.checkHalt (s : State) (p : Pos) (ch : Chan) : State :=
  let x := (s.core p).chan ch
  if x.halted ∨ x.running.any (fun r => !r.outstanding.isEmpty) then s
  else
    match earliest x.failed with
    | none => s
    | some l =>
      let rest := x.failed.filter (· ≠ l)
      let s := s.updChan p ch fun x => { x with halted := true, latch := some l, failed := rest }
      let i := match x.running.find? (fun r => r.serial = l.serial) with
        | some r => r.d.index l.piece.burst
        | none => (0, 0, 0)
      let a := s.allotOf p.parish
      s.raise evDmaHalt a
        [(p.id, 4), (chanNo ch, 1), (l.status.toNat, 1), (l.dpa, 8), (l.piece.len, 2), (chanNo ch, 1), (i.1, 2),
         (i.2.1, 2), (i.2.2, 2), (l.piece.off, 1), (min 255 rest.length, 1)] ((a.map Dest.allot).toList)

/-- Sends a request with a credit (R180, R213): a store reads its source now (R207). -/
def State.sendPiece (s : State) (p : Pos) (ch : Chan) (r : DescRun) (k : Piece) : State :=
  let d := r.d
  let q := d.offset k
  let s := if ch = .store then (d.sourceWords q k.len).foldl (fun s w => s.touchSram p 0 (8 * w) 8) s else s
  let c := s.core p
  let src := if ch = .store then (List.range k.len).map (fun i => c.sourceByte d (q + i)) else []
  let addr := d.dpa k
  let req : Req := { core := p, ch := ch, serial := r.serial, piece := k, addr := addr, stage := .toWell
                     dirty := src.any (·.2), data := src.map (·.1), poison := rowBits addr (src.map (·.2)) }
  { s with reqs := s.reqs.put s.nextReq req, nextReq := s.nextReq + 1 }

/-- Whether a channel of a core has a request ready for the CARTER endpoint. -/
def State.chanReady (s : State) (p : Pos) (ch : Chan) : Bool :=
  let x := (s.core p).chan ch
  s.carterRuns p && x.issuing && decide (x.credits > 0) &&
    (match x.nextPiece with
     | some (r, k, _) => !r.d.outside k.burst
     | none => false)

/-- Whether a core has an answer for the hub that has not left: those go first (R120). -/
def State.answerWaits (s : State) (p : Pos) : Bool :=
  s.reqs.any fun e => decide (e.2.stage = .fieldResp ∧ e.2.target = some p)

/-- Whether the CARTER endpoint takes a channel's request now (R120, R122): the slot is its own, with its pair at the well, no
answer to the hub waits, and where the other channel is ready too it is this one's turn. -/
def State.mayEnter (s : State) (p : Pos) (ch : Chan) : Bool :=
  let mine := decide (ch = .store) == (s.core p).storeTurn
  s.portOpen p true && !s.answerWaits p && (mine || !s.chanReady p (if ch = .load then .store else .load))

/-- CARTER_REQUEST: the carter sends the next request of the walk when it holds a credit and the CARTER endpoint takes it, load
and store in turn; a burst outside the address space fails at the carter and sends none (R120, R180, R211, R213). -/
def execCarterRequest (p : Pos) (ch : Chan) (s : State) : Host.Outcome State Fault Refusal :=
  let x := (s.core p).chan ch
  .next (if s.carterRuns p && x.issuing then
    match x.nextPiece with
    | none => s
    | some (r, k, redo) =>
      if r.d.outside k.burst then
        (s.updChan p ch fun x =>
          { x.updRun r.serial (·.advance k redo) with
            failed := x.failed ++ [{ serial := r.serial, piece := k, status := 1, dpa := r.d.dpa k }] }).checkHalt p ch
      else if x.credits = 0 ∨ !s.mayEnter p ch then s
      else
        ((s.updCore p fun c => { c with storeTurn := decide (ch = .load) }).updChan p ch fun x =>
          { x.updRun r.serial (fun r => { r.advance k redo with outstanding := r.outstanding ++ [k] }) with
            credits := x.credits - 1 }).sendPiece p ch r k
  else s)

/-! ### Local writes of a load (R213, R218, R221) -/

/-- The carter writes local bytes (none keeps a byte), word by word: a word written in part is a read-modify-write and
keeps any poison, a whole word takes the poison of its bytes (R72, R75, R218). -/
def State.carterWrite (s : State) (p : Pos) (l : List (Nat × Option Byte × Bool)) : State :=
  let ws := ((l.filter fun e => e.2.1.isSome || e.2.2).map fun e => e.1 / 8).dedup
  ws.foldl (fun s w =>
    let es := l.filter fun e => decide (e.1 / 8 = w)
    let full := decide ((es.filter fun e => e.2.1.isSome).length = 8)
    let bad := es.any fun e => e.2.2
    let s := if full then s else s.touchSram p 0 (8 * w) 8
    s.updCore p fun c =>
      let was := c.sramPoison.contains w
      let c := es.foldl (fun c e => match e.2.1 with
        | some v => c.setByte e.1 v
        | none => c) c
      let c := if full then
          { c with ue := c.ue.filter (· ≠ w), ce := c.ce.filter (· ≠ w), writeback := c.writeback.filter (· ≠ w) }
        else c
      c.setPoison w (bad || (!full && was))) s

/-- The local bytes of a complete frame (R214, R215): with BPT, a skipped byte with FILL 0 keeps every byte it maps
to (log entry 18). -/
def Desc.frameBytes (d : Desc) (q : Nat) (l : List (Option Byte × Bool × Bool)) : List (Nat × Option Byte × Bool) :=
  if d.rmode = 3 then
    let bad := l.any (·.2.1)
    let keep := l.any (·.1.isNone)
    let src := l.map fun e => e.1.getD 0
    (List.range 8).map fun i => (d.lbase + q + i, if keep then none else some (transposeByte src i), bad)
  else (l.zipIdx).map fun e => (d.localAddr (q + e.2), e.1.1, e.1.2.1)

/-- Stream bytes from an offset have arrived or been settled: written at once with NONE, else once their frame is
whole; BYTES counts those written that arrived (R217, R221). -/
def State.deliverBytes (s : State) (p : Pos) (serial q : Nat) (l : List (Option Byte × Bool × Bool)) : State :=
  match (s.core p).load.running.find? (fun r => r.serial = serial) with
  | none => s
  | some r =>
    let d := r.d
    let buf := (l.zipIdx).foldl (fun b e => b.put (q + e.2) e.1) r.buf
    let n := d.frame
    let frames := (List.range ((q + l.length - 1) / n - q / n + 1)).map (q / n + ·)
    let ready := frames.filter fun k => (List.range n).all fun i => (buf.find? (k * n + i)).isSome
    let get (k : Nat) := (List.range n).map fun i => buf.get (none, false, false) (k * n + i)
    let wr := ready.flatMap fun k => d.frameBytes (k * n) (get k)
    let came := ((ready.flatMap get).filter (·.2.2)).length
    let buf := buf.filter fun e => !ready.contains (e.1 / n)
    (s.updChan p .load fun x => x.updRun serial fun r => { r with buf := buf, bytes := r.bytes + came }).carterWrite p wr

/-! ### Responses (R206, R218, R219, R304) -/

/-- A response has fully arrived: the credit returns, load data is written, an ABORTED request is booked without a
halt, and another status becomes a failure (R180, R206, R218, R219). -/
def State.respond (s : State) (id : Nat) (r : Req) : State :=
  let s := { s with reqs := s.reqs.del id }
  let p := r.core
  let s := s.updChan p r.ch fun x =>
    { x.updRun r.serial (fun t => { t with outstanding := t.outstanding.erase r.piece }) with credits := x.credits + 1 }
  let s :=
    if r.status = 0 then
      let s := s.updChan p r.ch fun x =>
        x.updRun r.serial fun t => { t with poison := t.poison || r.dirty || r.poison.any (· = true) }
      match r.ch with
      | .store => s.updChan p .store fun x => x.updRun r.serial fun t => { t with bytes := t.bytes + r.piece.len }
      | .load =>
        match (s.core p).load.running.find? (fun t => t.serial = r.serial) with
        | none => s
        | some t =>
          let row0 := r.addr / 16
          let l := (r.data.zipIdx).map fun e =>
            (some e.1, (r.poison[(r.addr + e.2) / 16 - row0]?).getD false, true)
          s.deliverBytes p r.serial (t.d.offset r.piece) l
    else if r.status = 4 then
      s.updChan p r.ch fun x => x.updRun r.serial fun t => { t with aborted := true }
    else
      s.updChan p r.ch fun x => { x with failed := x.failed ++
        [{ serial := r.serial, piece := r.piece, status := r.status, dpa := r.addr }] }
  s.checkHalt p r.ch

/-- READ_RESP: a response reaches the load channel, over a slot its well may send in (R178, R179). -/
def execReadResp (id : Nat) (s : State) : Host.Outcome State Fault Refusal :=
  .next (match s.reqs.find? id with
    | some r => if r.ch = .load ∧ r.stage = .toCarter ∧ s.portOpen r.core false then (s.respond id r).stir r.core.parish else s
    | none => s)

/-- WRITE_ACK: an acknowledgement reaches the store channel (R178, R179). -/
def execWriteAck (id : Nat) (s : State) : Host.Outcome State Fault Refusal :=
  .next (match s.reqs.find? id with
    | some r => if r.ch = .store ∧ r.stage = .toCarter ∧ s.portOpen r.core false then (s.respond id r).stir r.core.parish else s
    | none => s)

/-! ### Completion (R206, R216, R217) -/

/-- Whether the oldest descriptor of a channel is complete (R205, R206). -/
def Channel.mayComplete (x : Channel) (r : DescRun) : Bool :=
  r.issued && r.outstanding.isEmpty && !(x.failed.any fun l => l.serial = r.serial) &&
    (match x.latch with
     | some l => decide (l.serial ≠ r.serial)
     | none => true)

/-- The status word (R217). -/
def DescRun.statusWord (r : DescRun) : Nat :=
  (if r.aborted then 2 else if r.skips > 0 then 1 else 0) + 4 * b2n r.poison + 2 ^ 16 * min r.skips 65535
    + 2 ^ 32 * min r.bytes 0xFFFFFFFF

/-- The completion actions: the status word, then INC on the bound tally (R206, R216). -/
def State.completeDesc (s : State) (p : Pos) (r : DescRun) : State :=
  let d := r.d
  let s := if d.statEn then s.updCore p fun c => c.storeWords d.statAddr (leBytes 8 r.statusWord) (fun _ => false) else s
  if !d.tbind then s
  else if d.tlvl = 0 then s.tallyInc { lvl := 0, core := p, idx := d.tidx.toNat } d.tn p.id
  else s.sendTally { src := p, carter := true, lvl := d.tlvl, idx := d.tidx, op := .inc, n := d.tn }

/-- A control unit stalled on a full channel launches its descriptor (R66). -/
def State.unstall (s : State) (p : Pos) (ch : Chan) : State :=
  match (s.core p).wait with
  | .carterFull c f =>
    if c = ch then
      (s.updCore p fun c => { c with wait := .none }).launch p (if ch = .load then 0 else 1) ch f
    else s
  | _ => s

/-- DESCRIPTOR_COMPLETE: the oldest descriptor of a channel completes, in launch order; in a HALTED allotment one with aborted
requests is held, and after the drain's bound every one (R205, R206, R223). -/
def execDescriptorComplete (p : Pos) (ch : Chan) (s : State) : Host.Outcome State Fault Refusal :=
  let x := (s.core p).chan ch
  .next (match x.running with
    | [] => s
    | r :: t =>
      if x.mayComplete r && (s.carterRuns p || (!r.aborted && !(s.core p).drained)) then
        ((s.updChan p ch fun x => { x with running := t }).completeDesc p r).unstall p ch
      else s)

/-! ### Halt and its choices (R221, R224) -/

/-- The pieces of a list of failures that belong to a descriptor, in walk order, to be sent again. -/
def redoOf (l : List Latch) (serial : Nat) : List Piece :=
  (((l.filter fun x => x.serial = serial).mergeSort Latch.before).map (·.piece))

/-- The channel sends failed requests again and goes on (R221). -/
def Channel.goOn (x : Channel) (l : List Latch) : Channel :=
  { x with halted := false, latch := none, failed := []
           running := x.running.map fun r => { r with redo := redoOf l r.serial ++ r.redo } }

/-- The settlement of a skipped request's bytes by FILL; the data of a poisoned word is a free value. -/
def fillBytes (fill : Nat) (v : BitVec 512) (n : Nat) : List (Option Byte × Bool × Bool) :=
  (List.range n).map fun i =>
    match fill with
    | 0 => (none, false, false)
    | 1 => (some 0, false, false)
    | _ => (some (BitVec.ofNat 8 (bits v (8 * i) 8)), true, false)

/-- SKIP of a latched request (R221). -/
def State.carterSkip (s : State) (p : Pos) (ch : Chan) (l : Latch) (fill : Nat) : State :=
  let s := s.updChan p ch fun x => (x.goOn x.failed).updRun l.serial fun r => { r with skips := r.skips + 1 }
  if ch = .load then
    match (s.core p).load.running.find? (fun r => r.serial = l.serial) with
    | some r => (s.deliverBytes p l.serial (r.d.offset l.piece) (fillBytes fill s.draw l.piece.len)).drawn
    | none => s
  else s

/-- A descriptor ended by ABORT: nothing more is issued, and a frame only partly received is dropped. -/
def DescRun.abort (r : DescRun) : DescRun := { r with cut := true, aborted := true, redo := [], buf := [] }

/-- ABORT (R221): the descriptor of the halt point, or with ALL also every later one, ends ABORTED. -/
def Channel.abort (x : Channel) (serial : Nat) (all : Bool) : Channel :=
  if all then
    let later := x.waiting.zipIdx.map fun e => ({ d := e.1, serial := x.serial + e.2 } : DescRun).abort
    { x with halted := false, latch := none, failed := [], waiting := [], serial := x.serial + x.waiting.length
             running := (x.running.map fun r => if r.serial ≥ serial then r.abort else r) ++ later }
  else
    (x.goOn (x.failed.filter fun l => l.serial ≠ serial)).updRun serial DescRun.abort

/-- The position CARTER_SEL selects, where it is one (R224). -/
def selPos (par : Fin 78) (v : DWord) : Option Pos :=
  if h : bits v 0 7 < 80 ∧ bits v 7 7 < 96 then
    some { parish := par, col := ⟨bits v 0 7, h.1⟩, row := ⟨bits v 7 7, h.2⟩ }
  else none

/-- The channel CARTER_SEL selects. -/
def selChan (v : DWord) : Chan := if bit v 14 then .store else .load

/-- A CARTER_CTL write that takes effect (R221, R224): ignored, with CTL_IGNORED, where it has no effect. -/
def State.carterCtl (s : State) (par : Fin 78) (v : DWord) : State :=
  let sel := s.reg (parishBase par + 0x2000)
  let ignored := s.orReg (parishBase par + 0x2028) 1
  match selPos par sel with
  | none => ignored
  | some p =>
    let ch := selChan sel
    match ((s.core p).chan ch).latch with
    | none => ignored
    | some l =>
      match bits v 0 2 with
      | 0 => ignored
      | 1 => s.updChan p ch fun x => x.goOn (l :: x.failed)
      | 2 => if bits v 2 2 = 3 then ignored else s.carterSkip p ch l (bits v 2 2)
      | _ => s.updChan p ch fun x => x.abort l.serial (bit v 4)

/-! ### Drain (R223) -/

/-- The requests of a core's channel that are outstanding, with their ids. -/
def State.outstandingOf (s : State) (p : Pos) (ch : Chan) : List (Nat × Req) :=
  s.reqs.filter fun e => decide (e.2.core = p ∧ e.2.ch = ch)

/-- DMA_DRAIN_TIMEOUT: the 20 microseconds of a drain are over in a HALTED allotment: the well answers what is still outstanding
ABORTED, a later response is discarded, and descriptors are held from then on (R223, R225). -/
def execDmaDrainTimeout (p : Pos) (s : State) : Host.Outcome State Fault Refusal :=
  let l := s.outstandingOf p .load
  let t := s.outstandingOf p .store
  .next (match s.allotOf p.parish with
    | none => s
    | some a =>
      if (s.allot a).st ≠ .halted then s
      else if l.length + t.length = 0 then s.updCore p fun c => { c with drained := true }
      else
        let s := (l ++ t).foldl (fun s e => s.respond e.1 { e.2 with status := 4 }) s
        (s.updCore p fun c => { c with drained := true }).raiseA evDmaDrainTimeout a
          [(p.id, 4), (l.length, 1), (t.length, 1)])

end Sys2Proof.Machine
end

