-- ==== Sys2Proof/Machine/Clocks.lean ====
section
/-! DEFINITION. Clock sources (R226 to R244): the monitor's judgement, failover, switching by software, the frequency
meter. -/

namespace Sys2Proof.Machine

/-- Source codes (R228). -/
def srcCode : Src → Nat
  | .ref => 0 | .mon => 1 | .tlane => 2 | .synce => 3

/-- The source a code selects, where it is selectable (R228, R237). -/
def srcOf : Nat → Option Src
  | 0 => some .ref | 2 => some .tlane | 3 => some .synce | _ => none

/-- The status bit of a source (R232, R243). -/
def Clk.ok (c : Clk) : Src → Bool
  | .ref => c.refOk | .mon => c.monOk | .tlane => c.tlaneOk | .synce => c.synceOk

def Clk.setOk (c : Clk) (x : Src) (b : Bool) : Clk :=
  match x with
  | .ref => { c with refOk := b } | .mon => { c with monOk := b }
  | .tlane => { c with tlaneOk := b } | .synce => { c with synceOk := b }

/-- FAILOVER_ARMED (R233, R243). -/
def Clk.armed (c : Clk) : Bool := c.refOk && c.monOk

/-- Sets a sticky bit of CLK_FAULTS (R232, R243). -/
def State.clkFault (s : State) (b : Nat) : State := s.orReg (clkBase + 0x20) (BitVec.ofNat 64 (2 ^ b))

/-- A short pulse on the mux output marks the tick in progress, the one the counter takes next, as suspect (R234,
R251). -/
def State.shortPulse (s : State) : State := (s.forceSuspect (s.bell.count.toNat + 1)).clkFault 8

/-- A forced switch (R234). -/
def State.forceSwitch (s : State) (x : Src) (short : Bool) : State :=
  let s := { s with clk := { s.clk with sel := x, switching := none, lastForced := true, primaryPending := false } }.bump
    (clkBase + 0x40)
  if short then s.shortPulse else s

/-- CLOCK_FAILOVER with its forced switch (R233, R244): cause 0 FREQ, 1 LOSS, 2 REF_FAULT. -/
def State.failover (s : State) (x : Src) (cause : Nat) (short : Bool) : State :=
  let old := s.clk.sel
  (s.forceSwitch x short).raise evClockFailover none
    [(srcCode old, 1), (srcCode x, 1), (cause, 1), ((s.reg (clkBase + 0x28)).toNat, 8), (s.bell.count.toNat, 8)] [.sessions]

/-- Service stops: the clocked logic has no trustworthy reference (R235). -/
def State.stopService (s : State) : State :=
  { s with boot := { s.boot with stopped := true }, pins := { s.pins with alertN := false } }

/-- The source a module aims at: TLANE for a member of a domain but its root, else the clock plan's PRIMARY (R231, R311). -/
def primarySrc (c : Cfg) : Src := if c.domain ∧ !c.root then .tlane else (srcOf c.primary).getD .ref

/-- The port whose time lane is TLANE: a member's PARENT_PORT, else the clock plan's (R229, R311). -/
def timePort (c : Cfg) : Nat := if c.domain ∧ !c.root then c.parentPort else c.tlanePort

/-- The external source a REF fault moves the mux to: PRIMARY if it is healthy, else the other external one (R235). -/
def State.refTarget (s : State) : Option Src :=
  let c := s.clk
  let first := if primarySrc s.boot.cfg = .synce then Src.synce else .tlane
  let second := if first = .synce then Src.tlane else .synce
  if c.ok first then some first else if c.ok second then some second else none

/-- What a failed REF leads to (R235): with REF selected the mux is forced to an external source; with an external source
selected it stays. The PLLs follow the mux. Without a healthy external source service stops. -/
def State.refDown (s : State) (short : Bool) : State :=
  if s.clk.sel = .ref then
    match s.refTarget with
    | some x =>
      let s := s.failover x 2 short
      { s with clk := { s.clk with refFailed := true } }
    | none => s.stopService
  else if s.clk.ok s.clk.sel then { s with clk := { s.clk with refFailed := true } }
  else s.stopService

/-- REF fails (R235). A software switch away from a failed source is left to R238 (R241). The event's action field, whose
codes the spec does not give, carries a free value. -/
def State.refFault (s : State) (short : Bool) : State :=
  let c := s.clk
  let s := s.clkFault 4
  let s := (s.raise evClockRefFault none [(srcCode c.sel, 1), (bits s.draw 0 8, 1)] [.sessions]).drawn
  if c.switching.isSome ∧ (c.sel = .ref ∨ !c.ok c.sel) then s else s.refDown short

/-- REF-to-MON ratio in units of 2^-16, from its deviation in ppm from 156.25 to 100 (R244, R484). -/
def refMonRatio (ppm : Int) : Nat := (102400 * (1000000 + ppm) / 1000000).toNat

/-- MON fails (R235): failover is disarmed. -/
def State.monFault (s : State) (ratio : Nat) : State :=
  (s.clkFault 5).raise evClockMonitorFault none [(ratio, 4)] []

/-- What follows a judgement of the selected external source: failover to REF where armed, a stop of service where REF
has failed and no restart has applied the clock plan since (R233, R235); a software switch in progress is left to R238
(R241). -/
def State.judgeSelected (s : State) (cause : Nat) (short : Bool) : State :=
  let c := s.clk
  if c.switching.isSome ∨ c.sel = .ref ∨ c.ok c.sel then s
  else if c.refFailed ∨ !c.refOk then s.stopService
  else if c.armed then s.failover .ref cause short
  else s

/-- Whether a deviation lies within a limit in ppm. -/
def within (limit : Nat) : Option Int → Bool
  | some d => decide (d.natAbs ≤ limit)
  | none => false

/-- The deviation shown in MON_DEV: saturating at 32,767 ppm, negative where no edge came (R243). -/
def devField (d : Option Int) : Nat :=
  let v := d.getD (-1000000)
  (BitVec.ofInt 16 (max (-32767) (min 32767 v))).toNat

/-- Whether MON lies within 10 % of REF, from REF's deviation from MON (R232). -/
def monWithin : Option Int → Bool
  | some d => decide (10 * (d.natAbs : Int) ≤ 1000000 + d)
  | none => false

/-- A window's judgement of one external source: its frequency, and the gaps the window held (R232). -/
def State.judgeSource (s : State) (x : Src) (limit : Nat) (d : Option Int) (bitFreq : Nat) : State :=
  let s := { s with clk := s.clk.setOk x (within limit d && !s.clk.gaps.contains x) }
  let s := if within limit d then s else s.clkFault bitFreq
  if d.isNone then s.clkFault (bitFreq + 1) else s

/-- TLANE has edges only while its port is trained, and SYNCE only while the sector of its host port is powered (R226,
R229, R281). -/
def State.tlaneRuns (s : State) : Bool := (s.port (timePort s.boot.cfg)).carries
def State.synceRuns (s : State) : Bool := s.sectorUp (hostPortSector s.boot.cfg.syncePort)

/-- MONITOR_WINDOW: a window ends and each source's health is judged (R232 to R235, R241, R243). -/
def execMonitorWindow (o : MonObs) (s : State) : Host.Outcome State Fault Refusal :=
  let was := s.clk
  let refGood := within 50000 o.refVsMon && !was.gaps.contains .ref
  let monGood := monWithin o.refVsMon
  let limit := if was.refFailed || !refGood then 50000 else 500
  .next (if !s.pins.pwrGood then s
    else
      let tl := if s.tlaneRuns then o.tlane else none
      let sy := if s.synceRuns then o.synce else none
      let s := s.setReg (clkBase + 0x28)
        (BitVec.ofNat 64 (devField tl + 2 ^ 16 * devField sy + 2 ^ 32 * devField o.muxout))
      let s := (s.judgeSource .tlane limit tl 0).judgeSource .synce limit sy 2
      let s := { s with clk := { s.clk with refOk := refGood, monOk := monGood, gaps := [] } }
      let s := if was.monOk && !monGood then s.monFault (refMonRatio (o.refVsMon.getD (-1000000))) else s
      let s := if was.refOk && !refGood then s.refFault o.shortPulse else s
      let selDev := if s.clk.sel = .tlane then tl else sy
      s.judgeSelected (if selDev.isNone then 1 else 0) o.shortPulse)

/-- A source shows no edge for 200 ns; MON has no such check (R232, R233, R235). -/
def State.edgeGap (s : State) (src : Src) (shortPulse : Bool) : State :=
  let was := s.clk
  if !s.pins.pwrGood ∨ src = .mon then s
  else
    let s := { s with clk := { s.clk.setOk src false with gaps := src :: s.clk.gaps } }
    match src with
    | .ref => if was.refOk then s.refFault shortPulse else s
    | .tlane => (s.clkFault 1).judgeSelected 1 shortPulse
    | _ => (s.clkFault 3).judgeSelected 1 shortPulse

/-- EDGE_GAP: a source shows no edge for 200 ns and fails (R232). -/
def execEdgeGap (src : Src) (shortPulse : Bool) (s : State) : Host.Outcome State Fault Refusal :=
  .next (s.edgeGap src shortPulse)

/-- The time lane's edges stop where its port carries no traffic: the source fails as by an edge gap (R229). -/
def State.timeLane (s : State) : State :=
  if s.tlaneRuns ∨ !s.clk.tlaneOk then s else s.edgeGap .tlane false

/-! ### Switching (R231, R236 to R238) -/

/-- PRIMARY_SWITCH: PRIMARY has been healthy for 100 ms and ST0 switches to it, once (R231). -/
def execPrimarySwitch (s : State) : Host.Outcome State Fault Refusal :=
  let x := primarySrc s.boot.cfg
  .next (if s.clk.primaryPending ∧ s.clk.ok x ∧ s.clk.switching.isNone then
    let s := s.setReg (clkBase + 8) (BitVec.ofNat 64 (srcCode x))
    { s with clk := { s.clk with primaryPending := false, switching := if s.clk.sel = x then none else some x } }
  else s)

/-- A CLK_SELECT write that takes effect, or is refused (R236, R237). -/
def State.clkSelectWrite (s : State) (v : DWord) : State :=
  let code := bits v 0 4
  let s := s.setReg (clkBase + 8) (BitVec.ofNat 64 code)
  match srcOf code with
  | none => s.clkFault 7
  | some x =>
    if !s.clk.ok x ∨ s.clk.switching.isSome then s.clkFault 7
    else if x = s.clk.sel then s
    else { s with clk := { s.clk with switching := some x } }

/-- CLK_SELECT: a key-guarded write of the source to select (R236, R237, R243). -/
def execClkSelect (path : RegPath) (value : DWord) (s : State) : Host.Outcome State Fault Refusal :=
  .next (s.writeNow path (clkBase + 8) true fun s => s.clkSelectWrite value)

/-- REF has failed while a software switch was in progress, or the switch ends on a REF that has failed: what R235 does follows
the switch (R238, R241). -/
def State.refAfterSwitch (s : State) (short : Bool) : State :=
  if s.clk.refOk ∨ (s.clk.refFailed ∧ s.clk.sel ≠ .ref) then s else s.refDown short

/-! ### The frequency meter (R239) -/

/-- FMETER_RES bits. -/
def fmTimeout : Nat := 2 ^ 62
def fmDone : Nat := 2 ^ 63

/-- An FMETER_CTL write (R239, R243): a GATE of zero is out of range and the write is ignored; START restarts the
meter; a code above MUXOUT ends it at once. -/
def State.fmeterWrite (s : State) (v : DWord) : State :=
  if bits v 8 24 = 0 then s
  else
    let s := s.setReg (clkBase + 0x30) (BitVec.ofNat 64 (bits v 0 32))
    if !bit v 63 then s
    else if bits v 0 4 > 4 ∨ bits v 4 4 > 4 then
      { s.setReg (clkBase + 0x38) (BitVec.ofNat 64 (fmTimeout + fmDone)) with clk := { s.clk with meterRunning := false } }
    else { s.setReg (clkBase + 0x38) 0 with clk := { s.clk with meterRunning := true } }

/-- FMETER_START: a write of FMETER_CTL (R239). -/
def execFmeterStart (path : RegPath) (value : DWord) (s : State) : Host.Outcome State Fault Refusal :=
  .next (s.writeNow path (clkBase + 0x30) false fun s => s.fmeterWrite value)

/-- FMETER_DONE: the gate has run out and COUNT is shown (R239). -/
def execFmeterDone (count : BitVec 48) (s : State) : Host.Outcome State Fault Refusal :=
  .next (if s.clk.meterRunning then
    { s.setReg (clkBase + 0x38) (BitVec.ofNat 64 (count.toNat + fmDone)) with clk := { s.clk with meterRunning := false } }
  else s)

/-- FMETER_TIMEOUT: REF_SEL shows no edge for 200 ns; the meter stops, and the COUNT it shows is a free value (R239). -/
def execFmeterTimeout (s : State) : Host.Outcome State Fault Refusal :=
  .next (if s.clk.meterRunning then
    { (s.setReg (clkBase + 0x38) (BitVec.ofNat 64 (bits s.draw 0 48 + fmTimeout + fmDone))).drawn with
        clk := { s.clk with meterRunning := false } }
  else s)

end Sys2Proof.Machine
end

