-- ==== Sys2Proof/Machine/Number.lean ====
section
/-! DEFINITION. The number formats (R84 to R90) and exact arithmetic on them with one rounding to nearest even
(R101 to R105), the correctly rounded functions (R56), and the matrix engine's group sum (R92 to R99). A finite value
is a sign, a magnitude and a power of two, so that every intermediate result is exact. -/

namespace Sys2Proof.Machine

/-- What a code of a floating-point format stands for: NaN, an infinity, or (-1)^neg * m * 2^e. -/
inductive Num where
  | nan
  | inf (neg : Bool)
  | fin (neg : Bool) (m : Nat) (e : Int)
  deriving DecidableEq, Repr

/-- How a format spends its top exponent (R84). -/
inductive Top where
  | ieee | e4m3 | finite
  deriving DecidableEq, Repr

/-- A floating-point element format (R84): exponent and mantissa widths, bias, top exponent. -/
structure NumFmt where
  eb : Nat
  mb : Nat
  bias : Nat
  top : Top
  deriving DecidableEq, Repr

def fp32 : NumFmt := { eb := 8, mb := 23, bias := 127, top := .ieee }
def bf16 : NumFmt := { eb := 8, mb := 7, bias := 127, top := .ieee }
def fp16 : NumFmt := { eb := 5, mb := 10, bias := 15, top := .ieee }
def e4m3 : NumFmt := { eb := 4, mb := 3, bias := 7, top := .e4m3 }
def e5m2 : NumFmt := { eb := 5, mb := 2, bias := 15, top := .ieee }
def e3m2 : NumFmt := { eb := 3, mb := 2, bias := 3, top := .finite }
def e2m3 : NumFmt := { eb := 2, mb := 3, bias := 1, top := .finite }
def e2m1 : NumFmt := { eb := 2, mb := 1, bias := 1, top := .finite }

/-- Width of a format in bits. -/
def NumFmt.width (f : NumFmt) : Nat := 1 + f.eb + f.mb

/-- The exponent of the last place of the subnormals, 1 - bias - M. -/
def NumFmt.emin (f : NumFmt) : Int := 1 - (f.bias : Int) - (f.mb : Int)

/-- The magnitude code of the largest finite value (R84). -/
def NumFmt.maxCode (f : NumFmt) : Nat :=
  match f.top with
  | .ieee => 2 ^ (f.eb + f.mb) - 2 ^ f.mb - 1
  | .e4m3 => 2 ^ (f.eb + f.mb) - 2
  | .finite => 2 ^ (f.eb + f.mb) - 1

/-- The value of a code (R84). -/
def NumFmt.decode (f : NumFmt) (c : Nat) : Num :=
  let neg := c.testBit (f.eb + f.mb)
  let mag := c % 2 ^ (f.eb + f.mb)
  let e := mag / 2 ^ f.mb
  let m := mag % 2 ^ f.mb
  if mag > f.maxCode then
    if f.top = .ieee ∧ m = 0 then .inf neg else .nan
  else if e = 0 then .fin neg m f.emin
  else .fin neg (2 ^ f.mb + m) (f.emin + (e : Int) - 1)

/-- `m / 2^sh` rounded to nearest even; with `sticky` the true value lies above `m` by less than one. -/
def roundShift (m sh : Nat) (sticky : Bool) : Nat :=
  if sh = 0 then m else
  let q := m >>> sh
  let r := m % 2 ^ sh
  let half := 2 ^ (sh - 1)
  if r > half ∨ (r = half ∧ (sticky ∨ q % 2 = 1)) then q + 1 else q

/-- The magnitude code of `m * 2^e` rounded to nearest even with an unbounded exponent (R101, R105): a code above
`maxCode` is an overflow. -/
def NumFmt.roundCode (f : NumFmt) (m : Nat) (e : Int) (sticky : Bool) : Nat :=
  if m = 0 then 0 else
  let t : Int := max (e + (m.log2 + 1 : Nat) - (f.mb + 1 : Nat)) f.emin
  let v := if t ≤ e then m <<< (e - t).toNat else roundShift m (t - e).toNat sticky
  (t - f.emin).toNat * 2 ^ f.mb + v

/-- The VSTAT flags (R50) an operation raises. -/
structure Flg where
  invalid : Bool := false
  saturated : Bool := false
  inexact : Bool := false
  degenerate : Bool := false
  deriving DecidableEq, Repr

/-- Flags of two operations together. -/
def Flg.or (a b : Flg) : Flg :=
  { invalid := a.invalid || b.invalid, saturated := a.saturated || b.saturated
    inexact := a.inexact || b.inexact, degenerate := a.degenerate || b.degenerate }

/-- The canonical NaN (R102). -/
def canonNaN : Word := 0x7FC00000

def inf32 (neg : Bool) : Word := if neg then 0xFF800000 else 0x7F800000
def max32 (neg : Bool) : Word := if neg then 0xFF7FFFFF else 0x7F7FFFFF
def zero32 (neg : Bool) : Word := if neg then 0x80000000 else 0

/-- FP32 of a finite exact value, rounded once; an overflow gives an infinity or, with `sat`, the largest finite
value with VSTAT saturated (R54, R94, R101). -/
def round32 (sat neg : Bool) (m : Nat) (e : Int) (sticky : Bool := false) : Word × Flg :=
  let c := fp32.roundCode m e sticky
  if c > fp32.maxCode then
    if sat then (max32 neg, { saturated := true }) else (inf32 neg, {})
  else (BitVec.ofNat 32 (c + if neg then 2 ^ 31 else 0), {})

/-- FP32 of a value: NaN and infinities as they are. -/
def pack32 (sat : Bool) : Num → Word × Flg
  | .nan => (canonNaN, {})
  | .inf n => (inf32 n, {})
  | .fin n m e => round32 sat n m e

/-- The value of an FP32 lane. -/
def val32 (w : Word) : Num := fp32.decode w.toNat

def Num.isNaN : Num → Bool
  | .nan => true
  | _ => false

def Num.isZero : Num → Bool
  | .fin _ 0 _ => true
  | _ => false

def Num.neg : Num → Num
  | .nan => .nan
  | .inf n => .inf (!n)
  | .fin n m e => .fin (!n) m e

/-- The integer of a finite value in units of `2^u`, for `u` at most its exponent. -/
def scaled (neg : Bool) (m : Nat) (e u : Int) : Int :=
  let v : Int := ((m <<< (e - u).toNat : Nat) : Int)
  if neg then -v else v

/-- The exact sum of two values (R101: an exact zero of operands of opposite sign is +0). -/
def Num.add : Num → Num → Num
  | .nan, _ => .nan
  | _, .nan => .nan
  | .inf a, .inf b => if a = b then .inf a else .nan
  | .inf a, _ => .inf a
  | _, .inf b => .inf b
  | .fin na ma ea, .fin nb mb eb =>
    let u := min ea eb
    let v := scaled na ma ea u + scaled nb mb eb u
    if v = 0 then .fin (na && nb) 0 0 else .fin (decide (v < 0)) v.natAbs u

/-- The exact product of two values. -/
def Num.mul : Num → Num → Num
  | .nan, _ => .nan
  | _, .nan => .nan
  | .inf a, .inf b => .inf (a != b)
  | .inf a, .fin b m _ => if m = 0 then .nan else .inf (a != b)
  | .fin a m _, .inf b => if m = 0 then .nan else .inf (a != b)
  | .fin na ma ea, .fin nb mb eb => .fin (na != nb) (ma * mb) (ea + eb)

/-- `a < b` for values that are not NaN; zeros of either sign are equal. -/
def Num.lt : Num → Num → Bool
  | .nan, _ => false
  | _, .nan => false
  | .inf a, .inf b => a && !b
  | .inf a, _ => a
  | _, .inf b => !b
  | .fin na ma ea, .fin nb mb eb =>
    let u := min ea eb
    decide (scaled na ma ea u < scaled nb mb eb u)

/-- `a = b` as values (R103: zeros compare equal, NaN equals nothing). -/
def Num.eq (a b : Num) : Bool := !a.isNaN && !b.isNaN && !a.lt b && !b.lt a

/-- The flag of an arithmetic result: invalid when a NaN comes of operands that hold none (R101). -/
def invalidOf (r : Num) (ops : List Num) : Flg := { invalid := r.isNaN && ops.all (fun x => !x.isNaN) }

/-- VADD of one lane (R54). -/
def fadd (sat : Bool) (a b : Word) : Word × Flg :=
  let r := (val32 a).add (val32 b)
  let q := pack32 sat r
  (q.1, q.2.or (invalidOf r [val32 a, val32 b]))

/-- VSUB of one lane (R54). -/
def fsub (sat : Bool) (a b : Word) : Word × Flg :=
  let r := (val32 a).add (val32 b).neg
  let q := pack32 sat r
  (q.1, q.2.or (invalidOf r [val32 a, val32 b]))

/-- VMUL of one lane (R54). -/
def fmul (sat : Bool) (a b : Word) : Word × Flg :=
  let r := (val32 a).mul (val32 b)
  let q := pack32 sat r
  (q.1, q.2.or (invalidOf r [val32 a, val32 b]))

/-- VFMA of one lane: one rounding (R54). -/
def ffma (sat : Bool) (a b c : Word) : Word × Flg :=
  let r := ((val32 a).mul (val32 b)).add (val32 c)
  let q := pack32 sat r
  (q.1, q.2.or (invalidOf r [val32 a, val32 b, val32 c]))

/-- VMAX of one lane (R103). -/
def fmax (a b : Word) : Word :=
  match (val32 a).isNaN, (val32 b).isNaN with
  | true, true => canonNaN
  | true, false => b
  | false, true => a
  | false, false =>
    if (val32 a).isZero && (val32 b).isZero then (if a = 0x80000000 then b else a)
    else if (val32 a).lt (val32 b) then b else a

/-- VMIN of one lane (R103). -/
def fmin (a b : Word) : Word :=
  match (val32 a).isNaN, (val32 b).isNaN with
  | true, true => canonNaN
  | true, false => b
  | false, true => a
  | false, false =>
    if (val32 a).isZero && (val32 b).isZero then (if a = 0x80000000 then a else b)
    else if (val32 b).lt (val32 a) then b else a

/-- VCMP of one lane: MODE[1:0] 0 EQ, 1 LT, 2 LE, 3 unordered (R54, R103). -/
def fcmp (mode : Nat) (a b : Word) : Bool :=
  let x := val32 a
  let y := val32 b
  match mode with
  | 0 => x.eq y
  | 1 => x.lt y
  | 2 => x.lt y || x.eq y
  | _ => x.isNaN || y.isNaN

/-! ### Correctly rounded functions (R56) -/

/-- 1/x of one lane. -/
def frcp (sat : Bool) (a : Word) : Word × Flg :=
  match val32 a with
  | .nan => (canonNaN, {})
  | .inf n => (zero32 n, {})
  | .fin n m e =>
    if m = 0 then (inf32 n, {})
    else round32 sat n (2 ^ 64 / m) (-e - 64) (decide (2 ^ 64 % m ≠ 0))

/-- The integer square root by Newton's steps from above. -/
def isqrtFrom : Nat → Nat → Nat → Nat
  | 0, _, x => x
  | k + 1, n, x =>
    let y := (x + n / x) / 2
    if y < x then isqrtFrom k n y else x

/-- The integer square root. -/
def isqrt (n : Nat) : Nat := if n = 0 then 0 else isqrtFrom 600 n (2 ^ (n.log2 / 2 + 1))

/-- 1/sqrt(x) of one lane. The quotient `2^(2k) / x` has an even exponent; its integer root with a sticky remainder
rounds to the correctly rounded result. -/
def frsqrt (sat : Bool) (a : Word) : Word × Flg :=
  match val32 a with
  | .nan => (canonNaN, {})
  | .inf false => (0, {})
  | .inf true => (canonNaN, { invalid := true })
  | .fin n m e =>
    if m = 0 then (inf32 n, {})
    else if n then (canonNaN, { invalid := true })
    else
      -- x = m' * 2^(2h): 1/sqrt(x) = sqrt(2^200 / m') * 2^(-100-h)
      let odd := e % 2 ≠ 0
      let m' := if odd then 2 * m else m
      let h : Int := if odd then (e - 1) / 2 else e / 2
      let q := 2 ^ 200 / m'
      let r := isqrt q
      round32 sat false r (-100 - h) (decide (r * r ≠ q ∨ 2 ^ 200 % m' ≠ 0))

/-- Fixed point of the constants 2^(2^-i): 160 fraction bits, i = 1, 2, ... from the square root of the last. -/
def exp2Step (c : Nat) : Nat := isqrt (c <<< 160)

/-- 2^f in 160 fraction bits for f of `k` fraction bits (most significant first), a product of square roots. -/
def exp2Frac : Nat → Nat → Nat → Nat → Nat
  | 0, _, _, acc => acc
  | k + 1, f, c, acc =>
    let c' := exp2Step c
    exp2Frac k f c' (if f.testBit k then (acc * c') >>> 160 else acc)

/-- 2^x of one lane. DEDUCED (log entry 10): the fraction is a product with an error below 2^-140, and no FP32 input
brings 2^x that near to a rounding boundary. -/
def fexp2 (sat : Bool) (a : Word) : Word × Flg :=
  match val32 a with
  | .nan => (canonNaN, {})
  | .inf true => (0, {})
  | .inf false => (inf32 false, {})
  | .fin n m e =>
    if m = 0 ∨ e + (m.log2 : Int) < -26 then (0x3F800000, {})
    else if e + (m.log2 : Int) ≥ 8 then (if n then (0, {}) else round32 sat false 1 256)
    else
      -- x in units of 2^-50
      let v : Int := if n then -((m <<< (e + 50).toNat : Nat) : Int) else ((m <<< (e + 50).toNat : Nat) : Int)
      let ip := v / 2 ^ 50
      let fp := (v % 2 ^ 50).toNat
      if fp = 0 then round32 sat false 1 ip
      else round32 sat false (exp2Frac 50 fp (2 ^ 161) (2 ^ 160)) (ip - 160) true

/-! ### Conversions (R55, R104, R105) -/

/-- The element formats of VCVT and the matrix engine. -/
inductive Elem where
  | f (x : NumFmt)
  | int (w : Nat)
  deriving DecidableEq, Repr

/-- Width of an element in bits. -/
def Elem.width : Elem → Nat
  | .f x => x.width
  | .int w => w

/-- The element format of a VCVT code (R54). -/
def cvtElem : Nat → Option Elem
  | 0x0 => some (.f e2m1) | 0x2 => some (.f e3m2) | 0x3 => some (.f e2m3) | 0x6 => some (.f e4m3)
  | 0x7 => some (.f e5m2) | 0x9 => some (.int 8) | 0xB => some (.f bf16) | 0xC => some (.f fp16)
  | 0xD => some (.int 4) | _ => none

/-- The number of VCVT groups of an element width (R55). -/
def cvtGroups : Nat → Nat
  | 4 => 8 | 6 => 5 | 8 => 4 | _ => 2

/-- The signed value of a w-bit code. -/
def sintOf (w c : Nat) : Int := if c.testBit (w - 1) then (c : Int) - 2 ^ w else c

/-- The value of an element code. -/
def Elem.value : Elem → Nat → Num
  | .f x, c => x.decode c
  | .int w, c => let v := sintOf w c; .fin (decide (v < 0)) v.natAbs 0

/-- A BF16 value converted to FP32: exact, and a NaN becomes the canonical one (R102, R104). -/
def bf16Widen (h : Nat) : Word := if h % 32768 > 0x7F80 then 0x7FC00000 else BitVec.ofNat 32 (65536 * h)

/-- An element converted to FP32 (R104). -/
def Elem.toFp32 (el : Elem) (c : Nat) : Word := (pack32 false (el.value c)).1

/-- The code a NaN converts to (R105). -/
def NumFmt.nanCode (f : NumFmt) : Nat × Flg :=
  match f.top with
  | .ieee => (2 ^ (f.eb + f.mb) - 2 ^ f.mb + 2 ^ (f.mb - 1), {})
  | .e4m3 => (2 ^ (f.eb + f.mb) - 1, {})
  | .finite => (0, { invalid := true })

/-- FP32 converted to a floating-point element (R105). -/
def NumFmt.ofFp32 (f : NumFmt) (sat : Bool) (a : Word) : Nat × Flg :=
  let sg (n : Bool) := if n then 2 ^ (f.eb + f.mb) else 0
  let clamp (n : Bool) : Nat × Flg := (sg n + f.maxCode, { saturated := true, inexact := true })
  match val32 a with
  | .nan => f.nanCode
  | .inf n => if f.top = .ieee then (sg n + (2 ^ (f.eb + f.mb) - 2 ^ f.mb), {}) else clamp n
  | .fin n m e =>
    let c := f.roundCode m e false
    if c > f.maxCode then
      if f.top = .ieee ∧ !sat then (sg n + (2 ^ (f.eb + f.mb) - 2 ^ f.mb), { inexact := true }) else clamp n
    else (sg n + c, { inexact := !(f.decode (sg n + c)).eq (.fin n m e) })

/-- FP32 converted to a w-bit integer, nearest with ties to even (R105). -/
def intOfFp32 (w : Nat) (a : Word) : Nat × Flg :=
  let lim (n : Bool) : Nat := if n then 2 ^ (w - 1) else 2 ^ (w - 1) - 1
  let code (n : Bool) (v : Nat) : Nat := if n then (2 ^ w - v) % 2 ^ w else v
  match val32 a with
  | .nan => (0, { invalid := true })
  | .inf n => (code n (lim n), { saturated := true, inexact := true })
  | .fin n m e =>
    let big := decide (e ≥ 0 ∧ m ≠ 0 ∧ e.toNat > 64)
    let v := if e ≥ 0 then m <<< (min e.toNat 64) else roundShift m (-e).toNat false
    if big ∨ v > lim n then (code n (lim n), { saturated := true, inexact := true })
    else (code n v, { inexact := decide (e < 0 ∧ m % 2 ^ (-e).toNat ≠ 0) })

/-- FP32 converted to an element (R105). -/
def Elem.ofFp32 (el : Elem) (sat : Bool) (a : Word) : Nat × Flg :=
  match el with
  | .f x => x.ofFp32 sat a
  | .int w => intOfFp32 w a

/-! ### The matrix engine's formats and group sum (R60, R92 to R99) -/

/-- A matrix format (R60): element, whether it is scaled, and the power of two its elements carry (R87). -/
structure MFmt where
  el : Elem
  scaled : Bool
  shift : Int
  deriving DecidableEq, Repr

/-- Beats of the row pipe per row (R60). -/
def MFmt.beats (m : MFmt) : Nat := if m.el.width ≤ 4 then 1 else if m.el.width ≤ 8 then 2 else 4

/-- The matrix format of a code (R60). -/
def mfmt : Nat → Option MFmt
  | 0x0 => some ⟨.f e2m1, false, 0⟩ | 0x1 => some ⟨.f e2m1, true, 0⟩
  | 0x2 => some ⟨.f e3m2, false, 0⟩ | 0x3 => some ⟨.f e2m3, false, 0⟩
  | 0x4 => some ⟨.f e3m2, true, 0⟩ | 0x5 => some ⟨.f e2m3, true, 0⟩
  | 0x6 => some ⟨.f e4m3, false, 0⟩ | 0x7 => some ⟨.f e5m2, false, 0⟩
  | 0x8 => some ⟨.f e4m3, true, 0⟩ | 0x9 => some ⟨.int 8, false, 0⟩
  | 0xA => some ⟨.int 8, true, -6⟩ | 0xB => some ⟨.f bf16, false, 0⟩ | 0xC => some ⟨.f fp16, false, 0⟩
  | _ => none

/-- Bytes of a dense row of 32 elements (R60). -/
def MFmt.rowBytes (f : MFmt) : Nat := 4 * f.el.width

/-- Bytes of a weight block (R60, R62). -/
def MFmt.blockBytes (f : MFmt) (sparse : Bool) : Nat :=
  8 * f.rowBytes + (if f.scaled then 16 else 0) + (if sparse then 64 else 0)

/-- Codes that take SP = 1 (R62). -/
def sparseOk (code : Nat) : Bool := code = 0 || code = 1 || code = 6 || code = 7 || code = 8

/-- Element `i` of a packed string of elements (R85). -/
def packedElem (el : Elem) (bytes : List Byte) (i : Nat) : Nat :=
  let b := el.width
  (leAt bytes (b * i / 8) 3 >>> (b * i % 8)) % 2 ^ b

/-- The value of an element of a matrix format (R87, R92). -/
def MFmt.value (f : MFmt) (c : Nat) : Num :=
  match f.el.value c with
  | .fin n m e => .fin n m (e + f.shift)
  | x => x

/-- The value of a UE5M3 fine scale (R89); NaN is code 0xFF. -/
def ue5m3 (c : Nat) : Num :=
  if c = 0xFF then .nan
  else if c / 8 = 0 then .fin false (c % 8) (-17)
  else .fin false (8 + c % 8) ((c / 8 : Nat) - 18)

/-- floor(log2 |p|) of a non-zero finite product. -/
def flog2 (m : Nat) (e : Int) : Int := e + (m.log2 : Nat)

/-- The largest floor(log2) over the non-zero finite products, if there is one (R92 step 2). -/
def emaxOf : List Num → Option Int
  | [] => none
  | .fin _ m e :: t =>
    if m = 0 then emaxOf t
    else match emaxOf t with
      | none => some (flog2 m e)
      | some x => some (max x (flog2 m e))
  | _ :: t => emaxOf t

/-- A product truncated toward minus infinity to a multiple of `2^u`, in that unit (R92 step 2). -/
def truncTo (u : Int) : Num → Int
  | .fin n m e =>
    let v : Int := if n then -(m : Int) else m
    if u ≤ e then v * 2 ^ (e - u).toNat else v / 2 ^ (u - e).toNat
  | _ => 0

/-- Steps 1 to 3 of R92: the group sum of the products. -/
def groupSum (ps : List Num) : Num :=
  match emaxOf ps with
  | none => .fin false 0 0
  | some em =>
    let u := em - 23
    let v := (ps.map (truncTo u)).foldl (· + ·) 0
    .fin (decide (v < 0)) v.natAbs u

/-- The contribution of a group and its flag (R97); `ab` are the element pairs that take part. DESIGN CHOICE (log entry 87): a
negative group sum times scales whose product is zero is -0, the exact product's sign by the rule of multiplication. -/
def groupContribution (ab : List (Num × Num)) (sa sw : Num) : Num × Flg :=
  let ps := ab.map fun x => x.1.mul x.2
  let hasNaN := ab.any (fun x => x.1.isNaN || x.2.isNaN) || sa.isNaN || sw.isNaN
  let infs := ps.filterMap fun | .inf n => some n | _ => none
  if hasNaN then (.nan, {})
  else if ps.any Num.isNaN then (.nan, { invalid := true })
  else if infs.contains true && infs.contains false then (.nan, { invalid := true })
  else match infs with
    | n :: _ => if (sa.mul sw).isZero then (.nan, { invalid := true }) else (.inf n, {})
    | [] =>
      match groupSum ps with
      | .fin n m e =>
        if m = 0 then (.fin false 0 0, {}) else ((Num.fin n m e).mul (sa.mul sw), {})
      | x => (x, {})

/-- A contribution added to an accumulator element with one rounding (R92 step 5, R97). -/
def accumulate (acc : Word) (c : Num × Flg) : Word × Flg :=
  let r := (val32 acc).add c.1
  let q := pack32 false r
  (q.1, (q.2.or c.2).or (invalidOf r [val32 acc, c.1]))

/-- The two half-groups of a sparse row combined (R99). -/
def combineHalves (a b : Num × Flg) : Num × Flg :=
  let r := a.1.add b.1
  (r, (a.2.or b.2).or (invalidOf r [a.1, b.1]))

end Sys2Proof.Machine
end

