-- ==== Sys2Proof/Machine/Flags.lean ====
section
/-! DEFINITION. The sticky flags of VSTAT (R50, R101): bit 0 invalid, 1 saturated, 2 conversion inexact, 3 sample
degenerate. -/

namespace Sys2Proof.Machine

/-- The VSTAT bits of a set of flags. -/
def Flg.mask (f : Flg) : BitVec 4 :=
  BitVec.ofNat 4 (b2n f.invalid + 2 * b2n f.saturated + 4 * b2n f.inexact + 8 * b2n f.degenerate)

/-- Sets flags in VSTAT; they stay set until cleared (R50). -/
def Core.flag (c : Core) (f : Flg) : Core := { c with vstat := c.vstat ||| f.mask }

/-- A lane-wise result and its flags together. -/
def gatherLanes (l : List (Word × Flg)) : VReg × Flg :=
  (ofLanes (l.map (·.1)), l.foldl (fun a x => a.or x.2) {})

end Sys2Proof.Machine
end

