-- ==== Sys2Proof/Machine/Matrix.lean ====
section
/-! DEFINITION. The matrix engine (R58 to R62, R92 to R99, R374): issue of its commands, the interlocks of its two pipes,
and what each command does when it runs. -/

namespace Sys2Proof.Machine

/-! ### Formats and sizes -/

/-- The format and sparse flag an MMA finds in a buffer: of the latest WLD issued to it, run or queued (R59, R60). -/
def Core.bufFmt (c : Core) (b : BitVec 1) : Option (BitVec 4 × Bool) :=
  let queued := c.mq.reverse.findSome? fun
    | .wld buf fmt sp _ => if buf = b then some (fmt, sp) else none
    | _ => none
  match queued with
  | some x => some x
  | none => (c.w[b.toNat]).map fun x => (x.fmt, x.sparse)

/-- Bytes of the scale entries before the rows of a tile: one, or two for a sparse buffer (R61, R62). -/
def scaleBytes (m : MFmt) (sparse : Bool) : Nat := if m.scaled then (if sparse then 32 else 16) else 0

/-- Bytes of an activation row: K = 32, or K = 64 for a sparse buffer (R60, R62). -/
def actBytes (m : MFmt) (sparse : Bool) : Nat := if sparse then 2 * m.rowBytes else m.rowBytes

/-- Queue entries an MMA of `rows` rows takes: the scale entries, then the rows (R61). -/
def mmaEntries (m : MFmt) (sparse : Bool) (rows : Nat) : Nat :=
  scaleBytes m sparse / 16 + rows * actBytes m sparse / 16

/-- Bytes from the tile address to the end of the last row. -/
def tileSpan (m : MFmt) (sparse : Bool) (rows pitch : Nat) : Nat :=
  scaleBytes m sparse + (rows - 1) * pitch + actBytes m sparse

/-! ### The arithmetic of one command -/

/-- A fine scale, or 1 for an unscaled format (R92). -/
def fineScale (scaledFmt : Bool) (b : Byte) : Num := if scaledFmt then ue5m3 b.toNat else .fin false 1 0

/-- Byte `i` of a list, zero beyond its end. -/
def byteAt (l : List Byte) (i : Nat) : Byte := (l[i]?).getD 0

/-- The contribution of one dense group: activation row against column `col` of the block (R61, R92, R97). -/
def denseGroup (m : MFmt) (block row scales : List Byte) (i col : Nat) : Num × Flg :=
  let hdr := if m.scaled then 16 else 0
  let colBytes := (block.drop (hdr + col * m.rowBytes)).take m.rowBytes
  let ab := (List.range 32).map fun k => (m.value (packedElem m.el row k), m.value (packedElem m.el colBytes k))
  groupContribution ab (fineScale m.scaled (byteAt scales i)) (fineScale m.scaled (byteAt block col))

/-- The position of kept element `j` of a column: the activation element it multiplies (R98). -/
def keptIndex (positions : List Byte) (j : Nat) : Nat := 4 * (j / 2) + (leNat positions >>> (2 * j)) % 4

/-- The contribution of one sparse row: two half-groups, combined (R62, R98, R99). -/
def sparseGroup (m : MFmt) (block row scales : List Byte) (i col : Nat) : Num × Flg :=
  let hdr := if m.scaled then 16 else 0
  let colBytes := (block.drop (hdr + col * m.rowBytes)).take m.rowBytes
  let pos := (block.drop (hdr + 8 * m.rowBytes + 8 * col)).take 8
  let half (h : Nat) : Num × Flg :=
    let ab := ((List.range 32).filter fun j => keptIndex pos j / 32 = h).map fun j =>
      (m.value (packedElem m.el row (keptIndex pos j)), m.value (packedElem m.el colBytes j))
    groupContribution ab (fineScale m.scaled (byteAt scales (2 * i + h)))
      (fineScale m.scaled (byteAt block (2 * col + h)))
  combineHalves (half 0) (half 1)

/-- One activation row added into row `i` of a tile (R92, R93). -/
def mmaRow (b : WBuf) (m : MFmt) (scales row : List Byte) (i : Nat) (t : Vector Word 128 × Flg) :
    Vector Word 128 × Flg :=
  (List.range 8).foldl (fun t col =>
    let g := if b.sparse then sparseGroup m b.block row scales i col else denseGroup m b.block row scales i col
    let k := 8 * i + col
    let r := accumulate ((t.1.toList[k]?).getD 0) g
    (t.1.setIfInBounds k r.1, t.2.or r.2)) t

/-- Rows `i` to `i + n - 1` of an MMA in order (R93). -/
def mmaRows (b : WBuf) (m : MFmt) (scales : List Byte) (rowAt : Nat → List Byte) (i n : Nat) (t : Vector Word 128) :
    Vector Word 128 × Flg :=
  (List.range n).foldl (fun t k => mmaRow b m scales (rowAt (i + k)) (i + k) t) (t, {})

/-- What rows `i` to `i + n - 1` of an MMA leave: the accumulator tile, its poison bit, VSTAT (R43, R92). -/
def Core.mmaLand (c : Core) (acc : BitVec 2) (b : WBuf) (m : MFmt) (scales : List Byte) (rowAt : Nat → List Byte) (i n : Nat)
    (poison : Bool) : Core :=
  let r := mmaRows b m scales rowAt i n c.acc[acc.toNat]
  { c.flag r.2 with acc := c.acc.set acc.toNat r.1
                    accp := setBit c.accp acc.toNat (bit c.accp acc.toNat || poison || b.poison) }

/-- ACCRD when it runs: rows 2p and 2p + 1 into lanes 0-7 and 8-15; the tile's poison covers vd (R43, R59). -/
def Core.accrdDone (c : Core) (acc : BitVec 2) (pair : BitVec 3) (vd : BitVec 4) : Core :=
  let l := ((c.acc[acc.toNat]).toList.drop (16 * pair.toNat)).take 16
  c.setV vd (ofLanes l) (allQuarters (bit c.accp acc.toNat))

/-- ACCWR when it runs: lanes into rows 2p and 2p + 1; a poisoned quarter sets the tile's bit (R43, R59). -/
def Core.accwrDone (c : Core) (acc : BitVec 2) (pair : BitVec 3) (v : VReg) (poison : BitVec 4) : Core :=
  let t := (List.range 16).foldl (fun (t : Vector Word 128) i => t.setIfInBounds (16 * pair.toNat + i) (lane v i))
    c.acc[acc.toNat]
  { c with acc := c.acc.set acc.toNat t
           accp := if poison ≠ 0 then setBit c.accp acc.toNat true else c.accp }

/-- ACCZ when it runs (R59); the cleared tile holds no poisoned value. -/
def Core.acczDone (c : Core) (acc : BitVec 2) : Core :=
  { c with acc := c.acc.set acc.toNat (Vector.replicate 128 0), accp := setBit c.accp acc.toNat false }

/-! ### MMA from a queue -/

/-- The data bytes of an entry as a pop delivers them: zero for a void entry (R64). -/
def Token.bytes (t : Token) : List Byte := if t.void then List.replicate 16 0 else leBytes 16 t.data.toNat

/-- The engine takes entries of its source queue while a started MMA needs them (R61, R64), a discarding MMA to drop them (R53);
how many, and the core after. -/
def Core.engineTake (c : Core) : Nat × Core :=
  match c.mrun with
  | none => (0, c)
  | some r =>
    match r.cmd with
    | .mma _ _ _ src _ _ discard =>
      let q := src.toNat - 4
      let have' := (c.inq.toList[q]?).getD []
      let n := min (r.need - r.got.length) have'.length
      let got := r.got ++ have'.take n
      let run := if discard ∧ got.length ≥ r.need then none else some { r with got := got }
      (n, { c with inq := c.inq.setIfInBounds q (have'.drop n), mrun := run })
    | _ => (0, { c with mrun := none })

/-! ### The issue quota (R374) -/

/-- The rows of a number left that may issue now: all at quota 256, else those that the beats left of the tick's allowance
hold. -/
def State.rowsNow (s : State) (p : Pos) (beats left : Nat) : Nat :=
  if (s.parish p.parish).gEff = 256 then left
  else min left ((s.allowance p.parish - (s.core p).rowBeats) / beats)

/-- The parts of local memory that rows `i` to `i + n - 1` of a tile read, as address and length: the scale entries, then the rows
(R61). -/
def tileParts (m : MFmt) (sparse : Bool) (addr pitch i n : Nat) : List (Nat × Nat) :=
  let hdr := scaleBytes m sparse
  (if hdr = 0 then [] else [(addr, hdr)]) ++ (List.range n).map fun k => (addr + hdr + (i + k) * pitch, actBytes m sparse)

/-- The started MMA issues the rows it may: each row lands in its tile as it issues, the rest are held (R58, R374). -/
def State.issueRows (s : State) (p : Pos) : State :=
  let c := s.core p
  match c.mrun with
  | none => s
  | some r =>
    match r.cmd with
    | .mma acc buf rows src addr pitch false =>
      if r.got.length < r.need then s
      else
        match (c.w[buf.toNat]).bind fun b => (mfmt b.fmt.toNat).map fun m => (b, m) with
        | none => s.updCore p fun c => { c with mrun := none }
        | some (b, m) =>
          let n := s.rowsNow p m.beats (rows - r.done)
          let hdr := scaleBytes m b.sparse
          let len := actBytes m b.sparse
          let parts := if src = 0 ∧ n > 0 then tileParts m b.sparse addr.toNat pitch.toNat r.done n else []
          let got := r.got.flatMap Token.bytes
          let s' := parts.foldl (fun s x => s.touchLocal p 0 x.1 x.2) s
          s'.updCore p fun c =>
            let c' := if src = 0 then
                c.mmaLand acc b m (c.localBytes addr.toNat hdr) (fun i => c.localBytes (addr.toNat + hdr + i * pitch.toNat) len)
                  r.done n (parts.any fun x => c.localPoison x.1 x.2)
              else c.mmaLand acc b m (got.take hdr) (fun i => (got.drop (hdr + i * len)).take len) r.done n (r.got.any (·.poison))
            { c' with rowBeats := if (s.parish p.parish).gEff = 256 then c.rowBeats else c.rowBeats + n * m.beats
                      mrun := if r.done + n < rows then some { r with done := r.done + n } else none }
    | _ => s

/-- The started MMA takes what its source queue holds and issues the rows it may; a queue it pops stirs the parish (R272). -/
def State.engineRuns (s : State) (p : Pos) : State :=
  let d := (s.core p).engineTake
  let s := if d.1 = 0 then s else s.stir p.parish
  (s.setCore p d.2).issueRows p

/-! ### Starting commands (R58) -/

/-- Whether a command runs in the load pipe. -/
def MCmd.isLoad : MCmd → Bool
  | .wld .. => true
  | _ => false

/-- The commands before the first of a pipe, that command, and the rest. -/
def splitPipe (load : Bool) : List MCmd → Option (List MCmd × MCmd × List MCmd)
  | [] => none
  | m :: t =>
    if m.isLoad = load then some ([], m, t)
    else (splitPipe load t).map fun x => (m :: x.1, x.2.1, x.2.2)

/-- Whether an MMA of a list, or the one started, still reads a buffer. -/
def Core.bufRead (c : Core) (before : List MCmd) (b : BitVec 1) : Bool :=
  let uses : MCmd → Bool := fun
    | .mma _ buf .. => decide (buf = b)
    | _ => false
  before.any uses || (match c.mrun with | some r => uses r.cmd | none => false)

/-- The interlocks of R58. -/
def Core.mayStart (c : Core) (before : List MCmd) : MCmd → Bool
  | .wld b _ _ _ => !c.bufRead before b
  | .mma _ b .. =>
    c.mrun.isNone && !before.any (fun | .wld b' .. => decide (b' = b) | _ => false)
  | _ => c.mrun.isNone

/-- A started command leaves the queue; a control unit stalled on the full queue issues its command (R58). -/
def Core.mqPop (c : Core) (rest : List MCmd) : Core :=
  match c.wait with
  | .matrixFull m => { c with mq := rest ++ [m], wait := .none, pc := c.pc + 1 }
  | _ => { c with mq := rest }

/-- A command has left the queue, whose rest is `rest`: an instruction that waited for room retires (R58, R272). -/
def State.mqTake (s : State) (p : Pos) (rest : List MCmd) : State :=
  let c := s.core p
  match c.wait with
  | .matrixFull _ => s.retire p (c.mqPop rest)
  | _ => s.setCore p (c.mqPop rest)

/-- The effect of a command that has started. -/
def State.runMatrix (s : State) (p : Pos) : MCmd → State
  | .wld b fmt sp addr =>
    match mfmt fmt.toNat with
    | none => s
    | some m =>
      let n := m.blockBytes sp
      let s := s.touchLocal p 0 addr.toNat n
      s.updCore p fun c =>
        { c with w := c.w.set b.toNat (some { fmt := fmt, sparse := sp, block := c.localBytes addr.toNat n
                                              poison := c.localPoison addr.toNat n }) }
  | .mma acc b rows src addr pitch discard =>
    match ((s.core p).w[b.toNat]).bind fun wb => (mfmt wb.fmt.toNat).map fun m => (wb, m) with
    | none => s
    | some (wb, m) =>
      (s.updCore p fun c =>
        { c with mrun := some { cmd := .mma acc b rows src addr pitch discard
                                need := if src = 0 then 0 else mmaEntries m wb.sparse rows } }).engineRuns p
  | .accz acc => s.updCore p fun c => c.acczDone acc
  | .accrd acc pair vd => s.updCore p fun c => c.accrdDone acc pair vd
  | .accwr acc pair v poison => s.updCore p fun c => c.accwrDone acc pair v poison

/-- Whether the issue quota lets a command start: an MMA's first row must fit the tick's allowance (R374); a discarding MMA has
no row. -/
def State.quotaLets (s : State) (p : Pos) : MCmd → Bool
  | .mma _ b _ _ _ _ false =>
    match ((s.core p).w[b.toNat]).bind fun x => mfmt x.fmt.toNat with
    | some m => decide (s.rowsNow p m.beats 1 = 1)
    | none => true
  | _ => true

/-- The oldest queued command of a pipe starts once its interlocks and the issue quota allow (R58, R374). -/
def State.startMatrix (s : State) (p : Pos) (load : Bool) : State :=
  let c := s.core p
  match splitPipe load c.mq with
  | none => s
  | some (before, m, after) =>
    if c.mayStart before m && s.quotaLets p m then (s.mqTake p (before ++ after)).runMatrix p m else s

/-- MATRIX_COMMAND_START: the oldest queued command of a pipe starts; in the row pipe the held rows of an MMA that has started go
first, as far as the quota now lets them (R58, R374). -/
def execMatrixCommandStart (p : Pos) (pipe : Pipe) (s : State) : Host.Outcome State Fault Refusal :=
  .next (match pipe with
    | .load => s.startMatrix p true
    | .row => (s.issueRows p).startMatrix p false)

/-! ### Issue (R58 to R62) -/

/-- A command joins the queue of four, or the control unit stalls on it (R58). -/
def Core.mqPush (c : Core) (m : MCmd) : Core :=
  if c.mq.length < 4 then { c with mq := c.mq ++ [m], pc := c.pc + 1 } else { c with wait := .matrixFull m }

/-- WLD: the format and its sparse flag are checked with the word; the block must lie in memory (R59, R60, R62). DESIGN CHOICE
(log entry 84): the spec states no alignment of a block or tile address, and any is taken. -/
def execWld (p : Pos) (f : FmtM) (s : State) : Host.Outcome State Fault Refusal :=
  let sp := bit f.b 2
  let m := mfmt f.a.toNat
  .next (s.runCore p (wordM 0 f) f.pr
    (fun c => { word := [(decide (f.acc ≠ 0) || decide (f.b.toNat % 4 ≠ 0) || decide (f.sb ≠ 0)
                            || decide (f.rsv ≠ 0), .reserved),
                         (m.isNone || (sp && !sparseOk f.a.toNat), .fmt)]
                on := [(c.spois f.sa, .poison),
                       (overWide (c.sreg f.sa) ||
                          decide (regionOf (c.sreg f.sa).toNat ((m.map (·.blockBytes sp)).getD 0) = .nowhere), .addr)] })
    (fun c => c.mqPush (.wld f.w f.a sp (c.sreg f.sa))))

/-- MMA (R53, R59 to R62): from SRAM its buffer, address and pitch are checked when it takes effect; from a queue
the queue, the buffer and the row count are checked in any case, and predicated off it discards its entries. A tile address
may have any alignment (log entry 84). -/
def execMma (p : Pos) (f : FmtM) (s : State) : Host.Outcome State Fault Refusal :=
  let rows := f.a.toNat + 1
  let fromQ := decide (f.b.toNat ≥ 4)
  .next (s.runCore p (wordM 1 f) f.pr
    (fun c =>
      let bf := c.bufFmt f.w
      let m := bf.bind fun x => mfmt x.1.toNat
      let sp := (bf.map (·.2)).getD false
      let fp6 := match m with
        | some m => decide (m.el.width = 6)
        | none => false
      let wb : Bool × Cause := (bf.isNone, .wbuf)
      let q : Bool × Cause := (!bit (c.qcfg[f.b.toNat % 4]) 0, .queue)
      let span := (m.map fun m => tileSpan m sp rows (c.sreg f.sb).toNat).getD 0
      let row := (m.map fun m => actBytes m sp).getD 0
      { word := [(decide (f.rsv ≠ 0), .reserved), (decide (1 ≤ f.b.toNat ∧ f.b.toNat ≤ 3), .opcode)]
        always := if fromQ then [q, wb, (fp6 && decide (rows % 2 = 1), .rows)] else []
        on := if fromQ then [] else
          [wb, (c.spois f.sa || c.spois f.sb, .poison),
           (overWide (c.sreg f.sa) || decide (regionOf (c.sreg f.sa).toNat span = .nowhere), .addr),
           (decide ((c.sreg f.sb).toNat % 16 ≠ 0 ∨ (c.sreg f.sb).toNat < row), .align)] })
    (fun c => c.mqPush (.mma f.acc f.w rows f.b (c.sreg f.sa) (c.sreg f.sb) false))
    (fun c => if fromQ then c.mqPush (.mma f.acc f.w rows f.b 0 0 true) else c.next))

/-- ACCZ (R59). -/
def execAccz (p : Pos) (f : FmtM) (s : State) : Host.Outcome State Fault Refusal :=
  .next (s.runCore p (wordM 2 f) f.pr
    (fun _ => { word := [(decide (f.w ≠ 0) || decide (f.a ≠ 0) || decide (f.b ≠ 0) || decide (f.sa ≠ 0)
                            || decide (f.sb ≠ 0) || decide (f.rsv ≠ 0), .reserved)] })
    (fun c => c.mqPush (.accz f.acc)))

/-- Fields ACCRD and ACCWR must have zero (R59). -/
def accRsv (f : FmtM) : Bool :=
  decide (f.w ≠ 0) || decide (f.sa ≠ 0) || decide (f.sb ≠ 0) || decide (f.rsv ≠ 0)

/-- ACCRD (R59). -/
def execAccrd (p : Pos) (f : FmtM) (s : State) : Host.Outcome State Fault Refusal :=
  .next (s.runCore p (wordM 3 f) f.pr (fun _ => { word := [(accRsv f, .reserved)] })
    (fun c => c.mqPush (.accrd f.acc f.b f.a)))

/-- ACCWR: va is captured when it issues (R59). -/
def execAccwr (p : Pos) (f : FmtM) (s : State) : Host.Outcome State Fault Refusal :=
  .next (s.runCore p (wordM 4 f) f.pr (fun _ => { word := [(accRsv f, .reserved)], reads := [f.a] })
    (fun c => c.mqPush (.accwr f.acc f.b (c.vreg f.a) (c.vpois f.a))))

/-- MSYNC: stalls the control unit until the engine is idle (R59). -/
def execMsync (p : Pos) (f : FmtM) (s : State) : Host.Outcome State Fault Refusal :=
  .next (s.runHold p (wordM 5 f) f.pr
    (fun _ => { word := [(accRsv f || decide (f.acc ≠ 0) || decide (f.a ≠ 0) || decide (f.b ≠ 0), .reserved)] })
    (fun c => if c.engineIdle then c.next else { c with wait := .msync }))

/-- MSYNC_DONE: the engine is idle and a stalled MSYNC completes (R59). -/
def execMsyncDone (p : Pos) (s : State) : Host.Outcome State Fault Refusal :=
  let c := s.core p
  .next (if c.wait = .msync ∧ c.engineIdle then s.setCore p { c with wait := .none, pc := c.pc + 1 } else s)

end Sys2Proof.Machine
end

