-- ==== Sys2Proof/Machine/Mesh.lean ====
section
/-! DEFINITION. The field mesh (R108 to R143): the transfer of a token over an outbound port, SUM, slot advance, the colour
judgement at an input queue with residue (R165 to R167), elastic regions (R127 to R132), and what writes of DEADMAP and FALLOW
do (R136). Carter slots carry idle tokens here, by which a tap learns the slots of a core; the well packets those slots let
through are the requests of `State.reqs` (log entry 19). -/

namespace Sys2Proof.Machine

/-! ### Slots (R112, R113) -/

/-- The source code an outbound port names (R113). -/
def Slot.source (e : Slot) (out : Nat) : Nat := (e.outs[out]?).getD 0

/-- Those that take the token of an inbound port: the outbound ports that name it, and SUM, 5. -/
def Slot.takers (e : Slot) (code : Nat) : List Nat :=
  ((List.range 5).filter fun o => e.source o = code) ++
    (if (e.suma = code ∨ e.sumb = code) ∧ code ≠ 0 then [5] else [])

/-- How many tokens an inbound port supplies in the slot (R117). -/
def Slot.supply (e : Slot) (code : Nat) : Nat :=
  if e.bf16 ∧ (e.suma = code ∨ e.sumb = code) then e.len / 2 else e.len

/-- The outbound ports that name SUM. -/
def Slot.sumOuts (e : Slot) : List Nat := (List.range 5).filter fun o => e.source o = 6

/-! ### Residue (R165 to R167) -/

/-- The place among the fills of the run a token is charged to, at a core of colour `c` that has swapped to `n` runs
of the program. -/
def chargedRun (n : Nat) (c colour : BitVec 2) : Option Nat :=
  let d := (c - colour).toNat
  if d = 3 then some n else if d < n then some (n - 1 - d) else none

/-- A token discarded as residue (R167): counted, its run charged, RESIDUE_TOKEN at the first at a core in a run. A
token whose colour names no run of the program in execution is charged to none. -/
def State.discardToken (s : State) (p : Pos) (queue : Nat) (t : Token) : State :=
  match s.allotOf p.parish with
  | none => s
  | some a =>
    let x := s.allot a
    let c := s.core p
    match x.exec, chargedRun c.swapped c.colour t.colour with
    | some e, some i =>
      match e.fills[i]? with
      | none => s
      | some r =>
        let first := !e.residueAt.contains (p.id, i)
        let s := s.updExec a fun e =>
          { e.charge r.1 with residue := e.residue + 1
                              residueAt := if first then (p.id, i) :: e.residueAt else e.residueAt }
        if first then
          s.raiseA evResidueToken a
            [(p.id, 4), (queue, 1), (t.colour.toNat, 1), (x.secseqOf (some r.1), 4), (r.1.num, 1)]
        else s
    | _, _ => s

/-! ### Input queues and elastic regions (R127 to R132) -/

/-- Fields of a queue configuration entry (R127). -/
def qElastic (q : BitVec 128) : Bool := bit q 1
def qRegionBase (q : BitVec 128) : Nat := bits q 16 11 * 64
def qRegionSize (q : BitVec 128) : Nat := (bits q 32 8) * 64
def qSideBase (q : BitVec 128) : Nat := bits q 64 14 * 8

/-- The side byte of a spilled token (R128). -/
def sideByte (t : Token) : Byte :=
  BitVec.ofNat 8 (t.colour.toNat + 4 * b2n t.void + 8 * b2n t.poison + 16 * b2n t.last)

/-- The configuration of an input queue. -/
def Core.inCfg (c : Core) (q : Nat) : BitVec 128 := (c.qcfg.toList[q]?).getD 0

/-- Writes a token at a place of a region (R128, R131): whole words of data, and its side byte in a side word that is written
whole, so that no error or poison stored there before stays. -/
def Core.spillAt (c : Core) (cfg : BitVec 128) (k : Nat) (t : Token) : Core :=
  let c := c.storeWords (qRegionBase cfg + 16 * k) (leBytes 16 t.data.toNat) (fun _ => t.poison)
  let w := (qSideBase cfg + k) / 8
  let c := c.setByte (qSideBase cfg + k) (sideByte t)
  { c with ue := c.ue.filter (· ≠ w), ce := c.ce.filter (· ≠ w), writeback := c.writeback.filter (· ≠ w) }.setPoison w false

/-- The token a place of a region holds now (R128, R130). -/
def Core.spilledAt (c : Core) (cfg : BitVec 128) (k : Nat) : Token :=
  let b := c.byte (qSideBase cfg + k)
  { data := BitVec.ofNat 128 (leNat (c.bytes (qRegionBase cfg + 16 * k) 16))
    colour := BitVec.ofNat 2 b.toNat, void := bit b 2
    poison := bit b 3 || c.poisoned (qRegionBase cfg + 16 * k) 16 || c.poisoned (qSideBase cfg + k) 1, last := bit b 4 }

/-- Region of an input queue: head place and entries. -/
def Core.region (c : Core) (q : Nat) : Nat × Nat := (c.spill.toList[q]?).getD (0, 0)

/-- A token enters an input queue, or its region when it is elastic and full or spilling; none where it is refused
(R129). The counter SPILLED counts entries written to a region. -/
def Core.accept (c : Core) (q : Nat) (t : Token) : Option (Core × Bool) :=
  let l := (c.inq.toList[q]?).getD []
  let cfg := c.inCfg q
  let r := c.region q
  if r.2 = 0 ∧ l.length < 16 then some ({ c with inq := c.inq.setIfInBounds q (l ++ [t]) }, false)
  else if qElastic cfg ∧ r.2 < qRegionSize cfg then
    let k := (r.1 + r.2) % qRegionSize cfg
    some ({ c.spillAt cfg k t with spill := c.spill.setIfInBounds q (r.1, r.2 + 1) }, true)
  else none

/-- Adds to a counter STAT[n] of a position (R142). -/
def State.stat (s : State) (p : Pos) (n : Nat) : State :=
  let x := s.xroad p
  s.setXroad p { x with stat := x.stat.put n (count48 (x.stat.get 0 n) 1) }

/-- A token enters an input queue, from which a started MMA may take it, with its counter; none where it is refused. -/
def State.acceptToken (s : State) (p : Pos) (q : Nat) (t : Token) : Option State :=
  ((s.core p).accept q t).map fun r =>
    let s := (s.setCore p r.1).engineRuns p
    if r.2 then s.stat p (20 + q) else s

/-- The token held as early enters its queue ahead of later arrivals once its colour is current, or is residue of the new
run, discarded from the Core-port latch; where the queue has no room it stays (R165, R167). -/
def State.enterHold (s : State) (p : Pos) : State :=
  let c := s.core p
  match c.hold with
  | none => s
  | some (q, t) =>
    if t.colour = c.colour + 1 then s
    else if bit (c.inCfg q) 0 && decide (t.colour = c.colour) then
      match (s.setCore p { c with hold := none }).acceptToken p q t with
      | some s => s.stir p.parish
      | none => s
    else (s.setCore p { c with hold := none }).discardToken p 0x15 t

/-- A token is offered to an input queue (R165), after one held: the current colour is accepted if there is room, the next is
held in the Core-port latch with its queue, others are residue; none where it is refused and waits. -/
def State.offer (s : State) (p : Pos) (q : Nat) (t : Token) : Option State :=
  let s := s.enterHold p
  let c := s.core p
  if c.hold.isSome then none
  else if t.colour = c.colour then s.acceptToken p q t
  else if t.colour = c.colour + 1 then some (s.setCore p { c with hold := some (q, t) })
  else some (s.discardToken p q t)

/-- REFILL: the head of a spilling queue's region moves into the queue when it has room, judged by its colour as it
reaches the head (R129, R132); a token held for want of room may then enter. -/
def execRefill (p : Pos) (q : Fin 4) (s : State) : Host.Outcome State Fault Refusal :=
  let c := s.core p
  let cfg := c.inCfg q
  let r := c.region q
  let size := qRegionSize cfg
  .next (if r.2 = 0 ∨ size = 0 ∨ ((c.inq.toList[q.val]?).getD []).length ≥ 16 then s
    else
      let s := (s.touchSram p 0 (qRegionBase cfg + 16 * r.1) 16).touchSram p 0 (qSideBase cfg + r.1) 1
      let c := s.core p
      let t := c.spilledAt cfg r.1
      let c := { c with spill := c.spill.setIfInBounds q ((r.1 + 1) % size, r.2 - 1) }
      if t.colour = c.colour then
        let l := (c.inq.toList[q.val]?).getD []
        ((s.setCore p { c with inq := c.inq.setIfInBounds q (l ++ [t]) }).engineRuns p).enterHold p
      else if t.colour = c.colour + 1 then s
      else (s.setCore p c).discardToken p q t)

/-! ### Transfers (R109 to R117) -/

/-- Port order N, E, S, W, Core. -/
def dirNo : Dir → Nat
  | .n => 0 | .e => 1 | .s => 2 | .w => 3 | .c => 4

/-- The logical neighbour in a direction (R108, R134), by core ID. -/
def neighbour (p : Pos) (d : Nat) : Option Pos :=
  match d with
  | 0 => if p.id < 1024 then none else posOfId (p.id - 1024)
  | 1 => if p.id % 1024 = 1023 then none else posOfId (p.id + 1)
  | 2 => posOfId (p.id + 1024)
  | 3 => if p.id % 1024 = 0 then none else posOfId (p.id - 1)
  | _ => none

/-- The opposite port. -/
def opposite (d : Nat) : Nat := (d + 2) % 4

/-- The token at inbound port code 1 to 5, with the state in which the latch of an idle token is filled: a link latch,
the head of the output queue CSRC names, an idle token of the carter, or a reply or an idle token of the well (R113, R120,
R178, R179). -/
def State.inbound (s : State) (p : Pos) (e : Slot) (code : Nat) : State × Option Token :=
  let x := s.xroad p
  let c := s.core p
  if 1 ≤ code ∧ code ≤ 4 then (s, (x.latch.toList[code - 1]?).getD none)
  else if 1 ≤ e.csrc ∧ e.csrc ≤ 4 then (s, ((c.outq.toList[e.csrc - 1]?).getD []).head?)
  else
    match x.latch[4] with
    | some t => (s, some t)
    | none =>
      if e.csrc = 5 then
        (s, some { data := BitVec.ofNat 128 p.id, colour := c.colour, void := true, poison := false, last := false })
      else if e.csrc = 6 then
        match x.reply e with
        | some h =>
          let t : Token := { data := h, colour := c.colour, void := false, poison := false, last := false }
          (s.setXroad p { x with latch := x.latch.set 4 (some t), replies := x.replies.erase h }, some t)
        | none =>
          let t : Token := { data := BitVec.ofNat 128 s.draw.toNat, colour := c.colour, void := true, poison := false,
                             last := false }
          (s.drawn.setXroad p { x with latch := x.latch.set 4 (some t) }, some t)
      else (s, none)

/-- Whether an inbound port still supplies tokens in the slot, and a taker has not yet had the present one. -/
def Xroad.offers (x : Xroad) (e : Slot) (code taker : Nat) : Bool :=
  decide ((x.taken.toList[code - 1]?).getD 0 < e.supply code) && !((x.done.toList[code - 1]?).getD []).contains taker

/-- A taker has had the token of an inbound port; once all have, the token leaves it (R113). -/
def State.takeFrom (s : State) (p : Pos) (e : Slot) (code taker : Nat) : State :=
  let x := s.xroad p
  let i := code - 1
  let d := taker :: (x.done.toList[i]?).getD []
  if (e.takers code).all d.contains then
    let s := s.setXroad p
      { x with done := x.done.setIfInBounds i [], taken := x.taken.setIfInBounds i ((x.taken.toList[i]?).getD 0 + 1)
               latch := x.latch.setIfInBounds i none }
    if code = 5 ∧ 1 ≤ e.csrc ∧ e.csrc ≤ 4 then
      s.updCore p fun c =>
        { c with outq := c.outq.setIfInBounds (e.csrc - 1) (((c.outq.toList[e.csrc - 1]?).getD []).drop 1) }
    else s
  else s.setXroad p { x with done := x.done.setIfInBounds i d }

/-- The suspect link of a site's inbound port: the site at its south or east end, with port N (0) or W (3) (R466). -/
def linkSite (p q : Pos) (inPort : Nat) : Pos × BitVec 2 :=
  match inPort with
  | 0 => (p, 0)
  | 3 => (p, 3)
  | 2 => (q, 0)
  | _ => (q, 3)

/-- A link error at `q`, from the crossroads at `p`, over `q`'s inbound port (R111, R466). DESIGN CHOICE (log entry 107):
each direction of a link has its own event. -/
def State.linkError (s : State) (p q : Pos) (inPort : Nat) : State :=
  let s := s.stat q 26
  let x := s.xroad q
  if x.linkRaised.contains inPort then s
  else
    let s := s.setXroad q { x with linkRaised := inPort :: x.linkRaised }
    match s.allotOf q.parish with
    | none => s
    | some a =>
      let s := s.raiseA evMeshLinkError a [(q.id, 4), (inPort + 1, 1), (s.physRow p.parish p.col p.row, 1)]
      let u := linkSite q p inPort
      let key := u.1.id * 4 + u.2.toNat
      if s.noted a evMeshLinkError key then s
      else
        let s := s.note a evMeshLinkError key
        let row := s.physRow u.1.parish u.1.col u.1.row
        let r := s.ras.strike 2 u.1.parish u.1.col row u.2 false
        let s := { s with ras := r.1 }
        match r.2 with
        | some i => if (s.ras.entry i).strikes ≥ 3 then s.softDead u.1.parish u.1.col row (some i) else s
        | none => s

/-- Delivers a token over an outbound port: into the neighbour's latch, poisoned and not void where the link erred
(R111), to an input queue, or to the carter or well; none where the receiver does not take it (R110, R115,
R469). -/
def State.deliverToken (s : State) (p : Pos) (e : Slot) (o : Nat) (t : Token) (bad : Bool) : Option State :=
  if o = 4 then
    if 1 ≤ e.cdst ∧ e.cdst ≤ 4 then s.offer p (e.cdst - 1) t
    else if e.cdst = 0 then none
    else if e.cdst = 6 then some (s.setXroad p ((s.xroad p).tapTakes t))
    else some s
  else
    match neighbour p o with
    | none => none
    | some q =>
      let i := opposite o
      let y := s.xroad q
      if !s.alive q ∨ (s.core q).dead ∨ ((y.latch.toList[i]?).getD none).isSome then none
      else
        let t := if bad then { t with poison := true, void := false } else t
        let s := s.setXroad q { y with latch := y.latch.setIfInBounds i (some t) }
        some (if bad then s.linkError p q i else s)

/-- The token moved counts for its port (R117), and VOID_FWD for a void one (R142); its parish stirs (R272). -/
def State.countMoved (s : State) (p : Pos) (o : Nat) (t : Token) : State :=
  let x := s.xroad p
  let s := (s.setXroad p { x with moved := x.moved.setIfInBounds o ((x.moved.toList[o]?).getD 0 + 1) }).stir p.parish
  if t.void then s.stat p 27 else s

/-- TOKEN_TRANSFER: an outbound port of a crossroads moves its next token of the slot, from its source (R110 to R113,
R117). -/
def execTokenTransfer (p : Pos) (out : Dir) (bad : Bool) (s : State) : Host.Outcome State Fault Refusal :=
  let o := dirNo out
  let x := s.xroad p
  let e := (s.core p).slot x.slot
  let code := e.source o
  .next (if !s.meshRuns p ∨ code = 0 ∨ code = 7 ∨ (x.moved.toList[o]?).getD 0 ≥ e.len then s
    else if code = 6 then
      match x.sumOut with
      | [] => s
      | t :: rest =>
        if x.sumDone.contains o then s
        else
          match s.deliverToken p e o t bad with
          | none => s
          | some s =>
            let s := s.countMoved p o t
            let x := s.xroad p
            let d := o :: x.sumDone
            if e.sumOuts.all d.contains then s.setXroad p { x with sumOut := rest, sumDone := [] }
            else s.setXroad p { x with sumDone := d }
    else
      let b := s.inbound p e code
      match b.2 with
      | none => s
      | some t =>
        if !x.offers e code o then s
        else
          match b.1.deliverToken p e o t bad with
          | none => s
          | some s => (s.countMoved p o t).takeFrom p e code o)

/-! ### SUM (R124 to R126) -/

/-- FP32 lane `i` of a token's data. -/
def tokLane (d : BitVec 128) (i : Nat) : Word := BitVec.ofNat 32 (bits d (32 * i) 32)

/-- Four FP32 lanes as data. -/
def tokOfLanes (l : List Word) : BitVec 128 := BitVec.ofNat 128 (l.foldr (fun w a => w.toNat + 2 ^ 32 * a) 0)

/-- BF16 lanes `4h` to `4h + 3` widened exactly. -/
def widenHalf (d : BitVec 128) (h : Nat) : BitVec 128 :=
  tokOfLanes ((List.range 4).map fun i => bf16Widen (bits d (64 * h + 16 * i) 16))

/-- The output of a SUM for operand data already in FP32 (R125). -/
def sumData (a b : Token) (da db : BitVec 128) : BitVec 128 :=
  if a.void && b.void then 0
  else if a.void then db
  else if b.void then da
  else tokOfLanes ((List.range 4).map fun i => (fadd false (tokLane da i) (tokLane db i)).1)

/-- The tokens a SUM produces from two operands (R124, R125). -/
def sumTokens (bf16 : Bool) (a b : Token) : List Token :=
  let poison := (if a.void && b.void then false else if a.void then b.poison else if b.void then a.poison
    else a.poison || b.poison) || decide (a.colour ≠ b.colour)
  let mk (d : BitVec 128) (last : Bool) : Token :=
    { data := d, colour := a.colour, void := a.void && b.void, poison := poison, last := last }
  let last := a.last || b.last
  if bf16 then
    [mk (sumData a b (widenHalf a.data 0) (widenHalf b.data 0)) false,
     mk (sumData a b (widenHalf a.data 1) (widenHalf b.data 1)) last]
  else [mk (sumData a b a.data b.data) last]

/-- Marks the run of a colour invalid (R167). -/
def State.chargeColour (s : State) (a : Nat) (c : BitVec 2) : State :=
  s.updExec a fun e =>
    match e.runOfColour c with
    | some r => e.charge r
    | none => e

/-- SUM: with one token from each operand, the reduced tokens are produced (R124, R125); it takes its operands, so the parish
stirs (R272). -/
def execSum (p : Pos) (s : State) : Host.Outcome State Fault Refusal :=
  let x := s.xroad p
  let e := (s.core p).slot x.slot
  .next (if !s.meshRuns p ∨ e.suma = 0 ∨ e.sumb = 0 ∨ e.suma > 5 ∨ e.sumb > 5 ∨ !x.sumOut.isEmpty ∨
      !x.offers e e.suma 5 ∨ !x.offers e e.sumb 5 then s
    else
      let a := s.inbound p e e.suma
      let b := a.1.inbound p e e.sumb
      match a.2, b.2 with
      | some t, some u =>
        let l := sumTokens e.bf16 t u
        let s := ((b.1.takeFrom p e e.suma 5).takeFrom p e e.sumb 5).stir p.parish
        let s := l.foldl (fun s _ => s.stat p 28) s
        let x := s.xroad p
        let s := s.setXroad p { x with sumOut := l }
        if t.colour = u.colour then s
        else
          let s := l.foldl (fun s _ => s.stat p 29) s
          match s.allotOf p.parish with
          | none => s
          | some al =>
            let s := if x.mixRaised then s
              else
                (s.raiseA evMeshColourMix al [(p.id, 4), (x.slot, 1), (t.colour.toNat, 1), (u.colour.toNat, 1)]).setXroad
                  p { (s.xroad p) with mixRaised := true }
            (s.chargeColour al t.colour).chargeColour al u.colour
      | _, _ => s)

/-! ### Slot advance (R116 to R118) -/

/-- Whether a slot is complete: every outbound port it names has moved LEN tokens; a slot that names no source is
(R117). -/
def Xroad.complete (x : Xroad) (e : Slot) : Bool :=
  (List.range 5).all fun o => decide (e.source o = 0) || decide ((x.moved.toList[o]?).getD 0 ≥ e.len)

/-- SLOT_ADVANCE: a complete slot gives way to the next, after slot W to slot 0; a token held as early keeps the slot
(R116, R117, R165). -/
def execSlotAdvance (p : Pos) (s : State) : Host.Outcome State Fault Refusal :=
  let s := if s.meshRuns p then s.enterHold p else s
  let x := s.xroad p
  let e := (s.core p).slot x.slot
  .next (if !s.meshRuns p ∨ !x.complete e ∨ (s.core p).hold.isSome then s
    else
      let last := e.wrap || decide (x.slot ≥ 63)
      let s := s.setXroad p
        { x with slot := if last then 0 else x.slot + 1
                 moved := Vector.replicate 5 0, taken := Vector.replicate 5 0 }
      let s := s.stat p 10
      if last then s.stat p 11 else s)

/-! ### Emptying the mesh (R149) -/

/-- A crossroads' slot state after a swap or an emptying: slot 0, nothing moved. -/
def Xroad.restart (x : Xroad) : Xroad :=
  { x with slot := 0, moved := Vector.replicate 5 0, taken := Vector.replicate 5 0, done := Vector.replicate 5 []
           sumOut := [], sumDone := [], linkRaised := [], mixRaised := false, arrived := [], due := [] }

/-- Every token of a position is discarded, uncounted (R149). -/
def State.emptyMesh (s : State) (p : Pos) : State :=
  let s := s.updCore p fun c =>
    { c with inq := Vector.replicate 4 [], outq := Vector.replicate 4 [], spill := Vector.replicate 4 (0, 0), hold := none }
  let x := s.xroad p
  s.setXroad p { x.restart with latch := Vector.replicate 5 none }

/-- The positions of a set of parishes at which the state lists a core or a crossroads: every other one is as at
reset. -/
def State.listed (s : State) (par : Nat → Bool) : List Pos :=
  ((s.cores.map (·.1) ++ s.xroads.map (·.1)).dedup.filterMap posOfId).filter fun p => par p.parish

/-! ### DEADMAP, FALLOW (R136, R141) -/

/-- Whether an allotment that contains a parish has an ACTIVE section (R136): a core of it has an ACTIVE bank. -/
def State.sectionActive (s : State) (par : Nat) : Bool :=
  match s.allotOf par with
  | none => false
  | some a => s.cores.any fun e =>
      decide (e.2.mode ≠ .noBank) &&
        (match posOfId e.1 with
         | some p => bit (s.allot a).parishes p.parish
         | none => false)

/-- A position whose site has changed: both banks EMPTY and its data SRAM lost (R136); the new site answers (R470). DESIGN
CHOICE (log entry 89): the queues, link latches and stall counters of a moved position stay with the logical position. -/
def State.moved (s : State) (p : Pos) : State :=
  s.updCore p fun c =>
    { c with mode := .noBank, wait := .none, dead := false, bankA := {}, bankB := {}, sram := [], sramInit := (s.fresh + 1) * 2 ^ 20 + p.id
             sramPoison := [], ue := [], ce := [], writeback := [] }

/-- Applies a change of a column's map: the positions whose physical row changed are moved (R136). -/
def State.mapColumn (s : State) (par : Fin 78) (col : Fin 80) (f : State → State) : State :=
  let t := f s
  let go : List (Fin 96) := (List.finRange 96).filter fun r =>
    decide (s.physRow par col r ≠ t.physRow par col r ∨ s.fallow par col ≠ t.fallow par col)
  (go.foldl (fun t r => t.moved { parish := par, col := col, row := r }) t).drawn

/-- The FALLOW register of a column. -/
def fallowOff (par col : Nat) : Nat := parishBase par + (if col < 64 then 0x1500 else 0x1508)

/-- A DEADMAP write that takes effect, or is refused (R136): a column left with more than four dead sites is fallow. DESIGN
CHOICE (log entry 88): a later write that leaves four or fewer does not clear the FALLOW bit; a FALLOW write may. -/
def State.deadmapWrite (s : State) (par : Fin 78) (col : Fin 80) (hi : Bool) (v : DWord) : State :=
  let st := parishBase par + 0x1510
  if s.sectionActive par then s.orReg st 1
  else
    let o := parishBase par + 0x1000 + 0x10 * col.val + (if hi then 8 else 0)
    let v := if hi then BitVec.ofNat 64 (bits v 0 36) else v
    let was := s.fallow par col
    let s := s.mapColumn par col fun s => s.setReg o v
    if !was ∧ (s.liveRows par col).length < 96 then
      ((s.orReg (fallowOff par col) (BitVec.ofNat 64 (2 ^ (col.val % 64)))).orReg st 2).checkGrade
    else s

/-- A FALLOW write that takes effect, or is refused (R136): clearing a bit is ignored while its column has more than
four dead sites. -/
def State.fallowWrite (s : State) (par : Fin 78) (hi : Bool) (v : DWord) : State :=
  if s.sectionActive par then s.orReg (parishBase par + 0x1510) 1
  else
    let cols : List (Fin 80) := (List.finRange 80).filter fun c => decide (c.val ≥ 64) == hi
    (cols.foldl (fun (s : State) (c : Fin 80) =>
      let want := bit v (c.val % 64) || decide ((s.liveRows par c).length < 96)
      if want = s.fallowBit par c then s
      else s.mapColumn par c fun s =>
        s.setReg (fallowOff par c) (setBit (s.reg (fallowOff par c)) (c.val % 64) want)) s).checkGrade

/-- CTRCLR of a parish (R141): every stall counter of the parish. -/
def State.clearStats (s : State) (par : Nat) : State :=
  { s with xroads := s.xroads.mapVals fun k x =>
      match posOfId k with
      | some p => if p.parish.val = par then { x with stat := [] } else x
      | none => x }

end Sys2Proof.Machine
end

