-- ==== Sys2Proof/Machine/Sessions.lean ====
section
/-! DEFINITION. The ledger and the records of sessions (R329, R330, R337, R340, R343 to R345): entries, completions
written or held in LSN order, records that are not journalled, and what is written when a ring has room again. -/

namespace Sys2Proof.Machine

/-! ### DETAIL codes (R342) -/

/-- A DETAIL code from its two hexadecimal digits. -/
def detailOf (hi lo : Nat) : Nat := 16 * hi + lo

def dCompletionRecords := detailOf 0 0xC
def dState := detailOf 2 0x0
def dNotOwner := detailOf 2 0x1
def dNoAllotment := detailOf 2 0x2
def dKind := detailOf 2 0x3
def dParishSet := detailOf 2 0x4
def dNoId := detailOf 2 0x5
def dTagInUse := detailOf 2 0x6
def dQuota := detailOf 2 0x7
def dHubTally := detailOf 2 0x8
def dHostRead := detailOf 2 0x9
def dSpace := detailOf 2 0xA
def dStartPassed := detailOf 2 0xB
def dEntry := detailOf 2 0xC
def dContextMismatch := detailOf 2 0xD
def dSignature := detailOf 2 0xE
def dRollback := detailOf 2 0xF
def dStageBusy := detailOf 3 0x0
def dNoCommonVersion := detailOf 3 0x2
def dBadToken := detailOf 3 0x3
def dBound := detailOf 3 0x4
def dSessionsFull := detailOf 3 0x5
def dCreditsExhausted := detailOf 3 0x6
def dOwnsAllotments := detailOf 3 0x7
def dRestart := detailOf 4 0x0
def dHaltCmd := detailOf 4 0x1
def dReset := detailOf 4 0x2
def dClose := detailOf 4 0x3
def dFault := detailOf 5 0x0

/-! ### Time -/

/-- The millisecond of the bell's time. -/
def State.msNow (s : State) : Nat := s.ticksNs s.tick / 1000000

/-- Ticks that cover a time in nanoseconds. -/
def State.nsTicks (s : State) (ns : Nat) : Nat := ceilDiv (ns * 5) (s.bell.n * 32)

/-! ### Sessions -/

def State.setSes (s : State) (id : Nat) (x : Session) : State := { s with ses := s.ses.put id x }

def State.updSes (s : State) (id : Nat) (f : Session → Session) : State :=
  match s.ses.find? id with
  | some x => s.setSes id (f x)
  | none => s

/-! ### The ledger -/

/-- The entry of an LSN, with its slot. -/
def State.entryOf (s : State) (lsn : Nat) : Option (Nat × LEntry) := s.ledger.entries.search fun _ e => decide (e.lsn = lsn)

/-- The first slot from `i` in ring order that is DONE or unused, within `fuel` slots (R343). -/
def freeSlot (t : Tab LEntry) : Nat → Nat → Nat
  | 0, i => i
  | fuel + 1, i =>
    match t.find? i with
    | none => i
    | some e => if e.st = 2 then i else freeSlot t fuel ((i + 1) % 65536)

/-- A slot whose change is to be mirrored (R343). -/
def insertSlot (i : Nat) (l : List Nat) : List Nat := if l.contains i then l else l ++ [i]

/-- An entry's bytes (R344). -/
def LEntry.bytes (e : LEntry) : List Byte :=
  [e.opcode, e.status, e.st.setWidth 8, e.allot] ++ leBytes 2 e.ses.toNat ++ leBytes 2 e.epoch.toNat ++ leBytes 4 e.seq.toNat
    ++ leBytes 2 e.detail.toNat ++ leBytes 2 0 ++ leBytes 8 e.lsn ++ leBytes 8 e.hostTag.toNat ++ leBytes 8 e.doneTick
    ++ leBytes 24 e.result.toNat

/-- Journals a command: the next free entry and the next LSN (R343). -/
def State.journal (s : State) (e : LEntry) : State :=
  let i := freeSlot s.ledger.entries 65536 s.ledger.alloc
  { s with ledger :=
      { entries := s.ledger.entries.put i { e with lsn := s.ledger.nextLsn }
        nextLsn := s.ledger.nextLsn + 1, alloc := (i + 1) % 65536, dirty := insertSlot i s.ledger.dirty } }.bump (0x90000 + 0x4048)

def State.updEntry (s : State) (lsn : Nat) (f : LEntry → LEntry) : State :=
  match s.entryOf lsn with
  | some (i, e) => 
    { s with ledger := { s.ledger with entries := s.ledger.entries.put i (f e), dirty := insertSlot i s.ledger.dirty } }
  | none => s

/-- Free slots of a ring. -/
def Ring.free (r : Ring) : Nat := 2 ^ r.l - (r.prod - r.cons)

/-- A completion record's bytes (R340); DROPPED saturates (R501). -/
def recordBytes (e : LEntry) (status : Nat) (reack : Bool) (expected held dropped : Nat) : List Byte :=
  leBytes 1 e.opcode.toNat ++ leBytes 1 status ++ leBytes 1 (b2n reack) ++ leBytes 1 0 ++ leBytes 2 e.ses.toNat
    ++ leBytes 2 e.epoch.toNat ++ leBytes 4 e.seq.toNat ++ leBytes 4 expected ++ leBytes 8 e.hostTag.toNat ++ leBytes 8 e.lsn
    ++ leBytes 2 e.detail.toNat ++ leBytes 2 held ++ leBytes 4 (min dropped 0xFFFFFFFF) ++ leBytes 24 e.result.toNat

/-- Writes a completion record of an attached session with room, with EXPECTED, CREDITS_HELD after it and DROPPED
(R340); a journalled one returns its credit (R333). -/
def State.writeRecord (s : State) (id : Nat) (e : LEntry) (status : Byte) (reack journalled : Bool) : State :=
  match s.ses.find? id with
  | none => s
  | some x =>
    let held := if journalled then x.held - 1 else x.held
    let y := { x with held := held, dropped := 0, compWritten := x.compWritten + 1
                      cring := { x.cring with prod := x.cring.prod + 1 } }
    let e := { e with epoch := x.epoch }
    ((s.setSes id y).send (.completion id e status reack x.nextSeq held x.dropped)).writeSlot x.qp x.cring
      (recordBytes e status.toNat reack x.nextSeq.toNat held x.dropped)

/-- Writes held completions in LSN order while the ring has room (R345). -/
def State.flushHeld (s : State) (id : Nat) : Nat → State
  | 0 => s
  | fuel + 1 =>
    match s.ses.find? id with
    | none => s
    | some x =>
      match x.heldRecs with
      | [] => s
      | e :: t =>
        if x.attached && decide (x.cring.free > 0) then
          ((s.setSes id { x with heldRecs := t }).writeRecord id e e.status false true).flushHeld id fuel
        else s

/-- A session is gone, and its QP is unbound (R349). -/
def State.dropSession (s : State) (id : Nat) : State :=
  { s with ses := s.ses.del id
           qps := s.qps.mapVals fun _ q => if q.ses = some id then { q with ses := none } else q }

/-- A session that has ended is gone once its last completion is written (R345, R349). -/
def State.endIfDone (s : State) (id : Nat) : State :=
  match s.ses.find? id with
  | none => s
  | some x => if x.ending ∧ x.heldRecs.isEmpty then s.dropSession id else s

/-- The sessions that are open: those that have ended are so no longer (R349). -/
def State.openSes (s : State) : Tab Session := s.ses.filter fun e => !e.2.ending

/-- Inserts an entry in order of LSN. -/
def insertEntry (e : LEntry) : List LEntry → List LEntry
  | [] => [e]
  | h :: t => if e.lsn < h.lsn then e :: h :: t else h :: insertEntry e t

/-- A journalled command is done (R345): its entry is final, then its record is written or held; it leaves the
session's accepted commands and its allotment's active place. -/
def State.finishOne (s : State) (lsn : Nat) (status detail : Nat) (result : BitVec 192) : State :=
  let s := s.updEntry lsn fun e =>
    { e with st := 2, status := BitVec.ofNat 8 status, detail := BitVec.ofNat 16 detail, result := result
             doneTick := s.tick, body := [] }
  match s.entryOf lsn with
  | none => s
  | some (_, e) =>
    let s := { s with allots := s.allots.mapVals fun a x =>
        let x := if x.active = some lsn then { x with active := none } else x
        if a = e.allot.toNat then { x with lastSeq := e.seq } else x }
    let id := e.ses.toNat
    match s.ses.find? id with
    | none => s
    | some x =>
      (s.setSes id { x with imm := x.imm.filter (· ≠ lsn), heldRecs := insertEntry e x.heldRecs }).flushHeld id 65536

/-- Whether a command joins its allotment's queue (R346). -/
def LEntry.queued (e : LEntry) : Bool :=
  [0x04, 0x05, 0x06, 0x0C, 0x0D, 0x0E].contains e.opcode.toNat || (decide (e.opcode = 0x0F) && decide (e.allot ≠ 0xFF))

/-- Whether a command may change which allotments its session owns: later queued commands of the session are judged
after it (R339). -/
def LEntry.changesOwner (e : LEntry) : Bool := decide (e.opcode = 0x02 ∨ e.opcode = 0x03)

/-- Why a command may not act on the allotment it names (R346): no such allotment, or another session's. A management
session may HALT, RELEASE and RESET_FUNCTION any. -/
def State.ownerFault (s : State) (x : Session) (id opcode a : Nat) : Option Nat :=
  if a > 15 ∨ (s.allot a).st = .free then some dNoAllotment
  else if (s.allot a).owner = id ∨ (x.mgmt ∧ [0x04, 0x07, 0x0E].contains opcode) then none
  else some dNotOwner

/-- Whether a queued command accepted before an LSN, for the same allotment, is not in its queue yet (R366). -/
def State.earlierFor (s : State) (lsn a : Nat) : Bool :=
  s.ses.any fun x => x.2.imm.any fun l => decide (l < lsn) &&
    (match s.entryOf l with
     | some (_, e) => e.queued && decide (e.allot.toNat = a)
     | none => false)

/-- One accepted command taken up: a queued one that no CLOSE or ALLOT before it, and no command accepted before it for the
allotment, holds back joins its allotment's queue, or is refused (R339, R346, R366). -/
def State.takeUp (s : State) (id : Nat) (held : Bool) (lsn : Nat) : State × Bool :=
  match s.entryOf lsn, s.ses.find? id with
  | some (_, e), some x =>
    if !e.queued then (s, held || e.changesOwner)
    else if held ∨ s.earlierFor lsn e.allot.toNat then (s, held)
    else
      match s.ownerFault x id e.opcode.toNat e.allot.toNat with
      | some d => (s.finishOne lsn 1 d 0, held)
      | none =>
        ((s.setSes id { x with imm := x.imm.filter (· ≠ lsn) }).updAllot e.allot.toNat fun y =>
          { y with queue := y.queue ++ [lsn] }, held)
  | _, _ => (s, held)

/-- The accepted commands of a session taken up in order (R339). -/
def State.dispatch (s : State) (id : Nat) : State :=
  match s.ses.find? id with
  | none => s
  | some x => (x.imm.foldl (fun (y : State × Bool) (l : Nat) => y.1.takeUp id y.2 l) (s, false)).1

/-- The accepted commands of every session taken up: one may have waited for another session's (R366). -/
def State.dispatchAll (s : State) : State := (s.ses.map (·.1)).foldl State.dispatch s

/-- A journalled command is done, and those that waited for it are taken up (R339, R345, R366). -/
def State.finish (s : State) (lsn : Nat) (status detail : Nat) (result : BitVec 192) : State :=
  (s.finishOne lsn status detail result).dispatchAll

/-- A refusal (R341). -/
def State.refuse (s : State) (lsn detail : Nat) : State := s.finish lsn 1 detail 0

/-- A record that is not journalled (R330, R337): written where the free slots after it still cover the credits held,
dropped and counted otherwise. -/
def State.looseRecord (s : State) (id : Nat) (e : LEntry) (status : Byte) (reack : Bool) : State :=
  match s.ses.find? id with
  | none => s
  | some x =>
    let s := if 0x10 ≤ status.toNat ∧ status.toNat ≤ 0x15 then s.bump (0x90000 + 0x4050) else s
    if x.attached && decide (x.cring.free ≥ x.held + 1) then s.writeRecord id e status reack false
    else s.setSes id { x with dropped := x.dropped + 1 }

/-- The immediate command a session executes next, queued ones that wait behind or before it apart (R339), where its opcode is
`op`: LSN, session, entry. -/
def State.immHead (s : State) (id op : Nat) : Option (Nat × Session × LEntry) :=
  match s.ses.find? id with
  | none => none
  | some x =>
    match x.imm.find? fun l => !(s.entryOf l).any (·.2.queued) with
    | none => none
    | some lsn => (s.entryOf lsn).bind fun e => if e.2.opcode.toNat = op ∧ !e.2.queued then some (lsn, x, e.2) else none

/-! ### Staging (R363, R412) -/

/-- The FW_STAGE command a session executes, from a management session. -/
def State.stagingOf (s : State) (id : Nat) : Option Nat :=
  match s.immHead id 0x10 with
  | some (lsn, x, _) => if x.mgmt then some lsn else none
  | none => none

/-- Whether a staging accepted before an LSN is in progress. -/
def State.stagingBefore (s : State) (lsn : Nat) : Bool :=
  s.ses.any fun e => match s.stagingOf e.1 with
    | some l => decide (l < lsn)
    | none => false

/-- Whether a staging is in progress: a PLDM update, or an FW_STAGE that a session executes (R412). -/
def State.staging (s : State) : Bool := s.boot.pldmUpdate || s.ses.any fun e => (s.stagingOf e.1).isSome

/-- The device that holds the image not used at this start. -/
def State.spareImage (s : State) : Bool := !s.boot.imageB

/-! ### Rings with room again (R330) -/

/-- Writes the events that wait for a ring while it has room. -/
def State.flushRing (s : State) (id j : Nat) : Nat → State
  | 0 => s
  | fuel + 1 =>
    match s.ses.find? id with
    | none => s
    | some x =>
      let r := x.ering j
      match r.waiting with
      | [] => s
      | e :: t =>
        if x.attached && r.room then
          let y := { x with erings := x.erings.put j { r with prod := r.prod + 1, waiting := t }, evWritten := x.evWritten + 1 }
          ((s.setSes id y).writeEvent id j x r e).flushRing id j fuel
        else s

/-- Writes what waits for an event ring, and EVENTS_LOST where records were dropped (R330, R369). -/
def State.ringRoom (s : State) (id j : Nat) : State :=
  let s := s.flushRing id j 257
  match s.ses.find? id with
  | none => s
  | some x =>
    let r := x.ering j
    if r.waiting.isEmpty && r.room && x.attached && decide (r.lost > 0) then
      (s.setSes id { x with erings := x.erings.put j { r with lost := 0, polling := false } }).raise evEventsLost none
        [(j, 1), (r.lost, 4)] [.session id]
    else s

/-- An event of which a millisecond has one, where `l` is what is kept of it: what is kept then, and whether it is raised now, as
the first of the millisecond is; later ones are one event with TICK and TOD of the first of them (R337, R367, R424). -/
def limitEvent (ms : Nat) (e : Event) : Option (Nat × Option Event) → (Nat × Option Event) × Bool
  | none => ((ms, none), true)
  | some (m, none) => ((m, some e), false)
  | some (m, some w) => ((m, some { e with count := w.count + 1, tick := w.tick, tod := w.tod }), false)

/-- The event kept of a millisecond that is over. -/
def lateEvent (ms : Nat) (l : Nat × Option Event) : List Event := if l.1 = ms then [] else l.2.toList

/-- The later occurrences of the events of R337 in a millisecond that is over are raised (R337, R367). -/
def State.reportLimited (s : State) (id : Nat) : State :=
  match s.ses.find? id with
  | none => s
  | some x =>
    (x.limited.flatMap fun e => lateEvent s.msNow e.2).foldl (fun s e => s.raiseEvent e [.session id])
      (s.setSes id { x with limited := x.limited.filter fun e => e.2.1 = s.msNow })

/-- Raises one of the events of R337 on ring 0, at most once a session and code a millisecond, COUNT giving the
occurrences. -/
def State.raiseLimited (s : State) (id code : Nat) (payload : List (Nat × Nat)) : State :=
  let s := s.reportLimited id
  match s.ses.find? id with
  | none => s
  | some x =>
    let e : Event := { code := code, tick := s.tick, tod := s.todNow, payload := payload }
    let l := limitEvent s.msNow e (x.limited.find? code)
    let s := s.setSes id { x with limited := x.limited.put code l.1 }
    if l.2 then s.raiseEvent e [.session id] else s

/-- The later refusals of a gatehouse in a millisecond that is over are raised as one event (R367, R424). -/
def State.reportDenied (s : State) (site : Nat) : State :=
  let g := s.guests.get {} site
  match g.denied with
  | none => s
  | some l =>
    if l.1 = s.msNow then s
    else
      (lateEvent s.msNow l).foldl (fun s e => s.raiseEvent e ((e.allot.map Dest.allot).toList))
        { s with guests := s.guests.put site { g with denied := none } }

/-- What was held back of the last millisecond is raised (R337, R367, R424). -/
def State.raiseHeldBack (s : State) : State :=
  (List.range 4).foldl (fun s i => s.reportDenied i) ((s.ses.map (·.1)).foldl (fun s i => s.reportLimited i) s)

/-! ### Results -/

/-- A RESULT of fields: byte offset, bytes, value (R340). -/
def resultOf (l : List (Nat × Nat × Nat)) : BitVec 192 :=
  BitVec.ofNat 192 ((l.map fun f => (f.2.2 % 2 ^ (8 * f.2.1)) * 2 ^ (8 * f.1)).sum)

end Sys2Proof.Machine
end

