-- ==== Sys2Proof/Machine/Loader.lean ====
section
/-! DEFINITION. The section image (R152 to R158): its records, the bank a position receives, the fill checks (R77,
R114, R115, R127, R128, R156), and the writes of the section loader into a shadow bank. -/

namespace Sys2Proof.Machine

/-- A little-endian value of device memory at an interleaved DPA. -/
def State.dpaNat (s : State) (dpa n : Nat) : Nat := leNat (s.dpaBytes dpa n)

/-! ### Core-image records (R154) -/

/-- A core-image record. -/
structure Rec where
  parish : Nat
  col0 : Nat
  row0 : Nat
  cols : Nat
  rows : Nat
  bodyLen : Nat
  taskBase : Nat
  taskDcol : Nat
  taskDrow : Nat
  bodyOfs : Nat
  reserved : Nat
  deriving DecidableEq, Repr

/-- The record of 32 bytes. -/
def recOf (b : List Byte) : Rec :=
  { parish := leAt b 0 1, col0 := leAt b 1 1, row0 := leAt b 2 1, cols := leAt b 3 1, rows := leAt b 4 1
    bodyLen := leAt b 5 2, taskBase := leAt b 8 4, taskDcol := leAt b 12 2, taskDrow := leAt b 14 2
    bodyOfs := leAt b 16 8, reserved := leAt b 7 1 + leAt b 24 8 }

/-- Whether a record covers a position. -/
def Rec.covers (r : Rec) (p : Pos) : Bool :=
  decide (r.parish = p.parish ∧ r.col0 ≤ p.col ∧ p.col < r.col0 + r.cols ∧ r.row0 ≤ p.row ∧ p.row < r.row0 + r.rows)

/-- The first record from index `i`, within `fuel`, that covers a position. -/
def State.findRec (s : State) (base : Nat) (p : Pos) : Nat → Nat → Option (Nat × Rec)
  | 0, _ => none
  | fuel + 1, i =>
    let r := recOf (s.dpaBytes (base + 32 * i) 32)
    if r.covers p then some (i, r) else s.findRec base p fuel (i + 1)

/-- The variant a run uses (R171, R173). -/
def Prog.variantOf (g : Prog) (r : RunId) : Nat :=
  if r.num = 1 then 0 else if r.num = 2 then 1 else if g.variants = 2 then 0 else 2

/-- The record of a position in a run of a program, if one covers it. -/
def State.recordOf (s : State) (g : Prog) (r : RunId) (p : Pos) : Option (Nat × Rec) :=
  match g.sectOf r with
  | none => none
  | some x => s.findRec (g.dpa + (x.recOfs[g.variantOf r]?).getD 0) p x.records 0

/-! ### The bank a position receives (R155) -/

/-- The bytes of the default image: END, then zeros. -/
def defaultByte (i : Nat) : Byte := if i = 2 then 4 else 0

/-- A byte of a position's image before the entry block is overwritten. -/
def State.imageByte (s : State) (g : Prog) (r : Option (Nat × Rec)) (i : Nat) : Byte :=
  match r with
  | none => defaultByte i
  | some (_, r) => if i < r.bodyLen then s.memByte (s.memKey (g.dpa + r.bodyOfs + i)) else 0

/-- A byte of the bank, with TASKIDX, COLOUR and SECSEQ overwritten (R77, R155); of the default image only COLOUR, which every
entry block of the run takes (R148). -/
def State.bankByte (s : State) (g : Prog) (r : Option (Nat × Rec)) (p : Pos) (colour : BitVec 2) (secseq i : Nat) :
    Byte :=
  if i = 0x1AA2 then colour.setWidth 8
  else if 0x1AA4 ≤ i ∧ i < 0x1AA8 then
    let t := match r with
      | some (_, r) => r.taskBase + (p.col - r.col0) * r.taskDcol + (p.row - r.row0) * r.taskDrow
      | none => 0
    BitVec.ofNat 8 (t / 2 ^ (8 * (i - 0x1AA4)))
  else if 0x1AA8 ≤ i ∧ i < 0x1AAC ∧ r.isSome then BitVec.ofNat 8 (secseq / 2 ^ (8 * (i - 0x1AA8)))
  else s.imageByte g r i

/-! ### Fill checks (R156) -/

/-- ENTRY (R77): reserved bits of the entry block, START. -/
def Bank.badEntry (b : Bank) (imageColour : Byte) : Bool :=
  decide (b.nat 0x1AA0 2 > 1535) || decide (imageColour.toNat ≥ 4) || bit (b.byte 0x1AA3) 0 || decide (b.nat 0x1AB0 16 ≠ 0)

/-- The queue configuration of a bank. -/
def Bank.qcfg (b : Bank) (q : Nat) : BitVec 128 := BitVec.ofNat 128 (b.nat (0x1A00 + 16 * q) 16)

/-- Whether two ranges share a byte. -/
def overlaps (a n b m : Nat) : Bool := decide (a < b + m ∧ b < a + n)

/-- The parts of an elastic queue's region: data and side array (R128). -/
def regionParts (c : BitVec 128) : List (Nat × Nat) :=
  [(qRegionBase c, 16 * qRegionSize c), (qSideBase c, qRegionSize c)]

/-- Whether the loader has read a range of the blocks of 64 bytes of a bank. -/
def Bank.read (b : Bank) (lo n : Nat) : Bool := decide (bits b.unread lo n = 0)

/-- Whether the configuration of a queue has been read. -/
def Bank.readQueue (b : Bank) (q : Nat) : Bool := b.read (104 + q / 4) 1

/-- QUEUE, of the entries that have been read (R127, R128, R460). -/
def Bank.badQueue (b : Bank) : Bool :=
  let cs := ((List.range 8).filter b.readQueue).map fun q => (b.qcfg q, q)
  let el := ((cs.filter fun x => decide (x.2 < 4) && qElastic x.1).map (·.1)).map regionParts
  cs.any (fun x =>
    let c := x.1
    decide (bits c 2 14 ≠ 0) || decide (bits c 27 5 ≠ 0) || decide (bits c 40 24 ≠ 0) || decide (bits c 78 50 ≠ 0) ||
      (if qElastic c then
        decide (x.2 ≥ 4) || decide (bits c 32 8 = 0 ∨ bits c 32 8 > 128) ||
          (regionParts c).any (fun r => decide (r.1 + r.2 > 0x18000)) ||
          overlaps (qRegionBase c) (16 * qRegionSize c) (qSideBase c) (qRegionSize c)
       else decide (bits c 16 62 ≠ 0))) ||
    (el.zipIdx).any (fun x => (el.zipIdx).any fun y =>
      decide (x.2 < y.2) && x.1.any fun r => y.1.any fun t => overlaps r.1 r.2 t.1 t.2)

/-- Whether a port of a position is sealed when its bank fills (R115). -/
def State.isSealed (s : State) (p : Pos) (d : Nat) : Bool :=
  if d = 4 then false
  else
    match neighbour p d with
    | none => true
    | some q => decide (s.allotOf q.parish ≠ s.allotOf p.parish) || (s.parish q.parish).dark || s.fallow q.parish q.col

/-- Whether a queue is enabled, as far as its configuration has been read. -/
def Bank.mayUse (b : Bank) (q : Nat) : Bool := !b.readQueue q || bit (b.qcfg q) 0

/-- Whether a slot entry breaks a rule of R114. -/
def State.badSlot (s : State) (p : Pos) (b : Bank) (w : DWord) : Bool :=
  let e := slotOfWord w
  let names (code : Nat) : Bool := e.outs.any (· == code)
  let operand (code : Nat) : Bool := decide (e.suma = code ∨ e.sumb = code)
  let core := names 5 || operand 5
  decide (bits w 37 26 ≠ 0) || bit w 28 ||
  e.outs.any (· == 7) || decide (e.csrc = 7 ∨ e.cdst = 7 ∨ e.suma > 5 ∨ e.sumb > 5) ||
  (List.range 5).any (fun o => decide (e.source o = o + 1)) ||
  (names 6 && decide (e.suma = 0 ∨ e.sumb = 0)) || (!names 6 && decide (e.suma ≠ 0 ∨ e.sumb ≠ 0)) ||
  (names 6 && decide (e.suma ≥ e.sumb)) ||
  (e.bf16 && decide (e.len % 2 = 1)) ||
  (e.bf16 && (List.range 5).any (fun i => operand (i + 1) && names (i + 1))) ||
  (decide (e.source 4 ≠ 0) != decide (e.cdst ≠ 0)) ||
  (core != decide (e.csrc ≠ 0)) ||
  (decide (1 ≤ e.csrc ∧ e.csrc ≤ 4) && !b.mayUse (4 + (e.csrc - 1))) ||
  (decide (1 ≤ e.cdst ∧ e.cdst ≤ 4) && !b.mayUse (e.cdst - 1)) ||
  (decide (e.csrc = 6 ∨ e.cdst = 6) && !s.isTap p) ||
  (List.range 4).any (fun d => (decide (e.source d ≠ 0) || names (d + 1) || operand (d + 1)) && s.isSealed p d)

/-- The entries of the round, 0 to W (R116), from entry `i` within `fuel`, up to the first that has not been read: whether the
round reaches beyond that one is not known. -/
def Bank.roundFrom (b : Bank) : Nat → Nat → List DWord
  | 0, _ => []
  | fuel + 1, i =>
    let w := BitVec.ofNat 64 (b.nat (0x1800 + 8 * i) 8)
    if !b.read (96 + i / 8) 1 then [] else if bit w 63 then [w] else w :: b.roundFrom fuel (i + 1)

/-- The lowest code of the fill checks a bank fails (R156); what a check looks at must have been read (R460). -/
def State.fillCheck (s : State) (p : Pos) (b : Bank) (imageColour : Byte) : Option Nat :=
  if b.read 106 1 && b.badEntry imageColour then some 0x08
  else if (b.roundFrom 64 0).any (s.badSlot p b) then some 0x09
  else if b.badQueue then some 0x0A
  else if b.unread ≠ 0 then some 0x0D
  else none

/-! ### The loader's writes (R157, R158, R178) -/

/-- SECTION_IMAGE_MALFORMED: the fill of a run fails at a core (R157, R175). -/
def State.fillFails (s : State) (a : Nat) (p : Pos) (i recordNo code : Nat) : State :=
  let x := s.allot a
  let r := (x.exec.bind fun e => e.fills[i]?).map (·.1)
  let s := s.raiseA evSectionImageMalformed a [(p.id, 4), (recordNo, 2), (code, 1), (x.secseqOf r, 4)]
  let launched := match x.exec with
    | some e => decide (i < e.launched)
    | none => false
  let s := s.updExec a fun e => { e with badFills := if e.badFills.contains i then e.badFills else i :: e.badFills }
  if launched then s.haltNext a .malformed else s

/-- The loader reads the records of a run up to the one that covers a position (R154, R198). DESIGN CHOICE (log entry 109):
it does so once for each core it fills. -/
def State.readRecords (s : State) (a : Nat) (p : Pos) (g : Prog) (r : RunId) : State :=
  match g.sectOf r with
  | none => s
  | some x =>
    let n := match s.recordOf g r p with
      | some (i, _) => i + 1
      | none => x.records
    s.readRange 3 p.id (some a) (g.dpa + (x.recOfs[g.variantOf r]?).getD 0) (32 * n)

/-- The shadow bank replaced. -/
def Core.setShadow (c : Core) (b : Bank) : Core := if c.activeB then { c with bankA := b } else { c with bankB := b }

/-- Whether packets pass between the well of a core and every stack that holds a range (R184). -/
def State.hubToBody (s : State) (p : Pos) (d n : Nat) : Bool :=
  (sectorsOf d n).all fun e => s.hubToWell p (stackSector (s.memKey e.1 / 2 ^ 36))

/-- The loader reads a block of a body for a core in fill `i`: once for each well (R158), its reads as slow as `slow` says
(R196). -/
def State.readBody (s : State) (a : Nat) (p : Pos) (i d n : Nat) (slow : List (Fin 64 × Nat)) : State :=
  let key := (i, (s.wellOf p).getD (wellIndex p.parish p.well), d)
  let seen := match (s.allot a).exec with
    | some e => e.bodyReads.contains key
    | none => false
  if seen then s
  else
    (s.noteSlow (s.readRange 3 p.id (some a) d n) (some a) slow).updExec a fun e =>
      { e with bodyReads := key :: e.bodyReads.filter fun k => decide (i ≤ k.1 + 1) }

/-- Whether every stack a body's block touches answers. -/
def State.readable (s : State) (dpa n : Nat) : Bool :=
  (List.range n).all fun i => s.stackUp (s.memKey (dpa + i) / 2 ^ 36)

/-- The section loader writes block `k` (64 bytes) of the next image of a core into its shadow bank (R155, R178): an EMPTY bank
becomes FILLING; with the last block the fill checks decide (R78, R157). A block whose read fails is not written, and leaves the
bank short (R460). A core whose round gives it no paired well slot receives nothing (R122). Where the controllers took longest
stands in `slow` (R196). -/
def State.loaderWrite (s : State) (p : Pos) (k : Nat) (slow : List (Fin 64 × Nat)) : State :=
  match s.allotOf p.parish with
  | none => s
  | some a =>
    let x := s.allot a
    let c := s.core p
    let b := c.shadow
    match x.prog, x.exec with
    | some g, some e =>
      match e.fills[c.nextFill]? with
      | none => s
      | some (r, colour) =>
        if k ≥ 128 ∨ b.st = .complete ∨ b.st = .active ∨ bit b.got k ∨ !s.alive p ∨ !s.portOpen p false then s
        else
          let rec' := s.recordOf g r p
          let secseq := ((g.sectOf r).map (·.secseq)).getD 0
          let no := (rec'.map (·.1)).getD 0xFFFF
          let body := match rec' with
            | some (_, t) => (g.dpa + t.bodyOfs + 64 * k, if 64 * k < t.bodyLen then min 64 (t.bodyLen - 64 * k) else 0)
            | none => (0, 0)
          let ok := s.readable body.1 body.2
          if !s.hubToBody p body.1 body.2 then s
          else
          let words := if ok then (List.range ((body.2 + 7) / 8)).map fun i => s.memKey (body.1 + 8 * i) / 8 else []
          let s := if k = 0 then s.readRecords a p g r else s
          let s := s.readBody a p c.nextFill body.1 body.2 slow
          let bad := ((words.zipIdx).filter fun w => s.wordPoison w.1).map (8 * k + ·.2)
          let b := if b.st = .empty then { st := .filling, run := c.nextFill } else b
          let data := if ok then (List.range 64).foldl (fun t j =>
            let v := s.bankByte g rec' p colour secseq (64 * k + j)
            if v = 0 then t.del (64 * k + j) else t.put (64 * k + j) v) b.data else b.data
          let b := { b with data := data, got := setBit b.got k true, unread := setBit b.unread k !ok, poison := b.poison ++ bad }
          if b.got ≠ BitVec.allOnes 128 then s.setCore p (c.setShadow b)
          else
            match s.fillCheck p b (s.imageByte g rec' 0x1AA2) with
            | some code => (s.setCore p (c.setShadow b)).fillFails a p c.nextFill no code
            | none =>
              s.setCore p { c.setShadow { b with st := .complete, late := decide (b.run < e.launched) } with
                            nextFill := c.nextFill + 1 }
    | _, _ => s

/-! ### The swap (R42, R79, R119, R132, R165, R166) -/

/-- The registers a swap sets (R42). -/
def Core.enter (c : Core) (b : Bank) : Core :=
  let tl := (List.range 16).map fun i => BitVec.ofNat 16 (b.nat (0x1A80 + 2 * i) 2)
  let t := Vector.ofFn fun (i : Fin 16) => (tl[i.val]?).getD 0
  { c with
      mode := .running, pc := b.nat 0x1AA0 2, wait := .none
      s := Vector.ofFn fun (i : Fin 32) => if i.val < 16 then 0 else BitVec.ofNat 32 (b.nat (0x1AC0 + 4 * (i.val - 16)) 4)
      p := b.byte 0x1AA3 ||| 1, v := Vector.replicate 16 0
      acc := Vector.replicate 4 (Vector.replicate 128 0), w := Vector.replicate 2 none
      t := t, tstart := t, topk := {}, sp := 0, vp := Vector.replicate 16 0, accp := 0
      taskidx := BitVec.ofNat 32 (b.nat 0x1AA4 4), colour := BitVec.ofNat 2 (b.byte 0x1AA2).toNat
      secseq := BitVec.ofNat 32 (b.nat 0x1AA8 4), rngctr := BitVec.ofNat 32 (b.nat 0x1AAC 4), vstat := 0
      beats := 0, beatsOvf := false, beatsHi := 0, mq := [], mrun := none
      qcfg := Vector.ofFn fun (q : Fin 8) => b.qcfg q.val, ceCount := 0, ceRaised := false }

/-- Every entry of the input queues judged against the new colour (R166). -/
def State.judgeQueues (s : State) (p : Pos) : State :=
  (List.range 4).foldl (fun s q =>
    let c := s.core p
    let l := (c.inq.toList[q]?).getD []
    let bad := l.filter fun t => t.colour ≠ c.colour
    let s := s.setCore p { c with inq := c.inq.setIfInBounds q (l.filter fun t => t.colour = c.colour) }
    bad.foldl (fun s t => s.discardToken p q t) s) s

/-- Spilled entries at a swap (R132): kept where the new section keeps the region, else discarded as residue. -/
def State.judgeSpill (s : State) (p : Pos) (old : Vector (BitVec 128) 8) : State :=
  (List.range 4).foldl (fun s q =>
    let c := s.core p
    let o := (old.toList[q]?).getD 0
    let n := c.inCfg q
    let r := c.region q
    if r.2 = 0 then s
    else if qElastic n ∧ qRegionBase n = qRegionBase o ∧ qRegionSize n = qRegionSize o ∧ qSideBase n = qSideBase o then s
    else
      let l := (List.range r.2).map fun i => c.spilledAt o ((r.1 + i) % qRegionSize o)
      let s := s.setCore p { c with spill := c.spill.setIfInBounds q (0, 0) }
      l.foldl (fun s t => s.discardToken p q t) s) s

/-- Whether a core swaps (R79): the launch of its shadow bank's run has come, it has retired END or has no ACTIVE bank,
and the bank is COMPLETE. -/
def State.maySwap (s : State) (p : Pos) : Bool :=
  let c := s.core p
  match s.allotOf p.parish with
  | none => false
  | some a =>
    let x := s.allot a
    match x.exec with
    | none => false
    | some e =>
      decide (x.st = .running) && s.alive p && !c.dead && decide (c.mode = .retired ∨ c.mode = .noBank) &&
        decide (c.shadow.st = .complete ∧ c.shadow.run < e.launched)

/-- BANK_SWAP: the shadow bank becomes ACTIVE and the old one EMPTY, the registers are set, the crossroads starts slot 0
of the new table, queued tokens are judged against the new colour (R79, R42, R119, R132, R165, R166); an uncorrectable
entry block is a fetch fault (R80). -/
def execBankSwap (p : Pos) (s : State) : Host.Outcome State Fault Refusal :=
  .next (if !s.maySwap p then s
    else
      let c := s.core p
      let b := c.shadow
      let old := c.qcfg
      let n := { b with st := .active }
      let c := if c.activeB then { c with bankB := {}, bankA := n, activeB := false }
               else { c with bankA := {}, bankB := n, activeB := true }
      let s := s.setCore p (c.enter n)
      let s := s.setXroad p (s.xroad p).restart
      let s := s.judgeSpill p old
      let s := (s.judgeQueues p).enterHold p
      let s := match s.allotOf p.parish with
        | some a => if b.late then
            s.updExec a fun e =>
              let k := e.books.get {} b.run
              { e with lateSwap := true, books := e.books.put b.run { k with lateCores := k.lateCores + 1 } }
          else s
        | none => s
      let entry := (List.range 4).any fun i => n.ue.contains (0x1AA0 / 8 + i)
      if entry then s.except p 0 .fetchUe else s)

end Sys2Proof.Machine
end

