-- ==== Sys2Proof/Machine/Budget.lean ====
section
/-! DEFINITION. The module budget and the grants that follow from it (R376, R378 to R380): shared by a run's launch and by each
telemetry set. -/

namespace Sys2Proof.Machine

/-! ### Budget (R378, R395 to R398) -/

def Reeve.lent (r : Reeve) : Nat := ((r.loans.filter fun e => !e.2.borrowed).map (·.2.amount)).sum
def Reeve.borrowed (r : Reeve) : Nat := ((r.loans.filter fun e => e.2.borrowed).map (·.2.amount)).sum

/-- The loan-adjusted cap. -/
def Reeve.capNow (r : Reeve) : Nat := min r.cap r.capMax + r.borrowed - r.lent

/-- The input limit, 640 A at the measured voltage (R24). -/
def Reeve.inputLimit (r : Reeve) : Nat := 640 * r.inputMv / 1000

/-- The ceilings that act at once: the input limit and the module maximum. -/
def Reeve.hard (r : Reeve) : Nat := min r.inputLimit 32000

/-- The module budget. -/
def Reeve.budget (r : Reeve) : Nat := min r.capNow r.hard

/-! ### Grants (R376, R379 to R381) -/

/-- A running run as the budget sees it: its allotment, floor, ceiling and parishes. -/
structure Share where
  a : Nat
  floor : Nat
  ceiling : Nat
  n : Nat
  deriving DecidableEq, Repr

/-- The floor and the ceiling of an allotment's live runs: those of one live run. DESIGN CHOICE (log entry 121): while two are
live, the highest floor, and the lowest ceiling but no less than that floor. -/
def Exec.floor (e : Exec) : Nat := (e.live.map fun i => (e.book i).floor).foldl max 0
def Exec.ceiling (e : Exec) : Nat := max e.floor ((e.live.map fun i => (e.book i).ceiling).foldl min 256)

/-- The running runs. -/
def State.shares (s : State) : List Share :=
  s.allots.filterMap fun e =>
    match e.2.exec with
    | none => none
    | some x =>
      if e.2.st = .running ∧ x.curRun.isSome then
        some { a := e.1, floor := x.floor, ceiling := x.ceiling, n := e.2.parishList.length }
      else none

/-- The floors and the headroom of the running runs, in quota times parishes. -/
def floors (l : List Share) : Nat := (l.map fun x => x.floor * x.n).sum
def headroom (l : List Share) : Nat := (l.map fun x => (x.ceiling - x.floor) * x.n).sum

/-- The quota times parishes that a module power leaves to the field (R378); `full` where the activity model draws
nothing. -/
def Reeve.field (r : Reeve) (w full : Nat) : Nat := if r.parishW = 0 then full else (w - r.overheadW) * 256 / r.parishW

/-- A run's share of a field quota: its floor first, then headroom in proportion (R379). -/
def Share.share (x : Share) (l : List Share) (q : Nat) : Nat :=
  if q ≥ floors l + headroom l then x.ceiling
  else if headroom l = 0 then x.floor
  else x.floor + (x.ceiling - x.floor) * (q - floors l) / headroom l

/-- A run's part when a limit cuts into the floors, in proportion (R380). -/
def Share.cut (x : Share) (l : List Share) (q : Nat) : Nat := if floors l = 0 then 0 else x.floor * q / floors l

/-- Whether a limit once deferred for a run now applies in full: its deferral, or the run it was deferred for, is over (R381). -/
def State.deferPast (s : State) (a : Nat) : Bool := (s.allot a).deferOver

/-- What emergencies leave a run, at once (R380, R381): the ceilings of the input and the module, and a limit whose deferral is
over, cut into the floors in proportion. -/
def State.hardGrant (s : State) (l : List Share) (x : Share) : Nat :=
  let r := s.reeve
  let full := floors l + headroom l
  let h := r.field r.hard full
  let c := r.field r.capNow full
  if h < floors l then x.cut l h
  else if s.deferPast x.a ∧ c < floors l then x.cut l c
  else x.share l h

/-- The grant of a run (R379 to R381): cap and envelope take its headroom, and leave it the floor; emergencies go below. -/
def State.grantFor (s : State) (l : List Share) (x : Share) : Nat :=
  let r := s.reeve
  let full := floors l + headroom l
  min (s.hardGrant l x) (x.share l (min (r.field r.capNow full) (r.field (r.envelope / 1000000) full)))

/-- The continuous current limit of a rail in 0.1 A (R21): that of a stack group's rail for each stack it feeds, of an
optical rail for each engine. -/
def State.railLimit (s : State) (rail : Nat) : Nat :=
  let count (f : Nat → Bool) (n : Nat) : Nat := ((List.range n).filter f).length
  if rail < 78 then 4800
  else if rail < 94 then 4000
  else if rail = clkRail then 400
  else if rail < 103 then 320 * count (fun i => stackPopulated s.fuses.orderB (8 * (rail - 95) + i)) 8
  else if rail < 107 then 80 * count (fun i => portPopulated s.fuses.orderF (16 * (rail - 103) + i)) 16
  else if rail < 111 then 800
  else 50

/-- The limit a field rail holds its load below: 260 A where one regulator carries it alone (R22). -/
def State.fieldLimit (s : State) (rail : Nat) : Nat :=
  if s.regFailed rail false || s.regFailed rail true then 2600 else s.railLimit rail

/-- The grant a parish takes of its run's: held by the issue cap of its launch, but not below `floor`, and by its rail's current
limit (R380, R404, R466). -/
def Parish.held (x : Parish) (limit floor g deciA : Nat) : Nat :=
  let g := min g (max floor x.launchCap)
  if deciA > limit then g * limit / deciA else g

/-- What a parish's issue cap, below the floor once its deferral is over, and its rail current leave of its run's grant `g` (R380,
R381, R466). -/
def State.heldAt (s : State) (x : Share) (p : Fin 78) (g : Nat) : Nat :=
  (s.parish p).held (s.fieldLimit p) (if (s.allot x.a).capOver then 0 else x.floor) g (bits (s.reg (parishBase p + 0x4000)) 0 16)

/-- The grants of a run's parishes for the next tick; what emergencies take, they take at once (R373, R380). -/
def State.giveGrant (s : State) (l : List Share) (x : Share) : State :=
  let g := s.grantFor l x
  let h := s.hardGrant l x
  (s.allot x.a).parishList.foldl (fun (s : State) (p : Fin 78) => s.updParish p fun y =>
    { y with nextGrant := s.heldAt x p g, grant := min y.grant (s.heldAt x p h) }) s

/-- What the emergencies of a step take at once from the grants of the running runs, in watts (R380, R392). -/
def State.cutW (s : State) (l : List Share) : Nat :=
  (l.map fun x =>
    let h := s.hardGrant l x
    ((s.allot x.a).parishList.map fun (p : Fin 78) => (s.parish p).grant - s.heldAt x p h).sum).sum * s.reeve.parishW / 256

/-- The grants a run starts with (R376, R390): what budget and envelope leave it at its launch; while the reeve's takeover is
pending every grant stays (R372). -/
def State.firstGrant (s : State) (a : Nat) : State :=
  let l := if s.reeve.failing then [] else s.shares
  match l.find? fun x => decide (x.a = a) with
  | none => s
  | some x =>
    let g := s.grantFor l x
    (s.allot a).parishList.foldl (fun (s : State) (p : Fin 78) => s.updParish p fun y =>
      { y with grant := s.heldAt x p g, nextGrant := s.heldAt x p g }) s

end Sys2Proof.Machine
end

