-- ==== Sys2Proof/Machine/Runs.lean ====
section
/-! DEFINITION. Runs of a program (R147 to R175) and the bell that times them (R245 to R256, R268 to R274): filling,
launching, ending, deadlines, halts, the quiescence check, recheck, stretches, suspect ticks, deadlock. -/

namespace Sys2Proof.Machine

/-! ### The runs of a program, in order (R147, R148, R173, R174) -/

/-- Launch and deadline offsets of run `n` of a section (R153). -/
def Sect.launchOf (x : Sect) (n : Nat) : Nat := if n = 1 then x.launch else if n = 2 then x.launch2 else x.launch3
def Sect.deadlineOf (x : Sect) (n : Nat) : Nat :=
  if n = 1 then x.deadline else if n = 2 then x.deadline2 else x.deadline3

/-- A plan tick as the stretches applied so far have moved it (R255). -/
def Exec.stretched (e : Exec) (t : Nat) : Nat := e.stretches.foldl (fun t x => if t ≥ x.1 then t + x.2 else t) t

/-- The section of a run under execution. -/
def Allot.sectOf (x : Allot) (r : RunId) : Option Sect := x.prog.bind fun g => g.sectOf r

/-- The launch tick of a run (R147). -/
def Allot.launchTick (x : Allot) (e : Exec) (r : RunId) : Nat :=
  e.stretched (e.start + ((x.sectOf r).map (·.launchOf r.num)).getD 0)

/-- The deadline tick of a run (R147). -/
def Allot.deadlineTick (x : Allot) (e : Exec) (r : RunId) : Nat :=
  e.stretched (e.start + ((x.sectOf r).map (·.deadlineOf r.num)).getD 0)

/-- Ticks a run may go on past its deadline. -/
def Allot.graceOf (x : Allot) (r : RunId) : Nat := ((x.sectOf r).map (·.grace)).getD 0

/-- The run after those filled so far, once the comparisons that decide it are made: a third run follows only a
mismatch (R147, R148, R173). -/
def Exec.nextRun (e : Exec) (g : Prog) : Option RunId :=
  let after (i : Nat) : Option RunId := if i + 1 < g.sects.length then some { sect := i + 1, num := 1 } else none
  match e.fills.getLast? with
  | none => if g.sects.isEmpty then none else some { sect := 0, num := 1 }
  | some (r, _) =>
    match g.sectOf r with
    | none => none
    | some x =>
      if r.num = 1 ∧ x.recheck then some { sect := r.sect, num := 2 }
      else if r.num = 2 ∧ x.third ∧ e.sigs.length = 2 then some { sect := r.sect, num := 3 }
      else after r.sect

/-- Whether the section loader may start on the next run: the banks of the one before have been swapped in, and after a
second run its comparison is decided (R158, R174). -/
def Exec.mayFill (e : Exec) : Bool :=
  decide (e.fills.length ≤ e.launched) &&
    (match e.fills.getLast? with
     | some (r, _) => decide (r.num ≠ 2) || (decide (e.ended = e.fills.length) && e.sigDue.isEmpty)
     | none => true)

/-- The first and, of a recheck section, the second run of a section. -/
def Prog.declared (g : Prog) (i : Nat) : List RunId :=
  if (g.sects[i]?).any (·.recheck) then [⟨i, 1⟩, ⟨i, 2⟩] else [⟨i, 1⟩]

/-- The runs of a program still to be filled, as far as they are decided, in order (R147). -/
def Exec.toCome (e : Exec) (g : Prog) : List RunId :=
  match e.nextRun g with
  | none => []
  | some r => r :: (g.declared r.sect).filter (fun q => decide (q.num > r.num)) ++
      ((List.range g.sects.length).drop (r.sect + 1)).flatMap g.declared

/-- The runs of the program in execution that have not ended, in order, each with its place. -/
def Allot.unended (x : Allot) (e : Exec) : List (Nat × RunId) :=
  let l := (e.fills.drop e.ended).map (·.1) ++ (match x.prog with
    | some g => e.toCome g
    | none => [])
  l.zipIdx.map fun r => (e.ended + r.2, r.1)

/-- Whether the program's last run has ended and every comparison is made: the quiescence check of R151 remains. -/
def Exec.quiescing (e : Exec) (g : Prog) : Bool :=
  decide (e.ended = e.fills.length) && e.sigDue.isEmpty && (e.nextRun g).isNone

def Allot.quiescing (x : Allot) : Bool :=
  match x.prog, x.exec with
  | some g, some e => e.quiescing g
  | _, _ => false

/-! ### The parish that acts for its allotment -/

/-- Whether a bell wave reaches a parish (R247, R268). -/
def Parish.hears (x : Parish) : Bool := x.railOn && !x.dark && !x.isolated

/-- The lowest parish of an allotment that the bell reaches: its watchman coordinates (R272). -/
def State.lead (s : State) (a : Nat) : Option (Fin 78) :=
  (s.allot a).parishList.find? fun p => (s.parish p).hears

/-- The tick at which an allotment acts: the latest whose wave has reached a parish of it. -/
def State.fieldTick (s : State) (a : Nat) : Nat :=
  match (s.allot a).parishList.filter fun p => (s.parish p).hears with
  | [] => s.tick
  | p :: l => l.foldl (fun t p => max t (s.parish p).bell.toNat) (s.parish p).bell.toNat

/-! ### End conditions (R150, R163, R306) -/

/-- Whether a core has retired END in a run, by the run's place. -/
def Core.endedRun (c : Core) (i : Nat) : Bool :=
  decide (c.swapped > i + 1) || (decide (c.swapped = i + 1) && decide (c.mode = .retired))

/-- The cores of an allotment that have not retired END in a run. -/
def State.coresNotEnd (s : State) (a i : Nat) : Nat :=
  ((s.allot a).parishList.map fun par =>
    ((parishPositions par).filter fun p => s.alive p && !(s.core p).endedRun i).length).sum

/-- The completion record of a tag and transfer ID. -/
def State.rxOf (s : State) (tag tid : Nat) : Option (Nat × Rx) := s.rxs.search fun _ x => decide (x.tag = tag ∧ x.tid = tid)

/-- The completion conditions of a run that are not met, by index (R306). -/
def State.unmet (s : State) (a : Nat) (r : RunId) : List Nat :=
  let x := s.allot a
  match x.sectOf r with
  | none => []
  | some t => (t.compl.zipIdx.filter fun c =>
      decide (((s.rxOf x.tag c.1.1).map (·.2.count)).getD 0 < c.1.2)).map (·.2)

/-- Whether the run at place `i` meets its end conditions. -/
def State.mayEnd (s : State) (a i : Nat) (r : RunId) : Bool := decide (s.coresNotEnd a i = 0) && (s.unmet a r).isEmpty

/-! ### Completions of RUN and HALT (R353, R354) -/

/-- SECSEQ of the first of the program's runs that is invalid, all ones where none is. -/
def Allot.firstInvalid (x : Allot) (e : Exec) : Nat :=
  match e.fills.find? (fun f => e.invalid.contains f.1) with
  | some f => x.secseqOf (some f.1)
  | none => 0xFFFFFFFF

/-- FLAGS of the RUN completion. -/
def Exec.flags (e : Exec) (halted : Bool) : Nat :=
  b2n e.overrun + 2 * b2n e.outOfStep + 4 * b2n e.suspect + 8 * b2n halted + 16 * b2n e.malformed
    + 32 * b2n e.mismatch + 64 * b2n e.lateSwap

/-- RESULT of the RUN completion. -/
def Allot.runResult (x : Allot) (e : Exec) (halted : Bool) (first : Nat) : BitVec 192 :=
  resultOf [(0, 8, ((x.prog.map fun (g : Prog) => g.planId).getD 0).toNat), (8, 4, e.ended), (12, 4, first),
    (16, 2, min e.invalid.length 65535), (18, 2, e.flags halted), (20, 4, min e.residue 0xFFFFFFFF)]

/-- The HALT commands that wait on an allotment complete: with the tick of the halt they caused, or without effect. -/
def State.finishHalts (s : State) (a : Nat) (effect : Bool) : State :=
  let l := (s.allot a).halts
  let t := s.fieldTick a
  let s := s.updAllot a fun x => { x with halts := [] }
  l.foldl (fun s lsn => if effect then s.finish lsn 0 0 (resultOf [(0, 8, t)]) else s.finish lsn 0 dState 0) s

/-- Job time ends FLOOR_HOLD after the last allotment leaves RUNNING (R390). -/
def State.leaveRunning (s : State) : State :=
  if s.allots.any (fun e => decide (e.2.st = .running)) then s
  else { s with reeve := { s.reeve with jobEnding := s.reeve.jobTime } }

/-- SECTION_LATE_SWAP of the run at place `i`, where cores of it swapped late: their number, and the largest delay, a free
value (R160). -/
def State.reportLate (s : State) (a i : Nat) : State :=
  match (s.allot a).exec with
  | none => s
  | some e =>
    let k : RunBook := Tab.get {} e.books i
    if k.lateCores = 0 then s else (s.raiseA evSectionLateSwap a [(k.lateCores, 4), (bits s.draw 0 32, 4)]).drawn

/-- The same of every live run of a program that halts. -/
def State.reportLive (s : State) (a : Nat) : State :=
  match (s.allot a).exec with
  | none => s
  | some e => (List.range (e.launched - e.ended)).foldl (fun s k => s.reportLate a (e.ended + k)) s

/-- A run's end ends its deferrals: the limits apply in full (R381, R466). -/
def State.deferEnds (s : State) (a : Nat) : State :=
  s.updAllot a fun x =>
    let was (f : Exec → Bool) : Bool := (x.exec.map f).getD false
    { x with deferOver := x.deferOver || was (·.deferred), capOver := x.capOver || was (·.capDeferred)
             exec := x.exec.map fun e => { e with deferred := false, capDeferred := false } }

/-- The RUN under execution completes, and the allotment leaves RUNNING (R353); a halted one goes on probing its stalled cores
(R163). -/
def State.completeRun (s : State) (a status detail : Nat) (halted : Bool) (first : Option Nat) : State :=
  let s := (if halted then s.reportLive a else s).deferEnds a
  let x := s.allot a
  match x.exec with
  | none => s
  | some e =>
    let res := x.runResult e halted (first.getD (x.firstInvalid e))
    let s := s.setAllot a { x with exec := none, haltAt := none, probing := x.probing && halted, st := if halted then .halted else .loaded }
    (s.finish e.lsn status detail res).leaveRunning

/-- The halted run: the oldest that is live, the one whose image is malformed, one whose grace expired before it launched, or
the last that ended. -/
def Exec.haltedRun (e : Exec) (why : HaltWhy) : Option RunId :=
  let at' (i : Nat) : Option RunId := (e.fills[i]?).map (·.1)
  if why = .malformed then
    match e.badFills.reverse.head? with
    | some i => at' i
    | none => none
  else if e.ended < e.launched then at' e.ended
  else if e.invalid.any (fun r => !((e.fills.take e.ended).map (·.1)).contains r) then
    e.invalid.find? fun r => !((e.fills.take e.ended).map (·.1)).contains r
  else if e.ended = 0 then none else at' (e.ended - 1)

/-- The allotment halts (R146, R157, R163, R354, R464, R469): a halt by a fault makes the live runs invalid and the RUN
FAILED; one by HALT or CLOSE ends it ABORTED. While only the quiescence check remains, these have nothing to halt (R349). -/
def State.doHalt (s : State) (a : Nat) (why : HaltWhy) : State :=
  let x := s.allot a
  match x.exec with
  | none => s
  | some e =>
    if x.st ≠ .running then s
    else
      match why with
      | .haltCmd =>
        if x.quiescing then s.updAllot a fun x => { x with haltAt := none }
        else (s.completeRun a 3 dHaltCmd true none).finishHalts a true
      | .close =>
        if x.quiescing then s.updAllot a fun x => { x with haltAt := none }
        else (s.completeRun a 3 dClose true none).finishHalts a false
      | w =>
        let live := (e.fills.take e.launched).drop e.ended
        let e' := live.foldl (fun e f => e.charge f.1) { e with malformed := e.malformed || decide (w = .malformed) }
        let first := match e.haltedRun w with
          | some r => x.secseqOf (some r)
          | none => x.firstInvalid e'
        ((s.updExec a fun _ => e').completeRun a 2 dFault true (some first)).finishHalts a false

/-- An allotment of a lost or isolated parish halts: at the next tick where it is RUNNING, at once where no parish of it
hears the bell, and at once where nothing runs (R146, R268, R471). -/
def State.haltParish (s : State) (par : Nat) : State :=
  match s.allotOf par with
  | none => s
  | some a =>
    if (s.allot a).st = .running then
      let s := s.failRun a
      if (s.lead a).isNone then s.doHalt a .fault else s
    else s.updAllot a fun x => { x with st := .halted }

/-! ### Launch (R79, R147, R264, R376) -/

/-- Issue quota and voltage offset of an operating point (R375). -/
def opQuota (n : Nat) : Nat := ([64, 96, 128, 160, 192, 224, 256, 256][n]?).getD 256
def opOffset (n : Nat) : Int := ([-20, -15, -10, -5, 0, 0, 0, 20][n]?).getD 0

/-- The books a run opens at its launch. -/
def State.openBook (s : State) (a t point floor : Nat) : RunBook :=
  let x := s.allot a
  { launchTick := t, point := point, floor := floor, ceiling := opQuota point
    parishStart := x.parishList.map fun (p : Fin 78) => (p.val, (s.parish p).tallies)
    hubStart := s.hub.filter fun e => decide (x.hubBase ≤ e.1 ∧ e.1 < x.hubBase + x.hubCount)
    poisonAt := bits (s.reg (0x60080 + 8 * a)) 0 48 }

/-- A run launches: point, floor and ceiling are settled and its first grant given, ballast stops, its books open (R264, R376,
R393, R250). A run with a bank that failed its checks halts the allotment instead (R157). -/
def State.launchRun (s : State) (a : Nat) : State :=
  let x := s.allot a
  match x.exec with
  | none => s
  | some e =>
    match e.fills[e.launched]? with
    | none => s
    | some (r, _) =>
      if e.badFills.contains e.launched then s.doHalt a .malformed
      else
        let pref := ((x.sectOf r).map (·.opPref)).getD 6
        let point := min pref x.opCeil
        let book := s.openBook a (s.fieldTick a) point (min (((x.sectOf r).map (·.floor)).getD 0) (opQuota point))
        let s := s.updExec a fun e =>
          { e with launched := e.launched + 1, books := e.books.put e.launched book, windowWrites := []
                   outOfStep := e.outOfStep || s.bell.outOfStep
                   deadlock := false }
        let s := (s.allot a).parishList.foldl (fun (s : State) (p : Fin 78) => s.updParish p fun y =>
          { y with launchCap := y.issueCap, opOfs := opOffset point, ballast := 0 }) s
        s.firstGrant a

/-- Launches every filled run whose launch tick has come, in order (R147). -/
def State.launchDue (s : State) (a t : Nat) : Nat → State
  | 0 => s
  | fuel + 1 =>
    let x := s.allot a
    match x.exec with
    | none => s
    | some e =>
      match e.fills[e.launched]? with
      | none => s
      | some (r, _) => if x.launchTick e r ≤ t then (s.launchRun a).launchDue a t fuel else s

/-- The loader starts on the next run's banks; the run takes the colour counter's value, which advances (R148, R158). A run whose
launch tick has passed launches as its fill begins (R79). -/
def State.fillNext (s : State) (a : Nat) : State :=
  let x := s.allot a
  match x.prog, x.exec with
  | some g, some e =>
    match e.nextRun g with
    | none => s
    | some r =>
      if x.st = .running ∧ e.mayFill then
        let s := s.setAllot a
          { x with colour := x.colour + 1, exec := some { e with fills := e.fills ++ [(r, x.colour)] } }
        s.launchDue a (s.fieldTick a) 1
      else s
  | _, _ => s

/-! ### Ends (R150, R160, R264, R306, R463) -/

/-- A tally that differs from its start value at a run's end (R264): the run is charged; the first 64 of a run are
reported. -/
def State.imbalance (s : State) (a i : Nat) (r : RunId) (lvl idx start now : Nat) : State :=
  if start = now then s
  else
    match (s.allot a).exec with
    | none => s
    | some e =>
      let k : RunBook := Tab.get {} e.books i
      let s := s.updExec a fun e =>
        { e.charge r with books := e.books.put i { k with imbalances := k.imbalances + 1 } }
      if k.imbalances ≥ 64 then s
      else s.raiseA evTallyImbalance a
        [(lvl, 1), (idx, 2), (start, 4), (now, 4), ((s.allot a).secseqOf (some r), 4), (r.num, 1)]

/-- The parish and hub tallies of an allotment against their values at the run's launch (R264). -/
def State.balance (s : State) (a i : Nat) (r : RunId) (k : RunBook) : State :=
  let x := s.allot a
  let s := x.parishList.foldl (fun (s : State) (p : Fin 78) =>
    let st := k.parishStart.get [] p
    let now := (s.parish p).tallies
    (List.range 256).foldl (fun s j => s.imbalance a i r 1 j (Tab.get 0 st j).toNat (Tab.get 0 now j).toNat) s) s
  (List.range x.hubCount).foldl (fun s j =>
    let j := x.hubBase + j
    s.imbalance a i r 2 j (k.hubStart.get 0 j).toNat (s.hub.get 0 j).toNat) s

/-- When a run ends, the expected values are subtracted from its completion records, which may saturate again (R306). -/
def State.settleRx (s : State) (a : Nat) (r : RunId) : State :=
  let x := s.allot a
  match x.sectOf r with
  | none => s
  | some t => t.compl.foldl (fun s c =>
    match s.rxOf x.tag c.1 with
    | some (j, y) => { s with rxs := s.rxs.put j { y with count := y.count - c.2, saturated := y.saturated && decide (c.2 = 0) } }
    | none => s) s

/-- The run at place `i` ends: its deferral is over (R381, R402), counts settled, tallies compared, a late swap reported with
its largest delay (a free value), its poison observed, its signature due (R150, R160, R171, R264, R306, R463). -/
def State.endRun (s : State) (a i : Nat) (r : RunId) : State :=
  let s := ((s.deferEnds a).updExec a fun e => { e with ended := e.ended + 1 }).settleRx a r
  match (s.allot a).exec with
  | none => s
  | some e =>
    let k : RunBook := Tab.get {} e.books i
    let s := s.balance a i r k
    let s := s.reportLate a i
    let grown := bits (s.reg (0x60080 + 8 * a)) 0 48 - k.poisonAt
    if grown > 0 then
      let s := s.updExec a fun e => e.charge r
      s.observe a true (poisonRecord 0xFFFFFFFF 2 0 0 ((s.allot a).secseqOf (some r)) r.num (min grown 0xFFFFFFFF) 0)
    else if ((s.allot a).sectOf r).any (·.recheck) then s.updExec a fun e => { e with sigDue := e.sigDue ++ [i] }
    else s

/-- Ends the runs whose conditions hold, in order (R248). -/
def State.endDue (s : State) (a : Nat) : Nat → State
  | 0 => s
  | fuel + 1 =>
    match (s.allot a).exec with
    | none => s
    | some e =>
      match e.curRun with
      | none => s
      | some r => if s.mayEnd a e.ended r then (s.endRun a e.ended r).endDue a fuel else s

/-- END_RETIRE: END retires, and the core's tallies are compared with their values at the swap (R48, R264). -/
def execEndRetire (p : Pos) (s : State) : Host.Outcome State Fault Refusal :=
  let c := s.core p
  .next (if !c.mayRetire ∨ s.frozen p then s
    else
      let s := s.retire p { c with mode := .retired }
      match s.allotOf p.parish with
      | none => s
      | some a =>
        let i := c.swapped - 1
        match (s.allot a).exec.bind fun e => e.fills[i]? with
        | none => s
        | some (r, _) => (List.range 16).foldl (fun s j =>
            s.imbalance a i r 0 j ((c.tstart.toList[j]?).getD 0).toNat ((c.t.toList[j]?).getD 0).toNat) s)

/-! ### Deadlines (R163) -/

/-- SECTION_OVERRUN of the run at place `i`, once, at its deadline tick; the parishes probe for lost cores (R163,
R83). -/
def State.overrunAt (s : State) (a i t : Nat) (r : RunId) : State :=
  let x := s.allot a
  match x.exec with
  | none => s
  | some e =>
    if e.overran.contains r ∨ t < x.deadlineTick e r then s
    else
      let un := s.unmet a r
      let s := s.updAllot a fun x => { x with probing := true }
      let s := s.updExec a fun e => { e with overrun := true, overran := r :: e.overran }
      s.raiseA evSectionOverrun a
        [(x.secseqOf (some r), 4), (r.num, 1), (s.coresNotEnd a i, 4), (un.length, 1), ((un.map (2 ^ ·)).sum, 2)]

/-- The deadline check of a run: its overrun at the deadline, and the halt when its grace expires (R163). -/
def State.deadlineCheck (s : State) (a i t : Nat) (r : RunId) : State :=
  let s := s.overrunAt a i t r
  let x := s.allot a
  match x.exec with
  | none => s
  | some e => if t ≥ x.deadlineTick e r + x.graceOf r then (s.chargeRun a (some r)).doHalt a .fault else s

/-- The deadline checks at a tick of every run that has not ended, launched or not. -/
def State.deadlineChecks (s : State) (a t : Nat) : State :=
  match (s.allot a).exec with
  | none => s
  | some e => ((s.allot a).unended e).foldl (fun s r => s.deadlineCheck a r.1 t r.2) s

/-- SECTION_OVERRUN: a run has not ended by its deadline tick (R163). -/
def execSectionOverrun (a : Fin 16) (s : State) : Host.Outcome State Fault Refusal :=
  .next (if (s.allot a).st = .running then
    match (s.allot a).exec with
    | none => s
    | some e => ((s.allot a).unended e).foldl (fun s r => s.overrunAt a r.1 (s.fieldTick a) r.2) s
  else s)

/-- GRACE_EXPIRY: a run has not ended by its deadline and OVERRUN_GRACE, and the allotment halts (R163). -/
def execGraceExpiry (a : Fin 16) (s : State) : Host.Outcome State Fault Refusal :=
  .next (if (s.allot a).st = .running then s.deadlineChecks a (s.fieldTick a) else s)

/-- CORE_LOST: a core that its parish probes has not answered within 2 microseconds; its site is struck and soft-dead,
and the allotment halts at the next tick (R83, R466, R469). DESIGN CHOICE (log entry 105): any live core of an allotment
that probes may be one on the stalled circuit. -/
def execCoreLost (p : Pos) (s : State) : Host.Outcome State Fault Refusal :=
  .next (match s.allotOf p.parish with
    | none => s
    | some a =>
      if (s.allot a).probing ∧ s.alive p ∧ !(s.core p).dead then
        let s := s.updCore p fun c => { c with dead := true }
        ((s.raiseA evCoreLost a [(p.id, 4)]).strikeSite p true).failRun a
      else s)

/-! ### Stretches and suspect ticks (R251 to R255) -/

/-- Whether a request qualifies for a deadline tick of a tag: its issue tick lies before the cutoff (R255). -/
def Bell.qualifies (b : Bell) (tag td : Nat) (q : StretchReq) : Bool :=
  decide (q.tag = tag ∧ q.td = td ∧ q.ti + b.guardG < td)

/-- The largest extension among the requests that qualify (R255). -/
def Bell.bestK (b : Bell) (tag td : Nat) : Nat :=
  ((b.requests.filter (b.qualifies tag td)).map (·.k)).foldl max 0

/-- A deadline is stretched by `k`, with every later tick of the program (R255); the deficit of a live run with that deadline, by
its place, falls, and its new need is judged afresh (R382). -/
def State.stretchRun (s : State) (a td k counted : Nat) (live : List Nat) : State :=
  let x := s.allot a
  let s := (s.bump (0x30000 + 0x20)).bump (0x30000 + 0x28) k
  let b := match s.lead a with
    | some p => s.beatsOf p
    | none => 0
  let s := s.updExec a fun e =>
    live.foldl (fun e i => e.updBook i fun y => { y with deficit := y.deficit - k * y.floor * b, lastK := 0 })
      { e with stretches := e.stretches ++ [(td, k)] }
  s.raiseA evBellStretch a [(0, 1), (x.tag, 1), (td, 8), (k, 2), (counted, 4), (b2n s.bell.outOfStep, 1)]

/-- The stretch agreed for a deadline that falls on this tick, of a run that has ended or not (R248 step 1, R255). -/
def State.applyStretch (s : State) (a t : Nat) : State :=
  let x := s.allot a
  match x.exec with
  | none => s
  | some e =>
    let now (r : RunId) : Bool := decide (x.deadlineTick e r = t)
    if (e.fills.take e.ended).any (fun f => now f.1) || (x.unended e).any (fun r => now r.2) then
      let k := s.bell.bestK x.tag t
      let n := (s.bell.requests.filter (s.bell.qualifies x.tag t)).length
      let s := if k = 0 then s else s.stretchRun a t k n (e.live.filter fun i => (e.fills[i]?).any fun f => now f.1)
      { s with bell := { s.bell with requests := s.bell.requests.filter fun q => !(decide (q.tag = x.tag ∧ q.td = t)) } }
    else s

/-- Whether an allotment has a launch, a deadline or a run end on a tick (R251). -/
def State.actsAt (s : State) (a t : Nat) : Bool :=
  let x := s.allot a
  match x.exec with
  | none => false
  | some e =>
    (x.unended e).any (fun r => decide (x.launchTick e r.2 = t ∨ x.deadlineTick e r.2 = t)) ||
      (e.fills.take e.ended).any (fun f => decide (x.deadlineTick e f.1 = t)) ||
      (match e.curRun with
       | some r => s.mayEnd a e.ended r
       | none => false)

/-- Whether an allotment acts on a tick that it has still to act on, or did when it acted on it (R251). -/
def State.actedAt (s : State) (a t : Nat) : Bool :=
  let x := s.allot a
  if x.acted < t then s.actsAt a t else decide (x.acted = t) && x.actedOn

/-- BELL_SUSPECT_TICK to an allotment that acts on the tick (R251). -/
def State.suspectFor (s : State) (a t cause : Nat) (par : Nat) : State :=
  if s.actedAt a t then
    (s.updExec a fun e => { e with suspect := true }).raiseA evBellSuspectTick a [(t, 8), (cause, 1), (par, 1)]
  else s

/-! ### The watchman (R272 to R274) -/

/-- Whether external work is outstanding in a parish: a well or fabric request, a halted channel, a BELLWAIT whose tick has
not come, a transfer the run still expects (R272). -/
def State.external (s : State) (par : Nat) : Bool :=
  s.reqs.any (fun e => decide (e.2.core.parish.val = par)) ||
    (s.listed fun p => decide (p = par)).any (fun p =>
      let c := s.core p
      c.load.halted || c.store.halted ||
        (match c.wait with
         | .bell t => !bellReached (s.parish par).bell t
         | _ => false)) ||
    (match s.allotOf par with
     | some a =>
       (match (s.allot a).curRun with
        | some r => !(s.unmet a r).isEmpty
        | none => false)
     | none => false)

/-- The ports on which a crossroads' slot waits for a token (bits 0 to 4) and for a receiver (bits 5 to 9) (R274). -/
def State.portWaits (s : State) (p : Pos) : Nat :=
  let x := s.xroad p
  let e := (s.core p).slot x.slot
  if !s.meshRuns p then 0
  else
    let have' (code : Nat) : Bool := ((s.inbound p e code).2).isSome
    let open' := (List.range 5).filter fun o =>
      decide (1 ≤ e.source o ∧ e.source o ≤ 6) && decide ((x.moved.toList[o]?).getD 0 < e.len)
    let need := open'.flatMap fun o =>
      if e.source o = 6 then (if x.sumOut.isEmpty then [e.suma, e.sumb].filter (· ≠ 0) else []) else [e.source o]
    let tok (o : Nat) : Option Token := if e.source o = 6 then x.sumOut.head? else (s.inbound p e (e.source o)).2
    let inW := (List.range 5).filter fun i => need.contains (i + 1) && !have' (i + 1)
    let outW := open'.filter fun o =>
      match tok o with
      | some t => (s.deliverToken p e o t false).isNone
      | none => false
    (inW.map (2 ^ ·)).sum + 32 * (outW.map (2 ^ ·)).sum

/-- Bytes of a snapshot entry's queues (R274). -/
def Core.inqByte (c : Core) (q : Nat) : Nat :=
  let l := (c.inq.toList[q]?).getD []
  l.length + 32 * b2n ((l.head?).any (·.void)) + 64 * b2n ((l.head?).any (·.last)) + 128 * b2n (decide ((c.region q).2 > 0))

/-- The reason code of a snapshot entry (R274); a wait the list does not name carries a free value. -/
def Core.snapReason (c : Core) (v : Nat) : Nat :=
  match c.wait with
  | .pop _ _ _ => 1
  | .push _ _ _ => 2
  | .tally _ _ => 3
  | .answer _ _ _ => 3
  | .matrixFull _ => 4
  | .carterFull _ _ => 5
  | .none => if c.mode = .ended ∨ c.mode = .retired then 6 else 0
  | _ => v % 16

/-- The tally a core waits for (R274): level, index, count. -/
def Core.snapTally (c : Core) : Option (Nat × Nat × Nat) :=
  match c.wait with
  | .tally _ f => some (f.lvl.toNat, f.idx.toNat, if f.one = 1 then 1 else (c.sreg f.rs).toNat)
  | .answer _ f _ => some (f.lvl.toNat, f.idx.toNat, if f.one = 1 then 1 else (c.sreg f.rs).toNat)
  | _ => none

/-- The snapshot entry of a position, where it has one (R274). -/
def State.snapEntry (s : State) (p : Pos) : Option (List Byte) :=
  let c := s.core p
  let w := s.portWaits p
  let queues := c.inq.toList.any (!·.isEmpty) || c.outq.toList.any (!·.isEmpty) || c.spill.toList.any (fun r => decide (r.2 > 0))
  if c.wait = .none ∧ !queues ∧ w = 0 then none
  else
    let t := c.snapTally
    let tv := match t with
      | some (l, i, _) => s.tally { lvl := l, core := p, idx := i }
      | none => 0
    let tw := match t with
      | some (l, i, _) => l + 4 * i
      | none => 0
    let tn := match t with
      | some (_, _, n) => n
      | none => 0
    some (leBytes 4 (p.id + 2 ^ 20 * c.snapReason (bits s.draw 0 4) + 2 ^ 24 * (s.xroad p).slot) ++ leBytes 2 c.pc ++ leBytes 2 0
      ++ (List.range 4).map (fun q => BitVec.ofNat 8 (c.inqByte q))
      ++ (List.range 4).map (fun q => BitVec.ofNat 8 ((c.outq.toList[q]?).getD []).length)
      ++ leBytes 2 w ++ leBytes 2 tw ++ leBytes 4 tn ++ leBytes 4 tv ++ leBytes 4 0)

/-- The entries of an allotment's snapshot: in parish order, then by row, then by column (R274). -/
def State.snapEntries (s : State) (a : Nat) : List (List Byte) :=
  (s.allot a).parishList.flatMap fun par => (List.finRange 96).flatMap fun r => (List.finRange 80).filterMap fun c =>
    s.snapEntry { parish := par, col := c, row := r }

/-- The watch window in ticks (R273). -/
def State.watchTicks (s : State) : Nat := max 2 (s.nsTicks (1000 * bits (s.reg (0x30000 + 0x48)) 0 10))

/-- The snapshot header (R274). -/
def snapHeader (a : Nat) (colour : BitVec 2) (secseq run : Nat) (truncated : Bool) (entries tick window : Nat) : List Byte :=
  leBytes 2 1 ++ leBytes 1 a ++ leBytes 1 colour.toNat ++ leBytes 4 secseq ++ leBytes 1 run ++ leBytes 1 (b2n truncated)
    ++ leBytes 2 0 ++ leBytes 4 entries ++ leBytes 8 tick ++ leBytes 4 window ++ leBytes 36 0

/-- Writes bytes at an address of either view of local memory. -/
def State.viewWrite (s : State) (dpa : Nat) (l : List Byte) (al : Option Nat) : State :=
  match s.viewDpa dpa with
  | some d => s.dpaWrite d l al
  | none => s

/-- Whether every parish of an allotment has been quiet for W_t ticks, and nothing external is outstanding in one (R272,
R273). -/
def State.allQuiet (s : State) (a : Nat) : Bool :=
  (s.allot a).parishList.all fun p => decide (s.watchTicks ≤ (s.parish p).quiet) && !s.external p.val

/-- DEADLOCK of an allotment all of whose parishes have been quiet for W_t ticks; once per run. The watchmen probe for lost
cores and write their entries to the region named at ALLOT; nothing halts (R272 to R274). -/
def State.deadlock (s : State) (a : Nat) : State :=
  let x := s.allot a
  match x.exec, x.curRun with
  | some e, some r =>
    if x.st ≠ .running ∨ e.deadlock ∨ !s.allQuiet a then s
    else
      let all := s.snapEntries a
      let room := (x.snapLen - 64) / 32
      let l := if x.snapLen < 64 then [] else all.take room
      let cut := decide (x.snapLen ≥ 64) && decide (l.length < all.length)
      let t := s.fieldTick a
      let s := s.drawn
      let hdr := snapHeader a (((e.fills[e.ended]?).map (·.2)).getD 0) (x.secseqOf (some r)) r.num cut l.length t s.watchTicks
      let s := if x.snapLen < 64 then s
        else (s.viewWrite (x.snapDpa + 64) l.flatten (some a)).updAllot a fun x => { x with snap := some hdr }
      let s := s.updAllot a fun x => { x with probing := true }
      let s := s.updExec a fun e => { e with deadlock := true, deadlockTick := t }
      s.raiseA evDeadlock a [(x.secseqOf (some r), 4), (r.num, 1), (t, 8), (l.length, 4), (b2n cut, 1),
        (if x.snapLen < 64 then 0 else x.snapDpa, 8)]
  | _, _ => s

/-! ### The wave (R247, R248) -/

/-- The grant applied to a parish over the tick that ends with tick `t`'s wave, in quota nanoseconds: settled where that wave has
reached it (R382). -/
def State.gTick (s : State) (t : Nat) (p : Fin 78) : Nat :=
  let x := s.parish p
  if x.bell.toNat = t then x.gPast else x.gOver (s.ticksNs 1)

/-- The deficit of each live run changes by a tick of its most deficient parish, the grant taken over the whole tick (R382); kept
in 1/256 beats. -/
def State.accrue (s : State) (a t : Nat) : State :=
  let ns := s.ticksNs 1
  s.updExec a fun e => e.live.foldl (fun e i => e.updBook i fun y =>
    let l := (s.allot a).parishList.map fun p =>
      ((y.floor * ns : Nat) - (s.gTick t p : Int)) * (s.beatsOf p : Int) / (ns : Int)
    { y with deficit := ((y.deficit : Int) + l.foldl max ((l.head?).getD 0)).toNat }) e

/-- What an allotment does at a tick, in the order of R248: stretch, ends, deadline checks and pending halts,
launches; a deadlock detected on the tick goes before the deadline checks (R276). -/
def State.allotTick (s : State) (a t : Nat) : State :=
  if (s.allot a).st ≠ .running then s
  else
    let s := (s.accrue a t).applyStretch a t
    let s := s.endDue a 65536
    let s := (s.deadlock a).deadlineChecks a t
    let s := match (s.allot a).haltAt with
      | some w => s.doHalt a w
      | none => s
    if (s.allot a).st = .running then s.launchDue a t 65536 else s

/-- The BELLWAIT instructions of a parish whose tick has come (R248 step 5). -/
def State.releaseBellwaits (s : State) (par : Fin 78) : State :=
  let b := (s.parish par).bell
  (s.listed fun p => decide (p = par.val)).foldl (fun s p =>
    if s.frozen p then s else s.updCore p fun c => c.bellRelease b) s

/-- The parish's counter as a wave leaves it: one more, unchanged for a second copy, or the bell unit's count where the
wave disagrees (R247). -/
def waveCount (bell unit : DWord) (low : BitVec 8) : DWord × Bool :=
  if (bell + 1).setWidth 8 = low then (bell + 1, false)
  else if bell.setWidth 8 = low then (bell, false)
  else (unit, true)

/-- The parishes are judged quiet or not for the tick (R272). -/
def State.judgeQuiet (s : State) (l : List (Fin 78)) : State :=
  let t := l.foldl (fun (t : State) (p : Fin 78) => t.updParish p fun x =>
    { x with quiet := if s.stirred.contains p.val || s.external p.val then 0 else x.quiet + 1 }) s
  { t with stirred := s.stirred.filter fun p => !l.any fun q => decide (q.val = p) }

/-- Whether the wave of a tick will find the counter of a parish of an allotment in disagreement (R247). -/
def State.disagrees (s : State) (a t : Nat) : Bool :=
  (s.allot a).parishList.any fun p =>
    let x := s.parish p
    x.hears && decide (x.bell.toNat ≠ t ∧ x.bell.toNat + 1 ≠ t)

/-- An allotment acts on a tick, once, as the first wave of the tick reaches a parish of it (R248, R251). A completion of the tick
is SUSPECT too where a later wave of it is to find a counter in disagreement. -/
def State.allotActs (s : State) (a t : Nat) : State :=
  let s := if s.bell.forced.contains t then s.suspectFor a t 0 0 else s
  let on := s.actsAt a t
  let s := if on && s.disagrees a t then s.updExec a fun e => { e with suspect := true } else s
  let s := s.updAllot a fun x => { x with acted := t, actedOn := on }
  (s.judgeQuiet (s.allot a).parishList).allotTick a t

/-- A new tick's allowance of matrix rows: what was unused does not carry over, and held rows go on (R374). -/
def State.newAllowance (s : State) (par : Fin 78) : State :=
  (s.listed fun p => decide (p = par.val)).foldl
    (fun s p => (s.updCore p fun c => { c with rowBeats := 0 }).issueRows p) s

/-- A tick's wave reaches a parish (R247, R248, R251): its counter advances, or is loaded anew and the tick is suspect; grants
computed since apply (R373) and the cores have a new allowance of matrix rows (R374); its allotment acts where it has not yet;
BELLWAITs are released. A wave that needs a lost sector is held until the crier's tables are loaded (R269). -/
def State.bellWave (s : State) (par : Fin 78) (low : BitVec 8) : State :=
  let x := s.parish par
  let n := waveCount x.bell s.bell.count low
  if !x.hears ∨ !(s.planeOpen par 0 false || s.planeOpen par 1 false) ∨ (n.1 = x.bell ∧ !n.2) then s
    else
      let x' := { x with bell := n.1, grant := x.nextGrant, gPast := x.gOver (s.ticksNs 1), gSum := 0, gSince := 0 }
      let s := (s.setParish par x').newAllowance par
      let s := if x.throttle < 256 then s.bump (parishBase par + 0x4030) else s
      let t := n.1.toNat
      let s := if n.2 then s.countSuspect t else s
      match s.allotOf par with
      | none => (s.judgeQuiet [par]).releaseBellwaits par
      | some a =>
        let s := if n.2 then s.suspectFor a t 1 par else s
        let s := if (s.allot a).acted < t then s.allotActs a t else s
        s.releaseBellwaits par

/-- The reserved stripe's first byte: the ledger mirror (R446). -/
def State.mirrorBase (s : State) : Nat := 4095 * s.stripe

/-- The changed entries of the ledger are copied to the mirror (R343), by the tick after the change (log entry 51); one whose
stack does not answer waits. -/
def State.mirror (s : State) : State :=
  if s.nSet = 0 then s
  else
    let up (i : Nat) : Bool := s.rangeUp (s.mirrorBase + 64 * i) 64
    let s' := s.ledger.dirty.foldl (fun s i => s.dpaWrite (s.mirrorBase + 64 * i) ((s.ledger.entries.get {} i).bytes)) s
    { s' with ledger := { s'.ledger with dirty := s.ledger.dirty.filter fun i => !up i } }

/-- The time-of-day counter moves on with REF by a tick's nanoseconds, up to the end of its second, which TAI_SECOND passes
(R326; log entry 117). -/
def Tod.ticked (t : Tod) (ns : Nat) : Tod := { t with ns := BitVec.ofNat 30 (min 999999999 (t.ns.toNat + ns)) }

/-- BELL_TICK: the bell unit advances its counter and sends the tick's wave; a short pulse marks the tick suspect
(R245, R246, R251); the ledger's changes reach their mirror (R343), and events held back in a millisecond that is over are
raised (R337, R424). -/
def execBellTick (shortPulse : Bool) (s : State) : Host.Outcome State Fault Refusal :=
  .next (if !s.pins.pwrGood ∨ !s.pins.resetN then s
    else
      let c := s.bell.count + 1
      let s := { s with bell := { s.bell with count := c }, tod := s.tod.ticked (s.ticksNs 1) }.mirror.raiseHeldBack
      if shortPulse then s.forceSuspect c.toNat else s)

/-! ### Quiescence (R151, R166, R167) -/

/-- The tokens in the region of an input queue, head first. -/
def Core.regionTokens (c : Core) (q : Nat) : List Token :=
  let cfg := c.inCfg q
  let r := c.region q
  if qRegionSize cfg = 0 then [] else (List.range r.2).map fun i => c.spilledAt cfg ((r.1 + i) % qRegionSize cfg)

/-- A region holding exactly the given tokens. -/
def Core.setRegion (c : Core) (q : Nat) (l : List Token) : Core :=
  let c' := (l.zipIdx).foldl (fun (k : Core) e => k.spillAt (c.inCfg q) e.2 e.1) c
  { c' with spill := c'.spill.setIfInBounds q (0, l.length) }

/-- A position without its tokens of a colour. -/
def Core.without (k : Core) (c : BitVec 2) : Core :=
  let k' := (List.range 4).foldl (fun (k : Core) q =>
    if (k.regionTokens q).any (fun t => t.colour = c) then k.setRegion q ((k.regionTokens q).filter fun t => t.colour ≠ c)
    else k) k
  { k' with
      inq := k.inq.map (·.filter fun t => t.colour ≠ c), outq := k.outq.map (·.filter fun t => t.colour ≠ c)
      hold := k.hold.filter fun h => h.2.colour ≠ c }

/-- The tokens of a colour left at a position, each with the queue code of R167; one held as early lies in the Core-port
latch. -/
def State.leftAt (s : State) (c : BitVec 2) (p : Pos) : List (Nat × Token) :=
  let k := s.core p
  let y := s.xroad p
  let inq := (List.range 4).flatMap fun q => (((k.inq.toList[q]?).getD []) ++ k.regionTokens q).map fun t => (q, t)
  let outq := (List.range 4).flatMap fun q => ((k.outq.toList[q]?).getD []).map fun t => (4 + q, t)
  let lat := (List.range 5).flatMap fun d => ((y.latch.toList[d]?).getD none).toList.map fun t => (0x11 + d, t)
  (inq ++ k.hold.toList.map (fun (h : Nat × Token) => (0x15, h.2)) ++ outq ++ lat).filter fun e => e.2.colour = c

/-- What is left of the final colour at a position is residue (R151, R167). -/
def State.quietPosition (s : State) (c : BitVec 2) (p : Pos) : State :=
  let gone := s.leftAt c p
  if gone.isEmpty then s
  else
    let y := s.xroad p
    let s := (s.setCore p ((s.core p).without c)).setXroad p { y with latch := y.latch.map fun o => o.filter fun t => t.colour ≠ c }
    gone.foldl (fun s g => s.discardToken p g.1 g.2) s

/-- After the last run has ended, what is left of its colour is residue, and the RUN completes OK;
a halt by a fault already due goes before (R151, R353, R464). HALT commands that waited find it LOADED (R354). -/
def State.quiesce (s : State) (a : Nat) : State :=
  let x := s.allot a
  if x.st ≠ .running ∨ !x.quiescing ∨ x.haltAt = some .fault then s
    else
      let c : BitVec 2 := match x.exec.bind fun e => e.fills.getLast? with
        | some f => f.2
        | none => 0
      let s := (s.listed fun p => bit x.parishes p).foldl (fun s p => s.quietPosition c p) s
      (s.completeRun a 0 0 false none).finishHalts a false

/-! ### Recheck (R171 to R174) -/

/-- CRC-64/ECMA-182 of a byte stream (R171): no reflection, initial value zero, no final exclusive or. -/
def crc64Step (crc : DWord) (b : Byte) : DWord :=
  (List.range 8).foldl (fun c _ => if c.msb then (c <<< 1) ^^^ 0x42F0E1EBA9EA3693#64 else c <<< 1)
    (crc ^^^ (b.setWidth 64 <<< 56))

def crc64 (l : List Byte) : DWord := l.foldl crc64Step 0

/-- The bytes of a device address as the signature engine reads them; a byte no stack answers for is a free value. -/
def State.sigByte (s : State) (dpa : Nat) : Byte :=
  match s.viewDpa dpa with
  | some d => if s.stackUp (s.memKey d / 2 ^ 36) then s.memByte (s.memKey d) else Config.lostByte s.fresh dpa
  | none => Config.lostByte s.fresh dpa

/-- The words of a region, as the first address of each in the region and its key. -/
def State.regionWords (s : State) (r : Nat × Nat) : List (Nat × Nat) :=
  if r.2 = 0 then []
  else ((List.range ((r.1 + r.2 - 1) / 8 - r.1 / 8 + 1)).map fun i => max r.1 (8 * (r.1 / 8 + i))).filterMap fun d =>
    (s.viewDpa d).map fun k => (d, s.memKey k / 8)

/-- RECHECK_MISMATCH with the signatures computed so far (R173). -/
def State.mismatch (s : State) (a : Nat) (r : RunId) (sigs : List DWord) (decision : Nat) : State :=
  let s := (s.bump 0x60048).updExec a fun e => { e with mismatch := true }
  s.raiseA evRecheckMismatch a
    ([((s.allot a).secseqOf (some r), 4)] ++ (sigs.map fun g => (g.toNat, 8)) ++ [(decision, 1)])

/-- Every run of a section is invalid (R173). -/
def State.chargeSection (s : State) (a sect : Nat) : State :=
  s.updExec a fun e => e.fills.foldl (fun e f => if f.1.sect = sect then e.charge f.1 else e) e

/-- What a signature decides (R173): the first is kept; the second is compared; a third settles the section. DESIGN CHOICE
(log entry 90): with THIRD_RUN set RECHECK_MISMATCH is raised at the second signature, UNDECIDED, and again at the third. -/
def State.settleSig (s : State) (a : Nat) (r : RunId) (third : Bool) (g : DWord) : State :=
  match (s.allot a).exec with
  | none => s
  | some e =>
    if r.num = 1 then s.updExec a fun e => { e with sigs := [g] }
    else if r.num = 2 then
      let g1 := e.sigs.headD 0
      let s := s.bump 0x60040
      if g1 = g then s.updExec a fun e => { e with sigs := [] }
      else if third then (s.updExec a fun e => { e with sigs := [g1, g] }).mismatch a r [g1, g] 2
      else ((s.updExec a fun e => { e with sigs := [] }).mismatch a r [g1, g] 1).chargeSection a r.sect
    else
      let ok := e.sigs.contains g
      let s := (s.updExec a fun e => { e with sigs := [] }).mismatch a r (e.sigs ++ [g]) (if ok then 0 else 1)
      if ok then s else s.chargeSection a r.sect

/-- The signature engine's reads of a run's output regions, as far as rows, errors and bounds go (R194, R196, R198). -/
def State.regionReads (s : State) (a : Nat) (regions : List (Nat × Nat)) (slow : List (Fin 64 × Nat)) : State :=
  regions.foldl (fun (s : State) g =>
    match s.viewDpa g.1 with
    | some d => s.noteSlow (s.readRange 6 0xFFFFFFFF (some a) d g.2) (some a) slow
    | none => s) s

/-- SIGNATURE_COMPARE: the engine has read a recheck run's output regions in list order; a poisoned byte is an
observation point and the section's runs are not compared, else the signature decides (R171, R173, R174). Where the controllers
took longest stands in the operand (R196). -/
def execSignatureCompare (a : Slowed (Fin 16)) (s : State) : Host.Outcome State Fault Refusal :=
  let slow := a.slow
  let a := a.val
  let x := s.allot a
  .next (match x.exec with
    | none => s
    | some e =>
      match e.sigDue with
      | [] => s
      | i :: rest =>
        match e.fills[i]? with
        | none => s
        | some (r, _) =>
          match x.sectOf r with
          | none => s
          | some t =>
            let regions := t.outs.map fun o => (if r.num = 2 then o.2.1 else o.1, o.2.2)
            let words := regions.flatMap s.regionWords
            let s := (s.updExec a fun e => { e with sigDue := rest }).regionReads a regions slow
            match words.find? fun w => s.wordPoison w.2 with
            | some w =>
              let again (e : Exec) (i : Nat) : Bool := (e.fills[i]?).any fun f => decide (f.1.sect = r.sect)
              (s.updExec a fun e => { e.charge r with sigs := [], sigDue := e.sigDue.filter fun i => !again e i }).observe a true
                (poisonRecord 0xFFFFFFFF 1 0 0 (x.secseqOf (some r)) r.num 1 w.1)
            | none =>
              let l := regions.flatMap fun g => (List.range g.2).map fun j => s.sigByte (g.1 + j)
              (s.settleSig a r t.third (crc64 l)).drawn)

/-! ### Riser calibration, crier planes (R247, R268, R269) -/

/-- RISER_CALIBRATION: the delays of a parish's risers are measured again (R247, R277, R278). -/
def execRiserCalibration (par : Fin 78) (dA dB skew : Half) (s : State) : Host.Outcome State Fault Refusal :=
  .next (if (s.parish par).hears then
    let s := s.setReg (parishBase par + 0x3818) (BitVec.ofNat 64 (dA.toNat + 2 ^ 16 * dB.toNat))
    { s.setReg (0x30000 + 0x60) (skew.setWidth 64) with bell := { s.bell with calibrated := true } }
  else s)

/-- A parish loses a crier plane; one that has lost both is isolated: its allotment halts, and it is unusable until the
next warm restart (R268). -/
def State.losePlane (s : State) (par : Nat) (plane : BitVec 1) : State :=
  let x := s.parish par
  let x := if plane = 0 then { x with planeA := false } else { x with planeB := false }
  let s := s.setParish par x
  if x.planeA ∨ x.planeB ∨ x.isolated then s
  else
    let a := s.allotOf par
    let s := s.setParish par { x with isolated := true }
    let s := s.raise evCrierIsolated a [(par, 1)] ((a.map Dest.allot).toList)
    (s.haltParish par).degrade 0

/-- The risers that reach a lost sector are lost with it, and so is their plane in each parish (R268, R269). -/
def State.loseRisers (s : State) (lost : Nat → Bool) : State :=
  (List.range 78).foldl (fun (s : State) p =>
    let s := if lost (riserSector p 0) then s.losePlane p 0 else s
    if lost (riserSector p 1) then s.losePlane p 1 else s) s

/-- CRIER_PLANE_DOWN: a link or node of one plane fails; with a hub sector's node go the risers that reach it (R267,
R268, R269). -/
def execCrierPlaneDown (plane : BitVec 1) (sector : Bool) (unit : Fin 78) (link : Half) (s : State) :
    Host.Outcome State Fault Refusal :=
  let s1 := s.raise evCrierPlaneDown none [(plane.toNat, 1), (b2n sector, 1), (unit, 1), (link.toNat, 2)] []
  .next (if sector then
    ((List.range 78).filter fun p => decide (riserSector p plane = unit.val) && decide (link.toNat / 256 % 8 = 5)).foldl
      (fun s p => s.losePlane p plane) s1
  else s1.losePlane unit plane)

/-! ### The watchman's commands (R273, R274) -/

/-- DEADLOCK: the coordinating watchman finds every parish of the allotment quiet for W_t ticks; the tick finds it too (R273). -/
def execDeadlock (a : Fin 16) (s : State) : Host.Outcome State Fault Refusal := .next (s.deadlock a)

/-- WATCH_SNAPSHOT_DONE: the watchmen have finished and the coordinator writes the header (R274). -/
def execWatchSnapshotDone (a : Fin 16) (s : State) : Host.Outcome State Fault Refusal :=
  .next (match (s.allot a).snap with
    | none => s
    | some h => (s.viewWrite (s.allot a).snapDpa h (some a.val)).updAllot a fun x => { x with snap := none })

end Sys2Proof.Machine
end

