-- ==== Sys2Proof/Machine/Link.lean ====
section
/-! DEFINITION. The fabric's links and routing (R280 to R300, R304): packet headers, channels and credits, retry, route
lookup, dropped packets and NOTICE, groups and ports going down, training, draining. Flits are arbitrated into codewords;
a packet goes out with its last flit, and is delivered by the command of its type (log entry 20). -/

namespace Sys2Proof.Machine

/-! ### Headers (R291) -/

def pType (k : FabPkt) : Nat := bits k.hdr 0 4
def pRsp (k : FabPkt) : Bool := bit k.hdr 4
def pTc (k : FabPkt) : Nat := bits k.hdr 5 2
def pTag (k : FabPkt) : Nat := bits k.hdr 11 5
def pHops (k : FabPkt) : Nat := bits k.hdr 16 6
def pLen (k : FabPkt) : Nat := bits k.hdr 24 6
def pDst (k : FabPkt) : Nat := bits k.hdr 32 24
def pSrc (k : FabPkt) : Nat := bits k.hdr 56 24
def pTid (k : FabPkt) : Nat := bits k.hdr 80 20
def pSeq (k : FabPkt) : Nat := bits k.hdr 104 16
def pStatus (k : FabPkt) : Nat := bits k.hdr 120 4
def pAddr (k : FabPkt) : Nat := bits k.hdr 128 48
def pBytes (k : FabPkt) : Nat := if pLen k = 0 then 0 else bits k.hdr 176 11 + 1
def pPoison (k : FabPkt) : Nat := bits k.hdr 192 32
def pRtag (k : FabPkt) : Nat := bits k.hdr 240 16
/-- `n` bytes of the body from byte `o` of the header. -/
def pBody (k : FabPkt) (o n : Nat) : Nat := bits k.hdr (8 * o) (8 * n)

/-- Whether reserved bytes of a body are set: of a type without a body all of it, of TALLY_INC and LOAN what R292 and R396 leave
(R291). -/
def bodyReserved (k : FabPkt) : Bool :=
  let h := k.hdr
  match pType k with
  | 6 => decide (bits h 268 4 ≠ 0 ∨ bits h 304 208 ≠ 0)
  | 9 => decide (bits h 264 8 ≠ 0 ∨ bits h 448 64 ≠ 0)
  | t => decide (t ≤ 5) && decide (bits h 256 256 ≠ 0)

/-- Whether a packet is malformed (R291). -/
def pMalformed (k : FabPkt) : Bool :=
  let h := k.hdr
  decide (pType k = 0 ∨ pType k > 10) || bit h 7 || bit h 10 || decide (bits h 22 2 ≠ 0 ∨ bits h 30 2 ≠ 0) ||
  decide (bits h 100 4 ≠ 0 ∨ bits h 124 4 ≠ 0 ∨ bits h 187 5 ≠ 0 ∨ bits h 226 6 ≠ 0 ∨ bits h 232 8 ≠ 0) ||
  decide (pTag k ≥ 16) || decide (bits h 50 6 ≠ 0 ∨ bits h 74 6 ≠ 0) ||
  decide (pLen k > 32) || decide (pLen k ≠ k.data.length) || decide (pLen k ≠ ceilDiv (pBytes k) 64) ||
  (decide (pLen k = 0) && decide (bits h 176 11 ≠ 0)) || bodyReserved k

/-- A header of the given fields, BYTES-1 zero where it has no data (R291); the body is given as the value of bytes 32 to 63. -/
def mkHdr (typ : Nat) (rsp : Bool) (tc tag len dst src tid seq status addr bytes poison fmt rtag body : Nat) : BitVec 512 :=
  BitVec.ofNat 512 (typ % 16 + 16 * b2n rsp + 32 * (tc % 4) + 2 ^ 11 * (tag % 32) + 2 ^ 16 * 63 + 2 ^ 24 * (len % 64)
    + 2 ^ 32 * (dst % 2 ^ 24) + 2 ^ 56 * (src % 2 ^ 24) + 2 ^ 80 * (tid % 2 ^ 20) + 2 ^ 104 * (seq % 2 ^ 16)
    + 2 ^ 120 * (status % 16) + 2 ^ 128 * (addr % 2 ^ 48) + 2 ^ 176 * (if len = 0 then 0 else (bytes - 1) % 2 ^ 11) + 2 ^ 192 * (poison % 2 ^ 32)
    + 2 ^ 224 * (fmt % 4) + 2 ^ 240 * (rtag % 2 ^ 16) + 2 ^ 256 * body)

/-- The flits of a packet. -/
def pFlits (k : FabPkt) : Nat := 1 + k.data.length

/-- The packet one hop on. -/
def pHop (k : FabPkt) : FabPkt := { k with hdr := setBits k.hdr 16 6 (pHops k - 1) }

/-- Bytes of a packet's data. -/
def pData (k : FabPkt) : List Byte := (k.data.flatMap fun d => leBytes 64 d.toNat).take (pBytes k)

/-- Flits of a byte string. -/
def flitsOf (l : List Byte) : List (BitVec 512) :=
  (List.range (ceilDiv l.length 64)).map fun i => BitVec.ofNat 512 (leNat ((l.drop (64 * i)).take 64))

/-! ### Ports -/

def State.setPort (s : State) (p : Nat) (x : Port) : State := { s with ports := s.ports.put p x }

def State.updPort (s : State) (p : Nat) (f : Port → Port) : State := s.setPort p (f (s.port p))

/-- Whether a port is there: populated, with its hub sector in service and its lane block of the fuses readable (R281, R438,
R472). -/
def State.portThere (s : State) (p : Nat) : Bool :=
  portPopulated s.fuses.orderF p && s.sectorUp (portSector p) && s.railUp (optRail p) && !s.boot.fusePorts.contains p

/-- Whether route lookups use a port (R297, R290). -/
def Port.usable (x : Port) : Bool := decide (x.st = .up ∨ x.st = .degraded)

/-- A group of a port. -/
def Port.group (x : Port) (g : Nat) : Group := if g = 0 then x.g0 else x.g1

def Port.setGroup (x : Port) (g : Nat) (y : Group) : Port := if g = 0 then { x with g0 := y } else { x with g1 := y }

/-- The module's FEID (R295). -/
def State.feid (s : State) : Nat := s.boot.cfg.feid.toNat

/-- The credits of a channel (R293). -/
def Port.credit (x : Port) (ch : Nat) : Nat := x.credits.get 0 ch

/-- The channel of a class: adaptive 0 and 1, escape 2; the reduction channel is 24 (R293). -/
def chanOf (tc : Nat) (rsp : Bool) (v : Nat) : Nat := 6 * tc + 3 * b2n rsp + v

/-- Every channel's credits, full (R293, R475). -/
def fullCredits : Tab Nat := (List.range 25).map fun c => (c, Config.linkCredits c)

/-! ### Arbitration and codewords (R283, R285, R294) -/

/-- A packet waiting at a port: its channel, and the flits left. -/
abbrev Queued := Nat × FabPkt × Nat

/-- The class a queued packet competes in: its channel's, or on the reduction channel its own TC (R294). -/
def flitClass (q : Queued) : Nat := if q.1 = 24 then pTc q.2.1 else q.1 / 6

/-- The packets at the head of their channels, oldest first, of the channels that hold credits (R293). -/
def Port.heads (x : Port) (seen : List Nat) : List Queued → List Queued
  | [] => []
  | q :: t =>
    if seen.contains q.1 then x.heads seen t
    else if x.credit q.1 = 0 then x.heads (q.1 :: seen) t
    else q :: x.heads (q.1 :: seen) t

/-- The packet whose flit takes the next slot (R294): the highest class that waits, TC0 at most once in 16 flits and TC1 once
in 8 while a lower class waits, and TC3 at least once in 64. DESIGN CHOICE (log entry 20): within a class the oldest goes
first. -/
def Port.choose (x : Port) : Option Queued :=
  let hs := x.heads [] x.queued
  let waits (c : Nat) : Bool := hs.any fun q => decide (flitClass q = c)
  let below (c : Nat) : Bool := hs.any fun q => decide (flitClass q > c)
  let recent (n c : Nat) : Bool := (x.sentClasses.take n).contains c
  let capped (c : Nat) : Bool := below c && (if c = 0 then recent 15 0 else if c = 1 then recent 7 1 else false)
  let owed := waits 3 && decide (x.sentClasses.length ≥ 63) && !recent 63 3
  let c := if owed then some 3 else (List.range 4).find? fun c => waits c && !capped c
  c.bind fun c => hs.find? fun q => decide (flitClass q = c)

/-- One flit of a queued packet goes into a slot: a credit is used, and the packet leaves the queue with its last flit. -/
def Port.takeFlit (x : Port) (q : Queued) : Port × List LinkItem :=
  let y := { x with credits := x.credits.put q.1 (x.credit q.1 - 1), sentClasses := (flitClass q :: x.sentClasses).take 63 }
  if q.2.2 ≤ 1 then ({ y with queued := x.queued.erase q }, [.packet q.2.1])
  else ({ y with queued := x.queued.replace q (q.1, q.2.1, q.2.2 - 1) }, [])

/-- Fills up to `n` slots with packet flits: the port after, what ends in them, the slots filled. -/
def Port.fill (x : Port) : Nat → Port × List LinkItem × Nat
  | 0 => (x, [], 0)
  | n + 1 =>
    match x.choose with
    | none => (x, [], 0)
    | some q =>
      let r := x.takeFlit q
      let t := r.1.fill n
      (t.1, r.2 ++ t.2.1, t.2.2 + 1)

/-- The healthy group the next codeword is formed on: the one that holds fewer codewords, group 0 of two alike. DESIGN CHOICE
(log entry 20). -/
def Port.sendGroup (x : Port) : Option Nat :=
  if x.g0.ok ∧ (!x.g1.ok ∨ x.g0.held.length ≤ x.g1.held.length) then some 0 else if x.g1.ok then some 1 else none

/-- A group sends a codeword, and holds it (R285). -/
def Group.hold (y : Group) (ctrlMap : BitVec 10) (items : List LinkItem) (flits : Nat) : Group :=
  { y with held := y.held ++ [⟨y.sendSeq, ctrlMap, items, flits⟩], sendSeq := y.sendSeq + 1 }

/-- What a codeword carries, as it leaves a port. -/
def LinkItem.out (p : Nat) : LinkItem → Out
  | .packet k => .packet p k
  | .control kind args => .link p kind args

def State.sendItem (s : State) (p : Nat) (i : LinkItem) : State := s.send (i.out p)

/-- RETRY_PEAK keeps the largest occupancy a group of a port has had (R317). -/
def State.retryPeak (s : State) (p : Nat) (y : Group) : State :=
  s.setReg (portBase p + 0x58) (BitVec.ofNat 64 (max (s.reg (portBase p + 0x58)).toNat y.held.length))

/-- Codewords of a port go out again: their flits are sent once more (R285, R288, R317). -/
def State.resend (s : State) (p : Nat) (l : List Codeword) : State :=
  (l.flatMap (·.items)).foldl (fun s i => s.sendItem p i) (s.bump (portBase p + 0x48) (l.map (·.flits)).sum)

/-- Forms a port's next codeword, where a group is healthy, its half of the retry buffer has room, and something may go:
waiting control flits in the first of its ten slots, their CTRLMAP bits set, then packet flits (R283, R285, R294). -/
def State.formCodeword (s : State) (p : Nat) : Option State :=
  let x := s.port p
  match x.sendGroup with
  | none => none
  | some g =>
    if !x.carries ∨ (x.group g).held.length ≥ 1024 ∨ (x.ctrl.isEmpty ∧ x.choose.isNone) then none
    else
      let cs := x.ctrl.take 10
      let r := { x with ctrl := x.ctrl.drop 10 }.fill (10 - cs.length)
      let items := cs.map (fun c => LinkItem.control c.1 c.2) ++ r.2.1
      let y := (r.1.group g).hold (BitVec.ofNat 10 (2 ^ cs.length - 1)) items (cs.length + r.2.2)
      let s := ((s.setPort p (r.1.setGroup g y)).bump (portBase p + 0x48) (cs.length + r.2.2)).retryPeak p y
      some (items.foldl (fun s i => s.sendItem p i) s)

/-- Forms codewords while something may go. -/
def State.pumpLoop (s : State) (p : Nat) : Nat → State
  | 0 => s
  | fuel + 1 =>
    match s.formCodeword p with
    | none => s
    | some t => t.pumpLoop p fuel

/-- The REDUCE packets that waited while a port drained join its queue (R290, R309). -/
def Port.unpark (x : Port) : Port :=
  { x with queued := x.queued ++ x.parkedRed.map (fun k => (24, k, pFlits k)), parkedRed := [] }

/-- Sends what a port's queues may send (R293, R294). A draining port that holds nothing more is DISABLED (R290). -/
def State.pump (s : State) (p : Nat) : State :=
  let x := s.port p
  let s := s.pumpLoop p (x.ctrl.length + (x.queued.map (·.2.2)).sum)
  let x := s.port p
  if x.st = .draining ∧ x.queued.isEmpty ∧ x.ctrl.isEmpty ∧ x.g0.held.isEmpty ∧ x.g1.held.isEmpty then
    (s.setPort p { x.unpark with st := .disabled }).timeLane
  else s

/-- Puts a packet in the queue of a channel of a port, with its VC set (R291), and sends what may go. -/
def State.enqueue (s : State) (p ch : Nat) (k : FabPkt) : State :=
  let vc := if ch = 24 then 3 else ch % 3
  let k := { k with hdr := setBits k.hdr 8 2 vc }
  (s.updPort p fun x => { x with queued := x.queued ++ [(ch, k, pFlits k)] }).pump p

/-- A REDUCE packet leaves for a port; no new one is sent to a port that is draining, where it waits (R290, R308, R309). -/
def State.enqueueRed (s : State) (p : Nat) (k : FabPkt) : State :=
  if (s.port p).st = .draining then
    s.updPort p fun x => { x with parkedRed := x.parkedRed ++ [{ k with hdr := setBits k.hdr 8 2 3 }] }
  else s.enqueue p 24 k

/-! ### Routing (R296 to R298) -/

/-- A route entry (R296). -/
def State.route (s : State) (feid : Nat) : BitVec 128 := s.routes.get 0 feid

/-- Where a packet goes. -/
inductive Route where
  | here | out (port ch : Nat) | wait | lost
  deriving DecidableEq, Repr

/-- A channel is free for a header: no worm holds it and it has credits. -/
def Port.free (x : Port) (ch : Nat) : Bool := decide (x.credit ch > 0) && !(x.queued.any fun q => q.1 = ch)

/-- The adaptive channels a packet may take, by port and channel (R297). -/
def State.adaptive (s : State) (e : BitVec 128) (k : FabPkt) : List (Nat × Nat) :=
  ((List.range 64).filter fun p => bit e p && (s.port p).usable).flatMap fun p =>
    ([0, 1].map fun v => (p, chanOf (pTc k) (pRsp k) v)).filter fun c => (s.port c.1).free c.2

/-- The candidate with the most credits, the first on a tie (R297). -/
def State.bestOf (s : State) : List (Nat × Nat) → Option (Nat × Nat)
  | [] => none
  | c :: t =>
    match s.bestOf t with
    | none => some c
    | some d => if (s.port d.1).credit d.2 > (s.port c.1).credit c.2 then some d else some c

/-- Route lookup (R297, R298); a packet that holds an escape channel stays on them. -/
def State.routeOf (s : State) (k : FabPkt) : Route :=
  let e := s.route (pDst k)
  let escape := decide (bits k.hdr 8 2 = 2)
  let minimal := (List.range 64).any (fun p => bit e p && (s.port p).usable)
  let ep := bits e 64 6
  let eok := bit e 70 && (s.port ep).usable
  let ec := chanOf (pTc k) (pRsp k) 2
  if !bit e 72 then .lost
  else if bit e 71 then .here
  else if escape then (if eok then .out ep ec else if minimal then .wait else .lost)
  else
    match s.bestOf (s.adaptive e k) with
    | some c => .out c.1 c.2
    | none =>
      if eok then .out ep ec
      else if minimal then .wait
      else .lost

/-! ### Dropped packets and NOTICE (R289, R290, R298, R304) -/

/-- The id of the request that waits for an answer with a tag (R291: RTAG). -/
def State.waiting (s : State) (rtag : Nat) : Option (Nat × Req) :=
  s.reqs.search fun i r => decide (i % 2 ^ 16 = rtag ∧ r.stage = .atFabric)

/-- The requester's hub answers a waiting request ABORTED; the run under way is charged (R304). -/
def State.abortReq (s : State) (id : Nat) (r : Req) : State :=
  let s := { s with reqs := s.reqs.put id { r with stage := .toCarter, status := 4, data := [], poison := [] } }
  match s.allotOf r.core.parish with
  | some a => s.chargeCur a
  | none => s

/-- A guest's request that waits for an answer with a tag (R420, R425). -/
def State.guestWaiting (s : State) (rtag : Nat) : Option (Nat × GuestReq) :=
  s.guestReqs.search fun i _ => decide (i % 2 ^ 16 = rtag)

/-- Answers a guest (R291, R424): a response of a request's TYPE, with a status and data. Flits to the guest are
counted (R431). -/
def State.guestAnswer (s : State) (site rtag typ status : Nat) (data : List (BitVec 512)) (bytes poison : Nat) : State :=
  let k : FabPkt :=
    { hdr := mkHdr (if typ = 2 then 3 else 4) true 2 0 data.length 0 s.feid 0 0 status 0 bytes poison 0 rtag 0
      data := data }
  (s.bump (0xA0088 + 0x1000 * (site + 1)) (pFlits k)).send (.guest site k)

/-- UNROUTABLE (R298): to the stewards and the tag's allotment here; a packet that arrived on no port names 0xFF. -/
def State.unroutable (s : State) (feid typ cause : Nat) (arr : Option Nat) (tag : Nat) : State :=
  let a := s.allotOfTag tag
  s.raise evUnroutable a [(feid, 4), (typ, 1), (cause, 1), (arr.getD 0xFF, 1)] ((a.map Dest.allot).toList)

/-- NOTICE reasons (R292). -/
def noticeDown : Nat := 0
def noticeDrain : Nat := 1
def noticeUnroutable : Nat := 2
def noticeTtl : Nat := 3

/-- The requester of a dropped packet of a type is told (R304): only a READ or WRITE, or its response, has a request that
waits. -/
def State.noticeHere (s : State) (rtag typ : Nat) : State :=
  if typ = 0 ∨ typ > 4 then s
  else
    match s.waiting rtag with
    | some (id, r) => s.abortReq id r
    | none =>
      match s.guestWaiting rtag with
      | none => s.bump (fabricBase + 0x48)
      | some (id, g) => { s with guestReqs := s.guestReqs.del id }.guestAnswer g.site g.rtag g.typ 4 [] 1 0

/-- UNROUTABLE at the source a NOTICE reaches (R298, R319): the FEID is the waiting request's, and a free value where none
waits, which the NOTICE does not carry. -/
def State.noticeLost (s : State) (rtag reason typ tag : Nat) : State :=
  if reason ≠ noticeUnroutable ∧ reason ≠ noticeTtl then s
  else
    let feid := match s.waiting rtag with
      | some (_, r) => r.feid.toNat
      | none => bits s.draw 0 18
    (s.unroutable feid typ (reason - 2) none tag).drawn

/-- Sends NOTICE for a dropped packet, to the source of a request or the destination of a response; none for a
NOTICE (R304). A NOTICE that finds no route is dropped. -/
def State.notify (s : State) (k : FabPkt) (reason : Nat) : State :=
  if pType k = 8 then s
  else
    let dst := if pRsp k then pDst k else pSrc k
    if dst = s.feid then s.noticeHere (pRtag k) (pType k)
    else
      let n : FabPkt := { hdr := mkHdr 8 true 1 (pTag k) 0 dst s.feid 0 0 0 0 1 0 0 (pRtag k) (reason + 256 * pType k), data := [] }
      match s.routeOf n with
      | .out p ch => s.enqueue p ch n
      | .wait => { s with fabWait := s.fabWait ++ [(none, n)] }
      | .here => { s with fabLocal := s.fabLocal ++ [n] }
      | .lost => (s.bump (fabricBase + 0x38)).unroutable dst 8 0 none (pTag k)

/-- An unroutable packet is dropped (R298). -/
def State.dropLost (s : State) (k : FabPkt) (arr : Option Nat) (ttl : Bool) : State :=
  let s := (s.bump (fabricBase + 0x38)).unroutable (pDst k) (pType k) (b2n ttl) arr (pTag k)
  s.notify k (if ttl then noticeTtl else noticeUnroutable)

/-- Routes a packet (R297, R298); one for this module by now goes over the hub to its arrival command here. -/
def State.forward (s : State) (k : FabPkt) (arr : Option Nat) : State :=
  match s.routeOf k with
  | .out p ch => s.enqueue p ch k
  | .wait => { s with fabWait := s.fabWait ++ [(arr, k)] }
  | .lost => s.dropLost k arr false
  | .here => { s with fabLocal := s.fabLocal ++ [k] }

/-- The packets that wait for a channel are routed again (R297). -/
def State.retryWaiting (s : State) : State :=
  let l := s.fabWait
  l.foldl (fun s w => s.forward w.2 w.1) { s with fabWait := [] }

/-! ### Link layer (R283 to R285, R293) -/

/-- A link control flit for the next codeword of a port that carries traffic: kind and contents (R283, R284). -/
def State.linkOut (s : State) (p : Nat) (kind : Byte) (args : List Nat) : State :=
  let x := s.port p
  if x.carries then (s.setPort p { x with ctrl := x.ctrl ++ [(kind, args)] }).pump p else s

/-- Sends ACK for a group (R285). -/
def State.sendAck (s : State) (p g : Nat) : State :=
  let y := (s.port p).group g
  (s.updPort p fun x => x.setGroup g { y with lastAck := y.recvSeq }).linkOut p 1 [g, (y.recvSeq - 1).toNat]

/-- Symbol errors of a codeword that the code corrects (R283). -/
def symLimit : Nat := 15

/-- CODEWORD: a codeword arrives on a group, with the symbol errors of the group's lanes and how many of
its ten slots CTRLMAP marks (R280, R283, R285, R317): up to 15 are
corrected; one with more is discarded with all after it, and NAKed; the one expected is taken, its flits counted, and
acknowledged every 32. -/
def execCodeword (port : Fin 64) (group : BitVec 1) (lseq : BitVec 10) (symErr : List (Fin 8 × Nat))
    (ctrl flits : Nat) (s : State) : Host.Outcome State Fault Refusal :=
  let p := port.val
  let g := group.toNat
  let x := s.port p
  let y := x.group g
  .next (if !x.carries ∨ !y.ok then s
    else
      let s := s.bump (portBase p + 0x20)
      if (symErr.map (·.2)).sum > symLimit then
        let s := s.bump (portBase p + 0x30)
        if y.discarding ∧ lseq ≠ y.recvSeq then s
        else
          ((s.setPort p (x.setGroup g { y with discarding := true })).bump (portBase p + 0x38)).linkOut p 2
            [g, y.recvSeq.toNat]
      else
        let s := if (symErr.map (·.2)).sum = 0 then s else s.bump (portBase p + 0x28)
        let s := symErr.foldl (fun s e => s.bump (portBase p + 0x100 + 8 * (8 * g + e.1.val)) e.2) s
        if lseq ≠ y.recvSeq then s
        else
          let y := { y with recvSeq := y.recvSeq + 1, discarding := false }
          let s := (s.setPort p (x.setGroup g y)).bump (portBase p + 0x50) (min 10 ctrl + min flits (10 - ctrl))
          if (y.recvSeq - y.lastAck).toNat ≥ 32 then s.sendAck p g else s)

/-- ACK_INTERVAL_EXPIRY: 100 ns have passed since the group's last acknowledgement (R285). -/
def execAckIntervalExpiry (port : Fin 64) (group : BitVec 1) (s : State) : Host.Outcome State Fault Refusal :=
  .next (if (s.port port).carries && ((s.port port).group group.toNat).ok then s.sendAck port group.toNat else s)

/-- The codewords after one acknowledged. -/
def Group.acked (y : Group) (l : BitVec 10) : Group :=
  if y.held.any (fun h => h.lseq = l) then { y with held := (y.held.dropWhile fun h => h.lseq ≠ l).drop 1 } else y

/-- ACK: acknowledged codewords leave the retry buffer (R285). -/
def execAck (port : Fin 64) (group : BitVec 1) (lseq : BitVec 10) (s : State) : Host.Outcome State Fault Refusal :=
  let x := s.port port
  .next (if x.carries then
    ((s.setPort port (x.setGroup group.toNat ((x.group group.toNat).acked lseq))).pump port).retryWaiting
  else s)

/-- CREDIT: flit credits return to a channel (R293). -/
def execCredit (port : Fin 64) (vc : Fin 25) (n : Nat) (s : State) : Host.Outcome State Fault Refusal :=
  let x := s.port port
  .next (if x.carries then
    ((s.setPort port { x with credits := x.credits.put vc (x.credit vc + n) }).pump port).retryWaiting
  else s)

/-- Returns the credits of a packet that has left the receive buffer (R293). -/
def State.returnCredit (s : State) (p : Nat) (k : FabPkt) : State :=
  let ch := if bits k.hdr 8 2 = 3 then 24 else chanOf (pTc k) (pRsp k) (bits k.hdr 8 2)
  s.linkOut p 3 [ch, pFlits k]

/-! ### Groups and ports going down (R288, R289) -/

/-- The packets a port still owes: queued, or not yet wholly acknowledged. -/
def Port.owed (x : Port) : List FabPkt :=
  ((x.g0.held ++ x.g1.held).flatMap (·.items)).filterMap (fun i => match i with
    | .packet k => some k
    | .control _ _ => none) ++ x.queued.map (fun q => q.2.1)

/-- The tags among packets. -/
def tagsOf (l : List FabPkt) : List Nat := (List.range 16).filter fun t => l.any fun k => decide (pTag k = t)

/-- The current run of every allotment whose tag lost a packet is charged (R289, R290). -/
def State.chargeTags (s : State) (l : List FabPkt) : State :=
  (tagsOf l).foldl (fun s t =>
    match s.allotOfTag t with
    | some a => s.chargeCur a
    | none => s) s

/-- Discards what a port owes, counted, with NOTICE (R289, R290, R304). -/
def State.discardOwed (s : State) (p reason : Nat) : State :=
  let x := s.port p
  let l := x.owed
  let s := (s.setPort p { x with queued := [], g0 := {}, g1 := {}, credits := [], ctrl := [], sentClasses := [] }).bump (portBase p + 0x68) l.length
  l.foldl (fun s k => s.notify k reason) s

/-- A port of PORT_EXPECT that is not UP degrades a running module (R448). -/
def State.portDegrade (s : State) (p : Nat) : State := if bit s.boot.cfg.portExpect p then s.degrade 4 else s

/-- PORT_DOWN goes to every allotment whose tag lost a packet, and its current run is charged (R289). -/
def State.tellTags (s : State) (tags : List Nat) (record : Nat → List (Nat × Nat)) : State :=
  tags.foldl (fun s t =>
    match s.allotOfTag t with
    | none => s
    | some a =>
      (s.deliver { code := evPortDown, allot := some a, tick := s.tick, tod := s.todNow, payload := record t }
        (.allot a)).chargeCur a) s

/-- A port goes DOWN, a draining one to DISABLED (R287, R289): what it owes is discarded; PORT_DOWN to the stewards and the
board controller, and to every allotment whose tag lost a packet, whose current run is charged. -/
def State.portDown (s : State) (p cause : Nat) : State :=
  let s := s.updPort p Port.unpark
  let l := (s.port p).owed
  let tags := tagsOf l
  let mask := (tags.map (2 ^ ·)).sum
  let s := (s.updPort p fun x =>
    { x with st := if x.en then .down else .disabled, cause := BitVec.ofNat 4 cause, attempts := 0 }).discardOwed p noticeDown
  let rec' (n : Nat) := [(p, 1), (cause, 1), (l.length, 4), (n, 4), (mask, 2)]
  let s := (s.raise evPortDown none (rec' 0) []).tellTags tags fun t => rec' (l.filter fun k => pTag k = t).length
  (s.portDegrade p).retryWaiting.timeLane

/-- A group is lost (R288): with the other healthy the port is DEGRADED and GFAIL names the last codeword taken; else the
port goes DOWN. -/
def State.loseGroup (s : State) (p g cause : Nat) : State :=
  let x := s.port p
  let y := x.group g
  if !x.carries ∨ !y.ok then s
  else
    let s := s.bump (portBase p + 0x40)
    if (x.group (1 - g)).ok then
      let st := if x.st = .up then PortState.degraded else x.st
      let s := s.setPort p { x.setGroup g { y with ok := false } with st := st, cause := BitVec.ofNat 4 cause }
      let s := s.linkOut p 6 [g, (y.recvSeq - 1).toNat]
      (s.raise evPortDegraded none [(p, 1), (g, 1), (cause, 1)] []).portDegrade p
    else s.portDown p cause

/-- GROUP_LOST: a group loses a lane or its lock (R288). -/
def execGroupLost (port : Fin 64) (group : BitVec 1) (cause : BitVec 4) (s : State) : Host.Outcome State Fault Refusal :=
  .next (s.loseGroup port group.toNat cause.toNat)

/-- NAK: counted; the codewords from the one named are sent again; more than RETRY_LIMIT within a millisecond lose the
group (R285, R288). -/
def execNak (port : Fin 64) (group : BitVec 1) (lseq : BitVec 10) (s : State) : Host.Outcome State Fault Refusal :=
  let p := port.val
  let x := s.port p
  let y := x.group group.toNat
  .next (if !x.carries ∨ !y.ok then s
    else
      let recent := (s.tick :: y.naks).filter fun t => decide (s.ticksNs (s.tick - t) < 1000000)
      let s := (s.setPort p (x.setGroup group.toNat { y with naks := recent })).bump (portBase p + 0x38)
      if recent.length > bits (s.reg (portBase p + 0x60)) 0 16 then
        (s.raise evLinkRetryStorm none [(p, 1), (group.toNat, 1), (recent.length, 4)] []).loseGroup p group.toNat 4
      else
        s.resend p (y.held.dropWhile fun h => h.lseq ≠ lseq))

/-- GFAIL: the peer has lost a group and names the last codeword of it that it took; every later one is sent again on
the healthy group as new codewords (R288). -/
def execGfail (port : Fin 64) (lost : BitVec 1) (lseq : BitVec 10) (s : State) : Host.Outcome State Fault Refusal :=
  let p := port.val
  let s := s.loseGroup p lost.toNat 7
  let x := s.port p
  let y := (x.group lost.toNat).acked lseq
  let h := 1 - lost.toNat
  .next (if !x.carries ∨ !(x.group h).ok then s
    else
      let x := x.setGroup lost.toNat { y with held := [], ok := false }
      let z := y.held.foldl (fun (z : Group) c => z.hold c.ctrlMap c.items c.flits) (x.group h)
      ((s.setPort p (x.setGroup h z)).retryPeak p z).resend p y.held)

/-! ### Training (R286, R287) -/

/-- A port starts training; its TRAIN flit names the module's FEID, the port, Verux 1 and the domain ID (R284, R286). -/
def State.startTraining (s : State) (p : Nat) : State :=
  ((s.updPort p fun x => { x with st := .training }).bump (portBase p + 0x70)).send
    (.link p 5 [s.feid, p, 1, s.boot.cfg.domainId.toNat])

/-- PORT_TRAINING: an enabled port that is down or newly enabled starts training (R286, R287). -/
def execPortTraining (port : Fin 64) (s : State) : Host.Outcome State Fault Refusal :=
  let x := s.port port
  .next (if s.portThere port ∧ x.en ∧ (x.st = .disabled ∨ x.st = .down) then s.startTraining port else s)

/-- What the training exchange has shown of the peer (R286, R317). -/
def Port.observe (x : Port) (o : TrainObs) : Port :=
  { x with peer := some (o.peerFeid, o.peerPort), peerDomain := o.peerDomain, delayPs := o.delayPs }

/-- TRAIN: a training flit carries the delay measurement or the identity exchange (R284, R286). -/
def execTrain (port : Fin 64) (o : TrainObs) (s : State) : Host.Outcome State Fault Refusal :=
  .next (if (s.port port).st = .training then s.updPort port (·.observe o) else s)

/-- The groups that hold failed electrical lanes of a direction in which two or more failed (R282). -/
def elecLost (l : List (Fin 17)) (g : Nat) : Bool := decide (l.dedup.length ≥ 2) && l.any fun i => decide (i.val / 8 = g)

/-- The lane the spare replaces in a direction: the one that failed, where none but it did (R282). -/
def spared (l : List (Fin 17)) : Option Nat :=
  match l.dedup with
  | [i] => if i.val < 16 then some i.val else none
  | _ => none

/-- Whether a group has its lanes and its lock (R282, R286). -/
def trainGroup (o : TrainObs) (g : Nat) : Bool :=
  (if g = 0 then o.group0 else o.group1) && !elecLost o.txBad g && !elecLost o.rxBad g

/-- The cause of a group or port that training does not bring up: ELEC where electrical lanes are lost, else as observed. -/
def trainWhy (o : TrainObs) : BitVec 4 :=
  if (List.range 2).any fun g => elecLost o.txBad g || elecLost o.rxBad g then 1 else o.cause

/-- A port as its training leaves it (R286): identity is exchanged over a group that has locked. -/
def Port.trained (x : Port) (o : TrainObs) (feid : Nat) : Port :=
  let a := trainGroup o 0
  let b := trainGroup o 1
  let lane := (spared o.txBad).or (spared o.rxBad)
  let x := { x with spare := lane.isSome, spareLane := BitVec.ofNat 5 (lane.getD 0) }
  let down (x : Port) (c : BitVec 4) : Port := { x with st := .down, cause := c }
  if !a ∧ !b then down x (trainWhy o)
  else
    let x := x.observe o
    if !o.peerVerux1 then down x 5
    else if o.peerFeid.toNat = feid then down x 6
    else
      { x with
          st := if a ∧ b then .up else .degraded
          g0 := { ok := a }, g1 := { ok := b }, attempts := 0, credits := fullCredits
          cause := if a ∧ b then 0 else trainWhy o }

/-- A parent sends its domain identity on a child port that has come up (R292, R313). DESIGN CHOICE (log entry 49): when. -/
def State.greetChild (s : State) (p : Nat) : State :=
  let c := s.boot.cfg
  if !c.domain ∨ !bit c.childMask p then s
  else
    s.enqueue p (chanOf 1 false 0)
      { hdr := mkHdr 10 false 1 0 0 0 s.feid 0 0 0 0 1 0 0 0
          (c.domainId.toNat + 2 ^ 16 * s.bell.n + 2 ^ 48 * c.level + 2 ^ 56), data := [] }

/-- What training finds, with the port's bad lanes of the fuse map, which are bad in both directions (R282, R438). -/
def State.fuseLanes (s : State) (p : Nat) (o : TrainObs) : TrainObs :=
  let l := (List.finRange 17).filter fun i => s.fuses.badLanes.contains (p, i.val)
  { o with txBad := l ++ o.txBad, rxBad := l ++ o.rxBad }

/-- Training ends (R286 to R289): the port comes up, degraded or down, with its event. -/
def State.finishTraining (s : State) (p : Nat) (o : TrainObs) : State :=
  let o := s.fuseLanes p o
  let x := (s.port p).trained o s.feid
  let s := s.setPort p x
  match x.st with
  | .down => (s.setPort p { x with st := .training }).portDown p x.cause.toNat
  | .degraded =>
    (((s.raise evPortDegraded none [(p, 1), (if trainGroup o 0 then 1 else 0, 1), (x.cause.toNat, 1)] []).greetChild p).pump p).retryWaiting
  | _ => ((s.greetChild p).pump p).retryWaiting

/-- TRAINING_COMPLETE: a training port's training ends, or a DEGRADED port's lost group has retrained and it is UP
(R286, R287). -/
def execTrainingComplete (port : Fin 64) (o : TrainObs) (s : State) : Host.Outcome State Fault Refusal :=
  let p := port.val
  let x := s.port p
  let found := s.fuseLanes p o
  .next (match x.st with
    | .training => if s.portThere p then s.finishTraining p o else s
    | .degraded =>
      if trainGroup found 0 ∧ trainGroup found 1 then
        let lane := (spared found.txBad).or (spared found.rxBad)
        let x := { x with st := .up, cause := 0, attempts := 0, spare := x.spare || lane.isSome
                          spareLane := (lane.map (BitVec.ofNat 5)).getD x.spareLane }
        let x := if x.g0.ok then { x with g1 := { ok := true } } else { x with g0 := { ok := true } }
        ((s.setPort p x).pump p).retryWaiting
      else s
    | _ => s)

/-- RETRAIN_TIMER: a DOWN port trains again; a DEGRADED port trains its lost group in the background (R287). -/
def execRetrainTimer (port : Fin 64) (s : State) : Host.Outcome State Fault Refusal :=
  let x := s.port port
  .next (if !s.portThere port ∨ !x.en then s
    else if x.st = .down then (s.updPort port fun x => { x with attempts := x.attempts + 1 }).startTraining port
    else if x.st = .degraded then
      (s.updPort port fun x => { x with attempts := x.attempts + 1 }).bump (portBase port + 0x70)
    else s)

/-! ### PORT_CTL and draining (R290) -/

/-- A PORT_CTL write that takes effect. -/
def State.portCtlWrite (s : State) (p : Nat) (en : Bool) : State :=
  let x := s.port p
  let s := s.setPort p { x with en := en }
  if en then (if x.st = .disabled ∧ s.portThere p then s.startTraining p else s)
  else
    match x.st with
    | .up => (s.updPort p fun x => { x with st := .draining }).pump p
    | .degraded => (s.updPort p fun x => { x with st := .draining }).pump p
    | .draining => s
    | _ => (s.updPort p fun x => { x with st := .disabled }).timeLane

/-- PORT_CTL: a key-guarded write enables a port or starts its drain (R287, R290, R315). -/
def execPortCtl (path : RegPath) (port : Fin 64) (value : DWord) (s : State) : Host.Outcome State Fault Refusal :=
  .next (s.writeNow path (portBase port + 8) true fun s => s.portCtlWrite port (bit value 0))

/-- PORT_DRAIN_TIMEOUT: what a draining port still owes is discarded as at a port that goes down, the runs of its tags charged,
and the port is DISABLED (R289, R290). -/
def execPortDrainTimeout (port : Fin 64) (s : State) : Host.Outcome State Fault Refusal :=
  .next (if (s.port port).st = .draining then
    let l := (s.port port).owed
    (((s.discardOwed port noticeDrain).chargeTags l).updPort port fun x => { x.unpark with st := .disabled }).timeLane
  else s)

end Sys2Proof.Machine
end

