-- ==== Sys2Proof/Machine/Fabric.lean ====
section
/-! DEFINITION. Packets at this module (R291, R298 to R310): arrival, READ and WRITE served within a tag's quota,
responses and timeouts, completion records, remote increments, the reduction table, the route table's registers. -/

namespace Sys2Proof.Machine

/-! ### Arrival (R291, R297, R298, R300) -/

/-- FABRIC_DROP with the first 16 bytes of the header (R291, R319): causes 0 MALFORMED, 1 TAG, 2 NO_ENTRY. -/
def State.fabricDrop (s : State) (cause port : Nat) (k : FabPkt) (dests : List Dest) (al : Option Nat) : State :=
  (s.bump (fabricBase + 0x40)).raise evFabricDrop al [(cause, 1), (port, 1), (bits k.hdr 0 128, 16)] dests

/-- A packet arrives on a port and is malformed, out of hops, for this module, or for another (R291, R297, R298), its buffer
credited back; or it is one for this module on its way in the hub (log entry 20). -/
def State.arrive (s : State) (p : Nat) (k : FabPkt) (typ : Nat) (here : State → State) : State :=
  if pType k = typ ∧ s.fabLocal.contains k then here { s with fabLocal := s.fabLocal.erase k }
  else if !(s.port p).carries then s
  else if pMalformed k then (s.fabricDrop 0 p k [] none).returnCredit p k
  else if pType k ≠ typ then s
  else
    let s := s.returnCredit p k
    if pHops k = 0 then s.dropLost k (some p) true
    else
      let k := pHop k
      match s.routeOf k with
      | .here => here s
      | _ => s.forward k (some p)

/-- A packet of this module's own: delivered here where the route table says so, else sent (R297). -/
def State.inject (s : State) (k : FabPkt) (here : State → State) : State :=
  match s.routeOf k with
  | .here => here s
  | _ => s.forward k none

/-! ### Completion records (R306) -/

/-- A completion record replaced. -/
def State.setRx (s : State) (i : Nat) (x : Rx) : State := { s with rxs := s.rxs.put i x }

/-- A packet of a tag and transfer ID is counted; saturation raises XFER_COUNT_OVERFLOW and charges the run; a record
bound to a hub tally increments it. -/
def State.countRx (s : State) (a tag tid src : Nat) : State :=
  match s.rxOf tag tid with
  | none => s
  | some (i, x) =>
    let s := if x.count ≥ 0xFFFFFFFF then
        let s := s.setRx i { x with saturated := true }
        if x.saturated then s else (s.raiseA evXferCountOverflow a [(tag, 1), (tid, 4)]).chargeCur a
      else s.setRx i { x with count := x.count + 1 }
    match x.bind with
    | some j => s.tallyInc { lvl := 2, core := { parish := 0, col := 0, row := 0 }, idx := j } 1 src
    | none => s

/-! ### READ and WRITE at the target (R303) -/

/-- How the target answers an access of `n` bytes under a tag: the status, with the interleaved address where it is
performed. -/
def State.judgeFabric (s : State) (tag addr n : Nat) : Nat × Nat :=
  match s.allotOfTag tag with
  | none => (1, 0)
  | some a =>
    if addr ≥ 2 * nearBase then (2, 0)
    else
      match s.viewDpa addr with
      | none => (1, 0)
      | some d =>
        if !s.inQuota a d n then (2, 0)
        else if !s.stackUp (s.memKey d / 2 ^ 36) then (3, 0)
        else (0, d)

/-- Bytes a READ answers: those from its address to the end of its 64-byte sector. DESIGN CHOICE (log entry 21): the
header gives a READ no length, and the requester takes what it asked for. -/
def readSpan (addr : Nat) : Nat := 64 - addr % 64

/-- A response to a request (R291, R292, R303): type 3 or 4. -/
def respTo (k : FabPkt) (typ status feid : Nat) (data : List (BitVec 512)) (bytes poison : Nat) : FabPkt :=
  { hdr := mkHdr typ true (pTc k) (pTag k) data.length (pSrc k) feid (pTid k) (pSeq k) status (pAddr k) bytes poison 0
      (pRtag k) 0
    data := data }

/-- A READ performed for a source and core of R204 (R303): the response. -/
def State.serveRead (s : State) (k : FabPkt) (source core : Nat) : State × FabPkt :=
  let addr := pAddr k
  let n := readSpan addr
  let j := s.judgeFabric (pTag k) addr n
  if j.1 ≠ 0 then (s, respTo k 3 j.1 s.feid [] 1 0)
  else
    let key := s.memKey j.2
    let al := s.allotOfTag (pTag k)
    let s := (s.access key).touchMem source core al key n
    let l := s.memBytes key n
    let bad := (s.rowPoison key n).any id
    (s.bump (mcBase (key / 2 ^ 36) + 0x68) n, respTo k 3 0 s.feid (flitsOf l) n (b2n bad))

/-- A WRITE performed for a source and core of R204, and counted (R303, R306, R199): the acknowledgement. -/
def State.serveWrite (s : State) (k : FabPkt) (source core : Nat) : State × FabPkt :=
  let addr := pAddr k
  let n := min (pBytes k) (readSpan addr)
  let j := s.judgeFabric (pTag k) addr n
  if j.1 ≠ 0 then (s, respTo k 4 j.1 s.feid [] 1 0)
  else
    let key := s.memKey j.2
    let al := s.allotOfTag (pTag k)
    let bad := decide (pPoison k % 2 = 1)
    let s := ((s.access key).storeMem source core al key ((pData k).take n) ((rowsOf key n).map fun _ => bad)).bump
      (mcBase (key / 2 ^ 36) + 0x70) n
    (s.countRx (al.getD 0) (pTag k) (pTid k) (pSrc k), respTo k 4 0 s.feid [] 1 0)

/-- A response reaches its requester's hub (R304): the waiting request is answered; one that is no longer awaited is
discarded and counted. -/
def State.respHere (s : State) (k : FabPkt) : State :=
  match s.waiting (pRtag k) with
  | none =>
    match s.guestWaiting (pRtag k) with
    | none => s.bump (fabricBase + 0x48)
    | some (id, g) =>
      { s with guestReqs := s.guestReqs.del id }.guestAnswer g.site g.rtag g.typ (pStatus k) k.data (max 1 (pBytes k)) (pPoison k)
  | some (id, r) =>
    if pStatus k = 4 then s.abortReq id r
    else
      let rows := (rowsOf r.addr r.piece.len).map fun _ => decide (pPoison k % 2 = 1)
      let r := { r with stage := .toCarter, status := BitVec.ofNat 4 (pStatus k)
                        data := if r.ch = .load ∧ pStatus k = 0 then (pData k).take r.piece.len else []
                        poison := if r.ch = .load ∧ pStatus k = 0 then rows else [] }
      { s with reqs := s.reqs.put id r }

/-- A READ or a WRITE served here (R303), for a source and core of R204. -/
def State.served (s : State) (k : FabPkt) (source core : Nat) : State × FabPkt :=
  if pType k = 2 then s.serveRead k source core else s.serveWrite k source core

/-- Bytes of device memory a request touches at its target. -/
def accessLen (k : FabPkt) : Nat := if pType k = 2 then readSpan (pAddr k) else min (pBytes k) (readSpan (pAddr k))

/-- A request of another module at its target: served, its latency noted where it is TC2 (R196), and the response sent. -/
def State.serveHere (s : State) (k : FabPkt) (ns : Nat) : State :=
  let r := s.served k 7 0xFFFFFFFF
  let j := s.judgeFabric (pTag k) (pAddr k) (accessLen k)
  let m := s.memKey j.2 / 2 ^ 36
  let t := if j.1 = 0 ∧ pTc k = 2 then
      r.1.noteLatency m (s.allotOfTag (pTag k)) ns (decide (r.1.memUe.length = s.memUe.length))
    else r.1
  t.inject r.2 fun s => s.respHere r.2

/-- FABRIC_READ: a READ arrives and is routed or served, in its time at the controller (R303, R196). -/
def execFabricRead (port : Fin 64) (pkt : Timed) (s : State) : Host.Outcome State Fault Refusal :=
  .next (s.arrive port pkt.pkt 2 fun s => s.serveHere pkt.pkt pkt.ns)

/-- FABRIC_WRITE: a WRITE arrives and is routed, or written and counted, in its time at the controller (R303, R306,
R196). -/
def execFabricWrite (port : Fin 64) (pkt : Timed) (s : State) : Host.Outcome State Fault Refusal :=
  .next (s.arrive port pkt.pkt 1 fun s => s.serveHere pkt.pkt pkt.ns)

/-- FABRIC_READ_RESP: a READ_RESP reaches the requester's hub (R304). -/
def execFabricReadResp (port : Fin 64) (pkt : FabPkt) (s : State) : Host.Outcome State Fault Refusal :=
  .next (s.arrive port pkt 3 fun s => s.respHere pkt)

/-- FABRIC_WRITE_ACK: a WRITE_ACK reaches the requester's hub (R304). -/
def execFabricWriteAck (port : Fin 64) (pkt : FabPkt) (s : State) : Host.Outcome State Fault Refusal :=
  .next (s.arrive port pkt 4 fun s => s.respHere pkt)

/-- NOTICE: a notice of a dropped packet answers the waiting request ABORTED (R304). -/
def execNotice (port : Fin 64) (pkt : FabPkt) (s : State) : Host.Outcome State Fault Refusal :=
  .next (s.arrive port pkt 8 fun s =>
    (s.noticeLost (pRtag pkt) (pBody pkt 32 1) (pBody pkt 33 1) (pTag pkt)).noticeHere (pRtag pkt) (pBody pkt 33 1))

/-- TRANSFER_TIMEOUT: a request unanswered for XFER_TIMEOUT is answered ABORTED (R304). -/
def execTransferTimeout (id : Nat) (s : State) : Host.Outcome State Fault Refusal :=
  .next (match s.reqs.find? id with
    | none =>
      match s.guestReqs.find? id with
      | none => s
      | some g => { s with guestReqs := s.guestReqs.del id }.guestAnswer g.site g.rtag g.typ 4 [] 1 0
    | some r =>
      if r.stage ≠ .atFabric then s
      else
        let a := s.allotOf r.core.parish
        (s.raise evTransferTimeout a [(r.core.id, 4), (r.window, 2), (r.feid.toNat, 4), (r.addr, 8)]
          ((a.map Dest.allot).toList)).abortReq id r)

/-! ### Remote increments (R262, R292, R300) -/

/-- A TALLY_INC at its home: applied where the tag's allotment owns the index, else dropped (R262). -/
def State.tallyIncHere (s : State) (k : FabPkt) : State :=
  let i := pBody k 32 2 % 4096
  let owner := s.hubOwner i
  if owner.isSome ∧ owner = s.allotOfTag (pTag k) then
    s.tallyInc { lvl := 2, core := { parish := 0, col := 0, row := 0 }, idx := i } (pBody k 34 4) (pSrc k)
  else
    (s.bump (bellBase + 0x58)).raise evTallyForeign none [(i, 2), (pTag k, 1), (pSrc k, 4)] []

/-- A remote increment comes in on a port (R262): its crier message waits where it needs a lost sector and no tables avoid that
yet (R269). -/
def State.tallyIncFrom (s : State) (p : Nat) (k : FabPkt) : State :=
  if s.crierOpen (portSector p) 0 then s.tallyIncHere k else { s with crierHeld := s.crierHeld ++ [(p, k)] }

/-- TALLY_INC: an increment arrives on a port, or from this module's own reduction table over the hub mesh, and is
applied, routed on or dropped (R262). -/
def execTallyInc (port : Option (Fin 64)) (pkt : FabPkt) (s : State) : Host.Outcome State Fault Refusal :=
  .next (match port with
    | some p => s.arrive p pkt 6 fun s => s.tallyIncFrom p pkt
    | none =>
      if s.fabLocal.contains pkt then { s with fabLocal := s.fabLocal.erase pkt }.tallyIncHere pkt else s)

/-! ### The reduction table (R307 to R310) -/

/-- Fields of an entry (R307). -/
def Red.f (x : Red) (word lo len : Nat) : Nat := bits x.words (64 * word + lo) len
def Red.valid (x : Red) : Bool := decide (x.f 0 0 1 = 1)
def Red.tag (x : Red) : Nat := x.f 0 2 5
def Red.mode (x : Red) : Nat := x.f 0 10 1
def Red.infmt (x : Red) : Nat := x.f 0 11 2
def Red.outfmt (x : Red) : Nat := x.f 0 13 2
def Red.slots (x : Red) : Nat := x.f 0 15 7 + 1
def Red.bg (x : Red) : Bool := decide (x.f 0 22 1 = 1)
def Red.inTid (x : Red) : Nat := x.f 0 32 20
def Red.inMask (x : Red) : Nat := x.f 1 0 64
def Red.localIn (x : Red) : Bool := decide (x.f 2 0 1 = 1)
def Red.outPort (x : Red) : Nat := x.f 2 8 6
def Red.outTid (x : Red) : Nat := x.f 2 32 20
def Red.localSrc (x : Red) : Nat := x.f 3 0 48
def Red.length (x : Red) : Nat := x.f 4 0 27
def Red.deliverDpa (x : Red) : Nat := x.f 5 0 48
def Red.trigIdx (x : Red) : Nat := x.f 6 12 12
def Red.trigEn (x : Red) : Bool := decide (x.f 6 24 1 = 1)
def Red.trigN (x : Red) : Nat := x.f 6 32 32
def Red.notifyFeid (x : Red) : Nat := x.f 7 0 24
def Red.notifyIdx (x : Red) : Nat := x.f 7 24 12
def Red.notifyEn (x : Red) : Bool := decide (x.f 7 36 1 = 1)
def Red.notifyN (x : Red) : Nat := x.f 7 48 16 + 1

/-- The ports of an entry's inputs, ascending. -/
def Red.ports (x : Red) : List Nat := (List.range 64).filter fun p => x.inMask.testBit p

/-- Input SEQs of a use, and the input bytes of one (R308). -/
def Red.seqs (x : Red) : Nat := ceilDiv x.length 2048
def Red.seqBytes (x : Red) (q : Nat) : Nat := min 2048 (x.length - 2048 * q)

/-- An input of an entry. -/
def Red.input (x : Red) (p : Nat) : RedIn := x.ins.get {} p

/-- A reduction entry. -/
def State.red (s : State) (i : Nat) : Red := s.reds.get {} i

def State.setRed (s : State) (i : Nat) (x : Red) : State := { s with reds := s.reds.put i x }

/-- The entry that takes a REDUCE packet of a port (R310). -/
def State.redOf (s : State) (p : Nat) (k : FabPkt) : Option Nat :=
  (s.reds.search fun _ x => x.valid && decide (x.tag = pTag k ∧ x.inTid = pTid k) && x.inMask.testBit p).map (·.1)

/-- Flits and their poison, as staged. -/
abbrev Staged := List (BitVec 512) × BitVec 32

/-- Whether an input of an entry has its SEQ. -/
def Red.hasPort (x : Red) (p q : Nat) : Bool := ((x.input p).staged.find? q).isSome

/-- The LOCAL contribution of an entry for a SEQ, read as it is used (R308); none before its start or where its stack does
not answer. -/
def State.localIn (s : State) (x : Red) (q : Nat) : Option (State × Staged) :=
  if !x.localIn ∨ !x.started then none
  else
    let n := x.seqBytes q
    match s.viewDpa (x.localSrc + 2048 * q) with
    | none => none
    | some d =>
      if !s.readable d n then none
      else
        let a := s.allotOfTag x.tag
        let s := s.readRange 9 0xFFFFFFFF a d n
        let bad := (List.range (ceilDiv n 64)).map fun i =>
          (List.range 8).any fun j => decide (64 * i + 8 * j < n) && s.wordPoison (s.memKey (d + 64 * i + 8 * j) / 8)
        some (s,
          (flitsOf (s.dpaBytes d n), BitVec.ofNat 32 ((bad.zipIdx.map fun b => if b.1 then 2 ^ b.2 else 0).sum)))

/-- FP32 elements of a flit of the entry's input format (R308): BF16 is widened exactly. -/
def flitElems (fmt : Nat) (d : BitVec 512) : List Word :=
  if fmt = 2 then (List.range 32).map fun i => bf16Widen (bits d (16 * i) 16)
  else (List.range 16).map fun i => BitVec.ofNat 32 (bits d (32 * i) 32)

/-- FP32 elements as one flit. -/
def flitOfWords (l : List Word) : BitVec 512 := BitVec.ofNat 512 (l.foldr (fun w a => w.toNat + 2 ^ 32 * a) 0)

/-- FP32 elements rounded to BF16 as one flit (R105). -/
def flitOfBf16 (l : List Word) : BitVec 512 :=
  BitVec.ofNat 512 (l.foldr (fun w a => (bf16.ofFp32 false w).1 + 2 ^ 16 * a) 0)

/-- The sum of the inputs of one flit, in order (R308). -/
def sumFlit (fmt : Nat) (l : List (BitVec 512)) : List Word :=
  match l with
  | [] => []
  | d :: t => t.foldl (fun acc e => (acc.zip (flitElems fmt e)).map fun p => (fadd false p.1 p.2).1) (flitElems fmt d)

/-- The output flits of a SEQ with their poison (R308): copies for RAW, sums else. -/
def Red.combine (x : Red) (ins : List Staged) : List (BitVec 512 × Bool) :=
  let n := ((ins.head?).map (·.1.length)).getD 0
  (List.range n).flatMap fun j =>
    let ds := ins.map fun i => (i.1[j]?).getD 0
    let bad := ins.any fun i => bit i.2 j
    if x.infmt = 0 then [(ds.headD 0, bad)]
    else
      let sum := sumFlit x.infmt ds
      if x.infmt = 2 then
        if x.outfmt = 1 then [(flitOfWords (sum.take 16), bad), (flitOfWords (sum.drop 16), bad)]
        else [(flitOfBf16 sum, bad)]
      else [(flitOfWords sum, bad)]

/-- Poison bits of flits. -/
def poisonBits (l : List (BitVec 512 × Bool)) : Nat := (l.zipIdx.map fun e => if e.1.2 then 2 ^ e.2 else 0).sum

/-- Writes a delivered packet of `n` bytes to device memory, with the poison of each flit (R199, R308). DESIGN CHOICE (log entry
91): a read-modify-write it makes reports source 9, as the reduction table's reads do. -/
def State.deliver64 (s : State) (a dpa n : Nat) (l : List (BitVec 512 × Bool)) : State :=
  s.writeRange 9 (some a) dpa ((l.flatMap fun f => leBytes 64 f.1.toNat).take n) fun i => ((l[i / 64]?).map (·.2)).getD false

/-- One output packet of an entry, of as many flits as its bytes fill (R291, R308): delivered to memory and counted, or sent on
its port. -/
def State.emitRed (s : State) (x : Red) (seq : Nat) (l : List (BitVec 512 × Bool)) (bytes : Nat) : State :=
  let l := l.take (ceilDiv bytes 64)
  if x.mode = 0 then
    match s.allotOfTag x.tag, s.viewDpa (x.deliverDpa + 2048 * seq) with
    | some a, some d =>
      if s.readable d bytes then
        (s.deliver64 a d bytes l).countRx a x.tag x.outTid s.feid
      else s
    | _, _ => s
  else
    let fmt := if x.outfmt = 1 then 1 else x.infmt
    let dst := ((s.port x.outPort).peer.map (·.1.toNat)).getD 0
    let k : FabPkt :=
      { hdr := mkHdr 5 false (if x.bg then 3 else 2) x.tag l.length dst s.feid x.outTid seq 0 0 bytes (poisonBits l) fmt 0 0
        data := l.map (·.1) }
    s.enqueueRed x.outPort k

/-- The output of a SEQ (R308): one packet, or two where BF16 widens to FP32. -/
def State.outputRed (s : State) (x : Red) (q : Nat) (l : List (BitVec 512 × Bool)) : State :=
  let n := x.seqBytes q
  if x.outfmt = 1 then
    let s := s.emitRed x (2 * q) (l.take 32) (min 2048 (2 * n))
    if 2 * n > 2048 then s.emitRed x (2 * q + 1) (l.drop 32) (2 * n - 2048) else s
  else s.emitRed x q l n

/-- The increment an entry sends when a use completes (R308): held for its arrival where it is for this module. -/
def State.notifyUse (s : State) (x : Red) : State :=
  if !x.notifyEn then s
  else
    let k : FabPkt :=
      { hdr := mkHdr 6 false 0 x.tag 0 x.notifyFeid s.feid 0 0 0 0 1 0 0 0 (x.notifyIdx + 2 ^ 16 * x.notifyN), data := [] }
    s.inject k fun s => { s with fabLocal := s.fabLocal ++ [k] }

/-- A SEQ is complete with the given inputs: its output goes, and after the last the use is over (R308). -/
def State.completeSeq (s : State) (i : Nat) (ins : List Staged) : State :=
  let x := s.red i
  let q := x.seq
  let s := s.outputRed x q (x.combine ins)
  let x := { x with ins := x.ins.mapVals fun _ y => { y with staged := y.staged.del q }, seq := q + 1, stalls := 0 }
  if q + 1 < x.seqs then s.setRed i x
  else (s.setRed i { x with ins := [], seq := 0, started := false }).notifyUse x

/-- The inputs of the present SEQ, where all have arrived, LOCAL last (R308), and the state after LOCAL is read. -/
def State.redReady (s : State) (i : Nat) : Option (State × List Staged) :=
  let x := s.red i
  let q := x.seq
  if !x.valid ∨ (x.ports.isEmpty ∧ !x.started) ∨ !x.ports.all (fun p => x.hasPort p q) then none
  else
    let ps := x.ports.map fun p => (x.input p).staged.get ([], 0) q
    if x.localIn then (s.localIn x q).map fun (r : State × Staged) => (r.1, ps ++ [r.2]) else some (s, ps)

/-- Completes SEQs while every input has arrived (R308), up to the end of the use. -/
def State.runRed (s : State) (i : Nat) : Nat → State
  | 0 => s
  | fuel + 1 =>
    match s.redReady i with
    | none => s
    | some r =>
      let t := r.1.completeSeq i r.2
      if (t.red i).seq = 0 then t else t.runRed i fuel

/-- Whether an entry accepts a packet of a port now (R308). -/
def Red.accepts (x : Red) (p : Nat) (k : FabPkt) : Bool :=
  decide (pSeq k = (x.input p).next ∧ pSeq k < x.seq + x.slots ∧ pSeq k < x.seqs)

/-- Takes what the head of a port's reduction channel allows, in order (R308 to R310): a packet of the SEQ its input owes is an
ordinary input, in a later use too; one of a SEQ completed without it is late. -/
def State.drainRed (s : State) (p : Nat) : Nat → State
  | 0 => s
  | fuel + 1 =>
    match (s.port p).redQ with
    | [] => s
    | k :: t =>
      match s.redOf p k with
      | none => s
      | some i =>
        let x := s.red i
        let taken := (s.updPort p fun y => { y with redQ := t }).returnCredit p k
        if x.accepts p k then
          let y := x.input p
          let y := { y with next := y.next + 1, staged := y.staged.put (pSeq k) (k.data, BitVec.ofNat 32 (pPoison k)) }
          ((taken.setRed i { x with ins := x.ins.put p y, filled := x.filled.erase (p, pSeq k) }).runRed i 65536).drainRed p fuel
        else if x.filled.contains (p, pSeq k) then
          ((taken.setRed i { x with filled := x.filled.erase (p, pSeq k) }).bump (fabricBase + 0x58)).drainRed p fuel
        else s

/-- Packets that wait on the reduction channels. -/
def State.redWaiting (s : State) : Nat := ((List.range 64).map fun p => (s.port p).redQ.length).sum

/-- Drains the reduction channels of every port, over again while one has given a packet: a packet that completes a SEQ may let
one of another port in (R308). -/
def State.drainLoop (s : State) : Nat → State
  | 0 => s
  | fuel + 1 =>
    let t := (List.range 64).foldl (fun s p => s.drainRed p ((s.port p).redQ.length)) s
    if t.redWaiting = s.redWaiting then t else t.drainLoop fuel

def State.drainAll (s : State) : State := s.drainLoop (s.redWaiting + 1)

/-- The latencies of an entry's accesses that led from `s` to `t`: TC2 unless the entry is background (R196, R307). -/
def State.noteRed (s t : State) (i : Option Nat) (slow : List (Fin 64 × Nat)) : State :=
  match i with
  | some i => if (s.red i).bg then t else s.noteSlow t (s.allotOfTag (s.red i).tag) slow
  | none => t

/-- REDUCE: a packet arrives on a port's reduction channel (R300, R308, R310): of a tag no allotment has it is dropped; else it
waits its turn and is staged, summed, and the result forwarded or delivered. Where the controllers took longest stands in the
operand (R196), as in the rows after it. -/
def execReduce (port : Fin 64) (pkt : Slowed FabPkt) (s : State) : Host.Outcome State Fault Refusal :=
  let p := port.val
  let slow := pkt.slow
  let pkt := pkt.val
  .next (if !(s.port p).carries then s
    else if pMalformed pkt then (s.fabricDrop 0 p pkt [] none).returnCredit p pkt
    else if pType pkt ≠ 5 then s
    else if (s.allotOfTag (pTag pkt)).isNone then (s.fabricDrop 1 p pkt [] none).returnCredit p pkt
    else s.noteRed (s.updPort p fun x => { x with redQ := x.redQ ++ [pkt] }).drainAll (s.redOf p pkt) slow)

/-- REDUCTION_TRIGGER: the LOCAL contribution of an entry starts: with TRIG_EN when its tally holds TRIG_N, which is
taken from it; without, when the previous use is complete (R308). -/
def execReductionTrigger (entry : Slowed (BitVec 12)) (s : State) : Host.Outcome State Fault Refusal :=
  let i := entry.val.toNat
  let x := s.red i
  let h : THome := { lvl := 2, core := { parish := 0, col := 0, row := 0 }, idx := x.trigIdx }
  .next (if !x.valid ∨ !x.localIn ∨ x.started ∨ (x.trigEn ∧ s.tally h < x.trigN) then s
    else
      let s := if x.trigEn then s.setTally h (s.tally h - x.trigN) else s
      s.noteRed ((s.setRed i { x with started := true }).runRed i 65536).drainAll (some i) entry.slow)

/-- Whether an entry holds an incomplete SEQ: an input of it has arrived, or LOCAL has started. -/
def Red.partial' (x : Red) : Bool := x.valid && (x.started || x.ins.any fun e => !e.2.staged.isEmpty || decide (e.2.next > 0))

/-- The ports whose input of the present SEQ is missing, as a mask. -/
def Red.missing (x : Red) : Nat := ((x.ports.filter fun p => !x.hasPort p x.seq).map (2 ^ ·)).sum

/-- Whether the LOCAL input of the present SEQ is missing. -/
def State.localMissing (s : State) (x : Red) : Bool := x.localIn && (s.localIn x x.seq).isNone

/-- REDUCTION_STALL of an entry at a stage: 0 WAITING, 1 POISONED (R309, R484). -/
def State.stallEvent (s : State) (i stage : Nat) : State :=
  let x := s.red i
  let a := s.allotOfTag x.tag
  s.raise evReductionStall a [(i, 2), (x.seq, 4), (x.missing, 8), (b2n (s.localMissing x), 1), (stage, 1)]
    ((a.map Dest.allot).toList)

/-- REDUCTION_STALL: an entry has held an incomplete SEQ for RED_TIMEOUT (R309). -/
def execReductionStall (entry : BitVec 12) (s : State) : Host.Outcome State Fault Refusal :=
  let i := entry.toNat
  let x := s.red i
  .next (if x.partial' ∧ x.stalls = 0 then (s.stallEvent i 0).setRed i { x with stalls := 1 } else s)

/-- REDUCTION_POISON_FILL: the second RED_TIMEOUT has expired: the SEQ completes with its missing inputs taken as
poisoned flits, whose data is a free value (R309). -/
def execReductionPoisonFill (entry : Slowed (BitVec 12)) (s : State) : Host.Outcome State Fault Refusal :=
  let i := entry.val.toNat
  let x := s.red i
  let q := x.seq
  .next (if !x.partial' ∨ x.stalls = 0 then s
    else
      let s := s.stallEvent i 1
      let was := s
      let gone : Staged := (List.replicate (ceilDiv (x.seqBytes q) 64) s.draw, BitVec.allOnes 32)
      let miss := x.ports.filter fun p => !x.hasPort p q
      let l := s.localIn x q
      let s := (match l with
        | some (t, _) => t
        | none => s).drawn
      let ps := x.ports.map fun p => (x.input p).staged.get gone q
      let ls := if x.localIn then [(l.map (·.2)).getD gone] else []
      let x := { x with filled := x.filled ++ miss.map fun p => (p, q)
                        ins := miss.foldl (fun t p => t.put p { x.input p with next := q + 1 }) x.ins }
      was.noteRed (((s.setRed i x).completeSeq i (ps ++ ls)).runRed i 65536).drainAll (some i) entry.slow)

/-- NO_ENTRY_TIMEOUT: the packet at the head of a port's reduction channel has found no entry for RED_TIMEOUT; it is
dropped and its allotment's run charged (R310). -/
def execNoEntryTimeout (port : Slowed (Fin 64)) (s : State) : Host.Outcome State Fault Refusal :=
  let p := port.val.val
  .next (match (s.port p).redQ with
    | [] => s
    | k :: t =>
      if (s.redOf p k).isSome then s
      else
        let a := s.allotOfTag (pTag k)
        let s := (s.updPort p fun x => { x with redQ := t }).returnCredit p k
        let s := s.fabricDrop 2 p k ((a.map Dest.allot).toList) a
        let s := match a with
          | some a => s.chargeCur a
          | none => s
        s.noteSlow s.drainAll a port.slow)

/-- REDUCE_OUT_PORT_TIMEOUT: REDUCE packets have waited RED_TIMEOUT for a port that is down and are dropped under R289
(R309). -/
def execReduceOutPortTimeout (port : Fin 64) (s : State) : Host.Outcome State Fault Refusal :=
  let p := port.val
  let x := s.port p
  .next (if x.carries then s
    else
      let l := (x.queued.filter fun q => q.1 = 24).map fun q => q.2.1
      let s := (s.setPort p { x with queued := x.queued.filter fun q => q.1 ≠ 24 }).bump (portBase p + 0x68) l.length
      l.foldl (fun s k => s.notify k noticeDown) (s.chargeTags l))

/-! ### Entries written (R299, R307) -/

/-- Whether a route entry is refused (R299). -/
def State.badRoute (s : State) (e : BitVec 128) : Bool :=
  let named (p : Nat) : Bool := bit e p || (bit e 70 && decide (bits e 64 6 = p))
  (List.range 64).any (fun p => named p && !portPopulated s.fuses.orderF p) ||
    (bit e 70 && bit e (bits e 64 6)) || (bit e 71 && (List.range 64).any named)

/-- Writes a route entry in every replica; none where it is refused (R299). -/
def State.amendRoute (s : State) (feid : Nat) (e : BitVec 128) : Option State :=
  if s.badRoute e then none
  else some ({ s with routes := s.routes.put feid (setBits e 79 49 0) }).retryWaiting

/-- Staging bytes an entry reserves (R307). -/
def Red.need (x : Red) : Nat := if x.valid then x.slots * (x.ports.length + b2n x.localIn) * 2048 else 0

/-- The reserved fields of a reduction entry: first bit and length (R307). -/
def redSpare : List (Nat × Nat) :=
  [1, 7, 23, 52, 129, 142, 180, 240, 283, 368, 384, 409, 485].zip [1, 3, 9, 12, 7, 18, 12, 16, 37, 16, 12, 7, 11]

/-- Reserved fields of an entry's words (R307). -/
def redReserved (w : BitVec 512) : Bool :=
  redSpare.any fun r => decide (bits w r.1 r.2 ≠ 0)

/-- Whether a write of a reduction entry by an allotment is refused (R307). -/
def State.badRed (s : State) (a i : Nat) (w : BitVec 512) : Bool :=
  let old := s.red i
  let x : Red := { words := w }
  let al := s.allot a
  let inHub (j : Nat) : Bool := decide (al.hubBase ≤ j ∧ j < al.hubBase + al.hubCount)
  let inQ (d n : Nat) : Bool := match s.viewDpa d with
    | some d => s.inQuota a d n
    | none => false
  let inputs := x.ports.length + b2n x.localIn
  let staged := (s.reds.map fun e => if e.1 = i then 0 else e.2.need).sum
  old.partial' || (old.valid && decide (old.tag ≠ al.tag)) || redReserved w || decide (x.tag ≠ al.tag) ||
    (x.valid &&
      (x.ports.any (fun p => !portPopulated s.fuses.orderF p) ||
        !portPopulated s.fuses.orderF x.outPort || x.inMask.testBit x.outPort ||
        decide (x.infmt = 3 ∨ x.outfmt > 1) || (decide (x.infmt = 0) && decide (inputs > 1)) ||
        (decide (x.outfmt = 1) && decide (x.infmt ≠ 2 ∨ x.length > 67106816)) ||
        decide (x.length = 0 ∨ x.length > 134215680) ||
        (x.trigEn && !inHub x.trigIdx) || (x.notifyEn && !inHub x.notifyIdx) ||
        (x.localIn && !inQ x.localSrc x.length) ||
        (decide (x.mode = 0) && !inQ x.deliverDpa (if x.outfmt = 1 then 2 * x.length else x.length)) ||
        decide (staged + x.need > 2 ^ 25)))

/-- Writes a reduction entry; none where it is refused (R307). Packets that waited for it may go (R310). -/
def State.amendRed (s : State) (a i : Nat) (w : BitVec 512) : Option State :=
  if s.badRed a i w then none else some (s.setRed i { words := w }).drainAll

/-- BUSY: every replica is written 2 microseconds after a write at the latest (R299, R318). DESIGN CHOICE (log entry 94): BUSY
stands for that time, as the bell counts it. -/
def State.routeIsBusy (s : State) : Bool :=
  match s.routeBusy with
  | some t => decide (t ≤ s.tick ∧ s.ticksNs (s.tick - t) < 2000)
  | none => false

/-- A command of the ROUTE block, dropped while another is in progress (R318). -/
def State.routeCmd (s : State) (f : State → State) : State :=
  if s.routeIsBusy then s.orReg (routeBase + 0x20) 4 else f s

/-- ROUTE_CMD READ: loads the entry ROUTE_IDX names into the data registers (R318). -/
def execRouteCmdRead (path : RegPath) (s : State) : Host.Outcome State Fault Refusal :=
  .next (s.writeNow path (routeBase + 0x18) true fun s => s.routeCmd fun s =>
    let e := s.route (bits (s.reg routeBase) 0 18)
    let s := s.setReg (routeBase + 0x18) 1
    (s.setReg (routeBase + 8) (BitVec.ofNat 64 (bits e 0 64))).setReg (routeBase + 0x10) (BitVec.ofNat 64 (bits e 64 64)))

/-- ROUTE_CMD WRITE: writes the data registers into the entry in every replica, or is refused (R299, R318). -/
def execRouteCmdWrite (path : RegPath) (s : State) : Host.Outcome State Fault Refusal :=
  .next (s.writeNow path (routeBase + 0x18) true fun s => s.routeCmd fun s =>
    let e := BitVec.ofNat 128 ((s.reg (routeBase + 8)).toNat + 2 ^ 64 * (s.reg (routeBase + 0x10)).toNat)
    let s := s.setReg (routeBase + 0x18) 2
    match s.amendRoute (bits (s.reg routeBase) 0 18) e with
    | some t => { t with routeBusy := some t.tick }
    | none => s.orReg (routeBase + 0x20) 2)

end Sys2Proof.Machine
end

