-- ==== Sys2Proof/Machine/Domain.lean ====
section
/-! DEFINITION. The schedule domain (R240, R249, R250, R252, R311 to R314): markers received and sent, admission,
phase error, STRETCH and DOMAIN packets. -/

namespace Sys2Proof.Machine

/-! ### Out of step (R240, R250, R312) -/

/-- A member is out of step while its own error stands or its parent's flag is set. -/
def Bell.stepState (b : Bell) : Bell := { b with outOfStep := b.errRaised || b.parentOos }

def State.setBell (s : State) (b : Bell) : State := { s with bell := b }

/-- TIMEBASE_PHASE_ERROR: raised once until the error has cleared (R240, R250); causes 0 LIMIT, 1 MARKER_LOST. -/
def State.phaseError (s : State) (cause : Nat) : State :=
  if s.bell.errRaised then s
  else
    (s.setBell ({ s.bell with errRaised := true, good := 0 } : Bell).stepState).raise evTimebasePhaseError none
      [(cause, 1), ((s.reg (clkBase + 0x48)).toNat, 8), (s.tick, 8)] [.sessions]

/-- PHASE_LIMIT in nanoseconds (R231, R243). -/
def State.phaseLimit (s : State) : Nat := bits (s.reg (clkBase + 0x50)) 0 7

/-- A marker's phase error is published and judged (R240, R250). -/
def State.judgePhase (s : State) (err : Word) : State :=
  let s := s.setReg (clkBase + 0x48) (BitVec.ofNat 64 (err.toNat + 2 ^ 63))
  let b := s.bell
  if err.toInt.natAbs ≤ 1000 * s.phaseLimit then
    let g := b.good + 1
    if b.errRaised ∧ g ≥ 10 then s.setBell ({ b with bad := 0, good := 0, errRaised := false } : Bell).stepState
    else s.setBell { b with bad := 0, good := if b.errRaised then g else 0 }
  else
    let s := s.setBell { b with bad := b.bad + 1, good := 0 }
    if b.bad + 1 ≥ 2 then s.phaseError 0 else s

/-! ### Admission (R246, R313) -/

/-- The causes of DOMAIN_REFUSED. -/
inductive Refused where
  | domain | period | version | level | length | port
  deriving DecidableEq, Repr

def Refused.code : Refused → Nat
  | .domain => 0 | .period => 1 | .version => 2 | .level => 3 | .length => 4 | .port => 5

/-- What a DOMAIN exchange and a marker show against the domain record: the first mismatch (R313); 100 m of fibre delay by 500
ns (R286, R305). -/
def State.admission (s : State) (ex : Half × Nat × Bool × Nat) (id : Half) (level : Nat) : Option Refused :=
  let c := s.boot.cfg
  if ex.1 ≠ c.domainId ∨ id ≠ c.domainId then some .domain
  else if ex.2.1 ≠ s.bell.n then some .period
  else if !ex.2.2.1 then some .version
  else if ex.2.2.2 + 1 ≠ c.level ∨ level + 1 ≠ c.level then some .level
  else if (s.port c.parentPort).delayPs.toNat > 500000 then some .length
  else if !portPopulated s.fuses.orderF c.parentPort then some .port
  else none

/-- G_min of a member of a domain, in ticks (R253). -/
def gMin (c : Cfg) : Nat :=
  let h : Int := 2 * ((c.levels : Int) - 1)
  let d : Int := 600000 + (h - 1) * 350000 + 5000 * (c.pathMetres : Int) + h * 1100000 + 24000
  ceilDiv d.toNat (c.bellN * 6400) + 1

/-- The stretch guard in use (R253): the larger of G and G_min, which is 1 outside a domain. -/
def guardOf (c : Cfg) (member : Bool) : Nat := max c.guardG (if member then gMin c else 1)

/-- DOMAIN_REFUSED with a cause (R313). -/
def State.refuseDomain (s : State) (r : Refused) : State :=
  s.raise evDomainRefused none [(r.code, 1), (s.boot.cfg.parentPort, 1)] []

/-- An unpopulated PARENT_PORT, over which no exchange can come, refuses admission (R281, R313). -/
def State.refusePort (s : State) : State :=
  let c := s.boot.cfg
  if c.domain ∧ !c.root ∧ !portPopulated s.fuses.orderF c.parentPort then s.refuseDomain .port else s

/-- A module outside its domain meets a marker: admitted with the marker's bell count, or refused (R313). -/
def State.joinDomain (s : State) (count : DWord) (id : Half) (level : Nat) (oos : Bool) : State :=
  match s.bell.parentDomain with
  | none => s.refusePort
  | some ex =>
    match s.admission ex id level with
    | some r => s.refuseDomain r
    | none =>
      s.setBell ({ s.bell with count := count, member := true, parentOos := oos, guardG := guardOf s.boot.cfg true } : Bell).stepState

/-- PHASE_ERR of a marker that arrives `atPs` picoseconds into the tick in progress: this module's phase, less the marker's with
the link's delay added (R240, R312), at the nearest value of the register's width. -/
def State.phaseErr (s : State) (count : DWord) (period : BitVec 18) (atPs : Nat) : Word :=
  let ticks : Int := (s.bell.count - count).toInt
  let e : Int := ticks * (s.bell.n * 6400 : Nat) + (atPs : Int) - (period.toNat * 6400 : Nat)
    - ((s.port s.boot.cfg.parentPort).delayPs.toNat : Int)
  BitVec.ofInt 32 (max (-2147483647) (min 2147483647 e))

/-- MARKER: a phase marker arrives on the time lane, `atPeriod` clock periods and `atPs` picoseconds into this module's
tick (R240, R249, R250, R312, R313). -/
def execMarker (count : DWord) (period : BitVec 18) (domainId : Half) (level : BitVec 3) (oos : Bool)
    (atPeriod atPs : Nat) (s : State) : Host.Outcome State Fault Refusal :=
  let c := s.boot.cfg
  .next (if !s.up ∨ !c.domain ∨ c.root then s
    else if s.bell.member then (s.setBell ({ s.bell with parentOos := oos } : Bell).stepState).judgePhase
      (s.phaseErr count period (6400 * atPeriod + atPs))
    else s.joinDomain count domainId level.toNat oos)

/-- MARKER_LOST: a member has seen no marker for 250 microseconds (R240). -/
def execMarkerLost (s : State) : Host.Outcome State Fault Refusal :=
  .next (if s.up ∧ s.bell.member ∧ !s.boot.cfg.root then s.phaseError 1 else s)

/-- The ports toward children that carry traffic (R311). -/
def State.children (s : State) : List Nat :=
  (List.range 64).filter fun p => bit s.boot.cfg.childMask p && (s.port p).carries

/-- The period of the tick in progress at which its first marker is due: the bell phase is then a multiple of 1,600 periods from
tick 0 (R312). -/
def Bell.markerPeriod (b : Bell) : Nat := (1600 - b.count.toNat * b.n % 1600) % 1600

/-- The markers due in the tick in progress: none in some ticks, several in a tick of more than 1,600 periods (R312). -/
def Bell.markersDue (b : Bell) : Nat := ceilDiv (b.n - b.markerPeriod) 1600

/-- MARKER_SEND: a parent sends a marker on each child port: count, period index, domain, level and OUT_OF_STEP (R312). Which of
several markers of one tick it is, the command does not say: a free value. -/
def execMarkerSend (s : State) : Host.Outcome State Fault Refusal :=
  let b := s.bell
  .next (if s.up ∧ b.member ∧ b.markersDue > 0 then
    let k := if b.markersDue = 1 then 0 else bits s.draw 0 8 % b.markersDue
    let args := [b.count.toNat, b.markerPeriod + 1600 * k, s.boot.cfg.domainId.toNat, s.boot.cfg.level, b2n b.outOfStep]
    (s.children.foldl (fun s p => s.linkOut p 4 args) s).drawn
  else s)

/-! ### STRETCH (R252, R255, R314) -/

/-- The request a STRETCH packet carries. DESIGN CHOICE (log entry 49): byte 32 tag, 34 and 35 k, 40 to 47 T_d, 48 to 55 t_i. -/
def stretchReqOf (k : FabPkt) : StretchReq :=
  { src := BitVec.ofNat 24 (pSrc k), tag := pBody k 32 1, k := pBody k 34 2, td := pBody k 40 8, ti := pBody k 48 8 }

/-- The STRETCH packet of a request, from the module that made it. -/
def stretchPkt (q : StretchReq) : FabPkt :=
  { hdr := mkHdr 7 false 0 q.tag 0 0 q.src.toNat 0 0 0 0 1 0 0 0 (q.tag + 2 ^ 16 * q.k + 2 ^ 64 * q.td + 2 ^ 128 * q.ti), data := [] }

/-- A request is recorded once; one whose deadline tick has passed has no effect (R255, R314). -/
def Bell.record (b : Bell) (t : Nat) (q : StretchReq) : Bell :=
  if q.td < t ∨ b.requests.contains q then b else { b with requests := b.requests ++ [q] }

/-- A request goes on over the tree, once in each direction: up to the parent, at the root and below down to the
children (R314). -/
def State.spread (s : State) (up : Bool) (q : StretchReq) : State :=
  let goUp := up && !s.boot.cfg.root
  if s.bell.forwarded.contains (goUp, q) then s
  else
    let s := s.setBell { s.bell with forwarded := s.bell.forwarded ++ [(goUp, q)] }
    (if goUp then [s.boot.cfg.parentPort] else s.children).foldl
      (fun s p => s.enqueue p (chanOf 0 false 0) (stretchPkt q)) s

/-- A STRETCH that came in on a port reaches the bell unit: recorded, and forwarded once (R255, R314). -/
def State.stretchHere (s : State) (p : Nat) (k : FabPkt) : State :=
  if !s.bell.member then s
  else
    let q := stretchReqOf k
    (s.setBell (s.bell.record s.tick q)).spread (decide (p ≠ s.boot.cfg.parentPort)) q

/-- STRETCH: a request arrives from a child or the parent and goes to the bell unit (R255, R314), or waits for crier tables where
its way needs a lost sector (R269). -/
def execStretch (port : Fin 64) (pkt : FabPkt) (s : State) : Host.Outcome State Fault Refusal :=
  let p := port.val
  .next (if !(s.port p).carries then s
    else if pMalformed pkt then (s.fabricDrop 0 p pkt [] none).returnCredit p pkt
    else if pType pkt ≠ 7 then s
    else
      let s := s.returnCredit p pkt
      if s.crierOpen (portSector p) 0 then s.stretchHere p pkt else { s with crierHeld := s.crierHeld ++ [(p, pkt)] })

/-- DOMAIN: the parent's domain identity arrives on PARENT_PORT (R292, R313). DESIGN CHOICE (log entry 49): bytes 32 and 33 the
domain ID, 34 to 37 n, 38 the level, 39 the Verux version. -/
def execDomain (port : Fin 64) (pkt : FabPkt) (s : State) : Host.Outcome State Fault Refusal :=
  let p := port.val
  .next (if !(s.port p).carries then s
    else if pMalformed pkt then (s.fabricDrop 0 p pkt [] none).returnCredit p pkt
    else if pType pkt ≠ 10 then s
    else
      let s := s.returnCredit p pkt
      if s.boot.cfg.domain ∧ p = s.boot.cfg.parentPort then
        let ex := (BitVec.ofNat 16 (pBody pkt 32 2), pBody pkt 34 4 % 2 ^ 18, decide (pBody pkt 39 1 = 1), pBody pkt 38 1)
        s.setBell { s.bell with parentDomain := some ex }
      else s)

end Sys2Proof.Machine
end

