-- ==== Sys2Proof/Machine/Power.lean ====
section
/-! DEFINITION. Power, heat and level load (R372 to R402): budget and grants, deferral, deficit and stretch requests, the
envelope and ballast, droop and heat, margin sentinels, loans, energy metering. -/

namespace Sys2Proof.Machine

/-! ### Power steps (R392, R398) -/

def State.setReeve (s : State) (r : Reeve) : State := { s with reeve := r }

/-- The envelope moves by a loan or a cut (R398). -/
def Reeve.shift (r : Reeve) (w : Int) : Reeve := { r with envelope := ((r.envelope : Int) + 1000000 * w).toNat }

/-- LEVEL_BREAK (R390, R392): causes 0 FLOOR, 1 EMERGENCY, 2 TRIP, 3 UVLO restart. -/
def State.levelBreak (s : State) (cause w us : Nat) : State :=
  (s.bump (reeveBase + 0x78)).raise evLevelBreak none [(cause, 1), (w, 4), (us, 4)] [.sessions]

/-- Power falls at once by what a tripped rail drew: reported where it passes LEVEL_BAND, and always for a parish's rail (R471),
and the envelope follows (R392). The time the fall takes is the 5 microseconds of R386. -/
def State.powerStep (s : State) (always : Bool) (w : Nat) : State :=
  let s := if always ∨ w > s.boot.cfg.levelBand then s.levelBreak 2 w 5 else s
  s.setReeve (s.reeve.shift (-(w : Int)))

/-- A parish's rail set point in millivolts (R377); trims are kept in half millivolts. -/
def Parish.setPoint (x : Parish) : Nat :=
  (max 620 (min 800 (720 + x.trim / 2 + x.opOfs + (x.suspectOfs : Int)))).toNat

/-- The set point of a rail in millivolts (R21, R377); the spec states no voltage of the stack supplies, and none for a
guest rail the store does not set (log entry 81). DESIGN CHOICE (the same entry): a guest voltage outside R21's range is taken
as the store has it. -/
def State.railMv (s : State) (rail : Nat) : Nat :=
  if rail < 78 then (s.parish rail).setPoint else if rail ≤ clkRail then 800 else if rail < 103 then Config.stackMv
  else if rail < 107 then 3300
  else if rail < 111 then (Tab.find? s.boot.cfg.gsMv (rail - 107)).getD (700 + (Config.guestMv (rail - 107)).val)
  else 1800

/-- Power of a rail as last measured, in watts: of a parish from its own readings (R404), of another from its regulators' output
currents (R373). -/
def State.railW (s : State) (rail : Nat) : Nat :=
  if rail < 78 then
    let v := s.reg (parishBase rail + 0x4000)
    bits v 0 16 * bits v 16 16 / 10000
  else ((s.reeve.regulators.filter fun g => decide (g.1.val = rail)).map (·.2.2.1.toNat)).sum * s.railMv rail / 10000

/-! ### Deferral (R381, R390) -/

/-- CAP_DEFERRED of a run (R405). -/
def State.capEvent (s : State) (a kind limitW floorW : Nat) : State :=
  ((s.bump (reeveBase + 0x68)).raiseA evCapDeferred a
    [(kind, 2), (limitW, 4), (floorW, 4), ((s.allot a).secseqOf (s.allot a).curRun, 4)]).note a evCapDeferred 0

/-- A run's floor is kept past a limit, with CAP_DEFERRED once (R381): limit kinds 0 cap, 1 loan expiry, 2 ramp. -/
def State.deferRun (s : State) (a kind limitW floorW : Nat) : State :=
  let s' := s.updExec a fun e => { e with deferred := true }
  if s.noted a evCapDeferred 0 then s' else s'.capEvent a kind limitW floorW

/-- The deferral of a run with a floor begins, or its limit is met again (R381). -/
def State.deferral (s : State) (l : List Share) (x : Share) : State :=
  let r := s.reeve
  let full := floors l + headroom l
  let need := r.overheadW + floors l * r.parishW / 256
  let c := r.field r.capNow full
  let e := r.field (r.envelope / 1000000) full
  if c < floors l ∧ x.floor > 0 then (if s.deferPast x.a then s else s.deferRun x.a (if r.loanCut then 1 else 0) r.capNow need)
  else if e < floors l ∧ x.floor > 0 then s.deferRun x.a 2 (r.envelope / 1000000) need
  else (s.updExec x.a fun y => { y with deferred := false }).updAllot x.a fun y =>
    { y with deferOver := y.deferOver && decide (c < floors l) }

/-- The least issue cap of a run's parishes (R466). -/
def State.capOf (s : State) (a : Nat) : Nat := ((s.allot a).parishList.map fun p => (s.parish p).launchCap).foldl min 256

/-- An issue cap below the floor is deferred too (R381, R466). Its limit kind has no code, and is a free value (log entry 99). -/
def State.deferCap (s : State) (x : Share) : State :=
  let r := s.reeve
  let cap := s.capOf x.a
  if cap ≥ x.floor then
    (s.updExec x.a fun y => { y with capDeferred := false }).updAllot x.a fun y => { y with capOver := false }
  else if (s.allot x.a).capOver then s
  else
    let s' := s.updExec x.a fun e => { e with capDeferred := true }
    if s.noted x.a evCapDeferred 0 then s'
    else (s'.capEvent x.a (bits s.draw 0 16) (r.overheadW + x.n * cap * r.parishW / 256)
      (r.overheadW + x.n * x.floor * r.parishW / 256)).drawn

/-- RAMP_LIMITED of a run held by the envelope, once (R390). -/
def State.rampLimit (s : State) (l : List Share) (x : Share) : State :=
  let r := s.reeve
  let full := floors l + headroom l
  let e := r.field (r.envelope / 1000000) full
  if e < min full (r.field r.budget full) ∧ !s.noted x.a evRampLimited 0 then
    (s.raiseA evRampLimited x.a [(r.envelope / 1000000, 4), (r.demandW, 4),
      ((s.allot x.a).secseqOf (s.allot x.a).curRun, 4)]).note x.a evRampLimited 0
  else s

/-! ### Deficit and stretch (R252, R254, R382) -/

/-- The ticks of floor issue by which a run with its book is projected to be short at its deadline: k of R382. -/
def State.stretchNeed (s : State) (a : Nat) (e : Exec) (r : RunId) (y : RunBook) : Nat :=
  let x := s.allot a
  let left := x.deadlineTick e r - s.fieldTick a
  let short := (x.parishList.map fun p => (y.floor - (s.parish p).gEff) * s.beatsOf p).foldl max 0
  let b := match s.lead a with
    | some p => s.beatsOf p
    | none => 0
  let fb := y.floor * b
  if fb = 0 then 0 else min 1024 ((2 * (y.deficit + left * short) + fb) / (2 * fb))

/-- Requests a stretch for the live run at place `i` when its need has grown: sent over the tree and recorded, or late at the
cutoff (R252, R254, R255, R382). -/
def State.stretchFor (s : State) (a i : Nat) : State :=
  let x := s.allot a
  match x.exec, x.exec.bind fun e => e.fills[i]? with
  | some e, some (r, _) =>
    let k := s.stretchNeed a e r (e.book i)
    if k ≤ (e.book i).lastK then s
    else
      let td := x.deadlineTick e r
      let t := s.fieldTick a
      let s := s.updExec a fun e => e.updBook i fun y => { y with lastK := k }
      if t + s.bell.guardG < td then
        let q : StretchReq := { src := s.boot.cfg.feid, tag := x.tag, td := td, k := k, ti := t }
        let s := (s.setBell (s.bell.record t q)).bump (reeveBase + 0x70)
        if s.bell.member then s.spread true q else s
      else
        (s.bump (bellBase + 0x30)).raiseA evBellStretch a
          [(1, 1), (x.tag, 1), (td, 8), (k, 2), (0, 4), (b2n s.bell.outOfStep, 1)]
  | _, _ => s

/-- The same for every live run of an allotment, each with its own deficit (R382). -/
def State.requestStretch (s : State) (a : Nat) : State :=
  (((s.allot a).exec.map Exec.live).getD []).foldl (fun s i => s.stretchFor a i) s

/-- A run has launched where a limit whose deferral is over holds it below its floor: a stretch is asked for at its launch
(R381). -/
def State.launchAsk (s was : State) (a : Nat) : State :=
  let n (s : State) : Nat := ((s.allot a).exec.map (·.launched)).getD 0
  let x := s.allot a
  if n was < n s ∧ (x.deferOver ∨ x.capOver) then s.requestStretch a else s

/-- SECTION_LOADER_FILL: the loader starts on the next run's banks (R148, R158); a run that launches late, as its fill begins
(R79), may need a stretch. -/
def execSectionLoaderFill (a : Fin 16) (s : State) : Host.Outcome State Fault Refusal :=
  .next ((s.fillNext a).launchAsk s a)

/-! ### LOAN packets (R395, R396) -/

/-- A LOAN packet. -/
def loanPkt (s : State) (dst kind amount expiry : Nat) (slack : Int) (id : Word) : FabPkt :=
  { hdr := mkHdr 9 false 1 0 0 dst s.feid 0 0 0 0 1 0 0 0
      (kind + 2 ^ 16 * s.boot.cfg.domainId.toNat + 2 ^ 32 * (amount % 2 ^ 32) + 2 ^ 64 * expiry
        + 2 ^ 128 * (BitVec.ofInt 32 slack).toNat + 2 ^ 160 * id.toNat), data := [] }

/-- Whether loans run (R395, R399). -/
def State.loansOn (s : State) : Bool := s.boot.cfg.loans && s.bell.member && !s.bell.outOfStep

/-- A run's projected margin in 0.1 % of its window (R395, R396): less than 0 by the stretch that a run in deficit needs; without
a deficit the spec gives no measure of it, and it is a free value (DESIGN CHOICE, log entry 53). -/
def State.margin (s : State) (a : Nat) (e : Exec) (run : RunId) : Int :=
  let x := s.allot a
  let y := e.book e.ended
  if y.deficit = 0 then (bits s.draw 0 10 : Nat)
  else -((1000 * s.stretchNeed a e run y / max 1 (x.deadlineTick e run - x.launchTick e run) : Nat) : Int)

/-- REQUEST to the partners for a run in deficit, or with a margin below 10 % of its window, whose grant the budget holds below
its ceiling, while no request is outstanding (R395). -/
def State.askLoan (s : State) (l : List Share) (x : Share) : State :=
  let r := s.reeve
  let q := r.field r.budget (floors l + headroom l)
  let g := s.grantFor l x
  match (s.allot x.a).exec, (s.allot x.a).curRun with
  | some e, some run =>
    let slack := s.margin x.a e run
    if s.loansOn ∧ r.asked.isEmpty ∧ r.loans.length < 16 ∧ g < x.ceiling ∧ q < floors l + headroom l then
      let d := (e.book e.ended).deficit
      let s := if d = 0 then s.drawn else s
      if !(d > 0 || slack < 100) then s else
      let amount := (x.ceiling - g) * x.n * r.parishW / 256
      s.boot.cfg.partners.foldl (fun (s : State) (p : BitVec 24) =>
        let id := BitVec.ofNat 32 s.reeve.loanIds
        let s := s.setReeve { s.reeve with loanIds := s.reeve.loanIds + 1, asked := s.reeve.asked ++ [(p, id, x.a)] }
        s.forward (loanPkt s p.toNat 1 amount 0 slack id) none) s
    else s
  | _, _ => s

/-! ### The envelope and ballast (R390 to R393) -/

/-- START_TICK as it counts: 0 is 100 microseconds from now. -/
def State.startTick (s : State) (v : Nat) : Nat := if v = 0 then s.tick + s.nsTicks 100000 else v

/-- The start tick of a program whose first run is to come: of the RUN under execution, or of one accepted that waits behind no
LOAD (R391). -/
def State.startAhead (s : State) (x : Allot) : Option Nat :=
  match x.exec.filter fun e => decide (e.launched = 0) with
  | some e => some e.start
  | none =>
    let l := (x.active.toList ++ x.queue).filterMap fun n => (s.entryOf n).map (·.2)
    ((l.takeWhile fun e => decide (e.opcode ≠ 5)).find? fun e => decide (e.opcode = 6)).map fun e => s.startTick (leAt e.body 32 8)

/-- The power estimate of a program whose first run is to come, where the envelope must start to rise for it now
(R391). -/
def State.startDemand (s : State) (x : Allot) : Nat :=
  match s.startAhead x, x.prog with
  | some t, some g =>
    let r := s.reeve
    let point := min (((g.sects.head?).map (·.opPref)).getD 6) x.opCeil
    let est := r.overheadW + x.parishList.length * r.parishW * opQuota point / 256
    let us := s.ticksNs (t - s.tick) / 1000
    if 1000000 * est ≥ r.envelope + s.boot.cfg.rampUp * us then est else 0
  | _, _ => 0

/-- One 10 microsecond step of the envelope, in microwatts, before floors and emergencies (R390): envelope, demand and floor are
taken net of loans (R398). -/
def Reeve.stepEnvelope (r : Reeve) (c : Cfg) (demandW : Nat) : Nat :=
  let net : Int := 1000000 * ((r.borrowed : Int) - (r.lent : Int))
  let d : Int := 1000000 * (demandW : Int) - net
  let e : Int := (if r.envelope = 0 then 1000000 * r.inputW else r.envelope : Nat) - net
  let e := if d > e then min d (e + 10 * c.rampUp) else max d (e - 10 * c.rampDown)
  let e := if r.jobTime then max e ((c.floorPct * r.meanW * 10000 : Nat) : Int) else e
  (e + net).toNat

/-- The envelope's step (R390, R392): floors win, with LEVEL_BREAK; the ceilings that act at once hold it at every step,
ramp, ballast and floors included (R24). What emergencies take from the grants at once, or the ceilings from the envelope, is an
emergency cut where it passes the band, and the envelope goes on from what remains. -/
def State.moveEnvelope (s : State) (l : List Share) : State :=
  let r := s.reeve
  let band := s.boot.cfg.levelBand
  let demand := (s.allots.map fun e => s.startDemand e.2).foldl max r.demandW
  let e := min (r.stepEnvelope s.boot.cfg demand) (1000000 * r.hard)
  let need := min (r.overheadW + floors l * r.parishW / 256) r.hard
  let cut := max (s.cutW l) (r.envelope / 1000000 - r.hard)
  if cut > band then (s.setReeve { r with envelope := min e (r.envelope - 1000000 * cut) }).levelBreak 1 cut 10
  else if floors l > 0 ∧ 1000000 * need > e + 1000000 * band then
    (s.setReeve { r with envelope := 1000000 * need }).levelBreak 0 (need - e / 1000000) 10
  else s.setReeve { r with envelope := e }

/-- A fall of the measured power past the band while a parish is throttled or drooping is an emergency's: reported, and the
envelope goes on from the power that remains (R380, R392). -/
def State.fieldFall (s : State) : State :=
  let r := s.reeve
  let fall := r.envelope / 1000000 - r.inputW
  if fall > s.boot.cfg.levelBand ∧ (List.range 78).any (fun p => (s.parish p).droop || decide ((s.parish p).throttle < 256)) then
    (s.setReeve (r.shift (-(fall : Int)))).levelBreak 1 fall 10
  else s

/-- The cores of a parish that may run ballast: of a dark one none, of one without a running run all, of one in a run those that
have retired END, in planned idle or of the default image too (R393). -/
def State.ballastCores (s : State) (par : Nat) : Nat :=
  let x := s.parish par
  if !x.railOn || x.dark then 0
  else if (s.allotOf par).all fun a => (s.allot a).curRun.isNone then 7680
  else ((s.listed fun p => decide (p = par)).filter fun p =>
    decide ((s.core p).mode = .ended) || decide ((s.core p).mode = .retired)).length

/-- The ballast quota at which a gap of `w` watts below the envelope is filled by `n` cores (R390, R393). -/
def Reeve.ballastQuota (r : Reeve) (w n : Nat) : Nat := if n * r.parishW = 0 then 0 else min 256 (w * 256 * 7680 / (n * r.parishW))

/-- Ballast fills what demand leaves below the envelope (R390, R393). DESIGN CHOICE (log entry 122): every core that may run it
has the same quota. -/
def State.setBallast (s : State) : State :=
  let r := s.reeve
  let gap := r.envelope / 1000000 - r.demandW
  let l := (List.range 78).map fun p => (p, s.ballastCores p)
  let q := r.ballastQuota gap (l.map (·.2)).sum
  let s := l.foldl (fun s e =>
    let b := if e.2 = 0 then 0 else q
    if (s.parish e.1).ballast = b then s else s.updParish e.1 fun x => { x with ballast := b }) s
  s.setReeve { s.reeve with parked := decide (gap = 0) && !s.reeve.jobTime && !(s.allots.any fun e => decide (e.2.st = .running)) }

/-! ### Energy (R400, R401) -/

/-- Microjoules charged for raw ones at the model's scale. -/
def Reeve.scaled (r : Reeve) (n : Nat) : Nat := n * r.scale.1 / r.scale.2

/-- Counts a telemetry set's energy. -/
def State.meter (s : State) (o : Telemetry) : State :=
  let r := s.reeve
  let live := o.est.filter fun e => (s.allot e.1).st ≠ .free
  let add (t : Tab DWord) (k n : Nat) : Tab DWord := t.put k (Tab.get 0 t k + BitVec.ofNat 64 (r.scaled n))
  let raw := (live.map (·.2.1)).sum + o.ballastUj + o.unattrUj
  let charged := (live.map fun e => r.scaled e.2.1).sum + r.scaled o.ballastUj + r.scaled o.unattrUj
  s.setReeve { r with
    energy := r.energy + BitVec.ofNat 64 o.energyUj
    ballast := r.ballast + BitVec.ofNat 64 (r.scaled o.ballastUj)
    unattr := r.unattr + BitVec.ofNat 64 (r.scaled o.unattrUj)
    est := live.foldl (fun t e => add t e.1 e.2.1) r.est
    ballastA := live.foldl (fun t e => add t e.1 e.2.2) r.ballastA
    rawUj := r.rawUj + raw, chargedUj := r.chargedUj + charged, nativeUj := r.nativeUj + o.energyUj }

/-- ENERGY_RESCALE: the scale for the next 60 s, sized so that the sums agree with the native meter at its end; no
counter steps (R401). -/
def execEnergyRescale (s : State) : Host.Outcome State Fault Refusal :=
  let r := s.reeve
  let carry := r.carryUj + (r.nativeUj : Int) - (r.chargedUj : Int)
  .next (s.setReeve { r with
    scale := if r.rawUj = 0 then (1, 1) else (((r.nativeUj : Int) + carry).toNat, r.rawUj)
    carryUj := carry, rawUj := 0, chargedUj := 0, nativeUj := 0 })

/-! ### Telemetry (R373, R388) -/

/-- A parish's readings enter its registers (R141, R404). -/
def State.readParish (s : State) (o : ParishTel) : State :=
  let b := parishBase o.parish
  let least := match s.regs.find? (b + 0x4020) with
    | some v => min (bits v 16 16) o.slackPs.toNat
    | none => o.slackPs.toNat
  let n := bits (s.reg (b + 0x1520)) 16 48 + 1
  let temps := (o.temps.toList.zipIdx.map fun t => t.1.toNat * 2 ^ (16 * t.2)).sum
  let s := s.setReg (b + 0x4000) (BitVec.ofNat 64 (o.deciA.toNat + 2 ^ 16 * o.mv.toNat))
  let s := s.setReg (b + 0x4008) (BitVec.ofNat 64 temps)
  let s := s.setReg (b + 0x4020) (BitVec.ofNat 64 (o.slackPs.toNat + 2 ^ 16 * least))
  s.setReg (b + 0x1520) (BitVec.ofNat 64 (o.rate.toNat + 2 ^ 16 * (n % 2 ^ 48)))

/-- A sentinel slack below 15 ps is a margin alarm and a strike (R388, R466). -/
def State.sentinel (s : State) (o : ParishTel) : State :=
  if o.slackPs.toNat < 15 then
    let s := s.strikeParish o.parish
    s.raise evMarginLow none [(o.parish, 1), (o.slackPs.toNat, 4), ((s.parish o.parish).suspectOfs, 2)] []
  else s

/-- What the reeve decides from a telemetry set: envelope, deferrals, grants, ballast, stretch and loan requests (R378 to R382,
R390 to R395). -/
def State.steer (s : State) : State :=
  let l := s.shares
  let s := s.fieldFall.moveEnvelope l
  let s := l.foldl (fun s x => (s.deferral l x).deferCap x) s
  let s := l.foldl (fun s x => s.rampLimit l x) s
  let r := s.reeve
  let full := floors l + headroom l
  let held := !l.isEmpty && decide (r.field (r.envelope / 1000000) full < min full (r.field r.budget full))
  let s := s.setReeve { r with rampHeld := held, loanCut := r.loanCut && decide (r.field r.capNow full < floors l) }
  let s := l.foldl (fun s x => s.giveGrant l x) s
  let s := s.setBallast
  let s := l.foldl (fun s x => s.requestStretch x.a) s
  l.foldl (fun s x => s.askLoan l x) s

/-- REEVE_TELEMETRY: a telemetry set is read; what the reeve decides follows from it, but while its takeover is pending, when
every grant stays (R372, R373, R388), and energy is metered (R400, R401). -/
def execReeveTelemetry (o : Telemetry) (s : State) : Host.Outcome State Fault Refusal :=
  .next (if !s.up then s
    else
      let s := s.setReeve { s.reeve with
        inputW := o.inputW, inputMv := o.inputMv, inputDeciA := o.inputDeciA, overheadW := o.overheadW
        demandW := o.demandW, parishW := o.parishW, meanW := o.meanW, plates := o.plates
        engines := o.engines, regulators := o.regulators
        activity := o.parishes.foldl (fun t e => t.put e.parish e.activity) s.reeve.activity }
      let s := o.stackTemps.foldl (fun s t => s.setMc t.1 ((s.mc t.1).heat t.2.toNat)) s
      let tel := o.parishes.filter fun t => (s.parish t.parish).railOn
      let s := tel.foldl State.readParish s
      let s := tel.foldl State.sentinel s
      (if s.reeve.failing then s else s.steer).meter o)

/-- DEFER_MAX_EXPIRY: a deferral has lasted DEFER_MAX, and the limit applies as an emergency (R381). -/
def execDeferMaxExpiry (a : Fin 16) (s : State) : Host.Outcome State Fault Refusal :=
  .next (s.deferEnds a)

/-- FLOOR_HOLD_EXPIRY: job time ends (R390). -/
def execFloorHoldExpiry (s : State) : Host.Outcome State Fault Refusal :=
  .next (if s.reeve.jobEnding then s.setReeve { s.reeve with jobTime := false, jobEnding := false } else s)

/-! ### Droop and heat (R383 to R385) -/

/-- Whether what the hardware reads of a rail trips it: above 150 % of its limit, or below 90 % of its set point (R386). -/
def State.trips (s : State) (rail : Nat) : RailObs → Bool
  | .overcurrent deciA => decide (2 * deciA > 3 * s.railLimit rail)
  | .undervoltage mv => decide (10 * mv < 9 * s.railMv rail)
  | .regulator => true

/-- DROOP: a parish's rail falls 30 mV below its set point: its quota is halved, the droop counted, a storm of more than
100 in a second a strike (R383, R466). -/
def execDroop (par : Fin 78) (ns : Nat) (s : State) : Host.Outcome State Fault Refusal :=
  let x := s.parish par
  let t := s.ticksNs s.tick + ns
  .next (if !x.railOn ∨ x.dark then s
    else
      let times := t :: x.droopTimes.filter fun u => decide (1000000000 + u > t)
      let storm := decide (times.length > 100)
      let s := s.setParish par { x.settleGrant ns with droop := true, droopEnd := t + 200, droopTimes := if storm then [] else times }
      let s := (s.bump (parishBase par + 0x4028)).bump (reeveBase + 0x60)
      let a := s.allotOf par
      let n := bits (s.reg (parishBase par + 0x4028)) 0 32
      let s := s.raise evDroop a [(par, 1), (x.setPoint, 2), (n, 4)] ((a.map Dest.allot).toList)
      if storm then s.strikeParish par else s)

/-- DROOP_END: 200 ns have passed since the last droop (R383): until then the halved grant was in fact applied (R382). -/
def execDroopEnd (par : Fin 78) (s : State) : Host.Outcome State Fault Refusal :=
  .next (s.updParish par fun x => { x.settleGrant (x.droopEnd - s.ticksNs s.tick) with droop := false })

/-- PARISH_THROTTLE, at the first throttle of a parish in each run (R384). DESIGN CHOICE (log entry 123): where no run is under
way, once as the throttle begins. -/
def State.throttleEvent (s : State) (par deciC : Nat) (begins : Bool) : State :=
  let record := [(par, 1), (deciC, 2), ((s.parish par).throttle, 2)]
  match s.allotOf par with
  | none => if begins then s.raise evParishThrottle none record [] else s
  | some a =>
    if (s.allot a).curRun.isNone then (if begins then s.raiseA evParishThrottle a record else s)
    else if s.noted a evParishThrottle par then s else (s.raiseA evParishThrottle a record).note a evParishThrottle par

/-- PARISH_THROTTLE: a parish's hottest sensor reaches 90 degrees (R384). -/
def execParishThrottle (par : Fin 78) (deciC : Half) (s : State) : Host.Outcome State Fault Refusal :=
  let x := s.parish par
  .next (if !x.railOn ∨ x.dark ∨ x.throttle < 256 ∨ deciC.toNat < 900 then s
    else (s.setParish par { x with throttle := 192 }).throttleEvent par deciC.toNat true)

/-- THROTTLE_STEP: 10 microseconds at or above 90 degrees lower the cap, 100 below 87 raise it until the throttle ends
(R384). -/
def execThrottleStep (par : Fin 78) (hot : Bool) (s : State) : Host.Outcome State Fault Refusal :=
  let x := s.parish par
  let hottest := ((List.range 4).map fun i => bits (s.reg (parishBase par + 0x4008)) (16 * i) 16).foldl max 0
  .next (if !x.railOn ∨ x.dark ∨ x.throttle ≥ 256 then s
    else if hot then (s.setParish par { x with throttle := max 32 (x.throttle - 16) }).throttleEvent par hottest false
    else s.setParish par { x with throttle := min 256 (x.throttle + 16) })

/-- STACK_THROTTLE: a stack at 85 degrees or above has its activations halved, above 85 its refresh doubled, and the event
is raised once per stack per run; below, both end (R186, R193, R385). -/
def execStackThrottle (stack : Fin 64) (deciC : Half) (s : State) : Host.Outcome State Fault Refusal :=
  let m := stack.val
  let x := s.mc m
  .next (if !s.stackUp m then s
    else
      let s := s.setMc m (x.heat deciC.toNat)
      if deciC.toNat < 850 then s
      else
        let due := (s.allots.filter fun e => decide (e.2.st ≠ .free) && decide (e.2.stripeCount > 0) && x.inSet
          && !s.noted e.1 evStackThrottle m).map (·.1)
        if due.isEmpty then s
        else
          let s := s.raise evStackThrottle none [(m, 1), (deciC.toNat, 2)] (due.map Dest.allot)
          due.foldl (fun s a => s.note a evStackThrottle m) s)

/-! ### The reeve's steward (R372) -/

/-- The standby takes over the reeve (R372); the steward it takes it from is its standby where it has been restarted already
(R478). -/
def State.reeveFailover (s : State) : State :=
  let r := s.reeve
  let new := 3 - r.steward
  let s := s.setReeve { r with steward := new, standby := r.failing && !s.ras.retired.contains r.steward, failing := false }
  s.raise evReeveFailover none [(r.steward, 1), (new, 1), (s.tick, 8)] []

/-- REEVE_FAILOVER: the acting steward's watchdog expires and the standby takes over; grants stay (R372). -/
def execReeveFailover (s : State) : Host.Outcome State Fault Refusal :=
  .next (if s.up ∧ s.reeve.standby then s.reeveFailover else s)

/-! ### Loans (R395 to R399) -/

/-- A LOAN packet of a kind arrives (R291, R396): of another domain it is dropped. -/
def State.loanArrive (s : State) (p : Nat) (k : FabPkt) (kind : Nat) (f : State → State) : State :=
  if pMalformed k ∨ pBody k 32 1 = kind then
    s.arrive p k 9 fun s => if pBody k 34 2 = s.boot.cfg.domainId.toNat ∧ s.boot.cfg.domain then f s else s
  else s

/-- LOAN_REQUEST: a partner's request is collected (R395). -/
def execLoanRequest (port : Fin 64) (pkt : FabPkt) (s : State) : Host.Outcome State Fault Refusal :=
  .next (s.loanArrive port pkt 1 fun s =>
    if s.boot.cfg.loans ∧ s.bell.member ∧ s.boot.cfg.partners.contains (BitVec.ofNat 24 (pSrc pkt)) then
      s.setReeve { s.reeve with collecting := s.reeve.collecting ++
        [(BitVec.ofNat 24 (pSrc pkt), pBody pkt 36 4, (BitVec.ofNat 32 (pBody pkt 48 4)).toInt, BitVec.ofNat 32 (pBody pkt 52 4))] }
    else s)

/-- The lowest free entry of the loan table. -/
def Reeve.freeLoan (r : Reeve) : Option Nat := (List.range 16).find? fun i => (r.loans.find? i).isNone

/-- A loan is booked, and the envelope moves with it (R397, R398). -/
def Reeve.book (r : Reeve) (i : Nat) (x : Loan) : Reeve :=
  { r with loans := r.loans.put i x }.shift (if x.borrowed then (x.amount : Int) else -(x.amount : Int))

/-- Inserts a request in order of slack, an equal one after. -/
def insertBySlack (q : BitVec 24 × Nat × Int × Word) :
    List (BitVec 24 × Nat × Int × Word) → List (BitVec 24 × Nat × Int × Word)
  | [] => [q]
  | h :: t => if q.2.2.1 < h.2.2.1 then q :: h :: t else h :: insertBySlack q t

/-- One collected request is served: GRANT of what is spare, or DECLINE (R395, R397). EXPIRY is the borrower's deadline
plus 1, which the request does not carry (its EXPIRY is zero, R396): a free value within 1,024 ticks (log entry 124). -/
def State.serveLoan (s : State) (q : BitVec 24 × Nat × Int × Word) : State :=
  let r := s.reeve
  let amount := min q.2.1 (r.budget - r.demandW - 1000)
  match r.freeLoan with
  | some i =>
    if amount > 0 ∧ s.loansOn then
      let exp := s.tick + 1 + bits s.draw 0 10
      let x : Loan := { feid := q.1, borrowed := false, amount := amount, expiry := exp, id := q.2.2.2 }
      let s := (s.setReeve (r.book i x)).drawn
      s.forward (loanPkt s q.1.toNat 2 amount exp q.2.2.1 q.2.2.2) none
    else s.forward (loanPkt s q.1.toNat 3 0 0 q.2.2.1 q.2.2.2) none
  | none => s.forward (loanPkt s q.1.toNat 3 0 0 q.2.2.1 q.2.2.2) none

/-- LOAN_COLLECTION: the 100 microseconds of collecting are over; requests are served in order of least slack (R395). -/
def execLoanCollection (s : State) : Host.Outcome State Fault Refusal :=
  let l := s.reeve.collecting.foldl (fun acc q => insertBySlack q acc) []
  .next (l.foldl State.serveLoan (s.setReeve { s.reeve with collecting := [] }))

/-- The own request a LOAN packet answers is answered. -/
def Reeve.answered (r : Reeve) (k : FabPkt) : Reeve :=
  { r with asked := r.asked.filter fun a => !decide (a.1.toNat = pSrc k ∧ a.2.1.toNat = pBody k 52 4) }

/-- Whether the EXPIRY of a GRANT is one the borrower can hold to: no later than the deadline tick of the run that asked, plus 1,
and within 1,024 ticks (R397). -/
def State.expiryFits (s : State) (a exp : Nat) : Bool :=
  let x := s.allot a
  match x.exec, x.curRun with
  | some e, some r => decide (s.tick < exp ∧ exp ≤ s.tick + 1024 ∧ exp ≤ x.deadlineTick e r + 1)
  | _, _ => false

/-- LOAN_GRANT: the borrower raises its budget (R397). A grant that answers no request, finds no entry, or names an expiry that
disagrees with the run's deadline is lost budget (R399). -/
def execLoanGrant (port : Fin 64) (pkt : FabPkt) (s : State) : Host.Outcome State Fault Refusal :=
  .next (s.loanArrive port pkt 2 fun s =>
    let r := s.reeve
    let mine := r.asked.any fun a =>
      decide (a.1.toNat = pSrc pkt ∧ a.2.1.toNat = pBody pkt 52 4) && s.expiryFits a.2.2 (pBody pkt 40 8)
    let s := s.setReeve (r.answered pkt)
    match r.freeLoan with
    | some i =>
      if mine then
        s.setReeve (s.reeve.book i { feid := BitVec.ofNat 24 (pSrc pkt), borrowed := true, amount := pBody pkt 36 4
                                     expiry := pBody pkt 40 8, id := BitVec.ofNat 32 (pBody pkt 52 4) })
      else s
    | none => s)

/-- LOAN_DECLINE: a partner has nothing to lend (R396). -/
def execLoanDecline (port : Fin 64) (pkt : FabPkt) (s : State) : Host.Outcome State Fault Refusal :=
  .next (s.loanArrive port pkt 3 fun s => s.setReeve (s.reeve.answered pkt))

/-- LOAN_EXPIRY: at EXPIRY a borrower lowers its budget; at EXPIRY + 1 a lender raises its own (R397). -/
def execLoanExpiry (k : Fin 16) (s : State) : Host.Outcome State Fault Refusal :=
  let r := s.reeve
  .next (match r.loans.find? k with
    | none => s
    | some x =>
      if s.tick < x.expiry + b2n (!x.borrowed) then s
      else
        let r : Reeve := { r with loans := r.loans.del k, loanCut := r.loanCut || x.borrowed }
        s.setReeve (r.shift (if x.borrowed then -(x.amount : Int) else (x.amount : Int))))

/-! ### CAP and CAP_MAX (R378, R403) -/

/-- CAP: a write outside 8,000 to CAP_MAX is ignored. -/
def execCap (path : RegPath) (value : DWord) (s : State) : Host.Outcome State Fault Refusal :=
  .next (s.writeNow path (reeveBase + 8) false fun s =>
    let v := bits value 0 16
    if 8000 ≤ v ∧ v ≤ s.reeve.capMax then s.setReeve { s.reeve with cap := v } else s)

/-- CAP_MAX: a key-guarded write; outside 8,000 to 32,000 it is ignored. -/
def execCapMax (path : RegPath) (value : DWord) (s : State) : Host.Outcome State Fault Refusal :=
  .next (s.writeNow path (reeveBase + 0x10) true fun s =>
    let v := bits value 0 16
    if 8000 ≤ v ∧ v ≤ 32000 then s.setReeve { s.reeve with capMax := v } else s)

end Sys2Proof.Machine
end

