-- ==== Sys2Proof/Machine/Guests.lean ====
section
/-! DEFINITION. Guest sites and the gatehouse (R418 to R432): packets from a guest judged, rules, rate, attestation,
fencing, loss. -/

namespace Sys2Proof.Machine

/-- The base of a site's registers (R431). -/
def gsBase (site : Nat) : Nat := gateBase + 0x1000 * (site + 1)

/-- Whether the ordering code populates a site (R419). -/
def State.guestSite (s : State) (site : Nat) : Bool := decide (site < s.fuses.guests)

/-- A site. -/
def State.guest (s : State) (site : Nat) : Guest := s.guests.get {} site

def State.setGuest (s : State) (site : Nat) (g : Guest) : State := { s with guests := s.guests.put site g }

/-- Whether a site is populated, with its hub sector in service (R419, R472). -/
def State.guestThere (s : State) (site : Nat) : Bool := s.guestSite site && s.sectorUp (siteSector site) && s.railUp (guestRail site)

/-! ### Rules (R421 to R423) -/

def rValid (r : BitVec 256) : Bool := bit r 0
def rKind (r : BitVec 256) : Nat := bits r 1 2
def rRd (r : BitVec 256) : Bool := bit r 3
def rWr (r : BitVec 256) : Bool := bit r 4
def rTally (r : BitVec 256) : Bool := bit r 5
def rBg (r : BitVec 256) : Bool := bit r 6
def rAllot (r : BitVec 256) : Nat := bits r 8 4
def rBase (r : BitVec 256) : Nat := bits r 64 48
def rSize (r : BitVec 256) : Nat := bits r 128 48

/-- Whether a rule of a kind covers `n` units from `x`. -/
def rCovers (r : BitVec 256) (kind x n : Nat) : Bool :=
  rValid r && decide (rKind r = kind ∧ rBase r ≤ x ∧ x + n ≤ rBase r + rSize r)

/-- The lowest rule of a site that qualifies (R422). -/
def Guest.rule (g : Guest) (f : BitVec 256 → Bool) : Option (BitVec 256) := (g.rules.search fun _ r => f r).map (·.2)

/-- The allotments a site's valid rules name. -/
def Guest.named (g : Guest) : List Nat := (List.range 16).filter fun a => g.rules.any fun e => rValid e.2 && decide (rAllot e.2 = a)

/-- RELEASE and RESET_FUNCTION clear VALID on every rule that names an allotment (R423). -/
def State.clearRules (s : State) (a : Nat) : State :=
  { s with guests := s.guests.mapVals fun _ g =>
      { g with rules := g.rules.mapVals fun _ r => if rAllot r = a then setBits r 0 1 0 else r } }

/-- Whether a MEM range lies in an allotment's quota, in either view (R190, R421). -/
def State.memRangeOk (s : State) (a base size : Nat) : Bool :=
  if base < nearBase then s.inQuota a base size
  else
    let off := (base - nearBase) % 2 ^ 36
    let x := s.allot a
    decide (base < 2 * nearBase) && (s.slotOf ((base - nearBase) / 2 ^ 36)).isSome &&
      decide (2 ^ 24 * x.stripeFirst ≤ off ∧ off + size ≤ 2 ^ 24 * (x.stripeFirst + x.stripeCount))

/-- Whether a RULE_CMD write is refused (R423). -/
def State.badRule (s : State) (site : Nat) (r : BitVec 256) : Bool :=
  let pages := decide (rBase r % 4096 = 0 ∧ rSize r % 4096 = 0)
  !s.guestSite site || decide (rKind r = 3) ||
    decide (bits r 12 52 ≠ 0 ∨ bits r 7 1 ≠ 0 ∨ bits r 112 16 ≠ 0 ∨ bits r 176 16 ≠ 0 ∨ bits r 192 64 ≠ 0) ||
    decide ((s.allot (rAllot r)).st = .free) || decide (rSize r = 0) ||
    (decide (rKind r = 0) && (!pages || !s.memRangeOk (rAllot r) (rBase r) (rSize r))) ||
    (decide (rKind r = 1) && decide (rBase r + rSize r > 262144)) ||
    (decide (rKind r = 2) && (!pages || decide (rBase r + rSize r > 2 ^ 36)))

/-- RULE_CMD READ: the rule RULE_SEL names appears in RULE_W (R421). -/
def execRuleCmdRead (path : RegPath) (site : Fin 4) (s : State) : Host.Outcome State Fault Refusal :=
  let b := gsBase site
  .next (s.writeNow path (b + 0x58) true fun s =>
    if !s.guestSite site then s
    else
      let r := (s.guest site).rules.get 0 (bits (s.reg (b + 0x30)) 0 5)
      (List.range 4).foldl (fun s j => s.setReg (b + 0x38 + 8 * j) (BitVec.ofNat 64 (bits r (64 * j) 64)))
        (s.setReg (b + 0x58) 1))

/-- RULE_CMD WRITE: the rule is written, or refused with RULE_STATUS.REFUSED (R423). -/
def execRuleCmdWrite (path : RegPath) (site : Fin 4) (s : State) : Host.Outcome State Fault Refusal :=
  let b := gsBase site
  .next (s.writeNow path (b + 0x58) true fun s =>
    if !s.guestSite site then s
    else
      let r := BitVec.ofNat 256 (((List.range 4).map fun j => (s.reg (b + 0x38 + 8 * j)).toNat * 2 ^ (64 * j)).sum)
      let s := s.setReg (b + 0x58) 2
      if s.badRule site r then s.orReg (b + 0x60) 1
      else
        let g := s.guest site
        s.setGuest site { g with rules := g.rules.put (bits (s.reg (b + 0x30)) 0 5) r })

/-! ### Refusals (R424) -/

/-- The causes of GATEHOUSE_DENY. -/
inductive Deny where
  | noRule | cls | typ | notOpen
  deriving DecidableEq, Repr

def Deny.code : Deny → Nat
  | .noRule => 0 | .cls => 1 | .typ => 2 | .notOpen => 3

/-- A refusal is counted and raises GATEHOUSE_DENY: to the stewards, and to the allotment of a core access (R424, R432). The
first of a millisecond is raised at once, the later ones as one event when it is over, with TICK and TOD of the first of them
(R367). Direction 0 is from the guest, 1 to it. -/
def State.deny (s : State) (site dir : Nat) (why : Deny) (typ dst addr : Nat) (a : Option Nat) : State :=
  let s := s.bump (gsBase site + 0x68)
  let e : Event :=
    { code := evGatehouseDeny, allot := a, tick := s.tick, tod := s.todNow
      payload := [(site, 1), (dir, 1), (why.code, 1), (typ, 1), (dst, 4), (addr, 8)] }
  let s := s.reportDenied site
  let g := s.guest site
  let l := limitEvent s.msNow e g.denied
  let s := s.setGuest site { g with denied := some l.1 }
  if l.2 then s.raiseEvent e ((a.map Dest.allot).toList) else s

/-! ### Packets from a guest (R420, R422, R424, R425) -/

/-- The buckets filled to the present tick (R425): the byte bucket to its burst, the packet bucket, whose depth the spec
does not give, to as many packets as the burst holds flits (DESIGN CHOICE, log entry 55). -/
def State.fillBuckets (s : State) (site : Nat) : Guest :=
  let g := s.guest site
  let v := s.reg (gsBase site + 0x18)
  let burst := bits v 16 16 * 1024
  match g.tokTick with
  | none => { g with byteTok := burst, packetTok := burst / 64 * 1000, tokTick := some s.tick }
  | some t =>
    let ns := s.ticksNs (s.tick - t)
    { g with byteTok := min burst (g.byteTok + bits v 0 16 * ns)
             packetTok := min (burst / 64 * 1000) (g.packetTok + bits v 32 16 * ns), tokTick := some s.tick }

/-- Requests of a site that await a device answer (R425). -/
def State.guestOut (s : State) (site : Nat) : Nat := (s.guestReqs.filter fun e => e.2.site = site).length

/-- Whether the gatehouse withholds credits for a packet, so that the guest waits (R425). -/
def State.withheld (s : State) (site : Nat) (k : FabPkt) : Bool :=
  let g := s.fillBuckets site
  decide (g.byteTok < 64 * pFlits k ∨ g.packetTok < 1000) ||
    (decide (pType k = 1 ∨ pType k = 2) && decide (s.guestOut site ≥ bits (s.reg (gsBase site + 0x20)) 0 9))

/-- Counts in HELD_US the time that credits have been withheld, in microseconds of the bell; `on` says whether they still are
(R425, R431). -/
def State.countHeld (s : State) (site : Nat) (on : Bool) : State :=
  let us (t : Nat) : Nat := s.ticksNs t / 1000
  let g := s.guest site
  let s := match g.heldAt with
    | none => s
    | some t => s.bump (gsBase site + 0x90) (us s.tick - us t)
  s.setGuest site { g with heldAt := if on then some s.tick else none }

/-- A packet with the gatehouse's SRC, TAG, TC, VC and HOPS (R420). -/
def gateHdr (s : State) (k : FabPkt) (tag : Nat) (bg : Bool) : FabPkt :=
  let h := setBits (setBits (setBits k.hdr 56 24 s.feid) 11 5 tag) 5 2 (if bg then 3 else 2)
  { k with hdr := setBits (setBits h 8 2 0) 16 6 63 }

/-- The class of a guest's packet, by its bit of GS_CLASSES (R420). -/
def State.guestClass (s : State) (k : FabPkt) : Nat :=
  if pType k = 6 then 4 else (if pType k = 2 then 0 else 1) + (if pDst k = s.feid then 0 else 2)

/-- Whether an access of `n` bytes meets register space (R485). -/
def meetsRegisters (addr n : Nat) : Bool := decide (addr < registerBase + 2 ^ 24 ∧ registerBase < addr + n)

/-- Whether a rule admits a guest's packet (R421, R422); no access to register space is (R420). -/
def State.ruleFits (s : State) (k : FabPkt) (r : BitVec 256) : Bool :=
  let dir := if pType k = 2 then rRd r else if pType k = 1 then rWr r else rTally r
  let n := if pType k = 2 then readSpan (pAddr k) else max 1 (pBytes k)
  dir && (if pType k ≠ 6 ∧ pDst k = s.feid then rCovers r 0 (pAddr k) n
    else rCovers r 1 (pDst k) 1 && (decide (pType k = 6) || !meetsRegisters (pAddr k) n))

/-- The answer to a refused guest access: a response with STATUS 2; a TALLY_INC is dropped (R424). -/
def State.denyGuest (s : State) (site : Nat) (k : FabPkt) (why : Deny) : State :=
  let s := s.deny site 0 why (pType k) (pDst k) (pAddr k) none
  if pType k = 1 ∨ pType k = 2 then s.guestAnswer site (pRtag k) (pType k) 2 [] 1 0 else s

/-- A packet of a guest site, gated, goes to its target (R422, R303, R262), its memory as slow as the operand says (R196). DESIGN
CHOICE (log entry 114): one with more than one data flit (R418) is dropped as malformed. -/
def State.passGuest (s : State) (site : Nat) (k : FabPkt) (slow : List (Fin 64 × Nat)) : State :=
  if pMalformed k ∨ pLen k > 1 then s.fabricDrop 0 0xFF k [] none
  else if pType k = 6 then (if pDst k = s.feid then s.tallyIncHere k else s.forward k none)
  else if pDst k = s.feid then
    let a := s.served k 8 0xFFFFFFFF
    (if pTc k = 2 then s.noteSlow a.1 (s.allotOfTag (pTag k)) slow else a.1).guestAnswer site (pRtag k) (pType k) (pStatus a.2)
      a.2.data (max 1 (pBytes a.2)) (pPoison a.2)
  else
    let id := s.nextReq
    let s := { s with nextReq := id + 1
                      guestReqs := s.guestReqs.put id { site := site, rtag := pRtag k, typ := pType k } }
    s.forward { k with hdr := setBits k.hdr 240 16 id } none

/-- An admitted packet passes with the header the gate gives it (R422). -/
def State.admitGuest (s : State) (site : Nat) (k : FabPkt) (r : BitVec 256) (slow : List (Fin 64 × Nat)) : State :=
  s.passGuest site (gateHdr s k (s.allot (rAllot r)).tag (rBg r)) slow

/-- A guest's answer to a core's request; a late one is dropped and counted (R425). -/
def State.answerFromGuest (s : State) (site : Nat) (k : FabPkt) : State :=
  match s.reqs.search fun i r => decide (i % 2 ^ 16 = pRtag k ∧ r.stage = .atGuest ∧ r.site = site) with
  | none => s.bump (gsBase site + 0x78)
  | some (id, r) =>
    let ok := decide (r.ch = .load ∧ pStatus k = 0)
    let rows := (rowsOf r.addr r.piece.len).map fun _ => decide (pPoison k % 2 = 1)
    let r := { r with stage := .toCarter, status := BitVec.ofNat 4 (pStatus k)
                      data := if ok then (pData k).take r.piece.len else [], poison := if ok then rows else [] }
    { s with reqs := s.reqs.put id r }

/-- A guest's packet at an OPEN site (R420, R422, R424). -/
def State.judgeGuest (s : State) (site : Nat) (k : FabPkt) (slow : List (Fin 64 × Nat)) : State :=
  if pType k = 3 ∨ pType k = 4 then s.answerFromGuest site k
  else if pType k ≠ 1 ∧ pType k ≠ 2 ∧ pType k ≠ 6 then s.denyGuest site k .typ
  else if !bit (s.reg (gsBase site + 0x10)) (s.guestClass k) then s.denyGuest site k .cls
  else
    match (s.guest site).rule (s.ruleFits k) with
    | none => s.denyGuest site k .noRule
    | some r => s.admitGuest site k r slow

/-- GUEST_PACKET: a guest packet is judged: admitted, answered WINDOW_FAULT, dropped, or waiting for credits (R420 to
R425, R429). -/
def execGuestPacket (site : Fin 4) (pkt : Slowed FabPkt) (s : State) : Host.Outcome State Fault Refusal :=
  let slow := pkt.slow
  let pkt := pkt.val
  let i := site.val
  let g := s.guest i
  let seen := s.bump (gsBase i + 0x80) (pFlits pkt)
  .next (if !s.guestThere i then s
    else
      match g.st with
      | .opened =>
        if s.withheld i pkt then s.countHeld i true
        else
          let seen := seen.countHeld i false
          let g := seen.fillBuckets i
          let g := { g with byteTok := g.byteTok - 64 * pFlits pkt, packetTok := g.packetTok - 1000 }
          (seen.setGuest i g).judgeGuest i pkt slow
      | .fenced =>
        if g.draining ∧ (pType pkt = 3 ∨ pType pkt = 4) then seen.answerFromGuest i pkt
        else seen.bump (gsBase i + 0x70)
      | .attesting => seen.deny i 0 .notOpen (pType pkt) (pDst pkt) (pAddr pkt) none
      | _ => s)

/-- GUEST_NO_RESPONSE: a core request to a guest is unanswered for GS_TIMEOUT and answered TARGET_ERROR (R425). -/
def execGuestNoResponse (id : Nat) (s : State) : Host.Outcome State Fault Refusal :=
  .next (match s.reqs.find? id with
    | none => s
    | some r =>
      if r.stage ≠ .atGuest then s
      else
        let a := s.allotOf r.core.parish
        let s := { s with reqs := s.reqs.put id { r with stage := .toCarter, status := 3, data := [], poison := [] } }
        s.raise evGuestNoResponse a [(r.site, 1), (r.core.id, 4), (r.addr % 2 ^ 36, 8)] ((a.map Dest.allot).toList))

/-! ### Attestation (R426 to R428) -/

/-- Asks the guest for a step's answer: versions, capabilities, algorithms, certificate, challenge, measurements; the last two
carry a fresh nonce (R426). -/
def State.askGuest (s : State) (site step : Nat) : State :=
  let nonce := if step ≥ 5 then s.draw.setWidth 256 else 0
  ((s.setGuest site { s.guest site with step := step, nonce := nonce }).send (.guestAsk site step nonce)).drawn

/-- Fence causes (R431). -/
def fVersion := 1
def fAlgorithm := 2
def fCert := 3
def fSignature := 4
def fMeasurement := 5
def fTimeout := 6
def fManual := 7

/-- A site is fenced (R427, R429): what is in flight drains for up to 20 microseconds. -/
def State.fence (s : State) (site cause : Nat) : State :=
  let g := s.guest site
  let s := s.setGuest site { g with st := .fenced, cause := BitVec.ofNat 4 cause, step := 0, draining := true }
  (s.raise evGuestFenced none [(site, 1), (cause, 1)] (g.named.map Dest.allot)).degrade 5

/-- The configured anchors and expected measurements of a site (R426). -/
def anchorsOf (c : Cfg) (site : Nat) : List (BitVec 256) := (c.gsAnchors.filter fun e => e.1 = site).map (·.2)
def expectedOf (c : Cfg) (site : Nat) : List (Byte × BitVec 256) := (c.gsExpected.filter fun e => e.1 = site).map (·.2)

/-- Whether the measurements returned match: each expected index returned with one of its digests (R426). -/
def measureOk (want got : List (Byte × BitVec 256)) : Bool :=
  want.all fun w => got.any fun g => decide (g.1 = w.1) && want.contains (g.1, g.2)

/-- What an answer shows, with the nonce its signature must cover: the fence cause of the step it fails; none where the step
passes. DESIGN CHOICE (log entry 115): capabilities that do not serve are cause VERSION. -/
def attestFault (c : Cfg) (site : Nat) (nonce : BitVec 256) : GuestAnswer → Option Nat
  | .versions ok => if ok then none else some fVersion
  | .capabilities ok => if ok then none else some fVersion
  | .algorithms ok => if ok then none else some fAlgorithm
  | .certificate anchor ok => if ok && (anchorsOf c site).contains anchor then none else some fCert
  | .challenge n ok => if ok ∧ n = nonce then none else some fSignature
  | .measurements n ok blocks _ =>
    if !ok ∨ n ≠ nonce then some fSignature else if measureOk (expectedOf c site) blocks then none else some fMeasurement

/-- The step an answer belongs to. -/
def answerStep : GuestAnswer → Nat
  | .versions _ => 1 | .capabilities _ => 2 | .algorithms _ => 3 | .certificate _ _ => 4 | .challenge _ _ => 5
  | .measurements _ _ _ _ => 6

/-- A site with the digest of a signed measurement response (R415). -/
def Guest.signed (g : Guest) : GuestAnswer → Guest
  | .measurements n ok _ digest => if ok ∧ n = g.nonce then { g with digest := digest } else g
  | _ => g

/-- The answer awaited arrives: the next step, the site open, or fenced (R426 to R428); a FENCE write of the step in which the
guest passes goes first (R430; DEDUCED, log entry 116: a step is a bell tick). -/
def State.takeAnswer (s : State) (i : Nat) (ans : GuestAnswer) : State :=
  let g := s.guest i
  if g.step ≠ answerStep ans ∨ (g.st ≠ .attesting ∧ g.st ≠ .opened) then s
  else
    let s := s.setGuest i (g.signed ans)
    match attestFault s.boot.cfg i g.nonce ans with
    | some c => s.fence i c
    | none =>
      match ans with
      | .measurements _ _ _ _ =>
        if g.fenceAt = some s.tick then s.fence i fManual
        else s.setGuest i { g.signed ans with st := .opened, cause := 0, step := 0 }
      | _ => s.askGuest i (g.step + 1)

/-- GUEST_SPDM_RESPONSE: the guest answers over the sideband (R426 to R428). -/
def execGuestSpdmResponse (site : Fin 4) (ans : GuestAnswer) (s : State) : Host.Outcome State Fault Refusal :=
  .next (s.takeAnswer site ans)

/-- GUEST_ATTEST_TIMEOUT: an answer took over 100 ms or the exchange over 2 s (R426, R427). -/
def execGuestAttestTimeout (site : Fin 4) (s : State) : Host.Outcome State Fault Refusal :=
  let g := s.guest site
  .next (if g.step > 0 ∧ (g.st = .attesting ∨ g.st = .opened) then s.fence site fTimeout else s)

/-- REATTEST_PERIOD_EXPIRY: an OPEN guest is attested again, where the period is not 0 (R428). -/
def execReattestPeriodExpiry (site : Fin 4) (s : State) : Host.Outcome State Fault Refusal :=
  let g := s.guest site
  let off := s.boot.cfg.gsReattestHours.contains (site.val, 0)
  .next (if g.st = .opened ∧ g.step = 0 ∧ !off then s.askGuest site 1 else s)

/-! ### GS_CTL (R428, R429) -/

/-- GS_CTL_FENCE: fences an OPEN site with cause MANUAL (R429); at an ATTESTING one it counts against a pass in the same step
(R430). -/
def execGsCtlFence (path : RegPath) (site : Fin 4) (s : State) : Host.Outcome State Fault Refusal :=
  .next (s.writeNow path (gsBase site + 8) true fun s =>
    let g := s.guest site
    if !s.guestSite site then s
    else if g.st = .opened then s.fence site fManual
    else if g.st = .attesting then s.setGuest site { g with fenceAt := some s.tick }
    else s)

/-- GS_CTL_REATTEST: an OPEN site is attested again; a FENCED one goes to ATTESTING; ignored while ATTESTING (R428,
R430). -/
def execGsCtlReattest (path : RegPath) (site : Fin 4) (s : State) : Host.Outcome State Fault Refusal :=
  let i := site.val
  .next (s.writeNow path (gsBase i + 8) true fun s =>
    let g := s.guest i
    if !s.guestSite i then s
    else if g.st = .opened ∧ g.step = 0 then s.askGuest i 1
    else if g.st = .fenced then (s.setGuest i { g with st := .attesting }).askGuest i 1
    else s)

/-- FENCE_DRAIN_TIMEOUT: core requests outstanding are answered ABORTED and counted in FENCE_DROPS, and device answers to guest
requests are discarded (R429, R474). -/
def execFenceDrainTimeout (site : Fin 4) (s : State) : Host.Outcome State Fault Refusal :=
  let i := site.val
  let g := s.guest i
  .next (if !g.draining then s
    else
      let n := (s.reqs.filter fun e => decide (e.2.stage = .atGuest ∧ e.2.site = i)).length
      let s := (s.setGuest i { g with draining := false }).bump (gsBase i + 0x70) n
      { s with
        guestReqs := s.guestReqs.filter fun e => e.2.site ≠ i
        reqs := s.reqs.mapVals fun _ r =>
          if r.stage = .atGuest ∧ r.site = i then { r with stage := .toCarter, status := 4, data := [], poison := [] } else r })

/-! ### Link and rail (R419) -/

/-- A site is LOST (R419): causes 0 LINK, 1 RAIL, 2 POWER. -/
def State.loseGuest (s : State) (site cause : Nat) : State :=
  let g := s.guest site
  if g.st = .lost ∨ g.st = .absent ∨ g.st = .off then s
  else
    let s := s.setGuest site { g with st := .lost, step := 0, draining := false, mods := 0, side := false, heldAt := none }
    let s := if cause = 2 then
        { s with boot := { s.boot with railsOff := guestRail site :: s.boot.railsOff } }.raise evRailFault none
          [(guestRail site, 1), (0, 1)] (g.named.map Dest.allot)
      else s
    (s.raise evGuestLost none [(site, 1), (cause, 1)] (g.named.map Dest.allot)).degrade 5

/-- GUEST_TRAINING: a site's rail comes on and its link trains; with a module trained it is attested (R418, R419). -/
def execGuestTraining (site : Fin 4) (mods : BitVec 4) (s : State) : Host.Outcome State Fault Refusal :=
  let i := site.val
  let g := s.guest i
  .next (if !s.guestThere i ∨ !s.up ∨ (g.st ≠ .off ∧ g.st ≠ .training) then s
    else if mods = 0 then s.setGuest i { g with st := .training }
    else (s.setGuest i { g with st := .attesting, mods := mods, side := true }).askGuest i 1)

/-- GUEST_TRAINING_TIMEOUT: no module has trained within 100 ms (R419). -/
def execGuestTrainingTimeout (site : Fin 4) (s : State) : Host.Outcome State Fault Refusal :=
  .next (if (s.guest site).st = .training then s.loseGuest site 0 else s)

/-- GUEST_LOST: the link goes down, the rail is removed, or the guest has drawn more than 60 W for 1 ms (R419). -/
def execGuestLost (site : Fin 4) (cause : BitVec 2) (s : State) : Host.Outcome State Fault Refusal :=
  .next (s.loseGuest site (min cause.toNat 2))

end Sys2Proof.Machine
end

