-- ==== Sys2Proof/Machine/HostLink.lean ====
section
/-! DEFINITION. The host ports (R320 to R323, R326, R327, R331): links, queue pairs and their errors, address and echo
answers, congestion, priority pause, and the time of day. -/

namespace Sys2Proof.Machine

/-- The base of a host port's registers (R370). -/
def hpBase (h : Nat) : Nat := hostBase + 0x1000 * h

def State.hp (s : State) (h : Nat) : HostPort := s.hps.get {} h

def State.setHp (s : State) (h : Nat) (x : HostPort) : State := { s with hps := s.hps.put h x }

/-- Whether a host port can have a link: its MAC's sector is in service, and the fuse maps give it good lanes (R438, R472). -/
def State.hostPortThere (s : State) (h : Nat) : Bool := s.sectorUp (hostPortSector h) && !s.boot.fuseHosts.contains h

/-- Whether frames of a host port are received: its link is up and its MAC's sector is in service. -/
def State.hpUp (s : State) (h : Nat) : Bool := s.up && (s.hp h).up && s.sectorUp (hostPortSector h)

/-- A frame is received on a port (R370). -/
def State.rxFrame (s : State) (h : Nat) (n : Nat := 1) : State := s.bump (hpBase h + 0x20) n

/-- A frame is sent on a port (R370). -/
def State.txFrame (s : State) (h : Nat) (n : Nat := 1) : State := s.bump (hpBase h + 0x28) n

/-- What a host port does with frames that arrive: nothing while it is down; a bad check sequence drops and counts them, and one
of more than 9,216 bytes is dropped; else they are counted and handled (R320, R370). -/
def State.frameIn (s : State) (h : Nat) (f : Frame) (n : Nat) (k : State → State) : State :=
  if !s.hpUp h then s else if f.fcsBad then s.bump (hpBase h + 0x30) else if f.bytes > 9216 then s else k (s.rxFrame h n)

/-- A CE-marked packet of a QP: counted, and answered with a CNP, at most one per QP in 50 microseconds (R320, R323). -/
def State.ceMark (s : State) (qp : Nat) (q : Qp) : State :=
  let s := s.bump (hpBase q.port + 0x38)
  let due := match q.cnpTick with
    | some t => decide (s.ticksNs (s.tick - t) ≥ 50000)
    | none => true
  if due then
    ((({ s with qps := s.qps.put qp { q with cnpTick := some s.tick } }).bump (hpBase q.port + 0x40)).txFrame q.port).send (.cnp qp)
  else s

/-- Frames of a QP arrive on its port: of another VLAN than the QP's address has they are dropped (R320). -/
def State.qpFrame (s : State) (qp : Nat) (f : Frame) (n : Nat) (k : Qp → State → State) : State :=
  match s.qps.find? qp with
  | none => s
  | some q =>
    s.frameIn q.port f n fun s =>
      if f.vlan ≠ q.vlan then s else k q (if f.ce then s.ceMark qp q else s)

/-! ### Queue pairs (R323, R331) -/

/-- The session of a QP leaves it: DETACHED (R331). -/
def State.detach (s : State) (id : Nat) : State :=
  s.updSes id fun x => { x with st := .detached, qp := 0 }

/-- A QP enters the error state or is disconnected: it is gone, and its session is DETACHED, one that has ended with it (R331). -/
def State.qpDown (s : State) (qp : Nat) : State :=
  match s.qps.find? qp with
  | none => s
  | some q =>
    let s := { s with qps := s.qps.del qp
                      ses := s.ses.mapVals fun _ x => if x.ending ∧ x.qp = qp then { x with st := .detached, qp := 0 } else x }
    match q.ses with
    | some id => s.detach id
    | none => s

/-- The device disconnects a QP (R338, R348). -/
def State.disconnect (s : State) (qp : Nat) : State := ((s.txOn qp 1).qpDown qp).send (.disconnect qp)

/-- Every QP enters the error state (R364). -/
def State.qpsDown (s : State) : State := s.qps.foldl (fun t e => t.qpDown e.1) s

/-- QP_ERROR: a QP enters the error state or disconnects, and its session becomes DETACHED (R331). -/
def execQpError (qp : Nat) (s : State) : Host.Outcome State Fault Refusal := .next (s.qpDown qp)

/-- A port's link drops: its QPs enter the error state, and HOST_PORT_DOWN is raised to every session (R321, R369). -/
def State.linkDown (s : State) (h : Nat) : State :=
  if !(s.hp h).up then s
  else
    let l := s.qps.filter fun e => e.2.port = h
    let s := s.setHp h { s.hp h with up := false, paused := none }
    let s := l.foldl (fun t e => t.qpDown e.1) s
    s.raise evHostPortDown none [(h, 1), (l.length, 4)] [.sessions]

/-- HOST_PORT_DOWN: a host port's link drops (R321). -/
def execHostPortDown (port : Fin 4) (s : State) : Host.Outcome State Fault Refusal := .next (s.linkDown port)

/-- HOST_LINK_UP: the link of an enabled port has retrained by itself (R321). -/
def execHostLinkUp (port : Fin 4) (s : State) : Host.Outcome State Fault Refusal :=
  .next (if s.up ∧ s.hostPortThere port ∧ (s.hp port).en then s.setHp port { s.hp port with up := true } else s)

/-- HP_CTL: EN of a host port; clearing it drops the link (R321, R370). -/
def execHpCtl (path : RegPath) (port : Fin 4) (value : DWord) (s : State) : Host.Outcome State Fault Refusal :=
  .next (s.writeNow path (hpBase port + 8) true fun s =>
    let s := s.setHp port { s.hp port with en := bit value 0 }
    if bit value 0 then s else s.linkDown port)

/-- The rate of a fresh QP, in Mbit/s: its port's (R320). -/
def lineRate : Nat := 800000

/-- Whether an address is one of a port's, on a VLAN (R320). -/
def State.hasIp (s : State) (h : Nat) (a : BitVec 128) (vlan : Option (BitVec 12)) : Bool := s.boot.cfg.ips.contains (h, a, vlan)

/-- CM_REQ: a connection manager REQ on QP1, to an address of the port, is answered with REP, or with REJ for another path MTU,
beyond 4,160 QPs, or for a number in use; to another address it is dropped (R320, R323). -/
def execCmReq (port : Framed (Fin 4)) (qp : Nat) (mtu : Nat) (ip : Addrs) (s : State) :
    Host.Outcome State Fault Refusal :=
  let f := port.f
  let port := port.val
  .next (s.frameIn port f 1 fun s =>
      if !s.hasIp port ip.dst f.vlan then s else
      let s := s.txFrame port
      if mtu = 4096 ∧ s.qps.length < 4160 ∧ qp > 1 ∧ (s.qps.find? qp).isNone then
        { s with qps := s.qps.put qp { port := port, src := ip.src, rate := lineRate, vlan := f.vlan } }.send (.cm port qp true)
      else s.send (.cm port qp false))

/-- CNP: the QP's send rate is lowered, by a rule whose parameters the spec leaves to the store (a free value below the
rate; R323). -/
def execCnp (qp : Framed Nat) (s : State) : Host.Outcome State Fault Refusal :=
  .next (s.qpFrame qp.val qp.f 1 fun q s =>
      let s := s.bump (hpBase q.port + 0x48)
      let r := if q.rate = 0 then 0 else s.draw.toNat % q.rate
      { s with qps := s.qps.put qp.val { s.qps.get q qp.val with rate := r } }.drawn)

/-! ### Other traffic (R320) -/

/-- The IPv6 form of an IPv4 address. -/
def mapped (a : Word) : BitVec 128 := BitVec.ofNat 128 (0xFFFF * 2 ^ 32 + a.toNat)

/-- A port's MAC address (R320). -/
def State.mac (s : State) (h : Nat) : BitVec 48 := (s.boot.cfg.macs[h]?).getD 0

/-- An answer on a port: 1 ARP, 2 neighbour advertisement, 3 echo reply. -/
def State.answer (s : State) (h kind : Nat) (data : List Byte) : State := (s.txFrame h).send (.eth h kind data)

/-- ARP: answered with the port's MAC address where the target is an IPv4 address of the port (R320). -/
def execArp (port : Framed (Fin 4)) (target : Word) (s : State) : Host.Outcome State Fault Refusal :=
  .next (s.frameIn port.val port.f 1 fun s =>
      if s.hasIp port.val (mapped target) port.f.vlan then s.answer port.val 1 (leBytes 6 (s.mac port.val).toNat) else s)

/-- NEIGHBOUR_DISCOVERY: answered where the target is an IPv6 address of the port (R320). -/
def execNeighbourDiscovery (port : Framed (Fin 4)) (target : BitVec 128) (s : State) : Host.Outcome State Fault Refusal :=
  .next (s.frameIn port.val port.f 1 fun s =>
      if s.hasIp port.val target port.f.vlan then s.answer port.val 2 (leBytes 6 (s.mac port.val).toNat) else s)

/-- ICMP_ECHO: an echo request to an address of the port is answered with its data (R320). -/
def execIcmpEcho (port : Framed (Fin 4)) (echo : Echo) (s : State) :
    Host.Outcome State Fault Refusal :=
  .next (s.frameIn port.val port.f 1 fun s =>
      if echo.data.length ≤ 9216 ∧ s.hasIp port.val echo.target port.f.vlan then s.answer port.val 3 echo.data else s)

/-- PFC_PAUSE: a pause frame is counted, and pauses the port's transmission on the one priority the store enables
(R320). -/
def execPfcPause (port : Framed (Fin 4)) (prio : BitVec 3) (s : State) : Host.Outcome State Fault Refusal :=
  .next (s.frameIn port.val port.f 1 fun s =>
      let s := s.bump (hpBase port.val + 0x50)
      if s.boot.cfg.pfcPrio = some prio.toNat then s.setHp port.val { s.hp port.val with paused := some prio.toNat } else s)

/-! ### Time of day (R326, R327, R370) -/

/-- Whether a port is the PTP source: the named one, the backup while the named one's link is down (R326). -/
def State.ptpSource (s : State) (h : Nat) : Bool :=
  let c := s.boot.cfg
  decide (h = c.ptpPort) || (decide (h = c.ptpBackup) && !s.hpUp c.ptpPort)

/-- PTP: a message of the clock's domain disciplines the time-of-day counter; another domain's is ignored (R326). -/
def execPtp (port : Framed (Fin 4)) (time : PtpTime) (ns : BitVec 30) (offset : Word) (s : State) :
    Host.Outcome State Fault Refusal :=
  .next (s.frameIn port.val port.f 1 fun s =>
      if s.ptpSource port.val ∧ time.domain = s.boot.cfg.ptpDomain then
        { s with tod := { s.tod with
            sec := time.sec, ns := ns, valid := true, holdover := false, port := port.val, offset := offset } }
      else s)

/-- HOST_TOD_LOST: no PTP message for 10 s; time of day is not valid and holds over on REF (R327, R369). -/
def execHostTodLost (s : State) : Host.Outcome State Fault Refusal :=
  .next (if s.tod.valid then
    { s with tod := { s.tod with valid := false, holdover := true } }.raise evHostTodLost none
      [(s.tod.port, 1), (s.tod.offset.toNat, 4)] [.sessions]
  else s)

/-- TAI_SECOND: the counter reaches a whole second and the bell count is latched; REF runs it before the first PTP message and
without one (R326, R327). -/
def execTaiSecond (s : State) : Host.Outcome State Fault Refusal :=
  .next (if s.up then
    { s with tod := { s.tod with sec := s.tod.sec + 1, ns := 0, secTick := s.bell.count, secLast := s.tod.sec + 1 } }
  else s)

/-- A read of TOD_SEC latches TOD_NS (R370). -/
def State.latchTod (s : State) : State := { s with tod := { s.tod with nsLatched := s.tod.ns } }

/-- TOD_SEC: a read that latches TOD_NS (R370, R493). -/
def execTodSec (path : RegPath) (s : State) : Host.Outcome State Fault Refusal :=
  .next (if s.reaches path (hostBase + 0x4010) then s.latchTod else s)

end Sys2Proof.Machine
end

