-- ==== Sys2Proof/Machine/Steward.lean ====
section
/-! DEFINITION. Supply loss and the fault steward (R22, R25, R386, R466 to R478): rails and trips, the loss of a parish, a
stack group, a hub sector or the module, soft repairs, the suspect table, steward restarts. -/

namespace Sys2Proof.Machine

/-! ### Rails (R22, R386, R405) -/

/-- Causes of RAIL_FAULT (R405). -/
def rcOvercurrent : Nat := 0
def rcUndervoltage : Nat := 1
def rcRegulator : Nat := 2
def rcThermal : Nat := 3

/-- The store as a cut leaves it: the image of a staging under way has lost its directory, which is written last (R434). -/
def State.cutStore (s : State) : Store :=
  let x := if s.staging then s.store.setImage s.spareImage none else s.store
  { x with lastOk := false }

/-- The state with every rail removed (R25, R32, R473): what the store and the fuses hold stays. -/
def State.allOff (s : State) : State :=
  { pins := { s.pins with pwrGood := false, alertN := true }
    store := s.cutStore
    failedRegs := s.failedRegs
    fuses := { s.fuses with busy := none }
    fresh := s.fresh
    events := s.events
    out := s.out
    pending := s.pending }

/-- The loss of HS00 or of HK ends all service until a power cycle (R473). -/
def State.serviceEnds (s : State) : State :=
  let t := s.allOff
  { t with boot := { t.boot with stopped := true } }

/-! ### Loss of a parish (R471) -/

/-- A parish's rail is removed: the parish is dark, its requests in flight are discarded at the well, its allotment
halts, its power is freed (R386, R471); a write posted to the field part of its block is discarded (R505). -/
def State.parishRailLost (s : State) (par cause : Nat) : State :=
  let x := s.parish par
  if !x.railOn then s
  else
    let a := s.allotOf par
    let w := s.railW par
    let s := s.setParish par
      { x with railOn := false, dark := true, tripped := true, droop := false, ballast := 0, droopTimes := [] }
    let s := { s with reqs := s.reqs.filter fun e => e.2.core.parish.val ≠ par
                      tallyOps := s.tallyOps.filter fun m => m.src.parish.val ≠ par
                      posted := s.posted.filter fun e => !(s.absent e.2.offset && decide (parishOfOff e.1 = some par)) }
    let s := { s with ras := { s.ras with trips := s.ras.trips.put par (s.ras.trips.get 0 par + 1) } }
    let s := s.raise evRailFault a [(par, 1), (cause, 1)] ((a.map Dest.allot).toList)
    ((s.haltParish par).powerStep true w).degrade 0

/-! ### Loss of a sector (R472) -/

/-- The last regulators of a rail fail: both where it has two (R22). -/
def State.failRegs (s : State) (rail : Nat) : State :=
  if twoRegulators rail then (s.failReg rail false).failReg rail true else s.failReg rail false

/-- The wells whose centres lie in a sector, per parish. -/
def wellsIn (h par : Nat) : Bool :=
  (List.range 64).any fun k => decide (wellSector par (k % 8, k / 8) = h)

/-- The populated stacks above a sector, and its populated ports. -/
def State.sectorStacks (s : State) (h : Nat) : List Nat :=
  (List.range 64).filter fun m => decide (stackSector m = h) && stackPopulated s.fuses.orderB m
def State.sectorPorts (s : State) (h : Nat) : List Nat :=
  (List.range 64).filter fun p => decide (portSector p = h) && portPopulated s.fuses.orderF p

/-- The allotments with a parish that one of a sector's wells serves. -/
def State.sectorAllots (s : State) (h : Nat) : List Nat :=
  (s.allots.filter fun e => decide (e.2.st ≠ .free) && e.2.parishList.any fun p => wellsIn h p).map (·.1)

/-- An allotment that loses a well halts with its run invalid (R472). -/
def State.haltAllot (s : State) (a : Nat) : State :=
  if (s.allot a).st = .running then
    let s := s.failRun a
    if (s.lead a).isNone then s.doHalt a .fault else s
  else s.updAllot a fun x => { x with st := .halted }

/-- A time lane among a sector's ports leads to failover, as a source without an edge does; SYNCE stops with the sector that
holds its host port's MAC (R226, R233, R472). -/
def State.loseTimeLane (s : State) (h : Nat) : State :=
  let s := s.timeLane
  if hostPortSector s.boot.cfg.syncePort = h ∧ s.clk.ok .synce then s.edgeGap .synce false else s

/-- A hub sector is lost: routers, stacks, wells, ports, guest site and, with HS03, HP2 and HP3; escape and crier tables
wait for their reload (R184, R269, R472). -/
def State.loseSector (s : State) (h cause : Nat) : State :=
  if !s.sectorUp h then s
  else
    let st := s.sectorStacks h
    let pt := s.sectorPorts h
    let al := s.sectorAllots h
    let s := { s with boot := { s.boot with sectors := setBit s.boot.sectors h false, escapeLoaded := false
                                            railsOff := hubRail h :: s.boot.railsOff } }
    let s := s.raise evHubSectorLost none
      [(h, 1), (cause, 1), ((st.map (2 ^ ·)).sum, 8), ((pt.map (2 ^ ·)).sum, 8)] [.sessions]
    let s := st.foldl (fun s m => s.offline m 2) s
    let s := pt.foldl (fun s p => if (s.port p).carries then s.portDown p 1 else s.updPort p fun x => { x with st := .down }) s
    let s := (List.range 4).foldl (fun s g => if siteSector g = h then s.loseGuest g 1 else s) s
    let s := (List.range 4).foldl (fun s g => if hostPortSector g = h then s.linkDown g else s) s
    let s := al.foldl (fun s a => s.haltAllot a) s
    let s := s.loseRisers fun r => decide (r = h)
    ((s.loseTimeLane h).degrade 3).degrade 9

/-- HUB_SECTOR_LOST: a sector's rail is lost (cause 0) or its regulator is (cause 1); HS00's loss ends service (R472,
R473, R483). -/
def execHubSectorLost (h : Fin 16) (cause : BitVec 1) (s : State) : Host.Outcome State Fault Refusal :=
  .next (if !s.pins.pwrGood then s
    else
      let s := if cause = 1 then s.failRegs (hubRail h) else s
      if h = 0 then s.serviceEnds
      else if s.sectorUp h then (s.loseSector h cause.toNat).powerStep false (s.railW (hubRail h)) else s)

/-- ESCAPE_TABLE_LOAD: ST0 has loaded escape and crier tables that avoid dark routers, and the crier messages held meanwhile go
on (R184, R269). -/
def execEscapeTableLoad (s : State) : Host.Outcome State Fault Refusal :=
  .next (if s.up then
    s.crierHeld.foldl (fun s e => if pType e.2 = 7 then s.stretchHere e.1 e.2 else s.tallyIncHere e.2)
      { s with boot := { s.boot with escapeLoaded := true }, crierHeld := [] }
  else s)

/-! ### Other rails (R386) -/

/-- The stacks of a group go offline with their rail. -/
def State.groupRailLost (s : State) (g : Nat) : State :=
  (groupStacks g).foldl (fun s m => s.offline m 1) s

/-- RAIL_FAULT of a rail that is no parish's, and the power it frees (R392); the allotments of a stack group's rail are those of
R201. -/
def State.otherRailFault (s : State) (rail cause : Nat) : State :=
  let al := if 95 ≤ rail ∧ rail < 103 then s.liveAllots
    else if 107 ≤ rail ∧ rail < 111 then (s.guest (rail - 107)).named
    else if 78 ≤ rail ∧ rail < 94 then s.sectorAllots (rail - 78)
    else []
  ({ s with boot := { s.boot with railsOff := rail :: s.boot.railsOff } }.raise evRailFault none
    [(rail, 1), (cause, 1)] (al.map Dest.allot)).powerStep false (s.railW rail)

/-- A rail is removed in hardware (R386): what hangs on it is lost. With HS00 or its clock no event can be written (R473); the
loss of HK is reported as it happens. -/
def State.railLost (s : State) (rail cause : Nat) : State :=
  if !s.railUp rail then s
  else if rail < 78 then s.parishRailLost rail cause
  else if rail = 78 ∨ rail = clkRail then s.serviceEnds
  else if rail = hkRail then (s.otherRailFault rail cause).serviceEnds
  else if rail < 94 then
    if s.sectorUp (rail - 78) then
      let s := s.otherRailFault rail cause
      s.loseSector (rail - 78) (if cause = rcRegulator then 1 else 0)
    else s
  else if rail < 103 then (s.otherRailFault rail cause).groupRailLost (rail - 95)
  else if rail < 107 then
    (List.range 16).foldl (fun (s : State) i =>
      let p := 16 * (rail - 103) + i
      if (s.port p).carries then s.portDown p 2 else s) (s.otherRailFault rail cause)
  else (s.otherRailFault rail cause).loseGuest (rail - 107) 1

/-- The cause a rail's removal carries. -/
def railCause : RailObs → Nat
  | .overcurrent _ => rcOvercurrent
  | .undervoltage _ => rcUndervoltage
  | .regulator => rcRegulator

/-- RAIL_FAULT: a rail trips where what the hardware reads of it passes R386's bounds, or its regulators have failed; heat
is THERMAL_TRIP's (R386). -/
def execRailFault (rail : Fin 112) (o : RailObs) (s : State) : Host.Outcome State Fault Refusal :=
  .next (if !s.pins.pwrGood ∨ !s.trips rail o then s
    else
      let s := if o = .regulator then s.failRegs rail else s
      s.railLost rail (railCause o))

/-- THERMAL_TRIP: a field sensor reaches 105 degrees, or a stack 95: the rail is removed with THERMTRIP_N low (R32,
R386). -/
def execThermalTrip (stack : Bool) (unit : Fin 78) (deciC : BitVec 16) (s : State) : Host.Outcome State Fault Refusal :=
  .next (if !s.pins.pwrGood ∨ deciC.toNat < (if stack then 950 else 1050) then s
    else
      let s1 := { s with pins := { s.pins with thermtripN := false } }
      if stack then
        let g := unit.val % 8
        if !s.railUp (memRail g) then s
        else
          let s := s1.raise evThermalTrip none [(1, 1), (g, 1), (deciC.toNat, 2)] (.sessions :: s.liveAllots.map Dest.allot)
          let s := s.powerStep false (s.railW (memRail g))
          { s with boot := { s.boot with railsOff := memRail g :: s.boot.railsOff } }.groupRailLost g
      else if !(s.parish unit).railOn then s
      else
        let a := s.allotOf unit
        let s := s1.raise evThermalTrip a [(0, 1), (unit, 1), (deciC.toNat, 2)] (.sessions :: (a.map Dest.allot).toList)
        s.parishRailLost unit rcThermal)

/-- REGULATOR_LOSS: a regulator of a rail fails; the other of a field rail, of HUB-HS00 or of CLK-HS00 carries it, and the
loss of both, or of the only one, removes the rail (R22, R386, R404). -/
def execRegulatorLoss (rail : Fin 112) (second : Bool) (s : State) : Host.Outcome State Fault Refusal :=
  .next (if !s.pins.pwrGood then s
    else
      let s := s.failReg rail second
      if s.regsDown rail then s.railLost rail rcRegulator else s)

/-- UNDERVOLTAGE_LOCKOUT: the input has stayed below 46.0 V for 50 microseconds and every rail is removed with no orderly
shutdown; only the power-up sequence starts the module again, and that start reports it (R25, R392). -/
def execUndervoltageLockout (s : State) : Host.Outcome State Fault Refusal :=
  .next (if s.pins.powerEn then
    let t := s.allOff
    { t with store := { t.store with uvlos := t.store.uvlos + 1 }, boot := { t.boot with stopped := true, uvlo := true } }
  else s)

/-! ### Soft repairs (R466, R467) -/

/-- The DEADMAP register of a site. -/
def deadmapOff (par col row : Nat) : Nat := parishBase par + 0x1000 + 0x10 * col + (if row ≥ 64 then 8 else 0)

/-- A soft repair is applied as a DEADMAP write (R136, R467): SHIFTED (0) while the column has a spare, FALLOWED (1) where
it has become fallow. -/
def State.applyRepair (s : State) (r : Repair) : State :=
  let a := s.allotOf r.parish
  let hi := decide (r.row ≥ 64)
  let o := deadmapOff r.parish r.col r.row
  let s := { s with ras := { s.ras with repairs := s.ras.repairs.filter (· ≠ r) } }
  let s := s.deadmapWrite r.parish r.col hi (setBit (s.reg o) (r.row % 64) true)
  let s := { s with ras := { s.ras with suspects := s.ras.suspects.mapVals fun _ e =>
      if (e.kind = 1 ∨ e.kind = 2) ∧ e.parish = r.parish ∧ e.column = r.col ∧ e.row = r.row then { e with st := 3 } else e } }
  s.raise evSoftRepair a
    [(r.parish, 1), (r.col, 1), (r.row, 1), (b2n (s.fallow r.parish r.col), 1)] ((a.map Dest.allot).toList)

/-- Whether a repair may be applied: no HOLD, and its parish in no allotment, or one that is IDLE and no section active
(R136, R467). -/
def State.mayRepair (s : State) (r : Repair) : Bool :=
  !s.ras.hold && !s.sectionActive r.parish &&
    (match s.allotOf r.parish with
     | none => true
     | some a => decide ((s.allot a).st = .idle))

/-- Applies the repairs of an allotment's parishes that may be applied. -/
def State.repairAllot (s : State) (a : Nat) : State :=
  (s.ras.repairs.filter fun r => bit (s.allot a).parishes r.parish).foldl
    (fun s r => if s.mayRepair r then s.applyRepair r else s) s

/-- SOFT_REPAIR: a pending repair is applied once its allotment allows (R467). -/
def execSoftRepair (k : Nat) (s : State) : Host.Outcome State Fault Refusal :=
  .next (match s.ras.repairs[k]? with
    | some r => if s.up ∧ s.mayRepair r then s.applyRepair r else s
    | none => s)

/-- A write of SUSPECT_CTL: HOLD as written, and CLEAR empties the selected entry (R467, R480). -/
def State.suspectCtl (s : State) (v : DWord) : State :=
  let sel := bits (s.reg (rasBase + 0x10)) 0 8
  let r := { s.ras with hold := bit v 0 }
  { s with ras := if bit v 1 then { r with suspects := r.suspects.del sel } else r }

/-- SUSPECT_HOLD: a key-guarded write of HOLD (R467, R480). -/
def execSuspectHold (path : RegPath) (hold : Bool) (s : State) : Host.Outcome State Fault Refusal :=
  .next (s.writeNow path (rasBase + 0x20) true fun s => s.suspectCtl (if hold then 1 else 0))

/-- SUSPECT_CLEAR: a key-guarded write of CLEAR, HOLD as it stands (R480). -/
def execSuspectClear (path : RegPath) (s : State) : Host.Outcome State Fault Refusal :=
  .next (s.writeNow path (rasBase + 0x20) true fun s => s.suspectCtl (if s.ras.hold then 3 else 2))

/-- MCTP_EVENT_READ: the board controller reads the oldest unread board-directed event; ALERT_N is released when none is
left unread (R32), but by a module that has stopped service, which holds it low (R235). -/
def execMctpEventRead (s : State) : Host.Outcome State Fault Refusal :=
  .next (match s.unreadBoard with
    | [] => s
    | _ :: l => { s with unreadBoard := l, pins := { s.pins with alertN := l.isEmpty && !s.boot.stopped } })

end Sys2Proof.Machine
end

