-- ==== Sys2Proof/Machine/Allots.lean ====
section
/-! DEFINITION. Allotments made, loaded, reset and released (R144 to R149, R156, R223, R265, R306, R350 to R358, R476), and
sessions closed (R349): the operations the commands are made of. -/

namespace Sys2Proof.Machine

/-! ### Parish sets (R144) -/

/-- Whether two parishes are adjacent. -/
def adjacent (p q : Nat) : Bool :=
  let k := parishRow p
  let l := parishRow q
  let x := logicalX p 0
  let y := logicalX q 0
  (decide (k = l) && (decide (p + 1 = q) || decide (q + 1 = p))) ||
    ((decide (k + 1 = l) || decide (l + 1 = k)) && decide (x < y + 80) && decide (y < x + 80))

/-- The parishes of a set reached from those of `seen`, within `fuel` rounds. -/
def reach (set : List Nat) : Nat → List Nat → List Nat
  | 0, seen => seen
  | fuel + 1, seen => reach set fuel (set.filter fun p => seen.contains p || seen.any (adjacent p))

/-- Whether a set of parishes is connected. -/
def connected (set : List Nat) : Bool :=
  match set with
  | [] => false
  | p :: _ => decide ((reach set 78 [p]).length = set.length)

/-- Whether a parish is usable: powered, lit, not isolated. -/
def State.usable (s : State) (par : Nat) : Bool := (s.parish par).hears

/-- Whether the module gives compute service (R449). -/
def State.computes (s : State) : Bool := decide (s.boot.st = .ready ∨ s.boot.st = .degradedReady)

/-- Whether a parish set may be allotted (R144, R449). -/
def State.parishSetOk (s : State) (map : BitVec 128) : Bool :=
  let set := (List.range 78).filter fun p => bit map p
  s.computes && connected set && set.all fun p => s.usable p && (s.allotOf p).isNone

/-! ### Tallies and books set anew (R149, R265, R306, R476) -/

/-- Every position of an allotment that the model lists. -/
def State.positionsOf (s : State) (a : Nat) : List Pos := s.listed fun p => bit (s.allot a).parishes p

/-- The mesh of an allotment is emptied: nothing of it is residue (R149). -/
def State.emptyAllot (s : State) (a : Nat) : State := (s.positionsOf a).foldl (fun s p => s.emptyMesh p) s

/-- Tallies of an allotment set to 0, their waits and its posted operations discarded (R265). -/
def State.zeroTallies (s : State) (a : Nat) : State :=
  let x := s.allot a
  let inside (i : Nat) : Bool := decide (x.hubBase ≤ i ∧ i < x.hubBase + x.hubCount)
  let s := x.parishList.foldl (fun (s : State) (p : Fin 78) => s.updParish p fun y => { y with tallies := [], waiters := [] }) s
  let s := { s with hub := s.hub.filter fun e => !inside e.1
                    hubWait := s.hubWait.filter fun e => !inside e.1
                    tallyOps := s.tallyOps.filter fun m => !bit x.parishes m.src.parish }
  (s.positionsOf a).foldl (fun s p => s.updCore p fun c =>
    { c with t := Vector.replicate 16 0, tstart := Vector.replicate 16 0 }) s

/-- A channel's descriptors, and the requests it has out. -/
def Channel.descs (x : Channel) : Nat := x.running.length + x.waiting.length
def Channel.out (x : Channel) : Nat := (x.running.map fun r => r.outstanding.length).sum

/-- A core of an allotment with no section: no ACTIVE bank, banks EMPTY, channels and commands discarded, their
descriptors counted in CARTER_ABORTS (R223, R355). -/
def State.idleCore (s : State) (p : Pos) : State :=
  let c := s.core p
  let s := s.bump (parishBase p.parish + 0x2030) (c.load.descs + c.store.descs)
  s.setCore p { c with mode := .noBank, wait := .none, bankA := {}, bankB := {}, mq := [], mrun := none
                       load := {}, store := {}, drained := false, nextFill := 0 }

/-- The books of R475 that the audit owns, by the order of their rows in R475's table from 0. -/
def bookWell : Nat := 3
def bookReductions : Nat := 6

/-- A book found out of balance is set whole and reported (R476, R483). -/
def State.imbalanced (s : State) (book a diff : Nat) : State :=
  (s.bump (rasBase + 0x38)).raise evBooksImbalance none [(book, 1), (a, 1), (diff, 2)] []

/-- The well credits of a core that neither it nor a request holds. -/
def Core.missing (c : Core) : Nat := 16 - (c.load.credits + c.load.out + c.store.credits + c.store.out)

/-- The audit of an allotment's well credits: a dark parish's are written off, any other difference is reported (R471,
R476). -/
def State.auditCore (s : State) (a : Nat) (p : Pos) : State :=
  let c := s.core p
  let lost := if (s.parish p.parish).dark then c.load.out + c.store.out + c.missing else c.missing
  if lost = 0 then s
  else if (s.parish p.parish).dark then s.bump (rasBase + 0x38)
  else s.imbalanced bookWell a lost

/-- The packets staged in an entry. -/
def Red.stagedCount (x : Red) : Nat := (x.ins.map fun e => e.2.staged.length).sum

/-- The entries of a tag. -/
def State.redsOf (s : State) (tag : Nat) : List (Nat × Red) := s.reds.filter fun e => e.2.valid && decide (e.2.tag = tag)

/-- An entry without what it had staged. -/
def Red.unstaged (x : Red) : Red := { words := x.words }

/-- The audit of staged reduction data (R476): none may be held under a tag that is reset. -/
def State.auditReds (s : State) (a tag : Nat) : State :=
  let n := ((s.redsOf tag).map fun e => e.2.stagedCount).sum
  if n = 0 then s
  else ({ s with reds := s.reds.mapVals fun _ x => if x.valid ∧ x.tag = tag then x.unstaged else x }.bump
      (fabricBase + 0x58) n).imbalanced bookReductions a (min n 65535)

/-- The audit at RELEASE, RESET_FUNCTION and a warm restart (R476), before the books are reset. -/
def State.audit (s : State) (a : Nat) : State :=
  let s := s.bump (rasBase + 0x30)
  ((s.positionsOf a).foldl (fun s p => s.auditCore a p) s).auditReds a (s.allot a).tag

/-- What RESET_FUNCTION and RELEASE have in common: mesh emptied, cores idle, requests gone, tallies zero, completion
records zero, gatehouse rules invalid (R149, R223, R265, R306, R421). -/
def State.clearAllot (s : State) (a : Nat) : State :=
  let x := s.allot a
  let s := s.audit a
  let s := (s.emptyAllot a)
  let s := (s.positionsOf a).foldl (fun s p => s.idleCore p) s
  let s := { s with reqs := s.reqs.filter fun e => !bit x.parishes e.2.core.parish
                    rxs := s.rxs.mapVals fun _ r => if r.tag = x.tag then { r with count := 0, saturated := false } else r }
  (s.zeroTallies a).clearRules a

/-! ### RESET_FUNCTION and RELEASE (R351, R355) -/

/-- The allotment is IDLE with no program (R355), and its soft repairs are applied (R467). -/
def State.resetAllot (s : State) (a : Nat) : State :=
  let s := s.clearAllot a
  (s.updAllot a fun x =>
    { x with st := .idle, prog := none, exec := none, haltAt := none, probing := false, colour := 0 }).repairAllot a

/-- The event ring of an allotment is freed (R351). -/
def Session.freeRing (x : Session) (a : Nat) : Session :=
  { x with erings := x.erings.put (1 + a) { x.ering (1 + a) with waiting := [], lost := 0, polling := false } }

/-- The allotment returns to FREE (R351). -/
def State.releaseAllot (s : State) (a : Nat) : State :=
  let x := s.allot a
  let n := ((s.redsOf x.tag).map fun e => e.2.stagedCount).sum
  let s := { s with reds := s.reds.filter fun e => !(e.2.valid && decide (e.2.tag = x.tag)) }
  let s := (if n = 0 then s else s.bump (fabricBase + 0x58) n).clearAllot a
  let s := { s with rxs := s.rxs.filter fun e => e.2.tag ≠ x.tag, allots := s.allots.del a }
  s.updSes x.owner fun y => y.freeRing a

/-! ### ALLOT (R350) -/

/-- Whether a stripe range overlaps another allotment's (R190). -/
def State.stripesTaken (s : State) (first count : Nat) : Bool :=
  s.allots.any fun e => decide (e.2.st ≠ .free) && overlaps first count e.2.stripeFirst e.2.stripeCount

/-- Whether a hub tally range overlaps another allotment's. -/
def State.hubTaken (s : State) (base count : Nat) : Bool :=
  s.allots.any fun e => decide (e.2.st ≠ .free) && overlaps base count e.2.hubBase e.2.hubCount

/-- Whether a window entry breaks R301: reserved bits, or a base that is not 4 KiB aligned. -/
def badWindow (e : BitVec 128) : Bool :=
  decide (bits e 4 4 ≠ 0) || decide (bits e 52 12 ≠ 0) || decide (bits e 112 16 ≠ 0) || decide (bits e 64 12 ≠ 0)

/-- The entries of a window table as read from a host. -/
def windowTable (l : List Byte) (n : Nat) : List (BitVec 128) :=
  (List.range n).map fun i => BitVec.ofNat 128 (leAt l (16 * i) 16)

/-- The ID an ALLOT takes: the one it names, or the lowest free. -/
def State.allotId (s : State) (want : Nat) : Option Nat :=
  if want = 0xFF then (List.range 16).find? fun a => decide ((s.allot a).st = .free)
  else if (s.allot want).st = .free then some want else none

/-- Whether a snapshot region lies in a quota. -/
def State.snapIn (s : State) (first count dpa len : Nat) : Bool :=
  if len = 0 then true
  else
    match s.viewDpa dpa with
    | some d => decide (first * s.stripe ≤ d ∧ d + len ≤ (first + count) * s.stripe)
    | none => false

/-- Why an ALLOT is refused, in the order of R350; the ID it takes where it is not. -/
def State.allotCheck (s : State) (m : List Byte) (wintab : HostData) : Except Nat Nat :=
  let first := leAt m 52 2
  let count := leAt m 54 2
  let n := leAt m 108 2
  if !s.parishSetOk (BitVec.ofNat 128 (leAt m 32 16)) then .error dParishSet
  else
    match s.allotId (leAt m 12 1) with
    | none => .error dNoId
    | some a =>
      if (s.allotOfTag (leAt m 48 1)).isSome then .error dTagInUse
      else if first + count > 4095 ∨ s.stripesTaken first count ∨ !s.snapIn first count (leAt m 80 8) (leAt m 88 4) then
        .error dQuota
      else if leAt m 56 2 + leAt m 58 2 > 4096 ∨ s.hubTaken (leAt m 56 2) (leAt m 58 2) then .error dHubTally
      else
        match wintab with
        | none => if n = 0 then .ok a else .error dHostRead
        | some l =>
          if l.length < 16 * n then .error dHostRead
          else if (windowTable l n).any badWindow then .error dEntry
          else .ok a

/-- The allotment an ALLOT makes (R350). -/
def newAllot (owner : Nat) (m : List Byte) (wintab : HostData) (rkey : Word) : Allot :=
  { st := .idle, owner := owner, parishes := BitVec.ofNat 80 (leAt m 32 16), tag := leAt m 48 1, weight := leAt m 49 1
    loaderShare := if leAt m 50 1 = 0 then 45 else leAt m 50 1
    stripeFirst := leAt m 52 2, stripeCount := leAt m 54 2, hubBase := leAt m 56 2, hubCount := leAt m 58 2
    key := BitVec.ofNat 64 (leAt m 64 8), mask := BitVec.ofNat 16 (leAt m 72 2)
    snapDpa := leAt m 80 8, snapLen := leAt m 88 4
    windows := (windowTable (wintab.getD []) (leAt m 108 2)).zipIdx.map fun e => (e.2, e.1)
    rkey := rkey }

/-- ALLOT's effect (R350, R148, R149, R265, R401, R479). -/
def State.makeAllot (s : State) (a owner : Nat) (m : List Byte) (wintab : HostData) : State :=
  let s := (s.setAllot a (newAllot owner m wintab (BitVec.ofNat 32 (bits s.draw 0 32)))).drawn
  let s := { s with reeve := { s.reeve with est := s.reeve.est.del a, ballastA := s.reeve.ballastA.del a } }
  ((s.emptyAllot a).zeroTallies a).repairAllot a

/-- RESULT of ALLOT. -/
def State.allotResult (s : State) (a : Nat) : BitVec 192 :=
  let x := s.allot a
  resultOf [(0, 1, a), (4, 4, x.rkey.toNat), (8, 8, x.stripeFirst * s.stripe), (16, 8, x.stripeCount * s.stripe)]

/-! ### LOAD (R152 to R156, R306, R352) -/

/-- Bytes of an image as the device reads them. -/
def State.imgBytes (s : State) (dpa n : Nat) : List Byte := (List.range n).map fun i => s.sigByte (dpa + i)

/-- A section descriptor of 128 bytes with its completion entries and output regions. -/
def sectOf (b compl outs : List Byte) : Sect :=
  { secseq := leAt b 0 4, launch := leAt b 4 4, deadline := leAt b 8 4, grace := leAt b 12 2, opPref := leAt b 14 1 % 8
    floor := leAt b 15 1, recheck := (leAt b 16 2).testBit 0, third := (leAt b 16 2).testBit 1, records := leAt b 18 2
    recOfs := [leAt b 24 8, leAt b 32 8, leAt b 40 8]
    compl := (List.range (leAt b 48 1)).map fun i => (leAt compl (8 * i) 4 % 2 ^ 20, leAt compl (8 * i + 4) 4)
    outs := (List.range (leAt b 49 1)).map fun i => (leAt outs (24 * i) 8, leAt outs (24 * i + 8) 8, leAt outs (24 * i + 16) 8)
    launch2 := leAt b 72 4, deadline2 := leAt b 76 4, launch3 := leAt b 80 4, deadline3 := leAt b 84 4 }

/-- HEADER of the program header (R152, R156). -/
def headerBad (h : List Byte) : Bool :=
  decide (leAt h 0 2 ≠ 1 ∨ leAt h 2 2 ≠ 1 ∨ leAt h 4 2 = 0) || decide (leAt h 6 1 = 0 ∨ leAt h 6 1 > 3) ||
    decide (leAt h 7 1 ≠ 0) || decide (leAt h 8 16 ≥ 2 ^ 78) || decide (leAt h 24 8 % 128 ≠ 0) || decide (leAt h 48 16 ≠ 0)

/-- HEADER of a section descriptor (R153, R156). -/
def sectHeaderBad (variants : Nat) (b compl : List Byte) : Bool :=
  decide (leAt b 14 1 ≥ 8) || decide (leAt b 16 2 ≥ 4) || decide (leAt b 20 4 ≠ 0) || decide (leAt b 50 6 ≠ 0) ||
    decide (leAt b 88 40 ≠ 0) || decide (leAt b 48 1 > 16) || decide (leAt b 49 1 > 8) ||
    (List.range 3).any (fun v => decide (v ≥ variants ∧ leAt b (24 + 8 * v) 8 ≠ 0)) ||
    (List.range (leAt b 48 1)).any (fun i => decide (leAt compl (8 * i) 4 ≥ 2 ^ 20))

/-- The runs a section declares, in order: launch and deadline (R147, R173). -/
def Sect.runs (x : Sect) : List (Nat × Nat) :=
  (x.launch, x.deadline) ::
    ((if x.recheck then [(x.launch2, x.deadline2)] else []) ++ (if x.third then [(x.launch3, x.deadline3)] else []))

/-- SEQUENCE of section `i` after one whose last declared run ends at `prev` (R156). -/
def Sect.sequenceBad (x : Sect) (i prev : Nat) : Bool :=
  decide (x.secseq ≠ i ∨ x.deadline ≤ x.launch ∨ x.launch < prev)

/-- RECHECK of a section (R156). -/
def Sect.recheckBad (x : Sect) (variants : Nat) : Bool :=
  (x.recheck && decide (variants = 1)) || (x.third && !x.recheck) || (x.recheck && x.outs.isEmpty) ||
    x.recheck && (x.runs.zip (x.runs.drop 1)).any fun e => decide (e.2.2 ≤ e.2.1 ∨ e.2.1 < e.1.2)

/-- RECORD of a core-image record (R154, R156). -/
def Rec.bad (r : Rec) (parishes : BitVec 80) : Bool :=
  decide (r.reserved ≠ 0 ∨ r.parish > 77) || !bit parishes r.parish || decide (r.cols = 0 ∨ r.rows = 0) ||
    decide (r.col0 + r.cols > 80 ∨ r.row0 + r.rows > 96) || decide (r.bodyLen % 8 ≠ 0 ∨ r.bodyLen < 8 ∨ r.bodyLen > 8192) ||
    decide (r.bodyOfs % 8 ≠ 0)

/-- Whether two records' rectangles share a position. -/
def Rec.meets (r t : Rec) : Bool :=
  decide (r.parish = t.parish) && overlaps r.col0 r.cols t.col0 t.cols && overlaps r.row0 r.rows t.row0 t.rows

/-- Codes of the records of one variant (R156). -/
def State.recordCodes (s : State) (parishes : BitVec 80) (size : Nat) (l : List Rec) : List Nat :=
  let good := l.filter fun r => !r.bad parishes
  (if l.any (fun r => r.bad parishes) then [0x05] else []) ++
    (if l.any (fun r => decide (r.bodyOfs + r.bodyLen > size)) then [0x04] else []) ++
    (if good.zipIdx.any (fun x => good.zipIdx.any fun y => decide (x.2 < y.2) && x.1.meets y.1) then [0x06] else []) ++
    (if good.any (fun r => (List.range r.cols).any fun c => s.fallow r.parish (r.col0 + c)) then [0x07] else [])

/-- The completion entries of a descriptor that lie within IMAGE_BYTES, and its output regions that do. -/
def complIn (size : Nat) (b : List Byte) : Nat := min (min (leAt b 48 1) 16) ((size - leAt b 56 8) / 8)
def outsIn (size : Nat) (b : List Byte) : Nat := min (min (leAt b 49 1) 8) ((size - leAt b 64 8) / 24)

/-- One section as LOAD reads it: the section, and the codes of the checks it fails. A part beyond IMAGE_BYTES fails RANGE
and is not examined. -/
def State.readSect (s : State) (base size variants : Nat) (parishes : BitVec 80) (table i prev : Nat) : Sect × List Nat :=
  let b := s.imgBytes (base + table + 128 * i) 128
  let compl := s.imgBytes (base + leAt b 56 8) (8 * complIn size b)
  let outs := s.imgBytes (base + leAt b 64 8) (24 * outsIn size b)
  let x := sectOf b compl outs
  let rIn (v : Nat) : Bool := decide ((x.recOfs[v]?).getD 0 + 32 * x.records ≤ size)
  let recs (v : Nat) : List Rec :=
    if rIn v then (List.range x.records).map fun j => recOf (s.imgBytes (base + (x.recOfs[v]?).getD 0 + 32 * j) 32) else []
  (x, (if sectHeaderBad variants b compl then [0x01] else []) ++
      (if x.sequenceBad i prev then [0x03] else []) ++
      (if leAt b 56 8 + 8 * leAt b 48 1 > size ∨ leAt b 64 8 + 24 * leAt b 49 1 > size ∨ (List.range variants).any (fun v => !rIn v)
        then [0x04] else []) ++
      (if x.recheckBad variants then [0x0B] else []) ++
      (List.range variants).flatMap fun v => s.recordCodes parishes size (recs v))

/-- The descriptors of a table that lie within IMAGE_BYTES. -/
def sectsIn (size table n : Nat) : Nat := min n ((size - table) / 128)

/-- The sections from `i`, `n` of them, after a run that ends at `prev`. -/
def State.readSects (s : State) (base size variants : Nat) (parishes : BitVec 80) (table : Nat) :
    Nat → Nat → Nat → List Sect × List Nat
  | 0, _, _ => ([], [])
  | n + 1, i, prev =>
    let x := s.readSect base size variants parishes table i prev
    let last := ((x.1.runs.getLast?).map (·.2)).getD 0
    let t := s.readSects base size variants parishes table n (i + 1) last
    (x.1 :: t.1, x.2 ++ t.2)

/-- The transfers a program's completion conditions name. -/
def Prog.tids (g : Prog) : List Nat := (g.sects.flatMap fun x => x.compl.map (·.1)).dedup

/-- A program image judged: the program, or the lowest code among the checks that fail (R156). -/
def State.judgeImage (s : State) (a dpa : Nat) : Except Nat Prog :=
  let h := s.imgBytes dpa 64
  let size := leAt h 32 8
  let n := leAt h 4 2
  let table := leAt h 24 8
  let parishes := (s.allot a).parishes
  if headerBad h then .error 0x01
  else
    let top := (if BitVec.ofNat 80 (leAt h 8 16) ≠ parishes then [0x02] else []) ++ (if size < 64 ∨ table + 128 * n > size then [0x04] else [])
    let r := s.readSects dpa size (leAt h 6 1) parishes table (sectsIn size table n) 0 0
    let codes := top ++ r.2
    if codes.isEmpty then
      .ok { planId := BitVec.ofNat 64 (leAt h 40 8), dpa := dpa, variants := leAt h 6 1, sects := r.1 }
    else .error (codes.foldl min 0x0B)

/-- The ranges of an image that LOAD reads, of those that lie within IMAGE_BYTES: header, descriptors, completion entries, output
regions and records. -/
def State.imageReads (s : State) (dpa : Nat) : List (Nat × Nat) :=
  let h := s.imgBytes dpa 64
  let size := leAt h 32 8
  let table := leAt h 24 8
  (dpa, 64) :: (if headerBad h then [] else
    (List.range (sectsIn size table (leAt h 4 2))).flatMap fun i =>
      let d := dpa + table + 128 * i
      let b := s.imgBytes d 128
      let recs := (List.range (leAt h 6 1)).filterMap fun v =>
        if leAt b (24 + 8 * v) 8 + 32 * leAt b 18 2 ≤ size then some (dpa + leAt b (24 + 8 * v) 8, 32 * leAt b 18 2) else none
      [(d, 128), (dpa + leAt b 56 8, 8 * complIn size b), (dpa + leAt b 64 8, 24 * outsIn size b)] ++ recs)

/-- LOAD's reads, as far as rows, errors and counters go (R194, R198, R203). -/
def State.readImage (s : State) (a dpa : Nat) : State :=
  match s.viewDpa dpa with
  | some d => if s.inQuota a d 64 then (s.imageReads d).foldl (fun s r => s.readRange 10 0xFFFFFFFF (some a) r.1 r.2) s else s
  | none => s

/-- Whether an address range of either view lies in a quota. -/
def State.viewIn (s : State) (a dpa n : Nat) : Bool :=
  match s.viewDpa dpa with
  | some d => s.inQuota a d n
  | none => false

/-- The transfer IDs a program names for which its tag has no completion record yet (R306). -/
def State.newTids (s : State) (tag : Nat) (tids : List Nat) : List Nat := tids.filter fun t => (s.rxOf tag t).isNone

/-- Completion records of a tag are reserved for a program (R306): the free records of lowest number for those it lacks. Those
it has stay until RELEASE. -/
def State.reserveRx (s : State) (tag : Nat) (tids : List Nat) : State :=
  let free := (List.range 8192).filter fun i => (s.rxs.find? i).isNone
  { s with rxs := (free.zip (s.newTids tag tids)).foldl (fun t e => Tab.put t e.1 { tag := tag, tid := e.2 }) s.rxs }

/-- LOAD judged (R352, R156, R306): the program, or a DETAIL. -/
def State.judgeLoad (s : State) (a dpa : Nat) : Except Nat Prog :=
  if !s.viewIn a dpa 64 ∨ !s.viewIn a dpa (max 64 (leNat (s.imgBytes (dpa + 32) 8))) then .error dQuota
  else
    match s.viewDpa dpa with
    | none => .error dQuota
    | some d =>
      match s.judgeImage a d with
      | .error e => .error e
      | .ok g =>
        if s.rxs.length + (s.newTids (s.allot a).tag g.tids).length > 8192 then .error dCompletionRecords else .ok g

/-- LOAD executes (R352, R146). -/
def State.loadProgram (s : State) (a lsn dpa : Nat) : State :=
  let judged := s.judgeLoad a dpa
  let s := s.readImage a dpa
  match judged with
  | .error d => (s.updAllot a fun x => { x with st := .idle, prog := none }).drawn.refuse lsn d
  | .ok g =>
    let s := (s.reserveRx (s.allot a).tag g.tids).updAllot a fun x => { x with st := .loaded, prog := some g }
    s.drawn.finish lsn 0 0 (resultOf [(0, 8, g.planId.toNat), (8, 2, g.sects.length), (10, 2, g.tids.length)])

/-! ### RUN (R353) -/

/-- A program starts (R353): its allotment RUNNING, job time on (R390). -/
def State.startRun (s : State) (a lsn start : Nat) : State :=
  let s := (s.positionsOf a).foldl (fun s p => s.updCore p fun c => { c with nextFill := 0 }) s
  let s := s.updAllot a fun x => { x with st := .running, haltAt := none, probing := false, exec := some { lsn := lsn, start := start } }
  { s with reeve := { s.reeve with jobTime := true, jobEnding := false } }

/-! ### Contexts (R357, R358) -/

/-- The parish block's place in a context image. -/
def ctxBlocks (h : Nat) : Nat := (64 + 4 * h + 63) / 64 * 64
/-- Bytes of a context image. -/
def ctxSize (h n : Nat) (sram : Bool) : Nat := ctxBlocks h + 247232 * n + (if sram then 754974720 * n else 0)

/-- Positions of a parish by row and then column. -/
def rowMajor (p : Fin 78) : List Pos :=
  (List.finRange 96).flatMap fun r => (List.finRange 80).map fun c => { parish := p, col := c, row := r }

/-- Whether a position has an ACTIVE bank. -/
def State.hasBank (s : State) (p : Pos) : Bool := decide ((s.core p).mode ≠ .noBank)

/-- Eight booleans as a byte, the first in bit 0. -/
def byteOf (l : List Bool) : Byte := BitVec.ofNat 8 ((l.zipIdx.map fun e => if e.1 then 2 ^ e.2 else 0).sum)

/-- A bitmap of booleans in bytes. -/
def bitmap (l : List Bool) (n : Nat) : List Byte := (List.range n).map fun i => byteOf ((l.drop (8 * i)).take 8)

/-- A parish block of a context image. -/
def State.ctxParish (s : State) (p : Fin 78) : List Byte :=
  let l := rowMajor p
  bitmap (l.map s.hasBank) 960 ++
    (List.range 256).flatMap (fun j => leBytes 2 ((s.parish p).tallies.get 0 j).toNat) ++
    l.flatMap fun q => if s.hasBank q then (s.core q).t.toList.flatMap fun t => leBytes 2 t.toNat else leBytes 32 0

/-- A context image but for its SRAM part. -/
def State.ctxImage (s : State) (a : Nat) (sram : Bool) : List Byte :=
  let x := s.allot a
  let head := leBytes 2 1 ++ leBytes 1 (b2n sram) ++ leBytes 1 0 ++ leBytes 4 x.hubCount ++ leBytes 16 x.parishes.toNat
    ++ leBytes 8 (ctxSize x.hubCount x.parishList.length sram) ++ leBytes 32 0
  let hub := (List.range x.hubCount).flatMap fun i => leBytes 4 (s.hub.get 0 (x.hubBase + i)).toNat
  head ++ hub ++ leBytes (ctxBlocks x.hubCount - 64 - 4 * x.hubCount) 0 ++ x.parishList.flatMap s.ctxParish

/-- The bytes of one position's data SRAM as a context image holds them: zero in a fallow column. -/
def State.ctxSram (s : State) (p : Pos) : List Byte :=
  if s.fallow p.parish p.col then leBytes 98304 0 else (s.core p).bytes 0 98304

/-- A position's data SRAM is written into a context image at `dpa`, poison with it (R357, R461). -/
def State.saveSram (s : State) (p : Pos) (dpa : Nat) : State :=
  let bad := if s.fallow p.parish p.col then [] else (s.core p).sramPoison.filter fun w => w < 12288
  let s := s.dpaWrite dpa (s.ctxSram p) (s.allotOf p.parish)
  bad.foldl (fun s w => (List.range 8).foldl (fun s i => s.setMemPoison (s.memKey (dpa + 8 * w + i) / 8) true) s) s

/-- The order of positions in the SRAM part. -/
def Allot.sramOrder (x : Allot) : List Pos := x.parishList.flatMap rowMajor

/-- CONTEXT_SAVE's writes, at an interleaved address (R357). -/
def State.saveContext (s : State) (a d : Nat) (sram : Bool) : State :=
  let x := s.allot a
  let base := d + ctxBlocks x.hubCount + 247232 * x.parishList.length
  let s := s.dpaWrite d (s.ctxImage a sram) (some a)
  if sram then x.sramOrder.zipIdx.foldl (fun s e => s.saveSram e.1 (base + 98304 * e.2)) s else s

/-- CONTEXT_SAVE executes: QUOTA, SPACE, or the image written (R357). -/
def State.contextSave (s : State) (a lsn : Nat) (m : List Byte) : State :=
  let x := s.allot a
  let sram := (leAt m 48 1).testBit 0
  let n := ctxSize x.hubCount x.parishList.length sram
  match s.viewDpa (leAt m 32 8) with
  | none => s.refuse lsn dQuota
  | some d =>
    if !s.inQuota a d 1 then s.refuse lsn dQuota
    else if leAt m 40 8 < n then s.refuse lsn dSpace
    else if !s.inQuota a d n then s.refuse lsn dQuota
    else (s.saveContext a d sram).finish lsn 0 0 (resultOf [(0, 8, n)])

/-- A position's data SRAM is restored from a context image at `dpa`, poison with it. -/
def State.restoreSram (s : State) (p : Pos) (dpa : Nat) : State :=
  let l := s.imgBytes dpa 98304
  let bad := (List.range 12288).filter fun w => (List.range 8).any fun i => s.wordPoison (s.memKey (dpa + 8 * w + i) / 8)
  s.updCore p fun c =>
    { c with sram := (l.zipIdx.filter fun e => e.1 ≠ 0).map fun e => (e.2, e.1)
             sramInit := 0, sramPoison := bad, ue := [], ce := [], writeback := [] }

/-- Core tallies of a parish block at `dpa`, by row and then column; positions in fallow columns are skipped (R358). -/
def State.restoreParish (s : State) (p : Fin 78) (dpa : Nat) : State :=
  let tl := (List.range 256).filterMap fun j =>
    let v := leNat (s.imgBytes (dpa + 960 + 2 * j) 2)
    if v = 0 then none else some (j, BitVec.ofNat 16 v)
  let s' := s.updParish p fun y => { y with tallies := tl }
  (rowMajor p).zipIdx.foldl (fun t e =>
    if t.fallow p e.1.col then t
    else
      let v := Vector.ofFn fun (i : Fin 16) => BitVec.ofNat 16 (leNat (s.imgBytes (dpa + 1472 + 32 * e.2 + 2 * i.val) 2))
      if v = Vector.replicate 16 0 ∧ (t.cores.find? e.1.id).isNone then t
      else t.updCore e.1 fun c => { c with t := v, tstart := v }) s'

/-- A core whose banks are EMPTY after a restore. -/
def State.unbank (s : State) (p : Pos) : State :=
  s.updCore p fun c => { c with mode := .noBank, wait := .none, bankA := {}, bankB := {} }

/-- CONTEXT_RESTORE's writes from an interleaved address (R358). -/
def State.restoreContext (s : State) (a d h : Nat) (sram : Bool) : State :=
  let x := s.allot a
  let hub := (List.range (min h x.hubCount)).map fun i => (x.hubBase + i, BitVec.ofNat 32 (leNat (s.imgBytes (d + 64 + 4 * i) 4)))
  let s := (s.emptyAllot a).readRange 10 0xFFFFFFFF (some a) (d + 64) (ctxSize h x.parishList.length sram - 64)
  let s := (s.positionsOf a).foldl (fun s p => s.unbank p) s
  let s := s.updAllot a fun x => { x with colour := 0 }
  let s := { s with hub := hub.foldl (fun t e => t.put e.1 e.2) s.hub }
  let s := x.parishList.zipIdx.foldl (fun (s : State) e => s.restoreParish e.1 (d + ctxBlocks h + 247232 * e.2)) s
  let base := d + ctxBlocks h + 247232 * x.parishList.length
  if sram then x.sramOrder.zipIdx.foldl (fun s e =>
    if s.fallow e.1.parish e.1.col then s else s.restoreSram e.1 (base + 98304 * e.2)) s
  else s

/-- CONTEXT_RESTORE executes (R358). -/
def State.contextRestore (s : State) (a lsn : Nat) (m : List Byte) : State :=
  let x := s.allot a
  match s.viewDpa (leAt m 32 8) with
  | none => s.refuse lsn dQuota
  | some d =>
    if !s.inQuota a d 64 then s.refuse lsn dQuota
    else
      let s := s.readRange 10 0xFFFFFFFF (some a) d 64
      let hdr := s.imgBytes d 64
      let h := leAt hdr 4 4
      let sram := (leAt hdr 2 1).testBit 0
      if leAt hdr 0 2 ≠ 1 ∨ leAt hdr 8 16 ≠ x.parishes.toNat then s.refuse lsn dContextMismatch
      else if !s.inQuota a d (ctxSize h x.parishList.length sram) then s.refuse lsn dQuota
      else
        let cols := x.parishList.map fun p => ((List.finRange 80).filter fun c => s.fallow p c).length
        let skipped := 96 * cols.sum
        (s.restoreContext a d h sram).drawn.finish lsn 0 0
          (resultOf [(0, 4, 7680 * x.parishList.length - skipped), (4, 4, skipped)])

/-! ### Closing a session (R334, R349) -/

/-- The allotments a session owns. -/
def State.ownedBy (s : State) (id : Nat) : List Nat :=
  (s.allots.filter fun e => decide (e.2.st ≠ .free ∧ e.2.owner = id)).map (·.1)

/-- The commands waiting in an allotment's queue end ABORTED (R349, R351, R364). -/
def State.abortQueue (s : State) (a detail : Nat) : State :=
  let l := (s.allot a).queue
  let s := s.updAllot a fun x => { x with queue := [] }
  l.foldl (fun s lsn => s.finishOne lsn 3 detail 0) s

/-- The command an allotment executes, other than a RUN, ends ABORTED. -/
def State.abortActive (s : State) (a detail : Nat) : State :=
  match (s.allot a).active with
  | none => s
  | some lsn => s.finishOne lsn 3 detail 0

/-- The session is closed: its immediate commands behind the CLOSE end ABORTED, its QP is unbound, its credits return, and
its CLOSE completion is the last record (R349). Completions that cannot be written now keep what is left of it until they are
(R345); of one that expired while DETACHED nothing is left. -/
def State.endSession (s : State) (id lsn : Nat) : State :=
  match s.ses.find? id with
  | none => s
  | some x =>
    let s := (x.imm.filter (· ≠ lsn)).foldl (fun s l => s.finishOne l 3 dClose 0) s
    let s := if lsn = 0 then s else s.finishOne lsn 0 0 0
    if lsn = 0 ∧ !x.attached then s.dropSession id
    else
      ({ s.updSes id fun y => { y with ending := true, imm := [] } with
          qps := s.qps.mapVals fun _ q => if q.ses = some id then { q with ses := none } else q }).endIfDone id

/-- A closing session goes on: each owned allotment halts at its next tick where it is RUNNING, its queue ends ABORTED, and
it is released; when none is left the session ends (R349). An expiry is reported then (R334). -/
def State.closeOn (s : State) (id : Nat) : State :=
  match s.ses.find? id with
  | none => s
  | some x =>
    match x.closing with
    | none => s
    | some lsn =>
      if x.ending then (if lsn = 0 then s.dropSession id else s) else
      let l := s.ownedBy id
      let s := l.foldl (fun s a =>
        let s := s.abortQueue a dClose
        if (s.allot a).st = .running then s.haltNext a .close else (s.abortActive a dClose).releaseAllot a) s
      let s := s.updSes id fun y => { y with closed := y.closed ++ l.filter fun a => !y.closed.contains a }
      if (s.ownedBy id).isEmpty then
        let mask := ((((s.ses.find? id).map (·.closed)).getD []).map (2 ^ ·)).sum
        let s := (s.endSession id lsn).dispatchAll
        if lsn = 0 then s.raise evSessionExpired none [(id, 2), (mask, 2)] [] else s
      else s

/-- Every closing session goes on. -/
def State.closeAll (s : State) : State := s.ses.foldl (fun s e => if e.2.closing.isSome then s.closeOn e.1 else s) s

end Sys2Proof.Machine
end

