-- ==== Sys2Proof/Machine/Commands.lean ====
section
/-! DEFINITION. Sessions and their commands (R331 to R340, R346 to R359): judging a SEND, OPEN and CLOSE, the immediate and
the queued commands, and the ticks that let a closing session go on. -/

namespace Sys2Proof.Machine

/-! ### Encodings (R336, R337, R347 to R363) -/

def inRange (lo hi : Nat) (v : Nat) : Bool := decide (lo ≤ v ∧ v ≤ hi)
def anyValue (_ : Nat) : Bool := true

/-- A command's LENGTH (exact, or the least), and its body's fields: offset, bytes, values allowed. -/
structure BodySpec where
  len : Nat
  exact : Bool
  fields : List (Nat × Nat × (Nat → Bool))

/-- The bodies of the opcodes (R346 to R363). -/
def bodySpec : Nat → Option BodySpec
  | 0x01 => some { len := 128, exact := true, fields :=
      [(32, 16, anyValue), (48, 1, inRange 0 1), (49, 1, inRange 0 3), (50, 2, anyValue), (52, 2, inRange 0 0xFFF), (56, 8, anyValue),
       (64, 8, anyValue), (72, 4, anyValue), (76, 1, inRange 6 16), (80, 8, anyValue), (88, 4, anyValue), (92, 1, inRange 6 16),
       (94, 2, anyValue), (96, 4, fun v => v == 0 || inRange 10 86400 v)] }
  | 0x02 => some { len := 40, exact := false, fields := [(32, 1, inRange 0 1)] }
  | 0x03 => some { len := 128, exact := true, fields :=
      [(32, 16, inRange 0 (2 ^ 78 - 1)), (48, 1, inRange 0 15), (49, 1, inRange 1 15), (50, 1, inRange 0 100), (52, 2, anyValue),
       (54, 2, inRange 1 65535), (56, 2, anyValue), (58, 2, inRange 0 4096), (64, 8, anyValue), (72, 2, anyValue), (80, 8, inRange 0 (2 ^ 48 - 1)),
       (88, 4, anyValue), (96, 8, anyValue), (104, 4, anyValue), (108, 2, inRange 0 256)] }
  | 0x04 => some { len := 32, exact := false, fields := [] }
  | 0x05 => some { len := 40, exact := false, fields := [(32, 8, inRange 0 (2 ^ 48 - 1))] }
  | 0x06 => some { len := 40, exact := false, fields := [(32, 8, anyValue)] }
  | 0x07 => some { len := 32, exact := false, fields := [] }
  | 0x08 => some { len := 48, exact := false, fields := [(32, 8, anyValue), (40, 4, anyValue), (44, 4, anyValue)] }
  | 0x09 => some { len := 56, exact := false, fields :=
      [(32, 4, fun v => v % 8 == 0), (36, 4, fun v => v % 8 == 0 && inRange 8 65536 v), (40, 8, anyValue), (48, 4, anyValue),
       (52, 4, anyValue)] }
  | 0x0A => some { len := 64, exact := false, fields :=
      [(32, 8, anyValue), (40, 4, inRange 1 65536), (44, 2, fun v => v % 2 ^ 15 < 2 ^ 12), (48, 8, anyValue), (56, 4, anyValue),
       (60, 4, anyValue)] }
  | 0x0B => some { len := 40, exact := false, fields := [(32, 1, inRange 0 7)] }
  | 0x0C => some { len := 56, exact := false, fields := [(32, 8, inRange 0 (2 ^ 48 - 1)), (40, 8, anyValue), (48, 1, inRange 0 1)] }
  | 0x0D => some { len := 40, exact := false, fields := [(32, 8, inRange 0 (2 ^ 48 - 1))] }
  | 0x0E => some { len := 32, exact := false, fields := [] }
  | 0x0F => some { len := 128, exact := true, fields := [(32, 1, inRange 0 2), (36, 4, anyValue), (48, 64, anyValue)] }
  | 0x10 => some { len := 56, exact := false, fields := [(32, 8, anyValue), (40, 4, anyValue), (44, 4, anyValue), (48, 1, inRange 0 1)] }
  | _ => none

/-- Offsets of bytes of `m` from `lo` that no field of a body covers and that are not zero. -/
def strayBytes (m : List Byte) (f : List (Nat × Nat × (Nat → Bool))) : List Nat :=
  (List.range m.length).filter fun i =>
    decide (i ≥ 32) && decide ((m[i]?).getD 0 ≠ 0) && !f.any fun x => decide (x.1 ≤ i ∧ i < x.1 + x.2.1)

/-- Offsets at which a header breaks its encoding, but for the fields that name the session. -/
def headerBadAt (m : List Byte) : List Nat :=
  (if m.length < 32 ∨ m.length > 4096 ∨ m.length % 8 ≠ 0 ∨ leAt m 6 2 ≠ m.length then [6] else []) ++
    (if leAt m 2 2 ≥ 2 ^ 12 then [3] else []) ++
    (if 15 < leAt m 12 1 ∧ leAt m 12 1 < 255 then [12] else []) ++
    (List.range m.length).filter fun i =>
      (decide (13 ≤ i ∧ i < 16) || decide (24 ≤ i ∧ i < 32)) && decide ((m[i]?).getD 0 ≠ 0)

/-- What only one opcode asks of its body: offsets that break it. -/
def extraBadAt (op : Nat) (m : List Byte) : List Nat :=
  match op with
  | 0x01 =>
    if leAt m 49 1 % 2 = 1 then []
    else (if leAt m 2 2 ≠ 0 then [2] else []) ++ (if leAt m 52 2 ≠ 0 then [52] else []) ++
      (if leAt m 56 8 ≠ 0 then [56] else []) ++ (if leAt m 50 2 = 0 ∨ leAt m 50 2 > 256 then [50] else [])
  | 0x0F =>
    (if leAt m 32 1 = 0 ∧ leAt m 12 1 ≠ 0xFF then [12] else []) ++
      (if leAt m 32 1 = 0 ∧ leAt m 48 16 ≥ 2 ^ 79 then [57] else []) ++
      (if leAt m 32 1 < 2 then (List.range 48).map (64 + ·) |>.filter fun i => (m[i]?).getD 0 ≠ 0 else []) ++
      (if leAt m 36 4 > (if leAt m 32 1 = 0 then 262143 else if leAt m 32 1 = 1 then 255 else 4095) then [36] else [])
  | _ => []

/-- Offsets at which a message breaks its encoding (R336). -/
def badAt (m : List Byte) : List Nat :=
  headerBadAt m ++
    match bodySpec (leAt m 1 1) with
    | none => [1]
    | some b =>
      if m.length < b.len ∨ (b.exact ∧ m.length ≠ b.len) then [6]
      else (b.fields.filter fun f => !f.2.2 (leAt m f.1 f.2.1)).map (·.1) ++ strayBytes m b.fields ++ extraBadAt (leAt m 1 1) m

/-- Offsets at which the header of an OPEN breaks its encoding: VERUX, EPOCH and SEQ are 0 (R336). -/
def openHeadBad (m : List Byte) : List Nat :=
  (if leAt m 0 1 ≠ 0 then [0] else []) ++ (if leAt m 4 2 ≠ 0 then [4] else []) ++ (if leAt m 8 4 ≠ 0 then [8] else [])

/-- The first byte at which a message on a session's QP is malformed (R337 row 1). -/
def Session.firstBad (x : Session) (id : Nat) (m : List Byte) : Option Nat :=
  let l := badAt m ++ (if leAt m 0 1 ≠ x.version.toNat then [0] else []) ++ (if leAt m 2 2 % 2 ^ 12 ≠ id then [2] else []) ++
    (if leAt m 1 1 = 1 then openHeadBad m else [])
  match l with
  | [] => none
  | h :: t => some (t.foldl min h)

/-- A well-formed OPEN (R338, R347). -/
def openOk (m : List Byte) : Bool :=
  decide (leAt m 1 1 = 1) && (openHeadBad m).isEmpty && (badAt m).isEmpty

/-! ### OPEN (R322, R333, R335, R347, R348) -/

/-- Whether an address lies in a prefix. -/
def inPrefix (a : BitVec 128) (p : BitVec 128 × Nat) : Bool := decide (a.toNat / 2 ^ (128 - p.2) = p.1.toNat / 2 ^ (128 - p.2))

/-- Whether a management session may be opened from a QP (R322). -/
def State.mgmtMay (s : State) (q : Qp) : Bool :=
  bit s.boot.cfg.mgmtAllowed q.port && s.boot.cfg.mgmtPrefixes.any (inPrefix q.src)

/-- The credits granted to all open sessions. -/
def State.pool (s : State) : Nat := (s.openSes.map fun e => e.2.grant).sum

/-- The credits an OPEN is granted (R333). -/
def State.grantFor' (s : State) (m : List Byte) : Nat :=
  min (min (leAt m 50 2) 256) (min (2 ^ leAt m 76 1 - 16) (49152 - s.pool))

/-- The resumed session of an OPEN, with the token right; one whose lease has expired is gone (R366). -/
def State.resumed (s : State) (m : List Byte) : Option Session :=
  (s.ses.find? (leAt m 52 2)).filter fun x => decide (x.token = BitVec.ofNat 64 (leAt m 56 8) ∧ x.closing ≠ some 0)

/-- Why an OPEN is refused. -/
def State.openFault (s : State) (q : Qp) (m : List Byte) : Option Nat :=
  let resume := (leAt m 49 1).testBit 0
  if !(List.range 8).any (fun i => decide (leAt m (32 + 2 * i) 2 = 1)) then some dNoCommonVersion
  else if resume then
    match s.resumed m with
    | none => some dBadToken
    | some x => if x.attached && !(leAt m 49 1).testBit 1 then some dBound else none
  else if leAt m 48 1 = 1 ∧ !s.mgmtMay q then some dKind
  else if s.ses.length ≥ 4096 ∨ (leAt m 48 1 = 1 ∧ (s.openSes.filter fun e => e.2.mgmt).length ≥ 16) then some dSessionsFull
  else if s.grantFor' m = 0 then some dCreditsExhausted
  else none

/-- RESULT of OPEN. -/
def openResult (id : Nat) (epoch : Half) (credits : Nat) (next : Word) (token : DWord) : BitVec 192 :=
  resultOf [(0, 2, id), (2, 2, epoch.toNat), (4, 2, 1), (6, 2, credits), (8, 4, next.toNat), (16, 8, token.toNat)]

/-- The ledger entry of a message. -/
def entryOfMsg (m : List Byte) (id : Nat) (epoch : Half) : LEntry :=
  { opcode := BitVec.ofNat 8 (leAt m 1 1), allot := BitVec.ofNat 8 (leAt m 12 1), ses := BitVec.ofNat 12 id, epoch := epoch
    seq := BitVec.ofNat 32 (leAt m 8 4), hostTag := BitVec.ofNat 64 (leAt m 16 8), body := m }

/-- LSN of a record that is not journalled (R340). -/
def noLsn : Nat := 2 ^ 64 - 1

/-- A refused OPEN: its record goes to the ring it names (R347). -/
def State.refuseOpen (s : State) (qp : Nat) (m : List Byte) (d : Nat) : State :=
  let s := if d = dBadToken then s.bump (hostBase + 0x4038) else s
  let e := { entryOfMsg m (leAt m 52 2) s.boot.epoch with
    lsn := noLsn, status := 1, detail := BitVec.ofNat 16 d, result := openResult (leAt m 52 2) s.boot.epoch 0 0 0 }
  s.writeSlot qp { addr := leAt m 64 8, rkey := BitVec.ofNat 32 (leAt m 72 4), l := leAt m 76 1 } (recordBytes e 1 false 0 0 0)

/-- Both rings as an OPEN registers them: PRODUCER counts from 0, what waited for event rings kept (R348). -/
def Session.register (x : Session) (m : List Byte) : Session :=
  let ea := leAt m 80 8
  let ek := BitVec.ofNat 32 (leAt m 88 4)
  let el := leAt m 92 1
  { x with
      cring := { addr := leAt m 64 8, rkey := BitVec.ofNat 32 (leAt m 72 4), l := leAt m 76 1 }
      eaddr := ea, erkey := ek, el := el, compWritten := 0, evWritten := 0
      erings := x.erings.map fun e =>
        (e.1, { addr := ea + 64 * e.1 * (1 + 2 ^ el), rkey := ek, l := el, waiting := e.2.waiting, lost := e.2.lost })
      mask := BitVec.ofNat 16 (leAt m 94 2), lease := if leAt m 96 4 = 0 then 900 else leAt m 96 4 }

/-- The lowest free session ID. -/
def State.freeSession (s : State) : Nat := ((List.range 4096).find? fun i => (s.ses.find? i).isNone).getD 0

/-- Fresh DEVMEM rkeys for the allotments a session owns (R324, R348). -/
def State.newKeys (s : State) (id : Nat) : State :=
  (s.ownedBy id).foldl (fun s a => (s.updAllot a fun x => { x with rkey := BitVec.ofNat 32 (bits s.draw 0 32) }).drawn) s

/-- The session bound by an OPEN that is not refused, with its SEQ: new, or resumed (R348). -/
def State.bindSession (s : State) (qp : Nat) (m : List Byte) : State × Nat × Word :=
  let resume := (leAt m 49 1).testBit 0
  let keys := s.draw
  if resume then
    let id := leAt m 52 2
    let x : Session := Tab.get {} s.ses id
    let s := if x.attached then s.disconnect x.qp else s
    let y := { x.register m with st := .attached, qp := qp, epoch := s.boot.epoch
                                 devall := BitVec.ofNat 32 (bits keys 0 32), regsKey := BitVec.ofNat 32 (bits keys 32 32) }
    ((s.drawn.setSes id y).newKeys id, id, x.nextSeq - 1)
  else
    let id := s.freeSession
    let z : Session := { qp := qp }
    let y := { z.register m with
      qp := qp, epoch := s.boot.epoch, grant := s.grantFor' m, mgmt := decide (leAt m 48 1 = 1), since := s.ledger.nextLsn
      token := BitVec.ofNat 64 (bits keys 64 64), devall := BitVec.ofNat 32 (bits keys 0 32)
      regsKey := BitVec.ofNat 32 (bits keys 32 32) }
    (s.drawn.setSes id y, id, 0)

/-- An OPEN executes on its QP (R347, R348): refused, or the session bound, journalled, and its completion, held
completions and held events written, in that order. -/
def State.openOn (s : State) (qp : Nat) : State :=
  match s.qps.find? qp with
  | none => s
  | some q =>
    match q.opening with
    | none => s
    | some m =>
      let s := { s with qps := s.qps.put qp { q with opening := none } }
      match s.openFault q m with
      | some d => s.refuseOpen qp m d
      | none =>
        let b := s.bindSession qp m
        let id := b.2.1
        let s := b.1
        let s := { s with qps := s.qps.put qp { q with opening := none, ses := some id } }
        let x : Session := Tab.get {} s.ses id
        let res := openResult id x.epoch x.grant x.nextSeq x.token
        let lsn := s.ledger.nextLsn
        let e := { entryOfMsg m id x.epoch with seq := b.2.2, st := 2, doneTick := s.tick, result := res, body := [] }
        let s := s.journal e
        let s := s.writeRecord id { e with lsn := lsn } 0 false false
        let s := (s.flushHeld id 65536).endIfDone id
        (List.range 17).foldl (fun s j => s.ringRoom id j) s

/-- OPEN: creates or resumes a session on the QP that sent it (R348). -/
def execOpenSession (qp : Nat) (s : State) : Host.Outcome State Fault Refusal := .next (s.openOn qp)

/-! ### SEND (R337 to R339) -/

/-- The session's command entry of a SEQ, if the ledger holds one (R337). -/
def State.cmdEntry (s : State) (id : Nat) (since : Nat) (seq : Word) : Option LEntry :=
  (s.ledger.entries.search fun _ e =>
    decide (e.ses.toNat = id ∧ e.seq = seq ∧ e.opcode ≠ 1 ∧ since ≤ e.lsn)).map (·.2)

/-- A command is accepted (R337 row 8, R339). -/
def State.accept (s : State) (id : Nat) (x : Session) (m : List Byte) : State :=
  let lsn := s.ledger.nextLsn
  let s := s.journal (entryOfMsg m id x.epoch)
  let y := { x with held := x.held + 1, nextSeq := BitVec.ofNat 32 (leAt m 8 4) + 1, imm := x.imm ++ [lsn] }
  (s.setSes id y).dispatch id

/-- A record with a session status, and its event (R337). -/
def State.sayNo (s : State) (id : Nat) (e : LEntry) (status : Byte) (code : Nat) (payload : List (Nat × Nat)) : State :=
  (s.looseRecord id e status false).raiseLimited id code payload

/-- A SEND on an attached session's QP, judged by the first matching row of R337. -/
def State.judgeSend (s : State) (id : Nat) (x : Session) (m : List Byte) : State :=
  let e := { entryOfMsg m id x.epoch with lsn := noLsn, body := [] }
  let seq := e.seq
  match x.firstBad id m with
  | some off => s.sayNo id e 0x12 evCommandMalformed [(e.opcode.toNat, 1), (leAt m 6 2, 2), (off, 2)]
  | none =>
    if leAt m 4 2 ≠ x.epoch.toNat then s.sayNo id e 0x11 evSessionStale [(leAt m 4 2, 2), (x.epoch.toNat, 2)]
    else
      let d := (seq - x.nextSeq).toNat
      if d ≥ 2 ^ 31 then
        match s.cmdEntry id x.since seq with
        | some t => if t.st = 2 then s.looseRecord id t t.status true else s.looseRecord id e 0x15 false
        | none => s.looseRecord id e 0x14 false
      else if d ≥ 1 then s.sayNo id e 0x10 evSessionGap [(seq.toNat, 4), (x.nextSeq.toNat, 4)]
      else if x.held ≥ x.grant then s.sayNo id e 0x13 evNoCredit [(seq.toNat, 4), (x.grant, 2)]
      else s.accept id x m

/-- A SEND on a QP: an OPEN still to be executed goes first; on an unbound QP only a well-formed OPEN is judged, anything
else is counted and disconnects it (R338). -/
def State.sendOn (s : State) (qp : Nat) (m : List Byte) : State :=
  let s := s.openOn qp
  match s.qps.find? qp with
  | none => s
  | some q =>
    match q.ses with
    | none =>
      if openOk m then { s with qps := s.qps.put qp { q with opening := some m } }
      else (s.bump (hpBase q.port + 0x58)).disconnect qp
    | some id =>
      match s.ses.find? id with
      | none => s
      | some x => s.judgeSend id x m

/-- SEND: a message arrives on a QP and is judged (R337, R338). -/
def execSend (qp : Framed Nat) (msg : List Byte) (s : State) : Host.Outcome State Fault Refusal :=
  .next (s.qpFrame qp.val qp.f 1 fun _ s => s.sendOn qp.val msg)

/-! ### Immediate commands (R339, R346) -/

/-- A command begins to execute (R344). -/
def State.executing (s : State) (lsn : Nat) : State := s.updEntry lsn fun e => { e with st := 1 }

/-- CLOSE: the session is closed, with FORCE also where it owns allotments (R349). -/
def execClose (ses : BitVec 12) (s : State) : Host.Outcome State Fault Refusal :=
  let id := ses.toNat
  .next (match s.immHead id 0x02 with
    | none => s
    | some (lsn, x, e) =>
      if x.closing.isSome then s.closeOn id
      else if !(s.ownedBy id).isEmpty ∧ leAt e.body 32 1 % 2 = 0 then s.refuse lsn dOwnsAllotments
      else ((s.executing lsn).updSes id fun y => { y with closing := some lsn }).closeOn id)

/-- SESSION_EXPIRED: the lease expires and the session is closed as by CLOSE with FORCE (R334). -/
def execSessionExpired (ses : BitVec 12) (s : State) : Host.Outcome State Fault Refusal :=
  let id := ses.toNat
  .next ((s.updSes id fun y => { y with closing := some 0 }).closeOn id)

/-- Whether an ALLOT accepted before an LSN, by any session, still waits for parishes that it names (R366). -/
def State.allotWaits (s : State) (lsn : Nat) (parishes : Nat) : Bool :=
  s.ledger.entries.any fun e =>
    decide (e.2.opcode = 3 ∧ e.2.st ≠ 2 ∧ e.2.lsn < lsn) && decide (leAt e.2.body 32 16 &&& parishes ≠ 0)

/-- The window table of an ALLOT is read from its host buffer, once nothing else refuses the ALLOT; `d` is why it is refused, 0
where it is not (R350, R370). -/
def State.fetchWindows (s : State) (qp n d : Nat) : State :=
  if n = 0 then s
  else if d = 0 ∨ d = dEntry then s.hostFetch qp (16 * n)
  else if d = dHostRead then s.txOn qp 1
  else s

/-- ALLOT: makes an allotment, or is refused (R350); of two that want the same parishes the first accepted goes first (R366). -/
def execAllot (ses : BitVec 12) (wintab : HostData) (s : State) : Host.Outcome State Fault Refusal :=
  .next (match s.immHead ses.toNat 0x03 with
    | none => s
    | some (lsn, x, e) =>
      if s.allotWaits lsn (leAt e.body 32 16) then s
      else match s.allotCheck e.body wintab with
      | .error d => (s.fetchWindows x.qp (leAt e.body 108 2) d).refuse lsn d
      | .ok a =>
        let s := (s.fetchWindows x.qp (leAt e.body 108 2) 0).makeAllot a ses.toNat e.body wintab
        s.finish lsn 0 0 (s.allotResult a))

/-- HALT: halts a RUNNING allotment at the next tick; the command ends with the halt, or OK with DETAIL STATE where there
is none (R354, R366). -/
def execHalt (ses : BitVec 12) (s : State) : Host.Outcome State Fault Refusal :=
  .next (match s.immHead ses.toNat 0x07 with
    | none => s
    | some (lsn, x, e) =>
      let a := e.allot.toNat
      match s.ownerFault x ses.toNat 0x07 a with
      | some d => s.refuse lsn d
      | none =>
        let y := s.allot a
        if y.halts.contains lsn then s
        else if y.st ≠ .running then s.finish lsn 0 dState 0
        else
          let s := (s.executing lsn).setAllot a { y with halts := y.halts ++ [lsn] }
          if y.quiescing then s else s.haltNext a .haltCmd)

/-- SET_OP: caps the operating point from the next launch; RESULT holds the ceiling before (R356). -/
def execSetOp (ses : BitVec 12) (s : State) : Host.Outcome State Fault Refusal :=
  .next (match s.immHead ses.toNat 0x0B with
    | none => s
    | some (lsn, x, e) =>
      let a := e.allot.toNat
      match s.ownerFault x ses.toNat 0x0B a with
      | some d => s.refuse lsn d
      | none =>
        let old := (s.allot a).opCeil
        (s.updAllot a fun y => { y with opCeil := leAt e.body 32 1 }).finish lsn 0 0 (resultOf [(0, 1, old)]))

/-! ### Queued commands (R339, R346) -/

/-- The states a queued command accepts (R346). -/
def acceptedIn (op : Nat) (st : AState) : Bool :=
  match op with
  | 0x05 => decide (st = .idle ∨ st = .loaded)
  | 0x06 => decide (st = .loaded)
  | 0x0D => decide (st = .idle ∨ st = .loaded)
  | _ => decide (st = .idle ∨ st = .loaded ∨ st = .halted)

/-- QUEUED_COMMAND_START: the command at the head of an allotment's queue begins, or is refused; it waits while the
allotment is RUNNING or another executes; repairs of an IDLE allotment go first (R339, R346, R353, R467). -/
def execQueuedCommandStart (a : Fin 16) (s : State) : Host.Outcome State Fault Refusal :=
  let x := s.allot a
  .next (match x.queue with
    | [] => s
    | lsn :: rest =>
      if x.active.isSome ∨ x.st = .running ∨ x.st = .free then s
      else
        let s := if x.st = .idle then s.repairAllot a else s
        let s := s.updAllot a fun y => { y with queue := rest }
        match s.entryOf lsn with
        | none => s
        | some (_, e) =>
          let op := e.opcode.toNat
          if !acceptedIn op x.st then s.refuse lsn dState
          else if op = 0x06 ∧ s.startTick (leAt e.body 32 8) ≤ s.tick then s.refuse lsn dStartPassed
          else (s.executing lsn).updAllot a fun y => { y with active := some lsn })

/-- The command an allotment executes, where its opcode is `op`. -/
def State.activeCmd (s : State) (a op : Nat) : Option (Nat × LEntry) :=
  match (s.allot a).active with
  | none => none
  | some lsn => (s.entryOf lsn).bind fun e => if e.2.opcode.toNat = op then some (lsn, e.2) else none

/-- RELEASE: the allotment returns to FREE; commands queued behind it end ABORTED (R351). -/
def execRelease (a : Fin 16) (s : State) : Host.Outcome State Fault Refusal :=
  .next (match s.activeCmd a 0x04 with
    | none => s
    | some (lsn, _) => ((s.abortQueue a dReset).releaseAllot a).finish lsn 0 0 0)

/-- LOAD: checks a program image and reserves its completion records (R352). -/
def execLoad (a : Fin 16) (s : State) : Host.Outcome State Fault Refusal :=
  .next (match s.activeCmd a 0x05 with
    | none => s
    | some (lsn, e) => s.loadProgram a lsn (leAt e.body 32 8))

/-- RUN: starts the loaded program at its start tick; it completes when the program ends (R353). -/
def execRun (a : Fin 16) (s : State) : Host.Outcome State Fault Refusal :=
  .next (match s.activeCmd a 0x06 with
    | none => s
    | some (lsn, e) =>
      if (s.allot a).st = .loaded then s.startRun a lsn (s.startTick (leAt e.body 32 8)) else s)

/-- CONTEXT_SAVE: writes tallies, and with SRAM the data SRAM, as a context image (R357). -/
def execContextSave (a : Fin 16) (s : State) : Host.Outcome State Fault Refusal :=
  .next (match s.activeCmd a 0x0C with
    | none => s
    | some (lsn, e) => s.contextSave a lsn e.body)

/-- CONTEXT_RESTORE: restores tallies and data SRAM by logical position (R358). -/
def execContextRestore (a : Fin 16) (s : State) : Host.Outcome State Fault Refusal :=
  .next (match s.activeCmd a 0x0D with
    | none => s
    | some (lsn, e) => s.contextRestore a lsn e.body)

/-- RESET_FUNCTION: the allotment returns to IDLE, its program dropped and its books zeroed; commands queued behind it end ABORTED
(R355, R474). -/
def execResetFunction (a : Fin 16) (s : State) : Host.Outcome State Fault Refusal :=
  .next (match s.activeCmd a 0x0E with
    | none => s
    | some (lsn, _) => ((s.abortQueue a dReset).resetAllot a).finish lsn 0 0 0)

/-! ### ROUTE_AMEND (R359) -/

/-- A route, window or reduction entry rewritten: the state and the previous entry; none where refused. -/
def State.amend (s : State) (a : Option (Fin 16)) (m : List Byte) : Option (State × Nat) :=
  let i := leAt m 36 4
  let w := BitVec.ofNat 128 (leAt m 48 16)
  match a with
  | none =>
    if leAt m 32 1 = 0 then (s.amendRoute i w).map fun t => (t, ((s.routes.get 0 i)).toNat) else none
  | some a =>
    if leAt m 32 1 = 1 then
      if badWindow w then none
      else some (s.updAllot a fun x => { x with windows := x.windows.put i w }, ((s.allot a).windows.get 0 i).toNat)
    else (s.amendRed a i (BitVec.ofNat 512 (leAt m 48 64))).map fun t => (t, 0)

/-- ROUTE_AMEND: immediate for a route entry, from a management session; queued for an allotment's window or reduction
entry (R346, R359). -/
def execRouteAmend (ses : Slowed (BitVec 12)) (a : Option (Fin 16)) (s : State) : Host.Outcome State Fault Refusal :=
  .next (match a with
    | none =>
      match s.immHead ses.val.toNat 0x0F with
      | none => s
      | some (lsn, x, e) =>
        if leAt e.body 32 1 ≠ 0 then s.refuse lsn dNoAllotment
        else if !x.mgmt then s.refuse lsn dKind
        else
          match s.amend none e.body with
          | none => s.refuse lsn dEntry
          | some t => t.1.finish lsn 0 0 (resultOf [(0, 16, t.2)])
    | some a =>
      match s.activeCmd a 0x0F with
      | none => s
      | some (lsn, e) =>
        match s.amend (some a) e.body with
        | none => s.refuse lsn dEntry
        | some t => (s.noteSlow t.1 (some a.val) ses.slow).finish lsn 0 0 (resultOf [(0, 16, t.2)]))

/-! ### Ticks and quiescence, with the sessions that wait for them -/

/-- A run that the wave launched may need a stretch (R381). -/
def State.wavesAsk (s was : State) (par : Fin 78) : State :=
  match s.allotOf par with
  | none => s
  | some a => s.launchAsk was a

/-- BELL_WAVE: a tick's wave reaches a parish (R247, R248, R251); sessions that wait for a halt go on (R349). A copy that fails
its check is dropped, and that of the other plane is still to come (R268, log entry 93). -/
def execBellWave (par : Fin 78) (low : Copied (BitVec 8)) (s : State) : Host.Outcome State Fault Refusal :=
  .next (if low.bad then (if (s.parish par).hears then s.crierErr par else s) else ((s.bellWave par low.val).wavesAsk s par).closeAll)

/-- QUIESCENCE_CHECK: what is left of the last run's colour is residue, and the RUN completes (R151, R353). -/
def execQuiescenceCheck (a : Fin 16) (s : State) : Host.Outcome State Fault Refusal :=
  .next (s.quiesce a).closeAll

end Sys2Proof.Machine
end

