-- ==== Sys2Proof/Machine/Images.lean ====
section
/-! DEFINITION. Signed images (R408 to R412, R433 to R435): the verification of a store image, its rejection, and
FW_STAGE (R363). -/

namespace Sys2Proof.Machine

/-- The capacity of a store image (R433). -/
def imageCapacity := 50327552

/-- Rejection causes by R409's order (R506). -/
def icFormat := 1
def icSigner := 2
def icSignature := 3
def icDigest := 4
def icRollback := 5

/-- KINDs of envelopes (R408). -/
def kindFw := 1
def kindCfg := 2

/-- The offset of the configuration envelope: the next 4 KiB boundary after the firmware envelope (R433). -/
def cfgOffset (fw : Envelope) : Nat := ceilDiv (256 + fw.bodyLen.toNat) 4096 * 4096

/-- The first 64 bytes of an envelope's header, which its signature covers (R408). -/
def envHead (e : Envelope) : List Byte :=
  leBytes 4 e.magic.toNat ++ leBytes 2 e.format.toNat ++ [e.kind, 0] ++ leBytes 4 e.version.toNat ++ [e.rollback, 0, 0, 0]
    ++ leBytes 8 e.bodyLen.toNat ++ leBytes 8 0 ++ leBytes 32 e.digest.toNat

/-- The SM3 hash that names a public key (R409, R410). -/
def keyHash (k : BitVec 512) : BitVec 256 := Config.sm3 (leBytes 64 k.toNat)

/-- Whether a key hash is one of the unrevoked firmware keys (R410). -/
def Fuses.fwTrusts (f : Fuses) (h : BitVec 256) : Bool :=
  (List.finRange 4).any fun k => !bit f.fwRevoked k.val && decide (keyHash (Config.firmwareKey k) = h)

/-- Whether an owner slot trusts a key hash. -/
def Owner.trusts (o : Owner) (h : BitVec 256) : Bool := o.programmed && !o.revoked && decide (o.hash = h)

/-- Whether a signer is trusted for a kind: firmware keys, and for a configuration the owner keys once a slot is programmed
(R410). -/
def Fuses.trusts (f : Fuses) (kind : Nat) (h : BitVec 256) : Bool :=
  if kind = kindCfg ∧ (f.owner0.programmed ∨ f.owner1.programmed) then f.owner0.trusts h || f.owner1.trusts h
  else f.fwTrusts h

/-- Check 1 of R409 for an envelope of a kind that lies at an offset of an image of `len` bytes. -/
def envFormatOk (e : Envelope) (kind off : Nat) (len : Nat := imageCapacity) : Bool :=
  decide (e.magic = 0x4D49574B ∧ e.format = 1 ∧ e.kind.toNat = kind) && e.reservedZero &&
    decide (off + 256 + e.bodyLen.toNat ≤ len) && decide (e.body.length = e.bodyLen.toNat)

/-- The first check of R409 an envelope fails, in order. -/
def envFault (e : Envelope) (f : Fuses) (kind off : Nat) (len : Nat := imageCapacity) : Option Nat :=
  if !envFormatOk e kind off len then some icFormat
  else if !f.trusts kind (keyHash e.signerKey) then some icSigner
  else if !Config.sm2Verify e.signerKey (Config.sm3 (envHead e)) e.signature then some icSignature
  else if Config.sm3 e.body ≠ e.digest then some icDigest
  else if e.rollback.toNat < (if kind = kindFw then f.rollFw else f.rollCfg) then some icRollback
  else none

/-- The records of a configuration body, by TYPE, FLAGS and LENGTH, each body padded to 8 bytes (R435); none where the body ends
inside a record. -/
def cfgRecords : Nat → List Byte → Option (List (Nat × Nat × Nat))
  | 0, l => if l.isEmpty then some [] else none
  | fuel + 1, l =>
    if l.isEmpty then some []
    else
      let n := 8 + 8 * ceilDiv (leAt l 4 4) 8
      if l.length < n then none else (cfgRecords fuel (l.drop n)).map ((leAt l 0 2, leAt l 2 2, leAt l 4 4) :: ·)

/-- The records of an image's configuration body. -/
def imageRecords (x : StoreImage) : Option (List (Nat × Nat × Nat)) := cfgRecords x.cfg.body.length x.cfg.body

/-- What R435 asks of the records of a configuration body: an IDENTITY record, no unknown CRITICAL record, no second of a
type but GUEST_SITE. -/
def recordsOk (l : List (Nat × Nat × Nat)) : Bool :=
  let known (t : Nat) : Bool := decide (1 ≤ t ∧ t ≤ 10)
  l.any (fun r => decide (r.1 = 1)) && l.all (fun r => known r.1 || !r.2.1.testBit 0) &&
    (List.range 10).all fun t => decide (t + 1 = 9) || decide ((l.filter fun r => r.1 = t + 1).length ≤ 1)

/-- A configuration with the fields of the records of some TYPEs; those of an absent record have the defaults of their home
chapters (R435). -/
def onlyRecords (c : Cfg) (types : List Nat) : Cfg :=
  let k (t : Nat) : Cfg := if types.contains t then c else {}
  { feid := (k 1).feid, macs := (k 1).macs, ips := (k 1).ips
    rampUp := (k 2).rampUp, rampDown := (k 2).rampDown, floorPct := (k 2).floorPct, floorWindow := (k 2).floorWindow
    floorHold := (k 2).floorHold, levelBand := (k 2).levelBand, loans := (k 2).loans, slot := (k 2).slot
    slotWidth := (k 2).slotWidth, slotPeriod := (k 2).slotPeriod, deferMaxMs := (k 2).deferMaxMs
    cap := (k 2).cap, capMax := (k 2).capMax
    primary := (k 3).primary, tlanePort := (k 3).tlanePort, tlaneLane := (k 3).tlaneLane, syncePort := (k 3).syncePort
    synceLane := (k 3).synceLane, phaseLimit := (k 3).phaseLimit, bellN := (k 3).bellN
    domain := (k 4).domain, domainId := (k 4).domainId, root := (k 4).root, level := (k 4).level, levels := (k 4).levels
    pathMetres := (k 4).pathMetres, parentPort := (k 4).parentPort, childMask := (k 4).childMask, guardG := (k 4).guardG
    partners := (k 4).partners
    routes := (k 5).routes
    mgmtAllowed := (k 6).mgmtAllowed, mgmtPrefixes := (k 6).mgmtPrefixes, hpEnable := (k 6).hpEnable
    hpPolarity := (k 6).hpPolarity, ptpPort := (k 6).ptpPort, ptpBackup := (k 6).ptpBackup, ptpDomain := (k 6).ptpDomain
    pfcPrio := (k 6).pfcPrio
    memBounded := (k 7).memBounded, scrubHours := (k 7).scrubHours, ceRowLimit := (k 7).ceRowLimit
    ceLimit := (k 8).ceLimit
    gsClasses := (k 9).gsClasses, gsRate := (k 9).gsRate, gsAnchors := (k 9).gsAnchors, gsExpected := (k 9).gsExpected
    gsReattestHours := (k 9).gsReattestHours, gsMv := (k 9).gsMv
    portExpect := (k 10).portExpect }

/-- What the records of an image's configuration hold (R435). -/
def imageSettings (x : StoreImage) : Cfg := onlyRecords x.content (((imageRecords x).getD []).map (·.1))

/-- CRC-32C of bytes (R434, R436). -/
def crc32c (l : List Byte) : Word :=
  (l.foldl (fun (c : Word) (b : Byte) =>
    (List.range 8).foldl (fun (c : Word) _ => if bit c 0 then (c >>> 1) ^^^ 0x82F63B78#32 else c >>> 1) (c ^^^ b.setWidth 32))
    0xFFFFFFFF#32) ^^^ 0xFFFFFFFF#32

/-- Bytes 0 to 59 of a directory (R434). -/
def dirHead (d : Directory) : List Byte :=
  leBytes 4 d.magic.toNat ++ leBytes 2 d.format.toNat ++ [d.device, d.rsv7] ++ leBytes 8 d.imageLen.toNat ++ leBytes 44 d.rsv16.toNat

/-- Whether the directory of device A, or B, keeps every rule of R434. -/
def directoryOk (d : Directory) (b : Bool) : Bool :=
  decide (d.magic = 0x4453574B ∧ d.format = 1 ∧ d.device.toNat = b2n b ∧ d.rsv7 = 0 ∧ d.imageLen.toNat ≤ imageCapacity ∧
    d.rsv16 = 0 ∧ d.crc = crc32c (dirHead d)) && d.erasedAbove

/-- The directory the module writes with an image (R434). -/
def directoryFor (b : Bool) (x : StoreImage) : Directory :=
  let d : Directory := { magic := 0x4453574B, format := 1, device := BitVec.ofNat 8 (b2n b), rsv7 := 0, rsv16 := 0, crc := 0
                         imageLen := BitVec.ofNat 64 (cfgOffset x.fw + 256 + x.cfg.bodyLen.toNat), erasedAbove := true }
  { d with crc := crc32c (dirHead d) }

/-- Why a store image of `len` bytes is rejected: the kind of the envelope and the cause (R409, R435). An envelope corrupted
while it was read (`badFw`, `badCfg`) fails its signature check (R36). -/
def imgFault (x : StoreImage) (f : Fuses) (badFw badCfg : Bool := false) (len : Nat := imageCapacity) : Option (Nat × Nat) :=
  if badFw then some (kindFw, icSignature)
  else
    match envFault x.fw f kindFw 0 len with
    | some c => some (kindFw, c)
    | none =>
      if badCfg then some (kindCfg, icSignature)
      else if !((imageRecords x).any recordsOk) then some (kindCfg, icFormat)
      else (envFault x.cfg f kindCfg (cfgOffset x.fw) len).map fun c => (kindCfg, c)

/-- Why a device's image is rejected at a start whose reads of these envelopes were corrupted; an absent one has no valid
directory. -/
def State.imageFault (s : State) (bad : List (Bool × Bool)) (b : Bool) : Option (Nat × Nat) :=
  match s.store.image b with
  | none => some (kindFw, icFormat)
  | some x =>
    if directoryOk x.dir b then imgFault x s.fuses (bad.contains (b, false)) (bad.contains (b, true)) x.dir.imageLen.toNat
    else some (kindFw, icFormat)

/-- IMAGE_REJECTED (R432): image 0 A, 1 B, 2 STAGED. -/
def State.rejectImage (s : State) (image : Nat) (f : Nat × Nat) : State :=
  s.raise evImageRejected none [(image, 1), (f.1, 1), (f.2, 1)] [.sessions]

/-! ### FW_STAGE (R363, R412) -/

/-- A verified image is written to a device; its directory is written last (R434). -/
def State.writeImage (s : State) (b : Bool) (x : StoreImage) : State :=
  { s with store := s.store.setImage b (some { x with dir := directoryFor b x }) }

/-- BOOT_SELECT's offset (R455). -/
def bootSelectOff : Nat := configBase + 0x10

/-- FW_STAGE: reads a signed image from a buffer, verifies it and writes it to the store image not used at this start; with
ACTIVATE it selects it (R363, R412). -/
def execFwStage (ses : BitVec 12) (img : Option StoreImage) (s : State) : Host.Outcome State Fault Refusal :=
  .next (match s.immHead ses.toNat 0x10 with
    | none => s
    | some (lsn, x, e) =>
      if !x.mgmt then s.refuse lsn dKind
      else if s.boot.pldmUpdate ∨ s.stagingBefore lsn then s.refuse lsn dStageBusy
      else
        let n := leAt e.body 44 4
        match img with
        | none => (s.txOn x.qp 1).refuse lsn dHostRead
        | some i =>
          let s := s.hostFetch x.qp n
          match imgFault i s.fuses (len := min imageCapacity n) with
          | some f => (s.rejectImage 2 f).refuse lsn (if f.2 = icRollback then dRollback else dSignature)
          | none =>
            let b := s.spareImage
            let s := s.writeImage b i
            let s := if (leAt e.body 48 1).testBit 0 then s.setReg bootSelectOff (if b then 3 else 2) else s
            s.finish lsn 0 0 (resultOf [(0, 1, b2n b), (4, 4, i.fw.version.toNat), (8, 4, i.fw.rollback.toNat)]))

end Sys2Proof.Machine
end

