-- ==== Sys2Proof/Machine/GeomRecord.lean ====
section
/-! DEFINITION. Hub routers and distances (R15, R16, R177, R182, R192, R202), and the geometry record (R446, R447). -/

namespace Sys2Proof.Machine

/-! ### Routers and hops (R182, R192) -/

/-- The place of a coordinate among four equal cells from `lo`, each `w` wide; a boundary belongs to the lower cell. -/
def cellOf (lo w x : Int) : Nat := min 3 ((x - lo - 1) / w).toNat

/-- The router of the hub cell that contains a point, x east and y north in micrometres: hx in bits [3:0], hy in [7:4]. -/
def routerAt (x y : Int) : Nat :=
  let h := sectorOf x y
  let c := h % 4
  let r := h / 4
  let x0 : Int := if c = 0 then -144000 else if c = 1 then -48000 else if c = 2 then 0 else 48000
  let y0 : Int := if r = 0 then 135000 else if r = 1 then 48000 else if r = 2 then 0 else -48000
  let hx := 4 * c + cellOf x0 (if c = 0 ∨ c = 3 then 24000 else 12000) x
  let hy := 4 * r + cellOf (-y0) (if r = 0 ∨ r = 3 then 21750 else 12000) (-y)
  hx + 16 * hy

/-- A well's router. -/
def wellRouter (w : Nat) : Nat :=
  let par := wellParish w
  let i := (wellIJ w).1
  let j := (wellIJ w).2
  routerAt (-144000 + 300 * (logicalX par 0 : Int) + 1500 + 3000 * (i : Int))
    (135000 - 30000 * (parishRow par : Int) - 1875 - 3750 * (j : Int))

/-- A stack's router. -/
def stackRouter (m : Nat) : Nat := routerAt (-84000 + 24000 * (m % 8 : Int)) (84000 - 24000 * (m / 8 : Int))

/-- Hub hops between two routers. -/
def hops (a b : Nat) : Nat := ((a % 16 : Int) - (b % 16 : Int)).natAbs + ((a / 16 : Int) - (b / 16 : Int)).natAbs

/-- Unloaded latency of an access in nanoseconds (R192). -/
def unloadedNs (h : Nat) : Nat := 180 + 10 * h

/-! ### The distance table (R202) -/

/-- WELL_INFO of a well. -/
def State.wellInfo (s : State) (w : Nat) : Nat :=
  let mates := (List.range 64).map (wellParish w * 64 + ·)
  let adopts := mates.any fun v => s.wellDead v && decide (s.adopter v = some w)
  let by' := if s.wellDead w then (s.adopter w).getD 0xFFFF else 0xFFFF
  wellRouter w + 256 * sectorOfWell w + 4096 * b2n (s.wellDead w) + 8192 * b2n adopts +
    16384 * b2n (!s.sectorUp (sectorOfWell w)) + 65536 * by'

/-- STACK_INFO of a stack. -/
def State.stackInfo (s : State) (m : Nat) : Nat :=
  let slot := s.slotOf m
  stackRouter m + 256 * b2n (stackPopulated s.fuses.orderB m) + 512 * b2n slot.isSome + 65536 * slot.getD 0xFFFF

/-- DIST of a well and a stack. -/
def State.distEntry (s : State) (w m : Nat) : Nat :=
  if !s.wellUp w ∨ (s.slotOf m).isNone then 0xFFFF
  else
    let h := hops (wellRouter w) (stackRouter m)
    h + 64 * unloadedNs h

/-- The distance table. -/
def State.distTable (s : State) : List Byte :=
  leBytes 2 1 ++ leBytes 2 4992 ++ leBytes 1 64 ++ leBytes 1 0 ++ leBytes 2 180 ++ leBytes 2 5000 ++ leBytes 6 0 ++
    (List.range 4992).flatMap (fun w => leBytes 4 (s.wellInfo w)) ++
    (List.range 64).flatMap (fun m => leBytes 4 (s.stackInfo m)) ++
    (List.range 4992).flatMap fun w => (List.range 64).flatMap fun m => leBytes 2 (s.distEntry w m)

/-! ### The geometry record (R447) -/

/-- Dead sites of a parish. -/
def State.deadSites (s : State) (par : Nat) : Nat := ((List.range 80).map fun c => 100 - (s.liveRows par c).length).sum

/-- V_min in millivolts (R377). -/
def Parish.vMin (x : Parish) : Nat := (max 620 (720 + x.trim / 2 - 20)).toNat

/-- A parish's entry. -/
def State.geomParish (s : State) (par : Nat) : List Byte :=
  let x := s.parish par
  let l := s.fallowColumns par
  let st := if x.dark ∨ !x.railOn then 1 else if x.isolated then 2 else 0
  leBytes 1 st ++ leBytes 1 l.length ++ leBytes 2 (s.deadSites par) ++ leBytes 2 x.rateNom ++ leBytes 2 x.rateFloor ++
    leBytes 2 x.vMin ++ leBytes 2 (BitVec.ofInt 16 x.trim).toNat ++ leBytes 10 ((l.map (2 ^ ·)).sum) ++
    leBytes 1 (((List.range 64).filter fun k => s.wellUp (par * 64 + k)).length) ++ leBytes 1 0 ++
    leBytes 4 (s.fuses.coeff.get 0 par) ++ leBytes 4 0

/-- The attachments: kind, index, sector (R19). -/
def attachments : List (Nat × Nat × Nat) :=
  (List.range 64).map (fun p => (0, p, portSector p)) ++ (List.range 4).map (fun g => (1, g, siteSector g)) ++
    (List.range 4).map (fun h => (2, h, hostPortSector h)) ++ [(3, 0, 0), (4, 0, 0), (5, 0, 0), (6, 0, 0), (7, 0, 0)]

/-- An attachment's entry; where in its sector it attaches is the implementation's. -/
def attachEntry (k : Nat) (e : Nat × Nat × Nat) : Nat :=
  let a := (Config.attachment k).toNat
  (4 * (e.2.2 % 4) + a % 4) + 16 * (4 * (e.2.2 / 4) + a / 4) + 256 * e.1 + 65536 * e.2.1

/-- The length of the record. -/
def geomLen : Nat := 663312

/-- The record. -/
def State.geomRecord (s : State) : List Byte :=
  leBytes 2 1 ++ leBytes 2 78 ++ leBytes 4 geomLen ++ leBytes 8 s.tick ++ leBytes 2 s.boot.epoch.toNat ++ leBytes 1 s.nSet ++
    leBytes 1 (b2n s.gradeMet) ++ leBytes 4 s.usableCores ++ leBytes 40 0 ++
    (List.range 78).flatMap s.geomParish ++ leBytes 4 77 ++
    attachments.zipIdx.flatMap (fun e => leBytes 4 (attachEntry e.2 e.1)) ++ leBytes 1224 0 ++ s.distTable

/-- The first DPA of the reserved stripe, the highest of the interleaved view (R446). -/
def State.reservedBase (s : State) : Nat := 4095 * s.stripe

/-- Where the geometry record lies. -/
def State.geomDpa (s : State) : Nat := 2 ^ 22 + s.reservedBase

/-- The record in its place in device memory (R446). -/
def State.geomWritten (s : State) : State := s.dpaWrite s.geomDpa s.geomRecord

/-- The record is known to be built, and when (R446). -/
def State.geomNoted (s : State) : State := { s with boot := { s.boot with geomBuilt := true, geomTick := s.tick } }

/-- The record is built and written (R446), and GEOM_DPA and GEOM_LEN give its place (R455). -/
def State.buildGeometry (s : State) : State :=
  let s := s.geomWritten.geomNoted
  (s.setReg (configBase + 0x28) (BitVec.ofNat 64 s.geomDpa)).setReg (configBase + 0x30) (BitVec.ofNat 64 geomLen)

end Sys2Proof.Machine
end

