-- ==== Sys2Proof/Machine/Boot.lean ====
section
/-! DEFINITION. Bring-up (R438 to R451): the fuse maps, the configuration a start reads, the parts a start brings up, the
known-answer run, readiness; and the cold start and the warm restart made of them. What a start finds by test and
measurement is the command's observation. -/

namespace Sys2Proof.Machine

/-! ### Fuse maps (R133, R438, R439) -/

/-- The site of an in-field entry: parish, column, physical row. -/
def infieldSite (w : Word) : Nat × Nat × Nat := (bits w 21 7, bits w 14 7, bits w 7 7)

/-- CRC-7, polynomial x^7 + x^3 + 1, over bits [31:7], most significant first. -/
def crc7 (w : Word) : Nat :=
  (List.range 25).foldl (fun c i =>
    let b := b2n (bit w (31 - i)) ^^^ (c / 64)
    (c * 2 % 128) ^^^ (if b = 1 then 9 else 0)) 0

/-- A physical site is marked dead; a column with more than four dead sites is fallow (R133, R136). -/
def State.markDead (s : State) (par col row : Nat) : State :=
  let s := s.orReg (deadmapOff par col row) (BitVec.ofNat 64 (2 ^ (row % 64)))
  if (s.liveRows par col).length < 96 then s.orReg (fallowOff par col) (BitVec.ofNat 64 (2 ^ (col % 64))) else s

/-- The sites with more than 8 bad rows in one bank, which no spares mend (R71, R438). -/
def Fuses.rowDead (f : Fuses) : List (Nat × Nat × Nat) :=
  ((f.sramRows.filter fun e =>
    decide ((f.sramRows.filter fun x => decide (x.site = e.site ∧ x.bank = e.bank)).length > 8)).map (·.site)).dedup

/-- The dead sites of the fuses: factory map, sites whose SRAM no spares mend, then in-field record. -/
def Fuses.sites (f : Fuses) : List (Nat × Nat × Nat) := f.dead ++ f.rowDead ++ f.infield.map infieldSite

/-- The wells with more than 32 bad bond wires in a direction (R177, R438). -/
def Fuses.wireDead (f : Fuses) : List Nat :=
  ((f.wires.filter fun e =>
    decide ((f.wires.filter fun x => decide (x.1 = e.1 ∧ x.2.1 = e.2.1)).length > 32)).map (·.1)).dedup

/-- Every register of the parish blocks dropped: the field is powered again (R502). -/
def State.dropParishRegs (s : State) : State := { s with regs := s.regs.filter fun e => (parishOfOff e.1).isNone }

/-- DEADMAP and FALLOW as the fuses give them, the spare SRAM rows, the wells that are dead, and the ports without readable or
without good lanes: a bad lane keeps a host port down (R71, R136, R177, R438). -/
def State.loadMaps (s : State) (o : StartObs) : State :=
  let s := s.fuses.sites.foldl (fun (t : State) (e : Nat × Nat × Nat) => t.markDead e.1 e.2.1 e.2.2) s.dropParishRegs
  let f := s.fuses
  { s with boot := { s.boot with deadWells := f.deadWells ++ f.wireDead ++ o.fuseWells.map (·.val)
                                 spareRows := f.sramRows.filter fun e => !f.rowDead.contains e.site
                                 fusePorts := o.fusePorts.map (·.val)
                                 fuseHosts := o.fuseHosts.map (·.val) ++ f.hostLanes.map (·.1)
                                 fuseBad := o.fuseBad || !o.fuseDark.isEmpty || !o.fuseWells.isEmpty ||
                                   !o.fusePorts.isEmpty || !o.fuseHosts.isEmpty } }

/-! ### The configuration (R7, R281, R435) -/

/-- The populated ports as a mask. -/
def portMask (orderF : Bool) : Nat := (((List.range 64).filter (portPopulated orderF)).map (2 ^ ·)).sum

/-- A route entry without unpopulated ports (R281). -/
def fitRoute (orderF : Bool) (e : BitVec 128) : BitVec 128 :=
  let e := setBits e 0 64 (bits e 0 64 &&& portMask orderF)
  if portPopulated orderF (bits e 64 6) then e else setBits e 70 1 0

/-- The configuration as loaded: unpopulated ports removed from what names them (R281). -/
def fitCfg (orderF : Bool) (c : Cfg) : Cfg :=
  { c with routes := c.routes.map fun e => (e.1, fitRoute orderF e.2)
           childMask := BitVec.ofNat 64 (c.childMask.toNat &&& portMask orderF)
           portExpect := BitVec.ofNat 64 (c.portExpect.toNat &&& portMask orderF) }

/-- Whether an address is an IPv4 address in its mapped form. -/
def isIpv4 (a : BitVec 128) : Bool := decide (a.toNat / 2 ^ 32 = 0xFFFF)

/-- The addresses of the ports: of each port the first 4 IPv4 and the first 4 IPv6 addresses (R320; log entry 118). -/
def fitIps (l : List (Nat × BitVec 128 × Option (BitVec 12))) : List (Nat × BitVec 128 × Option (BitVec 12)) :=
  l.foldl (fun acc e =>
    if (acc.filter fun f => decide (f.1 = e.1) && isIpv4 f.2.1 == isIpv4 e.2.1).length < 4 then acc ++ [e] else acc) []

/-- The configuration of an image is read (R7, R389, R435). -/
def State.loadCfg (s : State) (x : StoreImage) : State :=
  let d := { imageSettings x with ips := fitIps (imageSettings x).ips }
  let c := fitCfg s.fuses.orderF d
  let s := { s with boot := { s.boot with cfg := c, configAdjusted := decide (c ≠ d) }
                    reeve := { s.reeve with cap := c.cap, capMax := c.capMax }
                    routes := c.routes.foldl (fun (t : Tab (BitVec 128)) (e : Nat × BitVec 128) => Tab.put t e.1 (setBits e.2 79 49 0)) [] }
  let s := s.setReg (configBase + 0x18) (BitVec.ofNat 64 (x.fw.version.toNat + 2 ^ 32 * x.cfg.version.toNat))
  s.setReg (configBase + 0x20) (BitVec.ofNat 64 (x.fw.rollback.toNat % 128 + 2 ^ 8 * (x.cfg.rollback.toNat % 128)))

/-- The verification of an image at a start: rejected with its event, its cause kept (R409, R441). -/
def State.verify (s : State) (bad : List (Bool × Bool)) (b : Bool) : State × Bool :=
  match s.imageFault bad b with
  | none => (s, true)
  | some f =>
    let s := s.rejectImage (b2n b) f
    let c := BitVec.ofNat 4 f.2
    (if b then { s with boot := { s.boot with rejectB := c } } else { s with boot := { s.boot with rejectA := c } }, false)

/-- RECOVERY: both images are rejected, and the boot ROM serves PLDM base and firmware update only (R441). -/
def State.recover (s : State) : State :=
  let s := { s with boot := { s.boot with st := .recovery, step := 3 }, hps := [] }
  s.raise evRecoveryMode none [(s.boot.rejectA.toNat, 1), (s.boot.rejectB.toNat, 1)] []

/-- The bytes of an owner key slot as they are measured. -/
def Owner.bytes (o : Owner) : List Byte := leBytes 1 (b2n o.programmed + 2 * b2n o.revoked) ++ leBytes 32 o.hash.toNat

/-- The fuse state as it is measured (R415): both rollback counters, the key revocations, the owner key slots, the digest of the
in-field record. DESIGN CHOICE (log entry 119): the spec does not give these bytes' order. -/
def Fuses.measured (f : Fuses) : List Byte :=
  leBytes 1 f.rollFw ++ leBytes 1 f.rollCfg ++ leBytes 1 f.fwRevoked.toNat ++ f.owner0.bytes ++ f.owner1.bytes ++
    leBytes 32 (Config.sm3 (f.infield.flatMap fun w => leBytes 4 w.toNat)).toNat

/-- The boot state as it is measured (R415): the image booted, whether it is a fallback, the straps as sampled. DESIGN CHOICE (log
entry 119). -/
def Boot.measured (b : Boot) : List Byte :=
  leBytes 1 (b2n b.imageB) ++ leBytes 1 (b2n b.fallback) ++
    leBytes 1 (b2n b.straps.img + 2 * b2n b.straps.mgmt + 4 * b2n b.straps.test + 8 * b.straps.addr.toNat)

/-- Measurement blocks 1 to 5 (R415): boot ROM, the headers of both running envelopes, fuse state, boot state. -/
def State.measure (s : State) : State :=
  match s.store.image s.boot.imageB with
  | none => s
  | some x =>
    { s with boot := { s.boot with meas :=
        [Config.measurement 1, Config.sm3 (envHead x.fw), Config.sm3 (envHead x.cfg), Config.sm3 s.fuses.measured,
         Config.sm3 s.boot.measured] } }

/-- An image is booted: it is measured and its configuration is read. -/
def State.bootImage (s : State) (b fallback : Bool) : State :=
  match s.store.image b with
  | none => s
  | some x => ({ s with boot := { s.boot with imageB := b, fallback := fallback } }.measure).loadCfg x

/-- Step 3: the preferred image is booted, the other where it is rejected, or RECOVERY (R440, R441). -/
def State.pickImage (s : State) (o : StartObs) (prefB : Bool) : State :=
  let s := { s with boot := { s.boot with rejectA := 0, rejectB := 0 } }
  let v := s.verify o.readFail prefB
  if v.2 then v.1.bootImage prefB false
  else
    let w := v.1.verify o.readFail (!prefB)
    if w.2 then w.1.bootImage (!prefB) true else w.1.recover

/-- Step 5: the clock plan is read, with the mux where it stands, and the bell period (R231, R235, R242, R245, R253). -/
def State.applyClockPlan (s : State) : State :=
  let c := s.boot.cfg
  let m := (c.domain && c.root) || (c.domain && s.bell.member)
  let s := s.setReg (clkBase + 0x50) (BitVec.ofNat 64 c.phaseLimit)
  { s with
      clk := { s.clk with refFailed := s.clk.refFailed && !s.clk.refOk, primaryPending := decide (primarySrc c ≠ s.clk.sel) }
      bell := { s.bell with n := c.bellN, level := c.level, member := m, guardG := guardOf c m } }

/-- PRIMARY has been healthy for 100 ms within the start, its port trained, and ST0 has switched to it (R229, R231). -/
def State.reachPrimary (s : State) (o : StartObs) : State :=
  let x := primarySrc s.boot.cfg
  let runs : Bool := match x with
    | .tlane => s.tlaneRuns
    | .synce => s.synceRuns
    | _ => s.clk.refOk
  if s.clk.primaryPending ∧ o.primaryHealthy ∧ runs ∧ s.clk.switching.isNone then
    { s.setReg (clkBase + 8) (BitVec.ofNat 64 (srcCode x)) with
        clk := { s.clk.setOk x true with sel := x, lastForced := false, primaryPending := false } }
  else s

/-- Bring-up ends: a PRIMARY not reached by now is not switched to (R231). -/
def State.endPlan (s : State) : State := { s with clk := { s.clk with primaryPending := false } }

/-! ### Hub sectors, host ports, fabric ports, guests (R440 step 6) -/

/-- The sectors that are powered and pass their test; HS00 is up since step 1. A rail without a working regulator stays
off. -/
def State.startSectors (s : State) (o : StartObs) : State :=
  let down := ((List.finRange 16).filter fun h =>
    decide (h ≠ 0) && (o.sectorFail.contains h || s.regsDown (hubRail h))).map (·.val)
  { s with boot := { s.boot with sectors := BitVec.ofNat 16 (((List.range 16).filter fun h => !down.contains h).map (2 ^ ·)).sum
                                 railsOff := down.map hubRail ++ ((List.range 112).filter fun r => decide (r > clkRail) && s.regsDown r)
                                 escapeLoaded := true } }

/-- Host ports as a cold start trains them. -/
def State.startHostPorts (s : State) (o : StartObs) : State :=
  (List.finRange 4).foldl (fun (s : State) (h : Fin 4) =>
    let en := bit s.boot.cfg.hpEnable h.val
    let pol := ((s.boot.cfg.hpPolarity[h.val]?).getD 0).toNat
    (s.setHp h.val { en := en, up := en && o.hostUp.contains h && s.hostPortThere h.val }).setReg (hpBase h.val + 0x10)
      (BitVec.ofNat 64 pol)) s

/-- One fabric port as a start trains it (R281, R286). -/
def State.startPort (s : State) (o : StartObs) (p : Fin 64) : State :=
  if !portPopulated s.fuses.orderF p then s.setPort p { st := .unpopulated, en := false }
  else if !s.portThere p then s.setPort p { st := .down }
  else
    let s := (s.setPort p {}).startTraining p
    match o.ports.find? fun e => e.1 = p with
    | some e => s.finishTraining p e.2
    | none => s

/-- Every fabric port is trained. -/
def State.startPorts (s : State) (o : StartObs) : State := (List.finRange 64).foldl (fun s p => s.startPort o p) s

/-- GS_RATE where the store gives none: the largest value of each field. -/
def gsRateDefault : DWord := BitVec.ofNat 64 (1024 + 2 ^ 16 * 1024 + 2 ^ 32 * 16000)

/-- A site's classes and rates from the configuration store (R420, R425). -/
def State.guestRegs (s : State) (i : Nat) : State :=
  let c := s.boot.cfg
  let cl := ((Tab.find? c.gsClasses i).map (·.toNat)).getD 0
  (s.setReg (gsBase i + 0x10) (BitVec.ofNat 64 cl)).setReg (gsBase i + 0x18) ((Tab.find? c.gsRate i).getD gsRateDefault)

/-- A guest site in a start: its link trains where a module of it does, and the guest answers as far as it does before the start
is over (R419, R426). -/
def State.startGuest (s : State) (o : StartObs) (warm : Bool) (g : Fin 4) : State :=
  let i := g.val
  let old := s.guest i
  let s := s.guestRegs i
  if i ≥ s.fuses.guests then s.setGuest i { st := .absent }
  else if !s.guestThere i then s.setGuest i { st := .lost }
  else
    let up := o.guestUp.find? fun e => e.1 = g
    let answers := (up.map (·.2.2)).getD []
    let mods := (up.map (·.2.1)).getD 0
    if warm ∧ (old.st = .opened ∨ old.st = .fenced ∨ old.st = .attesting) then
      answers.foldl (fun s a => s.takeAnswer i a)
        ((s.setGuest i { st := .attesting, mods := old.mods, side := old.side, digest := old.digest }).askGuest i 1)
    else if mods = 0 then s.setGuest i { st := .training }
    else answers.foldl (fun s a => s.takeAnswer i a)
      ((s.setGuest i { st := .attesting, mods := mods, side := true, digest := old.digest }).askGuest i 1)

def State.startGuests (s : State) (o : StartObs) (warm : Bool) : State :=
  (List.finRange 4).foldl (fun s g => s.startGuest o warm g) s

/-! ### Stacks (R186, R187, R440 step 7, R445, R450) -/

/-- STACK_TRAIN_FAIL (R456). -/
def State.stackFails (s : State) (m cause : Nat) : State :=
  s.raise evStackTrainFail none [(m, 1), (cause, 1)] [.sessions]

/-- Whether a start finds a stack failed by one of the causes (R445, R506). -/
def stackFailed (o : StartObs) (m : Nat) (causes : List Nat) : Bool :=
  o.stackFail.any fun e => decide (e.1.val = m) && causes.contains e.2.val

/-- The rows of a stack that fail the retention test. -/
def failedRows (o : StartObs) (m : Nat) : Nat := (o.rowsFail.filter fun e => e.1.val = m).length

/-- Whether step 11 leaves a stack out (R445). -/
def leftOut (o : StartObs) (m : Nat) : Bool := stackFailed o m [1, 2] || decide (failedRows o m > 64)

/-- The populated stacks whose sector and rail are up. -/
def State.reachable (s : State) : List Nat :=
  (List.range 64).filter fun m => stackPopulated s.fuses.orderB m && s.sectorUp (stackSector m) && s.railUp (memRail (m / 8))

/-- The interleave set of some stacks in ascending order: an odd count drops the highest (R187). -/
def evenSet (l : List Nat) : List Nat := if l.length % 2 = 1 then l.dropLast else l

/-- The set is fixed: the stacks in service and those in the set (R187). -/
def State.fixSet (s : State) (good : List Nat) : State :=
  let set := evenSet good
  let s := { s with boot := { s.boot with set := set } }
  (List.range 64).foldl (fun (s : State) m =>
    let x := s.mc m
    if good.contains m ∨ x.online then s.setMc m { x with online := good.contains m, inSet := set.contains m } else s) s

/-- CE_ROW_LIMIT and SCRUB_CTRL of a controller from the configuration store (R200, R203). -/
def State.mcRegs (s : State) (m : Nat) : State :=
  let c := s.boot.cfg
  (s.setReg (mcBase m + 0x38) (BitVec.ofNat 64 c.ceRowLimit)).setReg (mcBase m + 0x40) (BitVec.ofNat 64 (1 + 2 ^ 8 * c.scrubHours))

/-- A list of rows awaiting repair other than the one before is appended as a PPR record (R437). -/
def State.pprChanged (s : State) (l : List (Nat × Word)) (ok : Bool × Bool) : State :=
  if l = s.store.pprList then s else { s with store := { s.store with pprList := l } }.appendPpr ok.1 ok.2

/-- Step 7 of a cold start: stacks train, those that fail are left out, and rows awaiting repair are repaired in those that train
(R186, R440). -/
def State.trainStacks (s : State) (o : StartObs) : State :=
  let tried := s.reachable
  let s := tried.foldl (fun (s : State) m => if stackFailed o m [0] then s.stackFails m 0 else s) s
  let trained := tried.filter fun m => !stackFailed o m [0]
  let s := trained.foldl (fun (s : State) m => s.setMc m { s.mc m with online := true }) s
  s.pprChanged (s.store.pprList.filter fun e => !trained.contains e.1) o.appendOk

/-- Step 11 of a cold start, over the stacks that trained: those that fail margining or a test are left out, the rows that fail
the retention test are listed, and the set is fixed (R187, R445). -/
def State.coldStacks (s : State) (o : StartObs) : State :=
  let trained := s.reachable.filter fun m => (s.mc m).online
  let s := trained.foldl (fun (s : State) m =>
    if !leftOut o m then s else s.stackFails m (if stackFailed o m [1] then 1 else 2)) s
  let good := trained.filter fun m => !leftOut o m
  let rows := ((o.rowsFail.filter fun e => trained.contains e.1.val).map fun e => (e.1.val, e.2)).filter fun e =>
    !s.store.pprList.contains e
  let s := s.pprChanged ((s.store.pprList ++ rows).take 4096) o.appendOk
  good.foldl (fun (s : State) m => s.mcRegs m) (s.fixSet good)

/-- Memory of a stack filled with the poison marker after fresh training (R450). -/
def State.fillStack (s : State) (m : Nat) : State :=
  { s with mem := s.mem.filter fun e => e.1 / 2 ^ 36 ≠ m
           memPoison := s.memPoison.filter fun w => wordStack w ≠ m
           memUe := s.memUe.filter fun w => wordStack w ≠ m, memCe := s.memCe.filter fun w => wordStack w ≠ m
           memFills := s.memFills.put m (s.fresh + 1) }.drawn

/-- What a change of the set loses: every byte (R201). The ledger's entries are to be mirrored again (R343). -/
def State.loseMemory (s : State) : State :=
  { s with mem := [], memInit := s.fresh + 1, memPoison := [], memUe := [], memCe := [], memFills := []
           ledger := { s.ledger with dirty := s.ledger.entries.map fun (e : Nat × LEntry) => e.1 } }.drawn

/-- The quick pattern test reads every 4,096th granule of a stack, 2^15 of 512 bytes, each in a row of its own, and meets errors
as any read does (R198, R450). -/
def State.quickRead (s : State) (m : Nat) : State :=
  let l := (s.memUe ++ s.memCe).filter fun w => decide (wordStack w = m ∧ wordOffset w / 512 % 4096 = 0)
  (l.foldl (fun (s : State) w => s.touchWord 10 0xFFFFFFFF none w) ((s.bump (mcBase m + 0x68) (2 ^ 24)).bump (mcBase m + 0x78) (2 ^ 15)))

/-- The stacks of a warm restart leave self-refresh: those offline are trained afresh and filled with the poison marker; the set
is rebuilt, and contents do not survive a change of it (R201, R450). -/
def State.warmStacks (s : State) (o : StartObs) : State :=
  let s := { s with boot := { s.boot with selfRefresh := false } }
  let old := s.boot.set
  let tried := s.reachable
  let bad (m : Nat) : Bool := stackFailed o m [0, 1, 2]
  let s := tried.foldl (fun (s : State) m =>
    if bad m then s.stackFails m (((o.stackFail.find? fun e => e.1.val = m).map (·.2.val)).getD 0) else s) s
  let good := tried.filter fun m => !bad m
  let new := good.filter fun m => !(s.mc m).online
  let s := if evenSet good = old then s else s.loseMemory
  let s := new.foldl (fun (s : State) m => s.fillStack m) s
  let s := good.foldl (fun (s : State) m => s.mcRegs m) (s.fixSet good)
  good.foldl State.quickRead s

/-! ### Parishes (R442, R443) -/

/-- A rate referred to a temperature: rate × (1 − c × (t − T_j)), down to whole Mbeat/s (R443). -/
def referRate (rate c : Nat) (t tj : Int) : Nat :=
  (((rate : Int) * (1000000 - (c : Int) * (t - tj))) / 1000000).toNat

/-- A parish is powered and its speed record measured, or it stays dark (R442, R443). -/
def State.startParish (s : State) (o : StartObs) (p : Fin 78) : State :=
  if o.fuseDark.contains p then s.setParish p { dark := true, tripped := true }
  else if o.parishFail.contains p ∨ s.regsDown p then
    (s.setParish p { dark := true, tripped := true }).raise evRailFault none
      [(p.val, 1), (if s.regsDown p then rcRegulator else rcUndervoltage, 1)] []
  else
    let c := s.fuses.coeff.get 0 p.val
    let trim := s.store.trim p
    let r := o.rates.find? fun e => e.1 = p
    let nom := (r.map fun e => referRate e.2.1 c 60 e.2.2.2).getD 0
    let low := (r.map fun e => referRate e.2.2.1 c 104 e.2.2.2).getD 0
    s.setParish p { bell := s.bell.count, railOn := true, trim := trim, rateNom := nom, rateFloor := low }

/-- Step 8: the parishes in order; the field's state before is gone (R442, R450). The risers that reach a sector out of service
are lost (R269). -/
def State.startField (s : State) (o : StartObs) : State :=
  let s := { s with cores := [], xroads := [], parishes := [], hub := [], hubWait := [], tallyOps := [], crierSeq := [], reqs := [] }
  ((List.finRange 78).foldl (fun s p => s.startParish o p) s).loseRisers fun h => !s.sectorUp h

/-! ### The known-answer run (R444) -/

/-- A site that fails the test or the run: it is dead for this start. -/
def State.failSite (s : State) (e : Fin 78 × Fin 80 × Fin 100) : State := s.markDead e.1 e.2.1 e.2.2

/-- The core ID of the logical position a physical site holds; of the column's row 0 where it holds none. -/
def State.idOfSite (s : State) (e : Fin 78 × Fin 80 × Fin 100) : Nat :=
  let r := (s.logicalRow e.1 e.2.1 e.2.2).getD 0
  logicalY e.1 r * 1024 + logicalX e.1 e.2.1

/-- The failing sites of a parish are dead for this start, its columns shift or become fallow, and KAT_FAIL is raised once
(R444). -/
def State.katParish (s : State) (o : StartObs) (p : Fin 78) : State :=
  let l := o.siteFail.filter fun e => e.1 = p
  match l with
  | [] => s
  | e :: _ =>
    if !(s.parish p).railOn then s
    else
      let id := s.idOfSite e
      let before := s.fallowColumns p
      let s := l.foldl (fun s e => s.failSite e) s
      let grew := decide ((s.fallowColumns p).length > before.length)
      s.raise evKatFail none [(p.val, 1), (l.length, 4), (id, 4), (b2n grew, 1)] [.sessions]

/-- The mesh test and the known-answer run; they leave data SRAM zero and every tally 0. -/
def State.knownAnswer (s : State) (o : StartObs) : State := (List.finRange 78).foldl (fun s p => s.katParish o p) s

/-! ### Readiness (R448, R449) -/

/-- Whether compute service is possible: N of at least 2, and a parish that is lit, not isolated, has passed the run and
has a well in service (R449). -/
def State.canCompute (s : State) : Bool :=
  decide (s.nSet ≥ 2) && (List.range 78).any fun p =>
    (s.parish p).hears && decide ((s.fallowColumns p).length < 80) && (List.range 64).any fun k => s.wellUp (p * 64 + k)

/-- The causes of DEGRADED_READY at the end of a start, in bit order (R448). -/
def State.causes (s : State) : List Bool :=
  let c := s.boot.cfg
  [ (List.range 78).any (fun p => !(s.parish p).hears),
    !s.gradeMet,
    decide (s.nSet < ((List.range 64).filter (stackPopulated s.fuses.orderB)).length),
    (List.range 16).any (fun h => !s.sectorUp h),
    (List.range 64).any (fun p => bit c.portExpect p && decide ((s.port p).st ≠ .up)),
    (List.range 4).any (fun g => decide (g < s.fuses.guests ∧ (s.guest g).st ≠ .opened)),
    decide (s.clk.sel ≠ primarySrc c),
    s.boot.fallback,
    s.boot.fuseBad,
    (List.range 4992).any (fun w => !s.wellUp w),
    !s.canCompute,
    s.boot.configAdjusted ]

/-- The trims in half millivolts, as a WEAR record holds them. -/
def State.trims (s : State) : List (Nat × Int) :=
  (List.range 78).map fun p => (p, if (s.parish p).railOn then (s.parish p).trim else s.store.trim p)

/-- Counts added to counts. -/
def addCounts (t u : Tab Nat) : Tab Nat := u.foldl (fun (t : Tab Nat) e => t.put e.1 (t.get 0 e.1 + e.2)) t

/-- The least sentinel slack of each parish as its PWR register shows it. -/
def State.leastSlack (s : State) : List (Nat × Nat) :=
  (List.range 78).map fun p => (p, bits (s.reg (parishBase p + 0x4020)) 16 16)

/-- What a WEAR record appended now holds: the newest one's history with what was gathered since (R436). -/
def State.wearNow (s : State) (trims : List (Nat × Int)) (slack : List (Nat × Nat)) : Wear :=
  let w := s.store.wear
  let r := s.ras
  { coldStarts := w.coldStarts + r.colds, warmRestarts := w.warmRestarts + r.warms, uvlos := s.store.uvlos
    trims := trims, slack := slack, trips := addCounts w.trips r.trips, corrected := addCounts w.corrected r.corrected }

/-- A WEAR record is appended; where a device takes it, what it tells is gathered anew (R436, R437). -/
def State.appendWear (s : State) (trims : List (Nat × Int)) (slack : List (Nat × Nat)) (okA okB : Bool) : State :=
  let x := s.store.append (.wear (s.wearNow trims slack)) okA okB
  let s := if okA || okB then { s with store := x, ras := { s.ras with trips := [], corrected := [], colds := 0, warms := 0 } }
    else { s with store := x }
  s.appendFails 1 okA okB

/-- A trim after an append, in half millivolts: one step of 2.5 mV up below 40 ps, one down above 120 ps, within -30 to
+40 mV (R387). -/
def nextTrim (trim : Int) (slackPs : Nat) : Int :=
  if slackPs < 40 then min 80 (trim + 5) else if slackPs > 120 then max (-60) (trim - 5) else trim

/-- The least sentinel slack of the lit parishes as their registers show it, for a shutdown whose command brings none (R387, R404;
log entry 120). -/
def State.sentinels (s : State) : List (Fin 78 × Nat) :=
  (List.finRange 78).filterMap fun (p : Fin 78) =>
    if (s.parish p).railOn then (s.regs.find? (parishBase p + 0x4020)).map fun v => (p, bits v 16 16) else none

/-- The trims moved by the least slack of each parish over the last 24 hours (R387). -/
def State.movedTrims (s : State) (slack : List (Fin 78 × Nat)) : List (Nat × Int) :=
  (List.range 78).map fun p =>
    match slack.find? fun e => e.1.val = p with
    | some e => (p, nextTrim (s.store.trim p) e.2)
    | none => (p, s.store.trim p)

/-- The appends that came due during a warm restart are made after it: WEAR with the trims moved, PPR (R387, R454). -/
def State.appendOwed (s : State) (ok : Bool × Bool) : State :=
  let t : State := { s with boot := { s.boot with appendDue := none, pprDue := false } }
  let t := match s.boot.appendDue with
    | none => t
    | some (slack, okA, okB) => t.appendWear (s.movedTrims slack) (slack.map fun e => (e.1.val, e.2)) okA okB
  if s.boot.pprDue then t.appendPpr ok.1 ok.2 else t

/-- Rollback counters advance to the running envelopes' ROLLBACK (R411). -/
def State.advanceRollback (s : State) : State :=
  match s.store.image s.boot.imageB with
  | none => s
  | some x =>
    let f := s.fuses
    { s with fuses := { f with rollFw := max f.rollFw (min 64 x.fw.rollback.toNat), rollCfg := max f.rollCfg (min 64 x.cfg.rollback.toNat) } }

/-- CORE_COUNT as the latest start leaves it (R491). -/
def State.countCores (s : State) : State :=
  let fused := (s.fuses.dead.map fun e => (e.1, e.2.1)).dedup.filter fun c =>
    decide ((s.fuses.dead.filter fun e => decide (e.1 = c.1 ∧ e.2.1 = c.2)).length > 4)
  s.setReg 0x38 (BitVec.ofNat 64 (s.usableCores + 2 ^ 20 * s.fallowCount + 2 ^ 32 * fused.length))

/-- Step 13: READY, DEGRADED_READY with its causes, or MGMT_ONLY with cause NO_COMPUTE (R448, R449, R453). -/
def State.reportReady (s : State) (o : StartObs) : State :=
  let s := s.endPlan
  let l := s.causes
  let cause := BitVec.ofNat 12 ((l.zipIdx.map fun e => if e.1 then 2 ^ e.2 else 0).sum)
  let s := s.countCores
  let go (s : State) (st : MState) : State := { s with boot := { s.boot with st := st, cause := cause, step := 13 } }
  if !s.canCompute then go s .mgmtOnly
  else
    let s := (go s (if cause = 0 then .ready else .degradedReady)).advanceRollback.measure
    let s := { s with boot := { s.boot with startMs := o.ms } }
    let s := s.setReeve { s.reeve with envelope := 17050000000 }
    if cause = 0 then s
    else s.raise evDegradedReady none [(cause.toNat, 2), (s.usableCores, 4), (s.nSet, 1)] [.sessions]

/-- The restart after an undervoltage lockout reports LEVEL_BREAK; the spec states neither the power lost nor the time
(R392): free values. -/
def State.reportUvlo (s : State) : State :=
  if !s.boot.uvlo then s
  else
    let d := s.draw
    ({ s with boot := { s.boot with uvlo := false } }.levelBreak 3 (bits d 0 15) (bits d 32 32)).drawn

/-! ### The cold start (R440) -/

/-- Steps 8 to 13 of a cold start. -/
def State.coldField (s : State) (o : StartObs) : State :=
  let s := ((s.startField o).knownAnswer o).coldStacks o
  let s := s.buildGeometry.reportReady o
  if s.computes then
    let s := { s with ras := { s.ras with colds := s.ras.colds + 1 } }
    ((s.appendWear s.trims s.leastSlack o.appendOk.1 o.appendOk.2).appendPpr o.appendOk.1 o.appendOk.2).reportUvlo
  else s.reportUvlo

/-- The start-up slot after a TAI second: the first at which the time modulo SLOT_PERIOD is SLOT × SLOT_WIDTH (R394). -/
def slotSecond (c : Cfg) (t : Nat) : Nat := t + (c.slot * c.slotWidth + c.slotPeriod - t % c.slotPeriod) % c.slotPeriod

/-- Step 8 waits for the module's slot: by TAI time where it is valid now, else SLOT × SLOT_WIDTH from now; the field is powered
at once where that is now (R394, R454). -/
def State.slotWait (s : State) (o : StartObs) : State :=
  let c := s.boot.cfg
  let wait (s : State) (t : Option Nat) : State :=
    { s with boot := { s.boot with st := .training, step := 8 }, reeve := { s.reeve with slotWait := true, slotAt := t } }
  match o.tod with
  | some t =>
    let s := { s with tod := { s.tod with sec := t, valid := true, holdover := false } }
    if slotSecond c t.toNat = t.toNat then s.coldField o else wait s (some (slotSecond c t.toNat))
  | none => if c.slot * c.slotWidth = 0 then s.coldField o else wait s none

/-- Steps 4 to 7 of a cold start, and what follows them. -/
def State.coldParts (s : State) (o : StartObs) : State :=
  let s := (s.loadMaps o).applyClockPlan.startSectors o
  let s := ((((s.startHostPorts o).startPorts o).refusePort).reachPrimary o).startGuests o false
  if s.boot.straps.mgmt then ({ s.endPlan with boot := { s.boot with st := .mgmtOnly, step := 6 } } : State).reportUvlo
  else ({ s with boot := { s.boot with st := .training, step := 7 } }.trainStacks o).slotWait o

/-- The cold start from the rising edge of RESET_N: straps sampled, then R440 from step 2; a high STRAP_TEST halts ST0
(R32, R33). -/
def State.coldStart (s : State) (o : StartObs) : State :=
  let s := { s with boot := { s.boot with straps := o.straps, st := .booting, step := 2 }, store := s.store.load }
  if o.straps.test then { s with boot := { s.boot with st := .strapHalt }, pins := { s.pins with alertN := false } }
  else
    let s := s.pickImage o o.straps.img
    if s.boot.st = .recovery then s else s.coldParts o

/-! ### The warm restart (R364, R450) -/

/-- Whether a warm restart is honoured (R32, R453). -/
def State.honours (s : State) : Bool :=
  match s.boot.st with
  | .ready | .degradedReady | .mgmtOnly | .shutdownDone => !s.boot.stopped
  | _ => false

/-- The RESULT of a command that a warm restart ends: a RUN under execution has that of its completion (R353). -/
def State.abortResult (s : State) (lsn : Nat) : BitVec 192 :=
  match s.allots.search fun _ x => (x.exec.map (·.lsn)) == some lsn with
  | some (_, x) => (x.exec.map fun e => x.runResult e true (x.firstInvalid e)).getD 0
  | none => 0

/-- Every command not DONE ends ABORTED with DETAIL RESTART (R364). -/
def State.abortAll (s : State) : State :=
  ((s.ledger.entries.filter fun e => e.2.st ≠ 2).map (·.2.lsn)).foldl (fun s l => s.finishOne l 3 dRestart (s.abortResult l)) s

/-- A CLOSE that waited for a halt has ended so too, and its session stays; one whose lease has expired still ends (R334,
R364). -/
def State.keepSessions (s : State) : State :=
  { s with ses := s.ses.mapVals fun _ x => if x.closing = some 0 ∨ x.ending then x else { x with closing := none, closed := [] } }

/-- What R364 does, for a warm restart and an orderly shutdown; a staging under way is abandoned (R430). -/
def State.applyRestart (s : State) : State :=
  let s := if s.staging then { s with store := s.store.setImage s.spareImage none } else s
  let s := { s with boot := { s.boot with epoch := s.boot.epoch + 1 } }.qpsDown
  let s := s.abortAll.keepSessions
  let s := s.liveAllots.foldl (fun s a => s.releaseAllot a) s
  { s.setReeve { s.reeve with jobTime := false, jobEnding := false } with boot := { s.boot with pldmUpdate := false } }

/-- The field's rails are removed; a write posted to the field part of a block is discarded with them (R452, R505). -/
def State.fieldOff (s : State) : State :=
  let s := { s with cores := [], xroads := [], tallyOps := [], reqs := []
                    parishes := s.parishes.mapVals fun _ x => { x with railOn := false, droop := false, ballast := 0 } }
  { s with posted := s.posted.filter fun e => !((parishOfOff e.1).isSome && s.absent e.2.offset) }

/-- The field is powered down, and the stacks enter self-refresh with the ledger's changes mirrored (R343, R450, R452). -/
def State.quiesceParts (s : State) : State :=
  let s := s.fieldOff.mirror
  { s with boot := { s.boot with selfRefresh := true } }

/-- A warm restart is requested and honoured: R364 is applied, field and stacks are taken down, and the module is RESTARTING
(R450). -/
def State.beginRestart (s : State) : State :=
  let s := s.applyRestart.quiesceParts
  { s with boot := { s.boot with st := .restarting, warmHeld := false } }

/-- A request for a warm restart: honoured, held during SHUTTING_DOWN or a switch of the mux, or ignored (R241, R453,
R454). -/
def State.requestWarm (s : State) : State :=
  if s.honours then
    if s.clk.switching.isSome then { s with boot := { s.boot with warmHeld := true } } else s.beginRestart
  else if s.boot.st = .shuttingDown then { s with boot := { s.boot with warmHeld := true } }
  else s

/-- The image of a warm restart: BOOT_SELECT's, or the one booted (R450). -/
def State.warmImage (s : State) : Bool :=
  match bits (s.reg bootSelectOff) 0 2 with
  | 2 => false
  | 3 => true
  | _ => s.boot.imageB

/-- What a warm restart clears: posted writes, guards, STATUS, sticky clock faults, the suspect table and soft repairs,
borrowed budget, the hub tallies (R242, R265, R397, R468, R505). -/
def State.clearForRestart (s : State) : State :=
  let st := (List.range 64).map fun m => statusOff (mcBase m)
  { s with
      posted := [], guards := [], hub := [], hubWait := []
      regs := (s.regs.del (clkBase + 0x20)).filter fun e => !st.contains e.1
      ras := { s.ras with suspects := [], repairs := [] }
      guestReqs := []
      reeve := { s.reeve with failing := false, loans := s.reeve.loans.filter fun e => !e.2.borrowed, asked := [], collecting := [] } }

/-- Fabric ports stay trained, unless IDENTITY or DOMAIN changed (R450); one whose sector returns trains as its timer asks
(R287). -/
def State.warmPorts (s : State) (old : Cfg) (o : StartObs) : State :=
  let c := s.boot.cfg
  let changed := decide (c.feid ≠ old.feid ∨ c.macs ≠ old.macs ∨ c.ips ≠ old.ips ∨ c.domain ≠ old.domain ∨
    c.domainId ≠ old.domainId ∨ c.root ≠ old.root ∨ c.level ≠ old.level ∨ c.levels ≠ old.levels ∨
    c.pathMetres ≠ old.pathMetres ∨ c.parentPort ≠ old.parentPort ∨ c.childMask ≠ old.childMask ∨ c.guardG ≠ old.guardG ∨
    c.partners ≠ old.partners)
  (List.finRange 64).foldl (fun (s : State) p =>
    if changed then s.startPort o p
    else if !s.portThere p ∧ (s.port p).carries then s.portDown p 1
    else s) s

/-- Host ports at a warm restart: links stay up (R450), and EN and the polarity of the configuration read now apply (R7): a
port whose EN is clear, or whose sector is down, loses its link, and one whose EN is newly set trains. -/
def State.warmHostPorts (s : State) (o : StartObs) : State :=
  (List.finRange 4).foldl (fun (s : State) (h : Fin 4) =>
    let en := bit s.boot.cfg.hpEnable h.val
    let was := (s.hp h.val).en
    let s := s.setReg (hpBase h.val + 0x10) (BitVec.ofNat 64 ((s.boot.cfg.hpPolarity[h.val]?).getD 0).toNat)
    let s := if en && s.hostPortThere h.val then s else s.linkDown h.val
    let x := s.hp h.val
    s.setHp h.val { x with en := en, up := x.up || (en && !was && o.hostUp.contains h && s.hostPortThere h.val) }) s

/-- The ledger entry the mirror holds for a slot (R343, R344); none where it has not been mirrored, its memory does not answer or
is poisoned. -/
def State.mirrored (s : State) (i : Nat) : Option LEntry :=
  let d := s.mirrorBase + 64 * i
  if s.nSet = 0 ∨ s.ledger.dirty.contains i ∨ !s.rangeUp d 64 ∨ (List.range 8).any (fun j => s.wordPoison (s.memKey (d + 8 * j) / 8)) then none
  else
    let m := s.dpaBytes d 64
    let f (o n : Nat) : Nat := leAt m o n
    some { opcode := BitVec.ofNat 8 (f 0 1), status := BitVec.ofNat 8 (f 1 1), st := BitVec.ofNat 2 (f 2 1)
           allot := BitVec.ofNat 8 (f 3 1), ses := BitVec.ofNat 12 (f 4 2), epoch := BitVec.ofNat 16 (f 6 2)
           seq := BitVec.ofNat 32 (f 8 4), detail := BitVec.ofNat 16 (f 12 2), lsn := f 16 8
           hostTag := BitVec.ofNat 64 (f 24 8), doneTick := f 32 8, result := BitVec.ofNat 192 (f 40 24) }

/-- An entry whose SRAM copy fails its check at a warm restart is recovered from the mirror, whose read meets errors as any other
(R198, R204), or lost (R343, R371). -/
def State.checkEntry (s : State) (i : Nat) : State :=
  let l := s.ledger
  if (l.entries.find? i).isNone then s
  else
    let s := if s.nSet = 0 then s else s.readRange 10 0xFFFFFFFF none (s.mirrorBase + 64 * i) 64
    match s.mirrored i with
    | some e => { s with ledger := { l with entries := l.entries.put i e } }.bump (ledgerBase + 0x28)
    | none => { s with ledger := { l with entries := l.entries.del i } }.bump (ledgerBase + 0x30)

/-- A warm restart runs from RESTARTING to its end (R450); the ledger is checked once the stacks are out of self-refresh.
DEDUCED (log entry 82): a module whose STRAP_MGMT is 1 stops after step 6 at a warm restart too, without field power (R32). -/
def State.finishRestart (s : State) (o : StartObs) : State :=
  let old := s.boot.cfg
  let check (s : State) : State := (o.ledgerBad.map (·.toNat)).foldl State.checkEntry s
  let s := s.clearForRestart.pickImage o s.warmImage
  if s.boot.st = .recovery then s
  else
    let new := s.boot.cfg
    let stays := s.bell.member && new.domain && decide (new.domainId = old.domainId)
    let s := (({ s with bell := { s.bell with member := stays } }.loadMaps o).applyClockPlan).startSectors o
    let s := ((((s.warmHostPorts o).warmPorts old o).refusePort).reachPrimary o).startGuests o true
    let s := { s with ras := { s.ras with warms := s.ras.warms + 1 } }
    if s.boot.straps.mgmt then ({ (check s).endPlan with boot := { s.boot with st := .mgmtOnly, step := 6 } } : State).appendOwed o.appendOk
    else ((((check (s.warmStacks o)).startField o).knownAnswer o).buildGeometry.reportReady o).appendOwed o.appendOk

end Sys2Proof.Machine
end

