-- ==== Sys2Proof/Machine/Start.lean ====
section
/-! DEFINITION. The commands of start and stop: power and reset pins, restart and shutdown requests, records, fuses, stewards
(R25 to R35, R394, R410, R437 to R439, R450 to R455, R478). -/

namespace Sys2Proof.Machine

/-! ### Pins (R32 to R35) -/

/-- The I3C static address the module answers at (R32). -/
def State.i3cAddress (s : State) : Nat := 0x30 + s.boot.straps.addr.toNat

/-- Whether HK, HUB-HS00 and CLK-HS00 can come into regulation: a regulator of each works (R22), and the input, `peakMv` at
its highest since the last undervoltage lockout, has risen above 47.5 V (R25). -/
def State.mayPower (s : State) (peakMv : Nat) : Bool :=
  !s.regsDown (hubRail 0) && !s.regsDown clkRail && !s.regsDown hkRail && (!s.boot.uvlo || decide (peakMv > 47500))

/-- POWER_EN_RISE: HK, HUB-HS00 and CLK-HS00 come into regulation and PWR_GOOD rises: bring-up step 1 (R25, R32, R35).
How far the input rose since an undervoltage lockout is a free value (DESIGN CHOICE, log entry 97). -/
def execPowerEnRise (s : State) : Host.Outcome State Fault Refusal :=
  .next (if s.pins.powerEn then s
    else
      let t := if s.boot.uvlo then s.drawn else s
      if s.mayPower (bits s.draw 0 16) then
        { t with pins := { t.pins with powerEn := true, pwrGood := true }
                 boot := { t.boot with st := .coldReset, step := 1 } }
      else { t with pins := { t.pins with powerEn := true } })

/-- POWER_EN_FALL: every rail is removed with no orderly shutdown; THERMTRIP_N is released (R32). What the next start has to
report of an undervoltage lockout stays (R25, R392). -/
def execPowerEnFall (s : State) : Host.Outcome State Fault Refusal :=
  let t := s.allOff
  .next { t with pins := { t.pins with powerEn := false, thermtripN := true }, boot := { t.boot with uvlo := s.boot.uvlo } }

/-- Cold reset (R32, R242): HK and HS00 stay powered, all other rails are off, and only FAILOVER_COUNT is kept. A module that
has stopped service stays so, ALERT_N low, until a power cycle (R235). -/
def State.coldReset (s : State) : State :=
  let t := s.allOff
  { t with
      pins := { t.pins with pwrGood := true, thermtripN := true, alertN := !s.boot.stopped }
      boot := { t.boot with st := .coldReset, step := 1, uvlo := s.boot.uvlo, stopped := s.boot.stopped }
      regs := s.regs.filter fun e => e.1 = clkBase + 0x40 }

/-- RESET_N_FALL: the module is held in cold reset; ledger and session state are lost (R32, R34). -/
def execResetNFall (s : State) : Host.Outcome State Fault Refusal :=
  let s := { s with pins := { s.pins with resetN := false, thermtripN := true } }
  .next (if s.pins.pwrGood then s.coldReset else s)

/-- RESET_N_RISE: RESET_N is released, the straps are sampled and the cold start runs (R33, R440). -/
def execResetNRise (o : StartObs) (s : State) : Host.Outcome State Fault Refusal :=
  let s' := { s with pins := { s.pins with resetN := true } }
  .next (if s.pins.resetN ∨ !s.pins.pwrGood ∨ s.boot.stopped then s' else s'.coldStart o)

/-- RESET_RELEASE_IMPLIED: RESET_N was high when PWR_GOOD rose, and 1 ms later counts as released (R33). -/
def execResetReleaseImplied (o : StartObs) (s : State) : Host.Outcome State Fault Refusal :=
  .next (if s.pins.resetN ∧ s.pins.pwrGood ∧ s.boot.st = .coldReset ∧ !s.boot.stopped then s.coldStart o else s)

/-- STARTUP_SLOT_WAIT: the start-up slot has come, by TAI time where that sets it, and step 8 starts (R394). -/
def execStartupSlotWait (o : StartObs) (s : State) : Host.Outcome State Fault Refusal :=
  .next (if s.reeve.slotWait ∧ s.boot.st = .training ∧ (s.reeve.slotAt.getD 0) ≤ s.tod.sec.toNat then
    { s with reeve := { s.reeve with slotWait := false, slotAt := none } }.coldField o
  else s)

/-- WARM_N: a falling edge held low for 10 microseconds requests a warm restart (R32, R34, R453). -/
def execWarmN (s : State) : Host.Outcome State Fault Refusal := .next (if s.pins.pwrGood then s.requestWarm else s)

/-- WARM_RESTART: a warm restart requested before runs, or one the stewards ask for now (R450), which waits for a switch of
the mux in progress (R241). -/
def execWarmRestart (o : StartObs) (s : State) : Host.Outcome State Fault Refusal :=
  .next (if s.boot.st = .restarting then s.finishRestart o
    else if s.honours ∧ s.clk.switching.isNone then s.beginRestart.finishRestart o
    else s.requestWarm)

/-- A software switch is over: what waited for it follows (R235, R241). -/
def State.afterSwitch (s : State) (short : Bool) : State :=
  let s := s.refAfterSwitch short
  if s.boot.warmHeld ∧ s.honours then s.beginRestart else s

/-- MUX_SWITCH_COMPLETE: the glitch-free switch is done (R236). -/
def execMuxSwitchComplete (s : State) : Host.Outcome State Fault Refusal :=
  .next (match s.clk.switching with
    | some x => ({ s with clk := { s.clk with sel := x, switching := none, lastForced := false } } : State).afterSwitch false
    | none => s)

/-- MUX_STUCK: a switch has not completed in 10 microseconds; the forced path completes it (R238). -/
def execMuxStuck (shortPulse : Bool) (s : State) : Host.Outcome State Fault Refusal :=
  .next (match s.clk.switching with
    | none => s
    | some x =>
      let old := s.clk.sel
      let to' := if s.clk.ok x then x else Src.ref
      (((s.clkFault 6).forceSwitch to' shortPulse).raise evMuxStuck none
        [(srcCode old, 1), (srcCode x, 1), (srcCode to', 1), (s.bell.count.toNat, 8)] [.sessions]).afterSwitch shortPulse)

/-- WARM_REQ: a key-guarded write of 1 requests a warm restart (R450, R455). -/
def execWarmReq (path : RegPath) (s : State) : Host.Outcome State Fault Refusal :=
  .next (s.writeNow path (configBase + 0x78) true fun s => (s.setReg (configBase + 0x78) 1).requestWarm)

/-- BOOT_SELECT: a key-guarded write selects the image of warm restarts; 1 is no choice and is ignored (R455, R493). -/
def State.bootSelectWrite (s : State) (v : DWord) : State :=
  if bits v 0 2 = 1 then s else s.setReg bootSelectOff (BitVec.ofNat 64 (bits v 0 2))

def execBootSelect (path : RegPath) (value : DWord) (s : State) : Host.Outcome State Fault Refusal :=
  .next (s.writeNow path bootSelectOff true fun s => s.bootSelectWrite value)

/-! ### Records (R387, R437) -/

/-- WEAR_APPEND: the WEAR record of every 24 hours, with the trims moved; they take effect at the next restart (R387,
R437). One due during a warm restart waits for its end (R454). -/
def execWearAppend (slack : List (Fin 78 × Nat)) (okA okB : Bool) (s : State) : Host.Outcome State Fault Refusal :=
  .next (if s.boot.st = .restarting then { s with boot := { s.boot with appendDue := some (slack, okA, okB) } }
    else if s.up then s.appendWear (s.movedTrims slack) (slack.map fun e => (e.1.val, e.2)) okA okB
    else s)

/-! ### Orderly shutdown (R452) -/

/-- CFG_STATUS bits. -/
def cfgStatus : Nat := configBase + 0x70
def cfgRefused : DWord := 2
def cfgProgramFail : DWord := 4
def cfgCmdWhileBusy : DWord := 8

/-- An orderly shutdown (R452): as R364, field down, stacks in self-refresh, a WEAR record; a restart held meanwhile then
runs (R454). Refused while RESTARTING. -/
def State.shutDown (s : State) (slack : List (Fin 78 × Nat)) (appendOk : Bool × Bool) : State :=
  match s.boot.st with
  | .restarting => s.orReg cfgStatus cfgRefused
  | .ready | .degradedReady | .mgmtOnly =>
    let s := { s with boot := { s.boot with st := .shuttingDown } }.applyRestart
    let s := s.quiesceParts.appendWear (s.movedTrims slack) (slack.map fun e => (e.1.val, e.2)) appendOk.1 appendOk.2
    let s := { s with boot := { s.boot with st := .shutdownDone } }
    let s := s.raise evShutdownDone none [(s.tick, 8), (s.store.seq, 8)] []
    if s.boot.warmHeld && s.clk.switching.isNone then s.beginRestart else s
  | _ => s

/-- SHUTDOWN: a key-guarded write of 1 starts an orderly shutdown (R452). -/
def execShutdown (path : RegPath) (slack : List (Fin 78 × Nat)) (appendOk : Bool × Bool) (s : State) :
    Host.Outcome State Fault Refusal :=
  .next (s.writeNow path (configBase + 0x80) true fun s => (s.setReg (configBase + 0x80) 1).shutDown slack appendOk)

/-! ### Fuse commands (R410, R439) -/

/-- FUSE_CMD's gate: dropped with CMD_WHILE_BUSY while a programming is under way (R454), else refused, or begun. -/
def State.fuseCmd (s : State) (path : RegPath) (word : Nat) (refused : State → Bool) (op : State → FuseOp) : State :=
  s.writeNow path (configBase + 0x68) true fun s =>
    if s.fuses.busy.isSome then s.orReg cfgStatus cfgCmdWhileBusy
    else
      let s := s.setReg (configBase + 0x68) (BitVec.ofNat 64 word)
      if refused s then s.orReg cfgStatus cfgRefused else { s with fuses := { s.fuses with busy := some (op s) } }

/-- The entry in FUSE_REC_DATA. -/
def State.fuseEntry (s : State) : Word := (s.reg (configBase + 0x40)).setWidth 32

/-- Whether an in-field entry is refused (R439). -/
def Fuses.badEntry (f : Fuses) (w : Word) : Bool :=
  let e := infieldSite w
  decide (bits w 28 4 ≠ 1 ∨ e.1 > 77 ∨ e.2.1 > 79 ∨ e.2.2 > 99 ∨ bits w 0 7 ≠ crc7 w) || f.sites.contains e ||
    decide (f.infield.length ≥ 2048)

/-- APPEND_SITE: an in-field entry is programmed, or refused (R439). -/
def execAppendSite (path : RegPath) (s : State) : Host.Outcome State Fault Refusal :=
  .next (s.fuseCmd path 1 (fun s => s.fuses.badEntry s.fuseEntry) fun s => .appendSite s.fuseEntry)

/-- REVOKE_FW_KEY: a firmware key is revoked, never the last (R410); a key that does not exist is refused. -/
def execRevokeFwKey (path : RegPath) (key : BitVec 4) (s : State) : Host.Outcome State Fault Refusal :=
  let k := key.toNat
  .next (s.fuseCmd path (2 + 16 * k)
    (fun s => decide (k > 3) || ((List.range 4).all fun j => decide (j = k) || bit s.fuses.fwRevoked j))
    fun _ => .revokeFw k)

/-- An owner slot. -/
def Fuses.owner (f : Fuses) (slot : Nat) : Owner := if slot = 0 then f.owner0 else f.owner1

/-- The hash in OWNER_HASH. -/
def State.ownerHash (s : State) : BitVec 256 :=
  BitVec.ofNat 256 (((List.range 4).map fun i => (s.reg (configBase + 0x48 + 8 * i)).toNat * 2 ^ (64 * i)).sum)

/-- PROGRAM_OWNER: an owner slot is programmed, once (R410). -/
def execProgramOwner (path : RegPath) (slot : BitVec 4) (s : State) : Host.Outcome State Fault Refusal :=
  let k := slot.toNat
  .next (s.fuseCmd path (3 + 16 * k) (fun s => decide (k > 1) || (s.fuses.owner k).programmed) fun s => .programOwner k s.ownerHash)

/-- REVOKE_OWNER: a programmed owner slot is revoked (R410). -/
def execRevokeOwner (path : RegPath) (slot : BitVec 4) (s : State) : Host.Outcome State Fault Refusal :=
  let k := slot.toNat
  .next (s.fuseCmd path (4 + 16 * k) (fun s => decide (k > 1) || !(s.fuses.owner k).programmed) fun _ => .revokeOwner k)

def Fuses.setOwner (f : Fuses) (slot : Nat) (o : Owner) : Fuses :=
  if slot = 0 then { f with owner0 := o } else { f with owner1 := o }

/-- What a fuse command programs. -/
def Fuses.program (f : Fuses) : FuseOp → Fuses
  | .appendSite w => { f with infield := f.infield ++ [w] }
  | .revokeFw k => { f with fwRevoked := setBit f.fwRevoked k true }
  | .programOwner k h => f.setOwner k { f.owner k with programmed := true, hash := h }
  | .revokeOwner k => f.setOwner k { f.owner k with revoked := true }

/-- FUSE_PROGRAMMING_DONE: the programming ends and BUSY clears, with PROGRAM_FAIL where it failed (R439, R455). -/
def execFuseProgrammingDone (ok : Bool) (s : State) : Host.Outcome State Fault Refusal :=
  .next (match s.fuses.busy with
    | none => s
    | some op =>
      if ok then { s with fuses := { s.fuses.program op with busy := none } }
      else { s with fuses := { s.fuses with busy := none } }.orReg cfgStatus cfgProgramFail)

/-! ### Stewards (R372, R478) -/

/-- STEWARD_RESTART: a steward's watchdog has expired: it is restarted, or, the third time in 10 minutes, taken out of
service, its role moving to its standby or a warm restart being requested (R478). The reeve has a standby: it is to take over from
the acting steward (REEVE_FAILOVER, R372), or has done so already; its other steward restarted is its standby again. -/
def execStewardRestart (k : Fin 8) (inTenMinutes : Nat) (s : State) : Host.Outcome State Fault Refusal :=
  let retire := decide (inTenMinutes ≥ 3)
  let acts := decide (k.val = s.reeve.steward)
  let moves := retire && decide (k.val = 1 ∨ k.val = 2) && (acts == s.reeve.standby)
  .next (if !s.up ∨ s.ras.retired.contains k.val then s
    else
      let s := { s with ras := { s.ras with restarts := s.ras.restarts.put k (min 255 (s.ras.restarts.get 0 k + 1)) } }
      let s := s.raise evStewardRestart none [(k.val, 1), (inTenMinutes, 1), (b2n moves, 1)] []
      if !retire then
        if (k.val = 1 ∨ k.val = 2) ∧ !acts then s.setReeve { s.reeve with standby := true }
        else if acts ∧ s.reeve.standby then s.setReeve { s.reeve with failing := true }
        else s
      else
        let s := { s with ras := { s.ras with retired := k.val :: s.ras.retired } }
        if acts ∧ s.reeve.standby then s.setReeve { s.reeve with failing := true }
        else
          let s := if k.val = 1 ∨ k.val = 2 then s.setReeve { s.reeve with standby := false } else s
          if moves then s else s.requestWarm)

end Sys2Proof.Machine
end

