-- ==== Sys2Proof/Machine/RegRead.lean ====
section
/-! DEFINITION. Reads of register space (R141, R203, R224, R243, R277, R278, R316 to R318, R370, R371, R403, R404, R431, R455,
R480, R489 to R493): what each register shows. A register with no view here shows the value held for it. -/

namespace Sys2Proof.Machine

/-- A word of fields: low bit, width, value. -/
def fieldsOf (l : List (Nat × Nat × Nat)) : DWord := BitVec.ofNat 64 ((l.map fun f => f.2.2 % 2 ^ f.2.1 * 2 ^ f.1).sum)

/-- A mask of the numbers below `n` that a test accepts. -/
def maskOf (n : Nat) (f : Nat → Bool) : Nat := (((List.range n).filter f).map (2 ^ ·)).sum

/-! ### State codes -/

/-- STATE of PORT_STATUS (R317). -/
def PortState.code : PortState → Nat
  | .disabled => 0 | .training => 1 | .up => 2 | .degraded => 3 | .down => 4 | .draining => 5 | .unpopulated => 6

/-- GS_STATE (R431). -/
def GState.code : GState → Nat
  | .absent => 0 | .off => 1 | .training => 2 | .attesting => 3 | .opened => 4 | .fenced => 5 | .lost => 6

/-- The codes of R453; the states before a boot have none and show as BOOTING. -/
def MState.code (m : MState) : Nat :=
  let l : List MState :=
    [.ready, .degradedReady, .booting, .training, .mgmtOnly, .restarting, .shuttingDown, .shutdownDone, .recovery]
  if l.contains m then l.idxOf m else 2

/-- The allotment states as STATUS gives them (R360). -/
def AState.code : AState → Nat
  | .free => 0 | .idle => 1 | .loaded => 2 | .running => 3 | .halted => 4

/-! ### Blocks -/

/-- KEY_STATUS of a block (R489). -/
def State.keyStatus (s : State) (b : Nat) : DWord :=
  let g := s.guard b
  fieldsOf [(0, 1, b2n g.armed), (1, 1, b2n g.locked), (2, 1, b2n g.notArmed), (8, 5, g.faults), (16, 12, g.armedBy.toNat)]

/-- Whether a start has begun since power came or the cold reset: before, every register is at its reset value (R453, R455). -/
def State.started (s : State) : Bool :=
  match s.boot.st with
  | .off | .coldReset => false
  | _ => true

/-- DEVID (R491). -/
def State.readDevid (s : State) (o : Nat) : DWord :=
  let f := s.fuses
  if o = 0 then 0x4B014F4E
  else if o = 8 then 0x00010001
  else if o = 0x10 then
    fieldsOf [(0, 1, b2n f.orderB), (1, 1, b2n f.orderF), (2, 3, f.guests), (5, 2, f.grade), (8, 8, if f.orderB then 64 else 48),
      (16, 8, if f.orderF then 64 else 32)]
  else if o = 0x20 ∨ o = 0x28 then Config.identity o
  else if o = 0x18 ∨ o = 0x30 then BitVec.ofNat 64 (bits (Config.identity o) 0 24)
  else if o = 0x40 then 1
  else if o = 0x48 then fieldsOf [(0, 16, s.boot.epoch.toNat)]
  else s.reg o

/-- CLK (R243). -/
def State.readClk (s : State) (r : Nat) : DWord :=
  let c := s.clk
  if r = 0 then
    fieldsOf [(0, 4, srcCode c.sel), (4, 1, b2n c.switching.isSome), (5, 1, b2n c.lastForced), (8, 1, b2n c.refOk),
      (9, 1, b2n c.monOk), (10, 1, b2n c.tlaneOk), (11, 1, b2n c.synceOk), (12, 1, b2n c.armed), (13, 1, b2n c.refFailed)]
  else if r = 0x10 then fieldsOf [(0, 6, s.boot.cfg.tlanePort), (6, 4, s.boot.cfg.tlaneLane)]
  else if r = 0x18 then fieldsOf [(0, 2, s.boot.cfg.syncePort), (2, 2, s.boot.cfg.synceLane)]
  else s.reg (clkBase + r)

/-- BELL (R277). -/
def State.readBell (s : State) (r : Nat) : DWord :=
  let b := s.bell
  if r = 0 then b.count
  else if r = 8 then fieldsOf [(0, 18, b.n)]
  else if r = 0x10 then
    fieldsOf [(0, 1, b2n b.member), (1, 1, b2n b.outOfStep), (2, 1, b2n b.calibrated), (4, 3, b.level)]
  else if r = 0x18 then fieldsOf [(0, 16, b.guardG)]
  else if 0x8000 ≤ r then (s.hub.get 0 ((r - 0x8000) / 8)).setWidth 64
  else s.reg (bellBase + r)

/-- GRANT[a] of REEVE (R403). -/
def State.readGrant (s : State) (a : Nat) : DWord :=
  let x := s.allot a
  match x.exec with
  | none => fieldsOf [(6, 3, if x.st = .free then 0 else x.opCeil)]
  | some e =>
    let sect : Option Sect := x.prog.bind fun g => x.curRun.bind g.sectOf
    let pref := (sect.map (·.opPref)).getD 0
    let grant := ((x.parishList.head?).map fun p => (s.parish p).grant).getD 0
    fieldsOf [(0, 3, pref), (3, 3, (e.book (if e.ended < e.launched then e.ended else e.launched - 1)).point), (6, 3, x.opCeil),
      (16, 9, grant), (32, 8, (sect.map (·.floor)).getD 0), (40, 1, b2n (e.deferred || e.capDeferred))]

/-- REEVE (R403). -/
def State.readReeve (s : State) (r : Nat) : DWord :=
  let v := s.reeve
  let c := s.boot.cfg
  if r = 0 then
    if !s.started then 0 else fieldsOf [(0, 3, v.steward), (3, 1, b2n v.standby), (4, 1, b2n v.jobTime), (5, 1, b2n v.parked),
      (6, 1, b2n (s.allots.any fun e => ((e.2.exec).map fun y => y.deferred || y.capDeferred).getD false)),
      (7, 1, b2n v.rampHeld), (8, 1, b2n v.slotWait)]
  else if r = 8 then fieldsOf [(0, 16, v.cap)]
  else if r = 0x10 then fieldsOf [(0, 16, v.capMax)]
  else if r = 0x18 then fieldsOf [(0, 16, v.budget), (16, 16, v.inputLimit)]
  else if r = 0x20 then fieldsOf [(0, 16, v.inputW), (16, 16, v.inputDeciA), (32, 16, v.inputMv)]
  else if r = 0x28 then
    fieldsOf [(0, 16, v.envelope / 1000000), (16, 16, if v.jobTime then c.floorPct * v.meanW / 100 else 0), (32, 16, v.meanW)]
  else if r = 0x30 then
    fieldsOf [(0, 16, c.rampUp), (16, 16, c.rampDown), (32, 7, c.floorPct), (40, 12, c.floorHold), (52, 12, c.levelBand / 10)]
  else if r = 0x38 then fieldsOf [(0, 16, c.slot), (16, 16, c.slotWidth), (32, 16, c.slotPeriod)]
  else if r = 0x40 then fieldsOf [(0, 16, v.lent), (16, 16, v.borrowed), (32, 5, v.loans.length), (40, 4, v.asked.length)]
  else if r = 0x48 then v.energy
  else if r = 0x50 then v.ballast
  else if r = 0x58 then v.unattr
  else if 0x80 ≤ r ∧ r < 0x100 then v.est.get 0 ((r - 0x80) / 8)
  else if 0x100 ≤ r ∧ r < 0x180 then v.ballastA.get 0 ((r - 0x100) / 8)
  else if 0x180 ≤ r ∧ r < 0x200 then s.readGrant ((r - 0x180) / 8)
  else if 0x200 ≤ r ∧ r < 0x300 then
    match v.loans.find? ((r - 0x200) / 16) with
    | none => 0
    | some l =>
      if r % 16 = 0 then fieldsOf [(0, 24, l.feid.toNat), (24, 1, 1), (25, 1, b2n l.borrowed), (32, 16, l.amount)]
      else BitVec.ofNat 64 l.expiry
  else s.reg (reeveBase + r)

/-- RAS (R480). -/
def State.readRas (s : State) (r : Nat) : DWord :=
  if r = 0 then fieldsOf [(0, 16, s.boot.sectors.toNat)]
  else if r = 8 then fieldsOf [(0, 9, s.ras.suspects.length)]
  else if r = 0x18 then
    match s.ras.suspects.find? (bits (s.reg (rasBase + 0x10)) 0 8) with
    | none => 0
    | some e =>
      fieldsOf [(0, 2, e.kind.toNat), (2, 7, e.parish), (9, 7, e.column), (16, 7, e.row), (23, 2, e.port.toNat),
        (28, 4, min 15 e.strikes), (32, 2, e.st.toNat)]
  else if r = 0x20 then fieldsOf [(0, 1, b2n s.ras.hold)]
  else if r = 0x28 then fieldsOf [(0, 9, s.ras.repairs.length)]
  else if r = 0x50 then fieldsOf ((List.range 8).map fun k => (8 * k, 8, s.ras.restarts.get 0 k))
  else s.reg (rasBase + r)

/-- The oldest retained LSN (R371). -/
def Ledger.oldest (l : Ledger) : Nat :=
  match l.entries.map (·.2.lsn) with
  | [] => 0
  | x :: t => t.foldl min x

/-- The newest LSN, 0 when empty (R371). -/
def Ledger.head (l : Ledger) : Nat := (l.entries.map (·.2.lsn)).foldl max 0

/-- LEDGER (R371). -/
def State.readLedger (s : State) (r : Nat) : DWord :=
  let l := s.ledger
  if r = 0 then BitVec.ofNat 64 l.head
  else if r = 8 then BitVec.ofNat 64 l.oldest
  else if r = 0x10 then fieldsOf [(0, 17, (l.entries.filter fun e => e.2.st ≠ 2).length)]
  else if r = 0x18 then fieldsOf [(0, 16, freeSlot l.entries 65536 l.alloc)]
  else if r = 0x20 then fieldsOf [(0, 17, l.dirty.length)]
  else if 0x80 ≤ r ∧ r < 0xC0 then
    match l.entries.find? (bits (s.reg (ledgerBase + 0x40)) 0 16) with
    | none => 0
    | some e => BitVec.ofNat 64 (leAt e.bytes (r - 0x80) 8)
  else s.reg (ledgerBase + r)

/-- A host port's registers (R370). -/
def State.readHp (s : State) (h r : Nat) : DWord :=
  let c := s.boot.cfg
  if r = 0 then
    fieldsOf [(0, 1, b2n (s.hp h).up), (1, 1, b2n (s.up && s.ptpSource h)), (2, 1, b2n (s.up && decide (c.syncePort = h))),
      (3, 1, b2n (bit c.mgmtAllowed h)), (8, 17, (s.qps.filter fun e => e.2.port = h).length)]
  else if r = 8 then fieldsOf [(0, 1, b2n (s.hp h).en)]
  else if r = 0x18 then fieldsOf [(0, 48, (s.mac h).toNat)]
  else s.reg (hpBase h + r)

/-- HOSTPORT (R370). -/
def State.readHost (s : State) (r : Nat) : DWord :=
  let t := s.tod
  if r < 0x4000 then s.readHp (r / 0x1000) (r % 0x1000)
  else if r = 0x4000 then
    fieldsOf [(0, 13, s.openSes.length), (16, 13, (s.openSes.filter fun e => e.2.attached).length),
      (32, 5, (s.openSes.filter fun e => e.2.mgmt).length)]
  else if r = 0x4008 then fieldsOf [(0, 16, s.pool), (16, 16, (s.openSes.map fun e => e.2.held).sum)]
  else if r = 0x4010 then fieldsOf [(0, 48, t.sec.toNat)]
  else if r = 0x4018 then fieldsOf [(0, 30, t.nsLatched.toNat)]
  else if r = 0x4020 then fieldsOf [(0, 1, b2n t.valid), (1, 1, b2n t.holdover), (2, 2, t.port), (32, 32, t.offset.toNat)]
  else if r = 0x4028 then t.secTick
  else if r = 0x4030 then fieldsOf [(0, 48, t.secLast.toNat)]
  else s.reg (hostBase + r)

/-- GATEHOUSE (R431). -/
def State.readGate (s : State) (r : Nat) : DWord :=
  let f := s.fuses
  if r < 0x1000 then
    if r = 0 then fieldsOf [(0, 4, maskOf 4 fun i => decide (i < f.guests))]
    else if r = 8 then
      fieldsOf [(0, 7, f.rollFw), (8, 7, f.rollCfg), (16, 4, f.fwRevoked.toNat), (20, 1, b2n f.owner0.programmed),
        (21, 1, b2n f.owner1.programmed), (22, 1, b2n f.owner0.revoked), (23, 1, b2n f.owner1.revoked)]
    else s.reg (gateBase + r)
  else
    let i := r / 0x1000 - 1
    let g := s.guest i
    if i > 3 ∨ i ≥ f.guests then 0
    else if r % 0x1000 = 0 then
      fieldsOf [(0, 3, g.st.code), (4, 4, g.cause.toNat), (8, 4, g.mods.toNat), (12, 1, b2n g.side)]
    else s.reg (gateBase + r)

/-- FABRIC (R316). -/
def State.readFabric (s : State) (r : Nat) : DWord :=
  let c := s.boot.cfg
  let win := bits (s.reg (fabricBase + 0x60)) 8 8
  let entry : BitVec 128 := (s.allot (bits (s.reg (fabricBase + 0x60)) 0 4)).windows.get 0 win
  if r = 0 then fieldsOf [(0, 24, s.feid)]
  else if r = 8 then
    fieldsOf [(0, 16, c.domainId.toNat), (16, 3, c.level), (24, 1, b2n c.root), (32, 6, c.parentPort), (63, 1, b2n c.domain)]
  else if r = 0x10 then c.childMask
  else if r = 0x18 then BitVec.ofNat 64 (maskOf 64 fun p => decide ((s.port p).st = .up ∨ (s.port p).st = .degraded))
  else if r = 0x20 then BitVec.ofNat 64 (maskOf 64 fun p => decide ((s.port p).st = .degraded))
  else if r = 0x50 then
    fieldsOf [(0, 26, (s.reds.map fun e => e.2.need).sum), (32, 26, 2048 * (s.reds.map fun e => e.2.stagedCount).sum)]
  else if r = 0x68 then BitVec.ofNat 64 (bits entry 0 64)
  else if r = 0x70 then BitVec.ofNat 64 (bits entry 64 64)
  else if 0x80 ≤ r ∧ r < 0xC0 then
    BitVec.ofNat 64 (bits (s.red (bits (s.reg (fabricBase + 0x78)) 0 12)).words (8 * (r - 0x80)) 64)
  else if r = 0xC8 then
    match s.rxs.find? (bits (s.reg (fabricBase + 0xC0)) 0 13) with
    | none => 0
    | some x => fieldsOf [(0, 20, x.tid), (20, 5, x.tag), (25, 1, 1), (26, 1, b2n x.saturated), (32, 32, x.count)]
  else s.reg (fabricBase + r)

/-- A port's block (R317). -/
def State.readPort (s : State) (p r : Nat) : DWord :=
  let x := s.port p
  if r = 0 then
    fieldsOf [(0, 3, x.st.code), (3, 1, b2n x.g0.ok), (4, 1, b2n x.g1.ok), (5, 1, b2n x.spare), (6, 5, x.spareLane.toNat),
      (11, 4, x.cause.toNat)]
  else if r = 8 then fieldsOf [(0, 1, b2n x.en)]
  else if r = 0x10 then
    match x.peer with
    | none => 0
    | some y => fieldsOf [(0, 24, y.1.toNat), (24, 6, y.2.toNat), (63, 1, 1)]
  else if r = 0x18 then fieldsOf [(0, 32, x.delayPs.toNat), (32, 16, x.delayPs.toNat / 5000)]
  else if 0x180 ≤ r ∧ r < 0x200 then
    if x.st = .disabled then 0 else (Config.rxPower (64 * p + (r - 0x180) / 8) s.tick).setWidth 64
  else s.reg (portBase p + r)

/-- STATUS of a posted block but for ONLINE and HOT (R203, R492). -/
def State.blockStatus (s : State) (b : Nat) : Nat :=
  b2n (s.posted.find? b).isSome + bits (s.reg (statusOff b)) 1 2 * 2

/-- A memory controller's block (R203). -/
def State.readMc (s : State) (m r : Nat) : DWord :=
  let x := s.mc m
  if r = 0 then
    fieldsOf [(0, 6, m), (8, 1, 1), (9, 1, b2n (s.slotOf m).isSome), (10, 6, (s.slotOf m).getD 0)]
  else if r = 8 then fieldsOf [(0, 2, s.blockStatus (mcBase m)), (2, 1, b2n x.online), (3, 1, b2n x.hot)]
  else if r = 0x10 then fieldsOf [(0, 1, b2n s.boot.cfg.memBounded)]
  else if r = 0x18 then
    fieldsOf ((List.range 16).map fun a => (4 * a, 4, if (s.allot a).st = .free then 0 else (s.allot a).weight))
  else if r = 0x48 then BitVec.ofNat 64 x.scrubPos
  else s.reg (mcBase m + r)

/-- The position a select register names: column, row. -/
def posOfSel (par : Nat) (v : DWord) : Option Pos :=
  if h : par < 78 ∧ bits v 0 7 < 80 ∧ bits v 7 7 < 96 then
    some { parish := ⟨par, h.1⟩, col := ⟨bits v 0 7, h.2.1⟩, row := ⟨bits v 7 7, h.2.2⟩ }
  else none

/-- The carter window of a parish block (R224). -/
def State.readCarter (s : State) (par r : Nat) : DWord :=
  let v := s.reg (parishBase par + 0x2000)
  match posOfSel par v with
  | none => 0
  | some p =>
    if s.fallow par p.col then 0
    else
      let x := (s.core p).chan (if bit v 14 then .store else .load)
      match x.latch with
      | none => if r = 0x2008 then fieldsOf [(5, 3, x.running.length + x.waiting.length)] else 0
      | some l =>
        let d := (x.running.find? fun e => e.serial = l.serial).map (·.d)
        let i := (d.map fun d => d.index l.piece.burst).getD (0, 0, 0)
        if r = 0x2008 then
          fieldsOf [(0, 1, b2n x.halted), (1, 3, l.status.toNat), (4, 1, b2n (bit v 14)), (5, 3, x.running.length + x.waiting.length),
            (8, 8, min 255 x.failed.length)]
        else if r = 0x2010 then fieldsOf [(0, 48, l.dpa), (48, 6, l.piece.len - 1)]
        else fieldsOf [(0, 16, i.1), (16, 16, i.2.1), (32, 16, i.2.2), (48, 6, l.piece.off)]

/-- WATCH_STATE of a parish (R272, R278): whether it is quiet and for how many ticks; the lowest parish of an allotment
coordinates. -/
def State.watchState (s : State) (par : Nat) : DWord :=
  let q := (s.parish par).quiet
  let lead := (s.allotOf par).bind fun a => ((s.allot a).parishList.head?).map (·.val)
  fieldsOf [(0, 1, b2n (decide (q > 0))), (1, 1, b2n (decide (lead = some par))), (16, 16, min 65535 q)]

/-- The power registers of a parish block (R404). -/
def State.readPwr (s : State) (par r : Nat) : DWord :=
  let x := s.parish par
  if r = 0x4000 then
    if !s.started then 0 else s.reg (parishBase par + r) ||| fieldsOf
      [(32, 1, b2n (!s.regFailed par false)), (33, 1, b2n (!s.regFailed par true)), (34, 1, b2n x.dark)]
  else if r = 0x4010 then
    fieldsOf [(0, 9, x.grant), (16, 9, if s.started then x.throttle else 0), (32, 1, b2n (decide (x.throttle < 256))),
      (33, 1, b2n x.droop), (34, 1, b2n (decide (x.ballast > 0)))]
  else if r = 0x4018 then
    fieldsOf [(0, 8, (BitVec.ofInt 8 x.trim).toNat), (8, 8, (BitVec.ofInt 8 x.opOfs).toNat), (16, 8, x.suspectOfs), (24, 16, x.setPoint),
      (40, 16, x.vMin)]
  else if r = 0x4038 then fieldsOf [(0, 1, b2n x.railOn)]
  else s.reg (parishBase par + r)

/-- A parish's block (R141, R224, R278, R404, R492). -/
def State.readParishBlock (s : State) (par r : Nat) : DWord :=
  let x := s.parish par
  let b := parishBase par
  if r = 0 then
    let a := s.allotOf par
    fieldsOf [(0, 7, par), (7, 4, parishRow par), (16, 4, a.getD 0), (20, 1, b2n a.isSome), (21, 1, b2n (x.dark || !x.railOn)),
      (22, 1, b2n x.isolated)]
  else if r = 8 then fieldsOf [(0, 3, s.blockStatus b)]
  else if r = 0x1538 ∨ r = 0x2020 then 0
  else if 0x1600 ≤ r ∧ r < 0x1700 then
    match posOfSel par (s.reg (b + 0x1530)) with
    | none => 0
    | some p => if s.fallow par p.col then 0 else (s.xroad p).stat.get 0 ((r - 0x1600) / 8)
  else if r = 0x2008 ∨ r = 0x2010 ∨ r = 0x2018 then s.readCarter par r
  else if 0x3000 ≤ r ∧ r < 0x3800 then (x.tallies.get 0 ((r - 0x3000) / 8)).setWidth 64
  else if r = 0x3808 then s.watchState par
  else if r = 0x3810 then fieldsOf [(0, 1, b2n x.planeA), (1, 1, b2n x.planeB), (2, 1, b2n x.isolated)]
  else if 0x4000 ≤ r ∧ r < 0x5000 then s.readPwr par r
  else s.reg (b + r)

/-- CONFIG/FUSE (R455). -/
def State.readConfig (s : State) (r : Nat) : DWord :=
  let b := s.boot
  if r = 0 then
    if !s.started then 0 else
    fieldsOf [(0, 4, b.st.code), (4, 4, b.step), (8, 1, b2n b.imageB), (9, 1, b2n b.fallback), (10, 1, b2n b.straps.img),
      (11, 1, b2n b.straps.mgmt), (12, 3, b.straps.addr.toNat), (15, 1, b2n b.straps.test)]
  else if r = 8 then fieldsOf [(0, 12, b.cause.toNat)]
  else if r = 0x38 then fieldsOf [(0, 12, s.fuses.infield.length), (16, 12, 2048)]
  else if r = 0x70 then s.reg (configBase + r) ||| fieldsOf [(0, 1, b2n s.fuses.busy.isSome)]
  else if r = 0x88 then
    if !s.started then 0 else
    fieldsOf [(0, 48, s.store.seq), (62, 1, b2n s.store.lastOk), (63, 1, b2n (decide (s.store.seq > 0)))]
  else if r = 0x90 then fieldsOf [(0, 32, b.startMs)]
  else if r = 0x98 then fieldsOf [(0, 24, s.store.wear.coldStarts + s.ras.colds), (24, 24, s.store.wear.warmRestarts + s.ras.warms)]
  else s.reg (configBase + r)

/-- ROUTE: BUSY stands beside what ROUTE_STATUS keeps (R318). -/
def State.readRoute (s : State) (r : Nat) : DWord :=
  if r = 0x20 then s.reg (routeBase + r) ||| fieldsOf [(0, 1, b2n s.routeIsBusy)] else s.reg (routeBase + r)

/-- The blocks of the module with registers computed from its state, each with what a read shows (R490). -/
def moduleBlocks : List (Nat × (State → Nat → DWord)) :=
  [(0, State.readDevid), (clkBase, State.readClk), (bellBase, State.readBell), (reeveBase, State.readReeve),
   (rasBase, State.readRas), (ledgerBase, State.readLedger), (hostBase, State.readHost), (gateBase, State.readGate),
   (fabricBase, State.readFabric), (configBase, State.readConfig), (routeBase, State.readRoute)]

/-- The value an aligned 8-byte read of a register shows (R485, R490, R493): zero for reserved and absent ones; STATE of an
unpopulated port reads UNPOPULATED. -/
def State.regRead (s : State) (o : Nat) : DWord :=
  match blockOf o with
  | none => 0
  | some b =>
    let r := o - b
    let wide := (parishOfOff o).isSome || (stackOfOff o).isSome || (portOfOff o).isSome
    if s.absent o then
      match portOfOff o with
      | some p => if r = 0 ∧ !portPopulated s.fuses.orderF p then 6 else 0
      | none => 0
    else if r = 0xFF8 then 0
    else if r = 0xFF0 then s.keyStatus b
    else if wide then
      match parishOfOff o, stackOfOff o, portOfOff o with
      | some p, _, _ => s.readParishBlock p r
      | _, some m, _ => if r < 0x1000 then s.readMc m r else 0
      | _, _, some p => s.readPort p r
      | _, _, _ => 0
    else
      match moduleBlocks.find? fun e => e.1 = b with
      | some e => e.2 s r
      | none => s.reg o

/-- A read that latches its partner (R370, R493). -/
def State.readLatch (s : State) (o : Nat) : State := if o = hostBase + 0x4010 then s.latchTod else s

end Sys2Proof.Machine
end

