-- ==== Sys2Proof/Machine/RegWrite.lean ====
section
/-! DEFINITION. Writes of register space (R485 to R495): posted writes and what they do when they take effect, and a write to
any register by its access code. -/

namespace Sys2Proof.Machine

/-- The state a meaning leaves. -/
def State.after (s : State) : Host.Outcome State Fault Refusal → State
  | .next t => t
  | _ => s

/-! ### Posted writes (R494) -/

/-- The register file of a parish whose rail goes on or off again: what its cores held is lost. -/
def State.loseField (s : State) (par : Fin 78) : State :=
  let l := parishPositions par
  let s := { s with xroads := s.xroads.filter fun e => !l.any fun p => decide (p.id = e.1)
                    reqs := s.reqs.filter fun e => e.2.core.parish ≠ par }
  (l.foldl (fun (s : State) p => s.setCore p { sramInit := s.fresh + 1 }) s).drawn

/-- A RAIL_CTL write that takes effect (R404): clearing EN is refused in an allotment; setting it does nothing on a rail that
protection has removed. -/
def State.railCtlWrite (s : State) (par : Fin 78) (v : DWord) : State :=
  let x := s.parish par
  if bit v 0 then
    if x.tripped ∨ x.railOn then s
    else (s.setParish par { x with railOn := true, dark := false, bell := s.bell.count, tallies := [], waiters := [] }).loseField par
  else if (s.allotOf par).isSome then s.orReg (parishBase par + 0x4040) 1
  else if x.railOn then (s.setParish par { x with railOn := false, dark := true, droop := false, ballast := 0 }).degrade 0
  else s

/-- A write of a select register of a parish block; a column beyond 79 is outside its range, and a row beyond the last it may
name (R142, R224, R493). -/
def State.selectWrite (s : State) (o bitsUsed rows : Nat) (v : DWord) : State :=
  if bits v 0 7 < 80 ∧ bits v 7 7 < rows then s.setReg o (BitVec.ofNat 64 (bits v 0 bitsUsed)) else s

/-- A posted write to a parish block takes effect. -/
def State.applyParish (s : State) (par : Fin 78) (r : Nat) (v : DWord) : State :=
  let o := parishBase par + r
  if 0x1000 ≤ r ∧ r < 0x1500 then
    if h : (r - 0x1000) / 16 < 80 then s.deadmapWrite par ⟨(r - 0x1000) / 16, h⟩ (decide (r % 16 = 8)) v else s
  else if r = 0x1500 ∨ r = 0x1508 then s.fallowWrite par (decide (r = 0x1508)) v
  else if r = 0x1510 then s.w1c o 3 v
  else if r = 0x1530 then s.selectWrite o 14 128 v
  else if r = 0x1538 then if bit v 0 then s.clearStats par else s
  else if r = 0x2000 then s.selectWrite o 15 96 v
  else if r = 0x2020 then s.carterCtl par v
  else if r = 0x2028 then s.w1c o 1 v
  else if 0x3000 ≤ r ∧ r < 0x3800 then s.parishTallyWrite par ((r - 0x3000) / 8) v
  else if r = 0x3800 then s.w1c o 1 v
  else if r = 0x4038 then s.railCtlWrite par v
  else if r = 0x4040 then s.w1c o 1 v
  else s

/-- The counters of a memory controller (R203). -/
def mcCounters : List Nat := [0x20, 0x28, 0x50, 0x58, 0x60, 0x68, 0x70, 0x78, 0x80]

/-- A posted write to a memory controller's block takes effect (R203). -/
def State.applyMc (s : State) (m r : Nat) (v : DWord) : State :=
  let o := mcBase m + r
  if r = 0x38 then if 1 ≤ v.toNat ∧ v.toNat ≤ 255 then s.setReg o v else s
  else if r = 0x40 then if bits v 8 8 = 0 then s else s.setReg o (fieldsOf [(0, 1, bits v 0 1), (8, 8, bits v 8 8)])
  else if r = 0xF0 then
    if bit v 0 then mcCounters.foldl (fun (s : State) c => s.setReg (mcBase m + c) 0) s else s
  else s

/-- A posted write takes effect; one pending in the field part of a block that has gone dark is discarded (R494, R505). -/
def State.applyPosted (s : State) (o : Nat) (v : DWord) : State :=
  if s.absent o then s
  else
    match parishOfOff o, stackOfOff o with
    | some p, _ => if h : p < 78 then s.applyParish ⟨p, h⟩ (o % 0x10000) v else s
    | _, some m => s.applyMc m (o - mcBase m) v
    | _, _ => s

/-- The posted write of a block is done: it takes effect and BUSY clears. -/
def State.postedDone (s : State) (b : Nat) : State :=
  match s.posted.find? b with
  | none => s
  | some w => { s with posted := s.posted.del b }.applyPosted w.offset w.value

/-- A write to a register of a posted block. -/
def State.post (s : State) (path : RegPath) (o : Nat) (v : DWord) (rwk : Bool) : State :=
  s.postWrite path o v rwk fun s => s.postedDone ((blockOf o).getD 0)

/-- POSTED_WRITE_DONE: a posted write takes effect and STATUS.BUSY clears (R494). -/
def execPostedWriteDone (block : BitVec 24) (s : State) : Host.Outcome State Fault Refusal := .next (s.postedDone block.toNat)

/-- DEADMAP: a key-guarded write (R136, R141). -/
def execDeadmap (path : RegPath) (par : Fin 78) (col : Fin 80) (hi : Bool) (value : DWord) (s : State) :
    Host.Outcome State Fault Refusal :=
  .next (s.post path (parishBase par + 0x1000 + 0x10 * col + (if hi then 8 else 0)) value true)

/-- FALLOW: a key-guarded write (R136, R141). -/
def execFallow (path : RegPath) (par : Fin 78) (hi : Bool) (value : DWord) (s : State) : Host.Outcome State Fault Refusal :=
  .next (s.post path (parishBase par + (if hi then 0x1508 else 0x1500)) value true)

/-- CTRCLR of a parish or memory-controller block (R141, R203, R503). -/
def execCtrclr (path : RegPath) (offset : BitVec 24) (value : DWord) (s : State) : Host.Outcome State Fault Refusal :=
  let o := offset.toNat
  let isClr := match parishOfOff o, stackOfOff o with
    | some p, _ => decide (o = parishBase p + 0x1538)
    | _, some m => decide (o = mcBase m + 0xF0)
    | _, _ => false
  .next (if isClr then s.post path o value false else s)

/-- PARISH_TALLY: a write of a parish tally register (R266, R278). -/
def execParishTally (path : RegPath) (par : Fin 78) (idx : Byte) (value : DWord) (s : State) : Host.Outcome State Fault Refusal :=
  .next (s.post path (parishBase par + 0x3000 + 8 * idx.toNat) value false)

/-- CARTER_CTL of a parish block. -/
def carterCtlOff (par : Nat) : Nat := parishBase par + 0x2020

/-- RESUME: CARTER_CTL with action 1 (R221, R224). -/
def execResume (path : RegPath) (par : Fin 78) (s : State) : Host.Outcome State Fault Refusal :=
  .next (s.post path (carterCtlOff par) 1 false)

/-- SKIP: CARTER_CTL with action 2 and FILL (R221, R224). -/
def execSkip (path : RegPath) (par : Fin 78) (fill : BitVec 2) (s : State) : Host.Outcome State Fault Refusal :=
  .next (s.post path (carterCtlOff par) (BitVec.ofNat 64 (2 + 4 * fill.toNat)) false)

/-- ABORT: CARTER_CTL with action 3 and ALL (R221, R224). -/
def execAbort (path : RegPath) (par : Fin 78) (all : Bool) (s : State) : Host.Outcome State Fault Refusal :=
  .next (s.post path (carterCtlOff par) (BitVec.ofNat 64 (3 + 16 * b2n all)) false)

/-- RAIL_CTL: a key-guarded write of a parish's rail enable (R404). -/
def execRailCtl (path : RegPath) (par : Fin 78) (value : DWord) (s : State) : Host.Outcome State Fault Refusal :=
  .next (s.post path (parishBase par + 0x4038) value true)

/-! ### Immediate registers -/

/-- A field of an immediate register takes the value where it lies in its range (R493). -/
def State.ranged (s : State) (o width lo hi : Nat) (v : DWord) : State :=
  let x := bits v 0 width
  if lo ≤ x ∧ x ≤ hi then s.setReg o (BitVec.ofNat 64 x) else s

/-- The low bits of an immediate register as written. -/
def State.low (s : State) (o width : Nat) (v : DWord) : State := s.setReg o (BitVec.ofNat 64 (bits v 0 width))

/-- GS_RATE: each field in its range, or the write is ignored (R431). -/
def State.gsRateWrite (s : State) (o : Nat) (v : DWord) : State :=
  let a := bits v 0 16
  let b := bits v 16 16
  let c := bits v 32 16
  if 1 ≤ a ∧ a ≤ 1024 ∧ 4 ≤ b ∧ b ≤ 1024 ∧ 1 ≤ c ∧ c ≤ 16000 then s.setReg o (BitVec.ofNat 64 (bits v 0 48)) else s

/-- A write to a site's block of GATEHOUSE (R431). -/
def State.writeGate (s : State) (path : RegPath) (i : Fin 4) (r : Nat) (v : DWord) : State :=
  let o := gsBase i + r
  if i.val ≥ s.fuses.guests then (if s.reaches path o then s.consumeArm path gateBase else s)
  else if r = 8 then
    if bit v 0 then s.after (execGsCtlFence path i s)
    else if bit v 1 then s.after (execGsCtlReattest path i s)
    else s.writeNow path o true fun s => s
  else if r = 0x10 then s.writeNow path o true fun s => s.low o 5 v
  else if r = 0x18 then s.writeNow path o true fun s => s.gsRateWrite o v
  else if r = 0x20 then s.writeNow path o true fun s => s.ranged o 9 1 256 v
  else if r = 0x28 then s.writeNow path o false fun s => s.ranged o 14 1 10000 v
  else if r = 0x30 then s.writeNow path o false fun s => s.low o 5 v
  else if 0x38 ≤ r ∧ r < 0x58 then s.writeNow path o false fun s => s.setReg o v
  else if r = 0x58 then
    if bit v 1 then s.after (execRuleCmdWrite path i s)
    else if bit v 0 then s.after (execRuleCmdRead path i s)
    else s.writeNow path o true fun s => s.setReg o 0
  else if r = 0x60 then s.writeNow path o false fun s => s.w1c o 1 v
  else s.writeNow path o false fun s => s

/-- A write to FUSE_CMD (R455): an OP that is none of the four is ignored. -/
def State.writeFuseCmd (s : State) (path : RegPath) (v : DWord) : State :=
  let k := BitVec.ofNat 4 (bits v 4 4)
  match bits v 0 4 with
  | 1 => s.after (execAppendSite path s)
  | 2 => s.after (execRevokeFwKey path k s)
  | 3 => s.after (execProgramOwner path k s)
  | 4 => s.after (execRevokeOwner path k s)
  | _ => s.writeNow path (configBase + 0x68) true fun s => s

/-- A write to CONFIG/FUSE (R455). A shutdown by this path finds no trim to move and appends its record. -/
def State.writeConfig (s : State) (path : RegPath) (r : Nat) (v : DWord) : State :=
  let o := configBase + r
  if r = 0x10 then s.writeNow path o true fun s => s.bootSelectWrite v
  else if r = 0x40 then s.writeNow path o false fun s => s.low o 32 v
  else if r = 0x48 ∨ r = 0x50 ∨ r = 0x58 ∨ r = 0x60 then s.writeNow path o false fun s => s.setReg o v
  else if r = 0x68 then s.writeFuseCmd path v
  else if r = 0x70 then s.writeNow path o false fun s => s.w1c o 14 v
  else if r = 0x78 then
    if bit v 0 then s.after (execWarmReq path s) else s.writeNow path o true fun s => s.setReg o 0
  else if r = 0x80 then
    if bit v 0 then s.drawn.after (execShutdown path s.sentinels (bit s.draw 0, bit s.draw 1) s.drawn)
    else s.writeNow path o true fun s => s.setReg o 0
  else s.writeNow path o false fun s => s

/-- A write to HOSTPORT (R370). -/
def State.writeHost (s : State) (path : RegPath) (r : Nat) (v : DWord) : State :=
  let o := hostBase + r
  if h : r / 0x1000 < 4 then
    if r % 0x1000 = 8 then s.after (execHpCtl path ⟨r / 0x1000, h⟩ v s)
    else if r % 0x1000 = 0x10 then s.writeNow path o false fun s => s.low o 8 v
    else s.writeNow path o false fun s => s
  else s.writeNow path o false fun s => s

/-- A write to FABRIC (R316). -/
def State.writeFabric (s : State) (path : RegPath) (r : Nat) (v : DWord) : State :=
  let o := fabricBase + r
  s.writeNow path o false fun s =>
    if r = 0x28 ∨ r = 0x30 then s.ranged o 14 10 10000 v
    else if r = 0x60 then s.setReg o (fieldsOf [(0, 4, bits v 0 4), (8, 8, bits v 8 8)])
    else if r = 0x78 then s.low o 12 v
    else if r = 0xC0 then s.low o 13 v
    else s

/-- A write to ROUTE (R318). -/
def State.writeRoute (s : State) (path : RegPath) (r : Nat) (v : DWord) : State :=
  let o := routeBase + r
  if r = 0x18 then
    if bit v 1 then s.after (execRouteCmdWrite path s)
    else if bit v 0 then s.after (execRouteCmdRead path s)
    else s.writeNow path o true fun s => s.setReg o 0
  else
    s.writeNow path o false fun s =>
      if r = 0 then s.low o 18 v
      else if r = 8 ∨ r = 0x10 then s.setReg o v
      else if r = 0x20 then s.w1c o 6 v
      else s

/-- A write to a port's block (R317). -/
def State.writePort (s : State) (path : RegPath) (p : Fin 64) (r : Nat) (v : DWord) : State :=
  let o := portBase p + r
  if r = 8 then s.after (execPortCtl path p v s)
  else s.writeNow path o false fun s => if r = 0x60 then s.low o 16 v else s

/-- A write to CLK, BELL, REEVE, RAS or LEDGER (R243, R277, R403, R480, R371). -/
def State.writeHub (s : State) (path : RegPath) (o : Nat) (v : DWord) : State :=
  if o = clkBase + 8 then s.after (execClkSelect path v s)
  else if o = clkBase + 0x20 then s.writeNow path o false fun s => s.w1c o 0x1FF v
  else if o = clkBase + 0x30 then s.after (execFmeterStart path v s)
  else if o = clkBase + 0x50 then s.writeNow path o true fun s => s.ranged o 7 1 100 v
  else if o = bellBase + 0x48 then s.writeNow path o false fun s => s.ranged o 10 1 1000 v
  else if o = bellBase + 0x50 then s.writeNow path o false fun s => s.w1c o 1 v
  else if bellBase + 0x8000 ≤ o ∧ o < bellBase + 0x10000 then
    s.after (execHubTally path (BitVec.ofNat 12 ((o - bellBase - 0x8000) / 8)) v s)
  else if o = reeveBase + 8 then s.after (execCap path v s)
  else if o = reeveBase + 0x10 then s.after (execCapMax path v s)
  else if o = rasBase + 0x10 then s.writeNow path o false fun s => s.low o 8 v
  else if o = rasBase + 0x20 then s.writeNow path o true fun s => s.suspectCtl v
  else if o = ledgerBase + 0x40 then s.writeNow path o false fun s => s.low o 16 v
  else s.writeNow path o false fun s => s

/-- A write to STATUS or KEY_STATUS of a block: never posted (R489, R494). A core reaches STATUS of its own block only
(R487). -/
def State.writeFlags (s : State) (path : RegPath) (o : Nat) (v : DWord) : State :=
  let b := (blockOf o).getD 0
  if State.coreIgnored path o then if s.reaches path o then s.orReg (statusOff b) 4 else s
  else
    s.writeNow path o false fun s =>
      if o - b = 0xFF0 then
        let g := s.guard b
        if bit v 2 then s.setGuard b { g with notArmed := false } else s
      else s.w1c o 6 v

/-- Whether a register of a posted block is key-guarded (R141, R404). -/
def postedKeyed (o : Nat) : Bool :=
  match parishOfOff o with
  | some _ =>
    let r := o % 0x10000
    decide (0x1000 ≤ r ∧ r < 0x1510) || decide (r = 0x4038)
  | none => false

/-- An aligned 8-byte write to a register, whatever the register (R485 to R495). -/
def State.regWrite (s : State) (path : RegPath) (o : Nat) (v : DWord) : State :=
  match blockOf o with
  | none => s
  | some b =>
    let r := o - b
    if o % 8 ≠ 0 then s
    else if r = 0xFF8 then s.after (execUnlock path (BitVec.ofNat 24 b) v s)
    else if r = 0xFF0 ∨ (postedBlock o ∧ r = 8) then s.writeFlags path o v
    else if postedBlock o then s.post path o v (postedKeyed o)
    else
      match portOfOff o with
      | some p => if h : p < 64 then s.writePort path ⟨p, h⟩ r v else s
      | none =>
        if b = hostBase then s.writeHost path r v
        else if b = gateBase then
          if h : 1 ≤ r / 0x1000 ∧ r / 0x1000 - 1 < 4 then s.writeGate path ⟨r / 0x1000 - 1, h.2⟩ (r % 0x1000) v
          else s.writeNow path o false fun s => s
        else if b = fabricBase then s.writeFabric path r v
        else if b = routeBase then s.writeRoute path r v
        else if b = configBase then s.writeConfig path r v
        else s.writeHub path o v

/-- REGISTER_WRITE: a write to a register by its access code, posting and key guard (R493). -/
def execRegisterWrite (path : RegPath) (offset : BitVec 24) (value : DWord) (s : State) : Host.Outcome State Fault Refusal :=
  .next (s.regWrite path offset.toNat value)

end Sys2Proof.Machine
end

