-- ==== Sys2Proof/Machine/HostMem.lean ====
section
/-! DEFINITION. What passes between the device and host memory (R324, R325, R329, R330, R360 to R362, R462): host RDMA accesses
to the exposed regions, the consumer counts of rings, and the commands that fill a host buffer. -/

namespace Sys2Proof.Machine

/-! ### Regions (R324) -/

/-- An exposed region. -/
inductive Region' where
  | devmem (a : Nat)
  | devall
  | regs
  deriving DecidableEq, Repr

/-- The region an rkey names for a session. -/
def State.regionOf (s : State) (id : Nat) (x : Session) (rkey : Word) : Option Region' :=
  match s.allots.search fun _ y => decide (y.st ≠ .free ∧ y.owner = id ∧ y.rkey = rkey) with
  | some (a, _) => some (.devmem a)
  | none =>
    if x.mgmt ∧ rkey = x.devall then some .devall else if x.mgmt ∧ rkey = x.regsKey then some .regs else none

/-- A remote access error NAK: counted, and the QP enters the error state (R324). -/
def State.nak (s : State) (qp port : Nat) : State :=
  ((((s.bump (hpBase port + 0x60)).txFrame port).send (.rdmaNak qp)).qpDown qp)

/-- A host write to device memory (R191, R325). -/
def State.hostWrite (s : State) (al : Option Nat) (d : Nat) (l : List Byte) : State :=
  s.writeRange 5 al d l fun _ => false

/-- The eight-byte pattern that replaces a poisoned word in a read response (R462). -/
def nanPair : List Byte := leBytes 8 0x7FC000007FC00000

/-- Bytes of an interleaved range as a host receives them (R462). -/
def State.cleanBytes (s : State) (d n : Nat) : List Byte :=
  (List.range n).map fun i =>
    if s.wordPoison (s.memKey (d + i) / 8) then (nanPair[(d + i) % 8]?).getD 0 else s.memByte (s.memKey (d + i))

/-- The poisoned words of an interleaved range, by the interleaved address at which each begins. -/
def State.poisonedIn (s : State) (d n : Nat) : List Nat :=
  if n = 0 then []
  else ((List.range ((d + n - 1) / 8 - d / 8 + 1)).map fun i => 8 * (d / 8 + i)).filter fun a => s.wordPoison (s.memKey a / 8)

/-- The reads of a host access, as far as rows and errors go. -/
def State.hostTouch (s : State) (al : Option Nat) (d n : Nat) : State :=
  s.readRange 5 0xFFFFFFFF al d n

/-- POISON_CONSUMED of a host read (R462, R464, R479): through DEVMEM it ends the job of a RUNNING allotment; through DEVALL
it goes to the reading session and ends none. -/
def State.hostPoison (s : State) (id : Nat) (a : Option Nat) (l : List Nat) : State :=
  match l with
  | [] => s
  | d :: _ =>
    match a with
    | some a =>
      let x := s.allot a
      let rec' := poisonRecord 0xFFFFFFFF 3 0 0 (x.secseqOf x.curRun) (runNum x.curRun) (min l.length 0xFFFFFFFF) d
      if x.st = .running then s.observe a true rec' else (s.bump (0x60100 + 8 * a)).raiseA evPoisonConsumed a rec'
    | none =>
      s.raise evPoisonConsumed none (poisonRecord 0xFFFFFFFF 3 0 0 0xFFFFFFFF 0 (min l.length 0xFFFFFFFF) d) [.session id]

/-- Whether an interleaved range touches the stripe reserved for the device (R446). -/
def State.inReserved (s : State) (d n : Nat) : Bool := decide (d + n > s.reservedBase) && decide (n > 0)

/-- The session bound to a QP, with the port. -/
def State.qpSession (s : State) (qp : Nat) : Option (Nat × Nat × Session) :=
  match s.qps.find? qp with
  | none => none
  | some q => q.ses.bind fun id => (s.ses.find? id).map fun x => (q.port, id, x)

/-- RDMA_WRITE: a host write to an exposed region is checked and performed (R324, R446, R485). -/
def execRdmaWrite (qp : Framed Nat) (rkey : Word) (va : Nat) (data : List Byte) (s : State) :
    Host.Outcome State Fault Refusal :=
  let n := data.length
  let f := qp.f
  let qp := qp.val
  .next (s.qpFrame qp f (mtuFrames n) fun q s =>
        match s.qpSession qp with
        | none => s.nak qp q.port
        | some (_, id, x) =>
          match s.regionOf id x rkey with
          | none => s.nak qp q.port
          | some (.devmem a) =>
            let y := s.allot a
            let d := y.stripeFirst * s.stripe + va
            if va + n > y.stripeCount * s.stripe ∨ !s.rangeUp d n then s.nak qp q.port else s.hostWrite (some a) d data
          | some .devall =>
            if va + n > 2 ^ 36 * s.nSet ∨ s.inReserved va n ∨ !s.rangeUp va n then s.nak qp q.port
            else s.hostWrite (s.quotaHolder va) va data
          | some .regs =>
            if n ≠ 8 ∨ va % 8 ≠ 0 ∨ va ≥ 2 ^ 24 then s.nak qp q.port
            else s.regWrite (.session (BitVec.ofNat 12 id)) va (BitVec.ofNat 64 (leNat data)))

/-- RDMA_READ: a host read of an exposed region is served, poisoned words replaced by NaNs (R324, R462, R485). -/
def execRdmaRead (qp : Framed Nat) (rkey : Word) (va : Nat) (len : Nat) (s : State) :
    Host.Outcome State Fault Refusal :=
  let f := qp.f
  let qp := qp.val
  .next (s.qpFrame qp f 1 fun q s =>
        let serve (s : State) (id : Nat) (al a : Option Nat) (d : Nat) : State :=
          let s := s.hostTouch al d len
          let bad := s.poisonedIn d len
          ((s.txFrame q.port (mtuFrames len)).send (.rdmaRead qp (s.cleanBytes d len))).hostPoison id a bad
        match s.qpSession qp with
        | none => s.nak qp q.port
        | some (_, id, x) =>
          match s.regionOf id x rkey with
          | none => s.nak qp q.port
          | some (.devmem a) =>
            let y := s.allot a
            let d := y.stripeFirst * s.stripe + va
            if va + len > y.stripeCount * s.stripe ∨ !s.rangeUp d len then s.nak qp q.port
            else serve s id (some a) (some a) d
          | some .devall =>
            if va + len > 2 ^ 36 * s.nSet ∨ !s.rangeUp va len then s.nak qp q.port
            else serve s id (s.quotaHolder va) none va
          | some .regs =>
            if len ≠ 8 ∨ va % 8 ≠ 0 ∨ va ≥ 2 ^ 24 then s.nak qp q.port
            else ((s.readLatch va).txFrame q.port).send (.rdmaRead qp (leBytes 8 (s.regRead va).toNat)))

/-! ### Consumer counts (R329, R330) -/

/-- A ring of a session: 0 to 16 its event rings, 17 its completion ring. -/
def Session.ring (x : Session) (j : Nat) : Ring := if j = 17 then x.cring else x.ering j

def Session.setRing (x : Session) (j : Nat) (r : Ring) : Session :=
  if j = 17 then { x with cring := r } else { x with erings := x.erings.put j r }

/-- The reads of CONSUMER a session's QP has outstanding. -/
def Session.reads (x : Session) : Nat := ((List.range 18).filter fun j => (x.ring j).polling).length

/-- Whether a ring's CONSUMER may be read now: it lacks a free slot, its last read lies 10 microseconds back, and fewer than 16
reads are outstanding on the QP (R323, R329). -/
def State.mayPoll (s : State) (x : Session) (r : Ring) : Bool :=
  x.attached && !r.room && decide (x.reads < 16) &&
    (match r.polledAt with
     | some t => decide (s.ticksNs (s.tick - t) ≥ 10000)
     | none => true)

/-- RING_CONSUMER_POLL: with a ring that lacks a free slot the device reads CONSUMER, at bytes 8 to 15 of the ring header (R328,
R329). -/
def execRingConsumerPoll (ses : BitVec 12) (ring : Fin 18) (s : State) : Host.Outcome State Fault Refusal :=
  let id := ses.toNat
  .next (match s.ses.find? id with
    | none => s
    | some x =>
      let r := x.ring ring
      if s.mayPoll x r then
        ((s.setSes id (x.setRing ring { r with polling := true, polledAt := some s.tick })).txOn x.qp 1).send
          (.ringRead id ring r.rkey (r.addr + 8))
      else s)

/-- RDMA_READ_RESPONSE: a ring's CONSUMER arrives: ignored and counted where it decreases or exceeds PRODUCER, else slots may
be free and what waits is written (R329, R330, R345). -/
def execRdmaReadResponse (ses : Framed (BitVec 12)) (ring : Fin 18) (consumer : DWord) (s : State) :
    Host.Outcome State Fault Refusal :=
  let id := ses.val.toNat
  .next (match s.ses.find? id with
    | none => s
    | some x =>
      let r := x.ring ring
      if !r.polling then s
      else s.qpFrame x.qp ses.f 1 fun _ s =>
      if consumer.toNat < r.cons ∨ consumer.toNat > r.prod then
        (s.setSes id (x.setRing ring { r with polling := false })).bump (hostBase + 0x4040)
      else
        let s := s.setSes id (x.setRing ring { r with cons := consumer.toNat, polling := false })
        if ring = 17 then (s.flushHeld id 65536).endIfDone id else s.ringRoom id ring)

/-! ### STATUS, STATS, LEDGER_READ (R360 to R362) -/

/-- A command's bytes for its host buffer are written and it is OK, or FAILED where the session is not attached. -/
def State.output (s : State) (lsn : Nat) (x : Session) (addr : Nat) (rkey : Word) (data : List Byte) (result : BitVec 192) :
    State :=
  if !x.attached then s.finish lsn 2 0 0
  else (if data.isEmpty then s else (s.txOn x.qp (mtuFrames data.length)).send (.rdma x.qp rkey addr data)).finish lsn 0 0 result

/-- One allotment's entry of the digest (R360). -/
def State.digestEntry (s : State) (id : Nat) (mgmt : Bool) (a : Nat) : List Byte :=
  let x := s.allot a
  if x.st = .free then leBytes 2 0xFFFF ++ leBytes 30 0
  else if x.owner ≠ id ∧ !mgmt then leBytes 2 x.owner ++ leBytes 1 x.st.code ++ leBytes 29 0
  else
    leBytes 2 x.owner ++ leBytes 1 x.st.code ++ leBytes 1 x.tag ++ leBytes 4 x.lastSeq.toNat ++
      leBytes 8 ((x.prog.map (·.planId.toNat)).getD 0) ++ leBytes 2 x.queue.length ++ leBytes 2 0 ++
      leBytes 4 (x.secseqOf x.curRun) ++ leBytes 8 0

/-- The digest of STATUS (R360). -/
def State.digest (s : State) (id : Nat) (x : Session) : List Byte :=
  leBytes 2 1 ++ leBytes 1 s.boot.st.code ++ leBytes 1 0 ++ leBytes 2 s.boot.epoch.toNat ++ leBytes 2 id ++
    leBytes 4 x.nextSeq.toNat ++ leBytes 2 x.grant ++ leBytes 2 x.held ++ leBytes 8 s.ledger.head ++ leBytes 8 s.ledger.oldest ++
    leBytes 8 s.bell.count.toNat ++ leBytes 8 x.compWritten ++ leBytes 8 x.evWritten ++ leBytes 8 0 ++
    (List.range 16).flatMap fun a => s.digestEntry id x.mgmt a

/-- STATUS: the digest is written to a host buffer (R360). -/
def execStatus (ses : BitVec 12) (s : State) : Host.Outcome State Fault Refusal :=
  .next (match s.immHead ses.toNat 0x08 with
    | none => s
    | some (lsn, x, e) =>
      if leAt e.body 44 4 < 576 then s.refuse lsn dSpace
      else
        s.output lsn x (leAt e.body 32 8) (BitVec.ofNat 32 (leAt e.body 40 4)) (s.digest ses.toNat x) (resultOf [(0, 4, 576)]))

/-- Whether a compute session may name a register (R361). -/
def State.statsMay (s : State) (id o : Nat) : Bool :=
  match parishOfOff o with
  | some p => s.allots.any fun e => decide (e.2.st ≠ .free ∧ e.2.owner = id) && bit e.2.parishes p
  | none => (stackOfOff o).isSome || decide (blockOf o = some fabricBase ∨ blockOf o = some reeveBase)

/-- STATS: a snapshot of register space is written to a host buffer (R361, R486). -/
def execStats (ses : BitVec 12) (s : State) : Host.Outcome State Fault Refusal :=
  .next (match s.immHead ses.toNat 0x09 with
    | none => s
    | some (lsn, x, e) =>
      let off := leAt e.body 32 4
      let n := leAt e.body 36 4
      let l := (List.range (n / 8)).map fun i => off + 8 * i
      if !x.mgmt ∧ !l.all (s.statsMay ses.toNat) then s.refuse lsn dKind
      else if leAt e.body 52 4 < n then s.refuse lsn dSpace
      else
        let s := l.foldl (fun (s : State) o => s.readLatch o) s
        s.output lsn x (leAt e.body 40 8) (BitVec.ofNat 32 (leAt e.body 48 4)) (l.flatMap fun o => leBytes 8 (s.regRead o).toNat) 0)

/-- The retained entries LEDGER_READ writes: from an LSN on, in order; a compute session's own only. -/
def State.ledgerRead (s : State) (id : Nat) (x : Session) (m : List Byte) : List LEntry :=
  let f := leAt m 44 2
  let mine (e : LEntry) : Bool := decide (e.ses.toNat = id ∧ x.since ≤ e.lsn)
  let wanted (e : LEntry) : Bool :=
    decide (leAt m 32 8 ≤ e.lsn) &&
      (if x.mgmt then f.testBit 15 || decide (e.ses.toNat = f % 4096) else mine e)
  (((s.ledger.entries.map (·.2)).filter wanted).foldr insertEntry []).take (min (leAt m 40 4) (leAt m 60 4 / 64))

/-- LEDGER_READ: retained entries are written to a host buffer (R362). -/
def execLedgerRead (ses : BitVec 12) (s : State) : Host.Outcome State Fault Refusal :=
  .next (match s.immHead ses.toNat 0x0A with
    | none => s
    | some (lsn, x, e) =>
      let l := s.ledgerRead ses.toNat x e.body
      s.output lsn x (leAt e.body 48 8) (BitVec.ofNat 32 (leAt e.body 56 4)) (l.flatMap LEntry.bytes)
        (resultOf [(0, 8, ((l.head?).map (·.lsn)).getD 0), (8, 4, l.length), (16, 8, s.ledger.head)]))

end Sys2Proof.Machine
end

