-- ==== Sys2Proof/Machine/Predicate.lean ====
section
/-! DEFINITION. The predicate class 0x7 (R52). -/

namespace Sys2Proof.Machine

/-- Checks of every predicate instruction: rd[4:3] and the reserved field zero, p0 not the destination (R52). -/
def predWord (f : FmtR) (extra : Bool) : List (Bool × Cause) :=
  [(rsvR f || decide (f.rd.toNat ≥ 8) || extra, .reserved), (decide (f.rd.toNat % 8 = 0), .pred)]

/-- A predicate number: the low three bits of a register field. -/
def predNo (r : BitVec 5) : BitVec 3 := r.setWidth 3

/-- PCMP: pd := (ra cond rb); a poisoned operand is an observation point (R52, R81). -/
def pcmp (p : Pos) (func : BitVec 6) (f : FmtR) (test : Word → Word → Bool) (s : State) : State :=
  s.runCore p (wordR 0x7 func f) f.pr
    (fun c => { word := predWord f false, on := [(c.spois f.ra || c.spois f.rb, .poison)] })
    (fun c => (c.setP (predNo f.rd) (test (c.sreg f.ra) (c.sreg f.rb))).next)

/-- PAND, POR, PXOR: pd := pa op pb; bits [4:3] of ra and rb are zero (R52). -/
def predOp (p : Pos) (func : BitVec 6) (f : FmtR) (op : Bool → Bool → Bool) (s : State) : State :=
  s.runCore p (wordR 0x7 func f) f.pr
    (fun _ => { word := predWord f (decide (f.ra.toNat ≥ 8 ∨ f.rb.toNat ≥ 8)) })
    (fun c => (c.setP (predNo f.rd) (op (c.pred (predNo f.ra)) (c.pred (predNo f.rb)))).next)

/-- PCMP.EQ (R52). -/
def execPcmpEq (p : Pos) (f : FmtR) (s : State) : Host.Outcome State Fault Refusal :=
  .next (pcmp p 0 f (fun a b => a == b) s)

/-- PCMP.NE (R52). -/
def execPcmpNe (p : Pos) (f : FmtR) (s : State) : Host.Outcome State Fault Refusal :=
  .next (pcmp p 1 f (fun a b => a != b) s)

/-- PCMP.LT (R52). -/
def execPcmpLt (p : Pos) (f : FmtR) (s : State) : Host.Outcome State Fault Refusal :=
  .next (pcmp p 2 f (fun a b => decide (a.toInt < b.toInt)) s)

/-- PCMP.GE (R52). -/
def execPcmpGe (p : Pos) (f : FmtR) (s : State) : Host.Outcome State Fault Refusal :=
  .next (pcmp p 3 f (fun a b => decide (b.toInt ≤ a.toInt)) s)

/-- PCMP.LTU (R52). -/
def execPcmpLtu (p : Pos) (f : FmtR) (s : State) : Host.Outcome State Fault Refusal :=
  .next (pcmp p 4 f (fun a b => decide (a.toNat < b.toNat)) s)

/-- PCMP.GEU (R52). -/
def execPcmpGeu (p : Pos) (f : FmtR) (s : State) : Host.Outcome State Fault Refusal :=
  .next (pcmp p 5 f (fun a b => decide (b.toNat ≤ a.toNat)) s)

/-- PSET: pd := (ra ≠ 0); rb must be zero; a poisoned ra is an observation point (R52, R81). -/
def execPset (p : Pos) (f : FmtR) (s : State) : Host.Outcome State Fault Refusal :=
  .next (s.runCore p (wordR 0x7 0x08 f) f.pr
    (fun c => { word := predWord f (decide (f.rb ≠ 0)), on := [(c.spois f.ra, .poison)] })
    (fun c => (c.setP (predNo f.rd) (decide (c.sreg f.ra ≠ 0))).next))

/-- PAND (R52). -/
def execPand (p : Pos) (f : FmtR) (s : State) : Host.Outcome State Fault Refusal :=
  .next (predOp p 0x9 f (fun a b => a && b) s)

/-- POR (R52). -/
def execPor (p : Pos) (f : FmtR) (s : State) : Host.Outcome State Fault Refusal :=
  .next (predOp p 0xa f (fun a b => a || b) s)

/-- PXOR (R52). -/
def execPxor (p : Pos) (f : FmtR) (s : State) : Host.Outcome State Fault Refusal :=
  .next (predOp p 0xb f (fun a b => a != b) s)

/-- PNOT: pd := NOT pa; rb must be zero (R52). -/
def execPnot (p : Pos) (f : FmtR) (s : State) : Host.Outcome State Fault Refusal :=
  .next (s.runCore p (wordR 0x7 0x0C f) f.pr
    (fun _ => { word := predWord f (decide (f.ra.toNat ≥ 8 ∨ f.rb ≠ 0)) })
    (fun c => (c.setP (predNo f.rd) (!c.pred (predNo f.ra))).next))

end Sys2Proof.Machine
end

