-- ==== Sys2Proof/Machine/Queue.lean ====
section
/-! DEFINITION. The queue class 0xB (R53, R63, R64) and the end of its waits. A pop takes its entries, and a push gives
its entries, all together, once all are there or all have room. -/

namespace Sys2Proof.Machine

/-- Entries of an input queue, oldest first. -/
def Core.inQ (c : Core) (q : Nat) : List Token := (c.inq.toList[q]?).getD []

/-- Entries of an output queue, oldest first. -/
def Core.outQ (c : Core) (q : Nat) : List Token := (c.outq.toList[q]?).getD []

/-- n, 1 to 4. -/
def qn (f : FmtQ) : Nat := f.n1.toNat + 1

/-- Whether a queue of the Q class (0-3 in, 4-7 out) is enabled by the ACTIVE bank (R64, R127). -/
def Core.qEnabled (c : Core) (q : BitVec 3) : Bool := bit (c.qcfg[q.toNat]) 0

/-- Checks of a queue instruction: unused fields and the queue's direction and enable (R63, R64). -/
def queueChecks (c : Core) (f : FmtQ) (used : Bool) (wrongDir : Bool) : Check :=
  { word := [(decide (f.rsv ≠ 0) || !used, .reserved)], always := [(wrongDir || !c.qEnabled f.q, .queue)] }

/-- A token the core makes, with the running section's colour (R64). -/
def Core.token (c : Core) (data : BitVec 128) (void poison last : Bool) : Token :=
  { data := data, colour := c.colour, void := void, poison := poison, last := last }

/-- Quarter `j` of a value. -/
def quarter (v : VReg) (j : Nat) : BitVec 128 := BitVec.ofNat 128 (bits v (128 * j) 128)

/-- The data of an entry as a pop delivers it: +0.0 for a void entry (R64). -/
def Token.value (t : Token) : BitVec 128 := if t.void then 0 else t.data

/-- Writes popped entries into the quarters of a vector register, in order (R63, R64). DESIGN CHOICE (log entry 86): quarters
that no entry fills keep their bytes and their poison. -/
def Core.popQuarters (c : Core) (vr : BitVec 4) (l : List Token) : Core :=
  let v := (l.zipIdx).foldl (fun v x => setBits v (128 * x.2) 128 x.1.value.toNat) (c.vreg vr)
  let q := (l.zipIdx).foldl (fun q x => setBit q x.2 x.1.poison) (c.vpois vr)
  c.setV vr v q

/-- A pop, if its entries are there (R53, R63, R64). -/
def Core.pop (c : Core) (vec off : Bool) (f : FmtQ) : Option Core :=
  let q := f.q.toNat % 4
  let n := if vec then qn f else 1
  let l := c.inQ q
  if l.length < n then none
  else
    let e := l.take n
    let c := { c with inq := c.inq.setIfInBounds q (l.drop n) }
    if off then some c.next
    else
      let c := c.setP f.pd (e.all fun t => !t.void)
      if vec then some (c.popQuarters f.vr e).next
      else
        match e with
        | t :: _ => some (c.setS f.rs (BitVec.ofNat 32 (bits t.value 0 32)) t.poison).next
        | [] => some c.next

/-- The tokens a push emits (R53, R63, R64). -/
def Core.pushTokens (c : Core) (op : PushOp) (off : Bool) (f : FmtQ) : List Token :=
  let v := c.vreg f.vr
  let fromV (lastToo : Bool) : List Token := (List.range (qn f)).map fun j =>
    c.token (quarter v j) false (bit (c.vpois f.vr) j) (lastToo && decide (j + 1 = qn f))
  let voids (n : Nat) (lastToo : Bool) : List Token :=
    (List.range n).map fun j => c.token 0 true false (lastToo && decide (j + 1 = n))
  match op, off with
  | .v, false => fromV false
  | .last, false => fromV true
  | .s, false => [c.token (BitVec.ofNat 128 (c.sreg f.rs).toNat) false (c.spois f.rs) false]
  | .void, _ => voids (qn f) false
  | .v, true => voids (qn f) false
  | .last, true => voids (qn f) true
  | .s, true => voids 1 false

/-- A push, if the queue has room for its entries (R63, R64). -/
def Core.push (c : Core) (op : PushOp) (off : Bool) (f : FmtQ) : Option Core :=
  let q := f.q.toNat % 4
  let l := c.outQ q
  let e := c.pushTokens op off f
  if l.length + e.length > 16 then none
  else some { c with outq := c.outq.setIfInBounds q (l ++ e) }.next

/-- Runs a pop or leaves the core waiting on it (R64). -/
def Core.popOrWait (off vec : Bool) (f : FmtQ) (c : Core) : Core := (c.pop vec off f).getD { c with wait := .pop vec off f }

/-- Runs a push or leaves the core waiting on it (R64). -/
def Core.pushOrWait (off : Bool) (op : PushOp) (f : FmtQ) (c : Core) : Core :=
  (c.push op off f).getD { c with wait := .push op off f }

/-- QPOP.V (R63, R64). -/
def execQpopV (p : Pos) (f : FmtQ) (s : State) : Host.Outcome State Fault Refusal :=
  .next (s.runCore p (wordQ 0 f) f.pr (fun c => queueChecks c f (decide (f.rs = 0)) (decide (f.q.toNat ≥ 4)))
    (Core.popOrWait false true f) (Core.popOrWait true true f))

/-- A push instruction of an operation code, whose unused fields are those `used` denies. -/
def pushInstr (p : Pos) (qop : BitVec 4) (op : PushOp) (f : FmtQ) (used : Bool) (reads : List (BitVec 4)) (s : State) :
    State :=
  s.runCore p (wordQ qop f) f.pr
    (fun c => { queueChecks c f used (decide (f.q.toNat < 4)) with reads := reads })
    (Core.pushOrWait false op f) (Core.pushOrWait true op f)

/-- QPUSH.V (R63, R64). -/
def execQpushV (p : Pos) (f : FmtQ) (s : State) : Host.Outcome State Fault Refusal :=
  .next (pushInstr p 1 .v f (decide (f.pd = 0 ∧ f.rs = 0)) [f.vr] s)

/-- QPOP.S (R63, R64). -/
def execQpopS (p : Pos) (f : FmtQ) (s : State) : Host.Outcome State Fault Refusal :=
  .next (s.runCore p (wordQ 2 f) f.pr
    (fun c => queueChecks c f (decide (f.vr = 0 ∧ f.n1 = 0)) (decide (f.q.toNat ≥ 4)))
    (Core.popOrWait false false f) (Core.popOrWait true false f))

/-- QPUSH.S (R63, R64). -/
def execQpushS (p : Pos) (f : FmtQ) (s : State) : Host.Outcome State Fault Refusal :=
  .next (pushInstr p 3 .s f (decide (f.vr = 0 ∧ f.n1 = 0 ∧ f.pd = 0)) [] s)

/-- QVOID (R63, R64). -/
def execQvoid (p : Pos) (f : FmtQ) (s : State) : Host.Outcome State Fault Refusal :=
  .next (pushInstr p 4 .void f (decide (f.vr = 0 ∧ f.pd = 0 ∧ f.rs = 0)) [] s)

/-- QLAST (R63, R64). -/
def execQlast (p : Pos) (f : FmtQ) (s : State) : Host.Outcome State Fault Refusal :=
  .next (pushInstr p 5 .last f (decide (f.pd = 0 ∧ f.rs = 0)) [f.vr] s)

/-- Occupancy and head bits of a queue (R63): the 16-entry queue only (R129). -/
def qstatWord (l : List Token) : Word :=
  let h := l.head?
  let g (b : Token → Bool) : Nat := b2n ((h.map b).getD false)
  BitVec.ofNat 32 (l.length % 32 + 256 * g (·.void) + 512 * g (·.last) + 1024 * g (·.poison))

/-- QSTAT: reads a queue of either direction without popping (R63, R64). -/
def execQstat (p : Pos) (f : FmtQ) (s : State) : Host.Outcome State Fault Refusal :=
  .next (s.runCore p (wordQ 6 f) f.pr
    (fun c => queueChecks c f (decide (f.vr = 0 ∧ f.n1 = 0 ∧ f.pd = 0)) false)
    (fun c =>
      let l := if f.q.toNat < 4 then c.inQ f.q.toNat else c.outQ (f.q.toNat - 4)
      (c.setS f.rs (qstatWord l) false).next))

/-- A waiting pop or push completes where it can (R64). -/
def Core.queueRetry (c : Core) : Core :=
  match c.wait with
  | .pop vec off f => (({ c with wait := .none }).pop vec off f).getD c
  | .push op off f => (({ c with wait := .none }).push op off f).getD c
  | _ => c

/-- QUEUE_WAIT_END: a waiting pop finds its entries, or a waiting push room, and completes (R64). -/
def execQueueWaitEnd (p : Pos) (s : State) : Host.Outcome State Fault Refusal :=
  let c := s.core p
  .next (if c.queueRetry.wait = .none ∧ c.wait ≠ .none then s.retire p c.queueRetry else s)

end Sys2Proof.Machine
end

