-- ==== Sys2Proof/Machine/Spdm.lean ====
section
/-! DEFINITION. The side channel (R406, R407, R413 to R415, R452, R504): SPDM and PLDM requests over MCTP and their answers. The
codes of messages are those of DSP0274, DSP0240 and DSP0248, which the spec names and does not restate. -/

namespace Sys2Proof.Machine

/-- Whether MCTP answers: the boot ROM runs (R440, R441). -/
def State.mctp (s : State) : Bool :=
  s.pins.pwrGood && !s.boot.stopped &&
    (match s.boot.st with
     | .off | .coldReset | .strapHalt => false
     | _ => true)

/-! ### SPDM (R414, R415) -/

/-- An SPDM answer. -/
def State.spdm (s : State) (code : Byte) (data : List Nat) : State := s.send (.spdm code data)

/-- An SPDM ERROR: 1 invalid request, 4 unexpected request, 0x41 version mismatch. -/
def State.spdmError (s : State) (code : Nat) : State := s.spdm 0x7F [code]

/-- An SPDM request is served where its service is up. -/
def State.spdmServe (s : State) (f : State → State) : State := if s.up then f s else s

/-- GET_VERSION: 1.3 only; the exchange begins anew (R414). -/
def execGetVersion (s : State) : Host.Outcome State Fault Refusal :=
  .next (s.spdmServe fun s => { s with spdmVer := false, spdmAlgo := false }.spdm 0x04 [0x13])

/-- CERT_CAP, CHAL_CAP, MEAS_CAP signed, MEAS_FRESH_CAP. -/
def spdmCaps : Nat := 0x36

/-- GET_CAPABILITIES: for version 1.3, the capabilities and a CT exponent of 20 (R414). -/
def execGetCapabilities (version : Byte) (s : State) : Host.Outcome State Fault Refusal :=
  .next (s.spdmServe fun s =>
    if version = 0x13 then { s with spdmVer := true }.spdm 0x61 [20, spdmCaps] else s.spdmError 0x41)

/-- NEGOTIATE_ALGORITHMS: SM2 on P256 (bit 9), SM3-256 as hash (bit 6) and as measurement hash (bit 7); any other choice fails
(R414). -/
def execNegotiateAlgorithms (asym hash meas : Word) (s : State) : Host.Outcome State Fault Refusal :=
  .next (s.spdmServe fun s =>
    if !s.spdmVer then s.spdmError 4
    else if bit asym 9 ∧ bit hash 6 ∧ bit meas 7 then { s with spdmAlgo := true }.spdm 0x63 [2 ^ 9, 2 ^ 6, 2 ^ 7]
    else s.spdmError 1)

/-- A request that needs the algorithms. -/
def State.spdmReady (s : State) (f : State → State) : State :=
  s.spdmServe fun s => if s.spdmAlgo then f s else s.spdmError 4

/-- GET_DIGESTS: slot 0 only holds a chain (R407, R414). -/
def execGetDigests (s : State) : Host.Outcome State Fault Refusal :=
  .next (s.spdmReady fun s => s.spdm 0x01 [1, (Config.sm3 Config.certificateChain).toNat])

/-- GET_CERTIFICATE: a portion of the chain of slot 0; the other slots are empty (R407). -/
def execGetCertificate (slot : BitVec 4) (off len : Half) (s : State) : Host.Outcome State Fault Refusal :=
  .next (s.spdmReady fun s =>
    let l := Config.certificateChain
    if slot ≠ 0 ∨ off.toNat ≥ l.length then s.spdmError 1
    else
      let p := (l.drop off.toNat).take len.toNat
      s.spdm 0x02 ([0, p.length, l.length - off.toNat - p.length] ++ p.map (·.toNat)))

/-- A signature of the device key over bytes, with the value drawn for it. -/
def State.signed (s : State) (l : List Byte) : Nat := (Config.sm2Sign (Config.sm3 l) s.draw).toNat

/-- CHALLENGE: answered with the chain's digest, a fresh nonce and a signature (R414). -/
def execChallenge (slot : BitVec 4) (nonce : BitVec 256) (s : State) : Host.Outcome State Fault Refusal :=
  .next (s.spdmReady fun s =>
    if slot ≠ 0 then s.spdmError 1
    else
      let own := bits s.draw 256 256
      let h := (Config.sm3 Config.certificateChain).toNat
      (s.spdm 0x03 [0, h, own, s.signed (leBytes 32 nonce.toNat ++ leBytes 32 h ++ leBytes 32 own)]).drawn)

/-- The measurement blocks (R415): index and value; for a guest site its state and digest. -/
def State.measurements (s : State) : List (Nat × List Nat) :=
  (s.boot.meas.zipIdx.map fun e => (e.2 + 1, [e.1.toNat])) ++
    (List.range 4).map fun g => (16 + g, [(s.guest g).st.code, (s.guest g).digest.toNat])

/-- GET_MEASUREMENTS: index 0 asks the number of blocks, 255 all of them, another one block; the answer is signed (R415). -/
def execGetMeasurements (index : Byte) (nonce : BitVec 256) (s : State) : Host.Outcome State Fault Refusal :=
  .next (s.spdmReady fun s =>
    let all := s.measurements
    let l := if index = 0 then [] else if index = 0xFF then all else all.filter fun e => e.1 = index.toNat
    if index ≠ 0 ∧ l.isEmpty then s.spdmError 1
    else
      let own := bits s.draw 256 256
      let body := (if index = 0 then [all.length] else [l.length]) ++ l.flatMap fun e => e.1 :: e.2
      (s.spdm 0x60 (body ++ [own, s.signed (leBytes 32 nonce.toNat ++ leBytes 32 own ++ body.flatMap (leBytes 32))])).drawn)

/-! ### PLDM (R413) -/

/-- A PLDM answer: command code, then completion code and data. -/
def State.pldm (s : State) (code : Byte) (data : List Nat) : State := s.send (.pldm code data)

/-- The PLDM types answered: base 0, monitoring 2, firmware update 5; in RECOVERY base and firmware update (R413, R441). -/
def State.pldmTypes (s : State) : List Nat := if s.boot.st = .recovery then [0, 5] else [0, 2, 5]

/-- GetTID; the spec states no identifier (R413). -/
def execGetTid (s : State) : Host.Outcome State Fault Refusal :=
  .next (if s.mctp then (s.pldm 0x02 [0, bits s.draw 0 8]).drawn else s)

/-- GetPLDMVersion of a type; the spec states no version number (R413). -/
def execGetPldmVersion (typ : Byte) (s : State) : Host.Outcome State Fault Refusal :=
  .next (if !s.mctp then s
    else if s.pldmTypes.contains typ.toNat then (s.pldm 0x03 [0, bits s.draw 0 32]).drawn
    else s.pldm 0x03 [0x83])

/-- GetPLDMTypes (R413). -/
def execGetPldmTypes (s : State) : Host.Outcome State Fault Refusal :=
  .next (if s.mctp then s.pldm 0x04 [0, (s.pldmTypes.map (2 ^ ·)).sum] else s)

/-- GetPLDMCommands of a type: the four base commands; the spec does not list those of the other types (R413). -/
def execGetPldmCommands (typ : Byte) (s : State) : Host.Outcome State Fault Refusal :=
  .next (if !s.mctp then s
    else if !s.pldmTypes.contains typ.toNat then s.pldm 0x05 [0x83]
    else if typ = 0 then s.pldm 0x05 [0, 2 ^ 2 + 2 ^ 3 + 2 ^ 4 + 2 ^ 5]
    else (s.pldm 0x05 [0, bits s.draw 0 256]).drawn)

/-- The largest of a list of numbers. -/
def maxOf (l : List Nat) : Nat := l.foldl max 0

/-- The sensors of R504: their value, where the ID is one. -/
def State.sensor (s : State) (id : Nat) : Option Nat :=
  let f (o lo n : Nat) : Option Nat := some (bits (s.regRead o) lo n)
  match id with
  | 1 => f (reeveBase + 0x20) 0 16
  | 2 => f (reeveBase + 0x20) 32 16
  | 3 => f (reeveBase + 0x20) 16 16
  | 4 => f (reeveBase + 0x28) 0 16
  | 5 => f (reeveBase + 0x18) 0 16
  | 6 => some ((s.regRead (reeveBase + 0x48)).toNat / 10 ^ 9 % 2 ^ 32)
  | 7 => some s.reeve.plates[0].toNat
  | 8 => some s.reeve.plates[1].toNat
  | 9 => some s.reeve.plates[2].toNat
  | 10 => some s.reeve.plates[3].toNat
  | 11 => some (maxOf ((List.range 78).flatMap fun p => (List.range 4).map fun k =>
      bits (s.regRead (parishBase p + 0x4008)) (16 * k) 16))
  | 12 => some (maxOf (s.mcs.map fun e => e.2.deciC))
  | 13 => some ((List.range 78).filter fun p => bit (s.regRead (parishBase p + 0x4010)) 32).length
  | 14 => f configBase 0 4
  | 15 => f (configBase + 8) 0 12
  | 16 => f clkBase 0 4
  | 17 => f (clkBase + 0x40) 0 48
  | 18 => some ((List.range 64).filter fun p => bit (s.regRead (fabricBase + 0x18)) p).length
  | 19 => f (gsBase 0) 0 3
  | 20 => f (gsBase 1) 0 3
  | 21 => f (gsBase 2) 0 3
  | 22 => f (gsBase 3) 0 3
  | 23 => some ((s.guards.filter fun e => e.2.locked).length)
  | _ => none

/-- PLDM_SENSOR_READ: the board controller reads a sensor (R504); an ID that is none answers with the code for it. -/
def execPldmSensorRead (id : Half) (s : State) : Host.Outcome State Fault Refusal :=
  .next (if !s.mctp ∨ s.boot.st = .recovery then s
    else
      match s.sensor id.toNat with
      | some v => s.pldm 0x11 [0, v]
      | none => s.pldm 0x11 [0x80])

/-- The image of a PLDM firmware update is verified and written: in RECOVERY to device A, asking for a cold reset (2), else to the
store image not used at this start, whose activation reports that a restart is needed (1) (R412, R413, R441). -/
def State.pldmImage (s : State) (img : StoreImage) : State :=
  match imgFault img s.fuses with
  | some f => (s.rejectImage 2 f).pldm 0x05 [0x21, f.2]
  | none =>
    if s.boot.st = .recovery then (s.writeImage false img).pldm 0x05 [0, 2]
    else (s.writeImage s.spareImage img).pldm 0x05 [0, 1]

/-- PLDM_FIRMWARE_UPDATE: an update is requested, and refused with RETRY while a staging is in progress; its image is verified and
written, or it is given up (R412, R413). Completion codes: 0 done, 0x20 RETRY, 0x21 rejected, 0x80 no update is in progress. -/
def execPldmFirmwareUpdate (u : PldmUpdate) (s : State) : Host.Outcome State Fault Refusal :=
  let going (b : Bool) : State := { s with boot := { s.boot with pldmUpdate := b } }
  .next (if !s.mctp then s
    else
      match u with
      | .request => if s.staging then s.pldm 0x05 [0x20] else (going true).pldm 0x05 [0]
      | .image img => if s.boot.pldmUpdate then (going false).pldmImage img else s.pldm 0x05 [0x80]
      | .cancel => if s.boot.pldmUpdate then (going false).pldm 0x05 [0] else s.pldm 0x05 [0x80])

/-- PLDM_SHUTDOWN: the state effecter starts an orderly shutdown (R452); one is refused while RESTARTING, and RECOVERY has no
effecter. -/
def execPldmShutdown (slack : List (Fin 78 × Nat)) (appendOk : Bool × Bool) (s : State) : Host.Outcome State Fault Refusal :=
  .next (if s.up then (s.shutDown slack appendOk).pldm 0x39 [0] else s)

end Sys2Proof.Machine
end

