-- ==== Sys2Proof/Machine/Vector.lean ====
section
/-! DEFINITION. The vector classes 0x8 and 0x9: lane arithmetic, reductions, conversion, and vector memory and moves
(R43, R54 to R57, R101 to R105). -/

namespace Sys2Proof.Machine

/-- Fields and MODE bits a vector function does not use (R54): `b` and `c` say whether vb and vc are used, `m` which
MODE bits. -/
def vecWord (f : FmtV) (b c : Bool) (m : BitVec 3) : List (Bool × Cause) :=
  [((!b && decide (f.vb ≠ 0)) || (!c && decide (f.vc ≠ 0)) || decide (f.mode &&& ~~~m ≠ 0), .reserved)]

/-- MODE[2]: saturation (R54). -/
def satMode (f : FmtV) : Bool := bit f.mode 2

/-- The lanes of two values combined. -/
def zipLanes {α : Type} (op : Word → Word → α) (a b : VReg) : List α :=
  (List.range 16).map fun i => op (lane a i) (lane b i)

/-- A function of va and vb, lane by lane, with flags; poison quarter by quarter (R43). -/
def vec2 (p : Pos) (vf : BitVec 5) (f : FmtV) (m : BitVec 3) (op : Word → Word → Word × Flg) (s : State) : State :=
  s.runCore p (wordV 0x8 vf f) f.pr (fun _ => { word := vecWord f true false m, reads := [f.va, f.vb] })
    (fun c =>
      let r := gatherLanes (zipLanes op (c.vreg f.va) (c.vreg f.vb))
      ((c.flag r.2).setV f.vd r.1 (c.vpois f.va ||| c.vpois f.vb)).next)

/-- A function of va alone, lane by lane, with flags (R43). -/
def vec1 (p : Pos) (vf : BitVec 5) (f : FmtV) (m : BitVec 3) (op : Word → Word × Flg) (s : State) : State :=
  s.runCore p (wordV 0x8 vf f) f.pr (fun _ => { word := vecWord f false false m, reads := [f.va] })
    (fun c =>
      let r := gatherLanes ((lanes (c.vreg f.va)).map op)
      ((c.flag r.2).setV f.vd r.1 (c.vpois f.va)).next)

/-- A bitwise or integer function of va and vb: no flags. -/
def vecBits (p : Pos) (vf : BitVec 5) (f : FmtV) (op : Word → Word → Word) (s : State) : State :=
  vec2 p vf f 0 (fun a b => (op a b, {})) s

/-- The fixed tree of a reduction (R56): neighbours are combined, level by level. -/
def treeLevel (op : Word → Word → Word × Flg) : List Word → List (Word × Flg)
  | a :: b :: t => op a b :: treeLevel op t
  | _ => []

/-- Four levels over 16 lanes. -/
def treeReduce (op : Word → Word → Word × Flg) (l : List Word) : Word × Flg :=
  let l1 := treeLevel op l
  let l2 := treeLevel op (l1.map (·.1))
  let l3 := treeLevel op (l2.map (·.1))
  let l4 := treeLevel op (l3.map (·.1))
  (((l4.map (·.1)).head?).getD 0, (l1 ++ l2 ++ l3 ++ l4).foldl (fun a x => a.or x.2) {})

/-- A reduction into lane 0, the other lanes +0.0; poison covers the whole destination (R43, R56). DESIGN CHOICE (log entry
83): VREDMAX, for which the spec does not say it, leaves the other lanes +0.0 as VREDSUM does. -/
def vecReduce (p : Pos) (vf : BitVec 5) (f : FmtV) (m : BitVec 3) (op : Word → Word → Word × Flg) (s : State) : State :=
  s.runCore p (wordV 0x8 vf f) f.pr (fun _ => { word := vecWord f false false m, reads := [f.va] })
    (fun c =>
      let r := treeReduce op (lanes (c.vreg f.va))
      ((c.flag r.2).setV f.vd (ofLanes [r.1]) (allQuarters (decide (c.vpois f.va ≠ 0)))).next)

/-- VADD (R54). -/
def execVadd (p : Pos) (f : FmtV) (s : State) : Host.Outcome State Fault Refusal :=
  .next (vec2 p 0x00 f 4 (fadd (satMode f)) s)

/-- VSUB (R54). -/
def execVsub (p : Pos) (f : FmtV) (s : State) : Host.Outcome State Fault Refusal :=
  .next (vec2 p 0x01 f 4 (fsub (satMode f)) s)

/-- VMUL (R54). -/
def execVmul (p : Pos) (f : FmtV) (s : State) : Host.Outcome State Fault Refusal :=
  .next (vec2 p 0x02 f 4 (fmul (satMode f)) s)

/-- VFMA: va * vb + vc with one rounding (R54). -/
def execVfma (p : Pos) (f : FmtV) (s : State) : Host.Outcome State Fault Refusal :=
  .next (s.runCore p (wordV 0x8 0x03 f) f.pr
    (fun _ => { word := vecWord f true true 4, reads := [f.va, f.vb, f.vc] })
    (fun c =>
      let r := gatherLanes ((List.range 16).map fun i =>
        ffma (satMode f) (lane (c.vreg f.va) i) (lane (c.vreg f.vb) i) (lane (c.vreg f.vc) i))
      ((c.flag r.2).setV f.vd r.1 (c.vpois f.va ||| c.vpois f.vb ||| c.vpois f.vc)).next))

/-- VMAX (R54, R103). -/
def execVmax (p : Pos) (f : FmtV) (s : State) : Host.Outcome State Fault Refusal :=
  .next (vec2 p 0x04 f 0 (fun a b => (fmax a b, {})) s)

/-- VMIN (R54, R103). -/
def execVmin (p : Pos) (f : FmtV) (s : State) : Host.Outcome State Fault Refusal :=
  .next (vec2 p 0x05 f 0 (fun a b => (fmin a b, {})) s)

/-- VABS: the sign bits cleared, NaN payloads kept (R54, R102). -/
def execVabs (p : Pos) (f : FmtV) (s : State) : Host.Outcome State Fault Refusal :=
  .next (vec1 p 0x06 f 0 (fun a => (a &&& 0x7FFFFFFF, {})) s)

/-- VEXP2 (R56). -/
def execVexp2 (p : Pos) (f : FmtV) (s : State) : Host.Outcome State Fault Refusal :=
  .next (vec1 p 0x08 f 4 (fexp2 (satMode f)) s)

/-- VRCP (R56). -/
def execVrcp (p : Pos) (f : FmtV) (s : State) : Host.Outcome State Fault Refusal :=
  .next (vec1 p 0x09 f 4 (frcp (satMode f)) s)

/-- VRSQRT (R56). -/
def execVrsqrt (p : Pos) (f : FmtV) (s : State) : Host.Outcome State Fault Refusal :=
  .next (vec1 p 0x0A f 4 (frsqrt (satMode f)) s)

/-- VREDSUM (R56). -/
def execVredsum (p : Pos) (f : FmtV) (s : State) : Host.Outcome State Fault Refusal :=
  .next (vecReduce p 0x0B f 4 (fadd (satMode f)) s)

/-- VREDMAX (R56, R103). -/
def execVredmax (p : Pos) (f : FmtV) (s : State) : Host.Outcome State Fault Refusal :=
  .next (vecReduce p 0x0C f 0 (fun a b => (fmax a b, {})) s)

/-- VCMP: MODE[1:0] names the comparison (R54, R103). -/
def execVcmp (p : Pos) (f : FmtV) (s : State) : Host.Outcome State Fault Refusal :=
  .next (vec2 p 0x0D f 3 (fun a b => (if fcmp f.mode.toNat a b then 0xFFFFFFFF else 0, {})) s)

/-- VSEL's poison (R43): vc's bit of the quarter, and for each of its four lanes the bit of the quarter of the
operand selected for that lane. -/
def selPoison (vc : VReg) (pa pb pc : BitVec 4) : BitVec 4 :=
  let q (k : Nat) : Bool :=
    bit pc k || (List.range 4).any fun j => if lane vc (4 * k + j) ≠ 0 then bit pa k else bit pb k
  BitVec.ofNat 4 (b2n (q 0) + 2 * b2n (q 1) + 4 * b2n (q 2) + 8 * b2n (q 3))

/-- VSEL: lane := va where the vc lane is not zero, else vb (R43, R54). -/
def execVsel (p : Pos) (f : FmtV) (s : State) : Host.Outcome State Fault Refusal :=
  .next (s.runCore p (wordV 0x8 0x0E f) f.pr
    (fun _ => { word := vecWord f true true 0, reads := [f.va, f.vb, f.vc] })
    (fun c =>
      let va := c.vreg f.va
      let vb := c.vreg f.vb
      let vc := c.vreg f.vc
      let r := ofLanes ((List.range 16).map fun i => if lane vc i ≠ 0 then lane va i else lane vb i)
      (c.setV f.vd r (selPoison vc (c.vpois f.va) (c.vpois f.vb) (c.vpois f.vc))).next))

/-- The packed group of VCVT: J = vb * 2 + MODE[1] (R55). -/
def cvtGroup (f : FmtV) : Nat := f.vb.toNat * 2 + b2n (bit f.mode 1)

/-- The quarters a range of bits of a register touches, as a mask. -/
def quartersOf (lo len : Nat) : BitVec 4 :=
  BitVec.ofNat 4 (((List.range 4).map fun q => if lo < 128 * (q + 1) ∧ 128 * q < lo + len then 2 ^ q else 0).sum)

/-- The quarters a range of bits covers whole, as a mask. -/
def quartersCovered (lo len : Nat) : BitVec 4 :=
  BitVec.ofNat 4 (((List.range 4).map fun q => if lo ≤ 128 * q ∧ 128 * (q + 1) ≤ lo + len then 2 ^ q else 0).sum)

/-- VCVT's poison towards FP32: each quarter of vd takes the OR of the quarters of va that its four lanes are read from (R55). -/
def widenPoison (pa : BitVec 4) (lo b : Nat) : BitVec 4 :=
  BitVec.ofNat 4 (((List.range 4).map fun q => if pa &&& quartersOf (lo + 4 * b * q) (4 * b) ≠ 0 then 2 ^ q else 0).sum)

/-- VCVT's poison towards packed elements: each quarter of vd that the group touches takes the OR of the quarters of va whose
lanes it holds (R55). -/
def narrowPoison (pa : BitVec 4) (lo b : Nat) : BitVec 4 :=
  BitVec.ofNat 4 (((List.range 4).map fun q =>
    if (List.range 16).any fun i => bit (quartersOf (lo + b * i) b) q && bit pa (i / 4) then 2 ^ q else 0).sum)

/-- Sixteen element codes of `b` bits packed from the least significant bit (R85). -/
def packCodes (b : Nat) (l : List Nat) : Nat := l.foldr (fun x a => x % 2 ^ b + 2 ^ b * a) 0

/-- VCVT: one group between FP32 lanes and packed elements (R54, R55, R104, R105). A format code outside the table, or
a group that does not exist, raises FMT. DEDUCED (log entry 15): packing, a quarter the group covers in part also
keeps its own poison, since its other elements stay. -/
def execVcvt (p : Pos) (f : FmtV) (s : State) : Host.Outcome State Fault Refusal :=
  let el := cvtElem f.vc.toNat
  let b := ((el.map Elem.width).getD 4)
  let j := cvtGroup f
  let lo := 16 * b * j
  let toF := !bit f.mode 0
  .next (s.runCore p (wordV 0x8 0x0F f) f.pr
    (fun _ => { word := [(el.isNone || decide (j ≥ cvtGroups b), .fmt)]
                reads := if toF then [f.va] else [f.va, f.vd] })
    (fun c =>
      match el with
      | none => c
      | some el =>
        if toF then
          let v := c.vreg f.va
          let r := (List.range 16).map fun i => el.toFp32 (bits v (lo + b * i) b)
          (c.setV f.vd (ofLanes r) (widenPoison (c.vpois f.va) lo b)).next
        else
          let r := (lanes (c.vreg f.va)).map (el.ofFp32 (satMode f))
          let v := setBits (c.vreg f.vd) lo (16 * b) (packCodes b (r.map (·.1)))
          let flg := r.foldl (fun a x => a.or x.2) {}
          let old := c.vpois f.vd &&& ~~~ quartersCovered lo (16 * b)
          ((c.flag flg).setV f.vd v (narrowPoison (c.vpois f.va) lo b ||| old)).next))

/-- VIADD: wrapping (R54). -/
def execViadd (p : Pos) (f : FmtV) (s : State) : Host.Outcome State Fault Refusal :=
  .next (vecBits p 0x11 f (fun a b => a + b) s)

/-- VAND (R54). -/
def execVand (p : Pos) (f : FmtV) (s : State) : Host.Outcome State Fault Refusal :=
  .next (vecBits p 0x12 f (fun a b => a &&& b) s)

/-- VOR (R54). -/
def execVor (p : Pos) (f : FmtV) (s : State) : Host.Outcome State Fault Refusal :=
  .next (vecBits p 0x13 f (fun a b => a ||| b) s)

/-- VXOR (R54). -/
def execVxor (p : Pos) (f : FmtV) (s : State) : Host.Outcome State Fault Refusal :=
  .next (vecBits p 0x14 f (fun a b => a ^^^ b) s)

/-- VSRL: by vb lane [4:0] (R54). -/
def execVsrl (p : Pos) (f : FmtV) (s : State) : Host.Outcome State Fault Refusal :=
  .next (vecBits p 0x15 f (fun a b => a >>> (b.toNat % 32)) s)

/-! ### Vector memory and moves (R57) -/

/-- The address ra + 16 * off12 (R57). -/
def vecEa (c : Core) (f : FmtVM) : Nat := (c.sreg f.ra + BitVec.ofNat 32 (16 * f.off.toNat)).toNat

/-- The poison bits of 64 bytes of local memory, one for each 16-byte quarter (R43, R75). -/
def Core.quarterPoison (c : Core) (ea : Nat) : BitVec 4 :=
  BitVec.ofNat 4 (((List.range 4).map fun q => if c.localPoison (ea + 16 * q) 16 then 2 ^ q else 0).sum)

/-- VLD: 64 bytes at the address (R57, R75). -/
def execVld (p : Pos) (f : FmtVM) (s : State) : Host.Outcome State Fault Refusal :=
  let w := wordVM 0 f
  let ea := vecEa (s.core p) f
  .next (s.runWide p w f.pr (fun c => { on := accessChecks c f.ra ea 64 16 false })
    (fun s =>
      let s := s.touchLocal p w ea 64
      let c := s.core p
      s.retire p (c.setV f.vd (ofBytes (c.localBytes ea 64)) (c.quarterPoison ea)).next)
    (fun s => s.skipCore p))

/-- VST: 64 bytes of vd to the address; each quarter's two words take its poison (R57, R75). -/
def execVst (p : Pos) (f : FmtVM) (s : State) : Host.Outcome State Fault Refusal :=
  let w := wordVM 1 f
  let ea := vecEa (s.core p) f
  .next (s.runCore p w f.pr (fun c => { on := accessChecks c f.ra ea 64 16 true, reads := [f.vd] })
    (fun c => (c.storeWords ea (vbytes (c.vreg f.vd)) (fun i => bit (c.vpois f.vd) (i / 2))).next))

/-- VBCAST: every lane := ra; off12 must be 0 (R57). -/
def execVbcast (p : Pos) (f : FmtVM) (s : State) : Host.Outcome State Fault Refusal :=
  .next (s.runCore p (wordVM 2 f) f.pr (fun _ => { word := [(decide (f.off ≠ 0), .reserved)] })
    (fun c => (c.setV f.vd (ofLanes (List.replicate 16 (c.sreg f.ra))) (allQuarters (c.spois f.ra))).next))

/-- off12[11:4], which VINS and VEXT must have zero (R57). -/
def laneRsv (f : FmtVM) : Bool := decide (f.off.toNat ≥ 16)

/-- VINS: lane off12[3:0] of vd := ra; the quarter keeps its other lanes, so its poison is the OR (R43, R57). -/
def execVins (p : Pos) (f : FmtVM) (s : State) : Host.Outcome State Fault Refusal :=
  .next (s.runCore p (wordVM 3 f) f.pr (fun _ => { word := [(laneRsv f, .reserved)], reads := [f.vd] })
    (fun c =>
      let i := f.off.toNat % 16
      let q := if c.spois f.ra then BitVec.ofNat 4 (2 ^ (i / 4)) else 0
      (c.setV f.vd (setBits (c.vreg f.vd) (32 * i) 32 (c.sreg f.ra).toNat) (c.vpois f.vd ||| q)).next))

/-- VEXT: ra := lane off12[3:0] of vd, with the poison of its quarter (R43, R57). -/
def execVext (p : Pos) (f : FmtVM) (s : State) : Host.Outcome State Fault Refusal :=
  .next (s.runCore p (wordVM 4 f) f.pr (fun _ => { word := [(laneRsv f, .reserved)], reads := [f.vd] })
    (fun c =>
      let i := f.off.toNat % 16
      (c.setS f.ra (lane (c.vreg f.vd) i) (bit (c.vpois f.vd) (i / 4))).next))

end Sys2Proof.Machine
end

