-- ==== Sys2Proof/Machine/Topk.lean ====
section
/-! DEFINITION. Class 0xE: the top-k unit, random numbers and sampling (R67 to R70). -/

namespace Sys2Proof.Machine

/-- Fields a class 0xE function does not use (R67): flags say which of vd, va, vb are used; vc never is. -/
def tkWord (f : FmtV) (d a b : Bool) (m : BitVec 3) : List (Bool × Cause) :=
  [((!d && decide (f.vd ≠ 0)) || (!a && decide (f.va ≠ 0)) || (!b && decide (f.vb ≠ 0)) || decide (f.vc ≠ 0)
      || decide (f.mode &&& ~~~m ≠ 0), .reserved)]

/-- The 8-bit value {va, vb} of TKINIT. -/
def tkK (f : FmtV) : Nat := f.va.toNat * 16 + f.vb.toNat

/-- TKINIT: k := {va, vb} + 1, which must be at most 64 (R67, R68). -/
def execTkinit (p : Pos) (f : FmtV) (s : State) : Host.Outcome State Fault Refusal :=
  .next (s.runCore p (wordV 0xE 0x00 f) f.pr
    (fun _ => { word := tkWord f false true true 1 ++ [(decide (tkK f ≥ 64), .reserved)] })
    (fun c => { c with topk := { k := tkK f + 1, smallest := bit f.mode 0 } }.next))

/-- Whether an entry ranks before another: the better value, and between equal values the lower index (R68). -/
def tkBefore (smallest : Bool) (a b : Word × Word) : Bool :=
  let x := val32 a.1
  let y := val32 b.1
  let better := if smallest then x.lt y else y.lt x
  better || (x.eq y && decide (a.2.toNat < b.2.toNat))

/-- Inserts an entry in rank order. -/
def tkInsert (smallest : Bool) (e : Word × Word) : List (Word × Word) → List (Word × Word)
  | [] => [e]
  | x :: t => if tkBefore smallest e x then e :: x :: t else x :: tkInsert smallest e t

/-- Offers one lane: a NaN is absent (R68). -/
def TopK.offer (t : TopK) (v : Word) : TopK :=
  let t' := { t with counter := t.counter + 1 }
  if (val32 v).isNaN then t' else { t' with kept := (tkInsert t.smallest (v, t.counter) t.kept).take t.k }

/-- TKPUSH: the 16 lanes of va, with consecutive indices; a poisoned lane poisons the unit (R67, R68). -/
def execTkpush (p : Pos) (f : FmtV) (s : State) : Host.Outcome State Fault Refusal :=
  .next (s.runCore p (wordV 0xE 0x01 f) f.pr (fun _ => { word := tkWord f false true false 0, reads := [f.va] })
    (fun c =>
      let t := (lanes (c.vreg f.va)).foldl TopK.offer c.topk
      { c with topk := { t with poison := t.poison || decide (c.vpois f.va ≠ 0) } }.next))

/-- Entry `i` of the unit: value and index; beyond those kept, the worst infinity and all ones (R68). -/
def TopK.entry (t : TopK) (i : Nat) : Word × Word :=
  (t.kept[i]?).getD (inf32 (!t.smallest), 0xFFFFFFFF)

/-- TKRD: values of 16 kept entries, best first (R67, R68). -/
def execTkrd (p : Pos) (f : FmtV) (s : State) : Host.Outcome State Fault Refusal :=
  .next (s.runCore p (wordV 0xE 0x02 f) f.pr (fun _ => { word := tkWord f true false true 0 })
    (fun c => (c.setV f.vd (ofLanes ((List.range 16).map fun i => (c.topk.entry (16 * f.vb.toNat + i)).1))
      (allQuarters c.topk.poison)).next))

/-- TKRDI: their indices (R67, R68). -/
def execTkrdi (p : Pos) (f : FmtV) (s : State) : Host.Outcome State Fault Refusal :=
  .next (s.runCore p (wordV 0xE 0x03 f) f.pr (fun _ => { word := tkWord f true false true 0 })
    (fun c => (c.setV f.vd (ofLanes ((List.range 16).map fun i => (c.topk.entry (16 * f.vb.toNat + i)).2))
      (allQuarters c.topk.poison)).next))

/-! ### Philox-4x32-10 (R69) -/

/-- One round of Philox-4x32 on four counter words under two key words. PRESUMED (log entry 16): the multipliers
0xD2511F53 and 0xCD9E8D57 are those of the published generator the spec names. -/
def philoxRound (c : Word × Word × Word × Word) (k0 k1 : Word) : Word × Word × Word × Word :=
  let m0 := 0xD2511F53 * c.1.toNat
  let m1 := 0xCD9E8D57 * c.2.2.1.toNat
  let hi (m : Nat) : Word := BitVec.ofNat 32 (m / 2 ^ 32)
  let lo (m : Nat) : Word := BitVec.ofNat 32 m
  (hi m1 ^^^ c.2.1 ^^^ k0, lo m1, hi m0 ^^^ c.2.2.2 ^^^ k1, lo m0)

/-- `n` rounds; the key advances by 0x9E3779B9 and 0xBB67AE85 between rounds (PRESUMED, log entry 16). -/
def philox (n : Nat) (c : Word × Word × Word × Word) (k0 k1 : Word) : Word × Word × Word × Word :=
  ((List.range n).foldl (fun x _ => (philoxRound x.1 x.2.1 x.2.2, x.2.1 + 0x9E3779B9, x.2.2 + 0xBB67AE85)) (c, k0, k1)).1

/-- A block for a core: the key of its allotment, c0 the block counter, TASKIDX, stream number, SECSEQ (R69). -/
def Core.philoxBlock (c : Core) (key : DWord) (ctr stream : Word) : List Word :=
  let r := philox 10 (ctr, c.taskidx, stream, c.secseq) (key.setWidth 32) ((key >>> 32).setWidth 32)
  [r.1, r.2.1, r.2.2.1, r.2.2.2]

/-- The sampling key of the allotment that holds a position; the parish holds it (R69). -/
def State.samplingKey (s : State) (p : Pos) : DWord :=
  match s.allotOf p.parish with
  | some a => (s.allot a).key
  | none => 0

/-- RAND: 16 words from four blocks; poisoned whole where the stream number's quarter is (R43, R67, R69).
DESIGN CHOICE (log entry 104): block i fills lanes 4 i to 4 i + 3, its words in order. -/
def execRand (p : Pos) (f : FmtV) (s : State) : Host.Outcome State Fault Refusal :=
  let key := s.samplingKey p
  .next (s.runCore p (wordV 0xE 0x05 f) f.pr (fun _ => { word := tkWord f true true false 0, reads := [f.va] })
    (fun c =>
      let stream := lane (c.vreg f.va) 0
      let l := (List.range 4).flatMap fun i => c.philoxBlock key (c.rngctr + BitVec.ofNat 32 i) stream
      { c.setV f.vd (ofLanes l) (allQuarters (bit (c.vpois f.va) 0)) with rngctr := c.rngctr + 4 }.next))

/-- The weight of a kept value: negative values count as 0 (R70 step 1). -/
def tkWeight (v : Word) : Word := if (val32 v).lt (.fin false 0 0) then 0 else v

/-- The running FP32 sums in rank order (R70 step 2). -/
def runningSums (a : Word) : List Word → List Word
  | [] => []
  | w :: t => let b := (fadd false a w).1; b :: runningSums b t

/-- R70 steps 4 to 7: the index drawn and whether the draw was degenerate. -/
def TopK.sample (t : TopK) (x0 : Word) : Word × Bool :=
  let sums := runningSums 0 (t.kept.map fun e => tkWeight e.1)
  let idx (i : Nat) : Word := (t.entry i).2
  match sums.getLast? with
  | none => (0xFFFFFFFF, true)
  | some total =>
    if total = inf32 false then (idx (sums.findIdx (· == inf32 false)), true)
    else
      let u : Num := .fin false (x0.toNat / 256) (-24)
      let us := u.mul (val32 total)
      let i := sums.findIdx fun c => us.lt (val32 c)
      if i < sums.length then (idx i, false) else (idx 0, true)

/-- SAMPLE: one weighted draw with one Philox block, whatever the data (R70); poison by R43 and R68. -/
def execSample (p : Pos) (f : FmtV) (s : State) : Host.Outcome State Fault Refusal :=
  let key := s.samplingKey p
  .next (s.runCore p (wordV 0xE 0x04 f) f.pr (fun _ => { word := tkWord f true true false 0, reads := [f.va] })
    (fun c =>
      let x0 := ((c.philoxBlock key c.rngctr (lane (c.vreg f.va) 0)).head?).getD 0
      let r := c.topk.sample x0
      let c' := c.setV f.vd (ofLanes [r.1]) (allQuarters (bit (c.vpois f.va) 0 || c.topk.poison))
      { c'.flag { degenerate := r.2 } with rngctr := c.rngctr + 1 }.next))

end Sys2Proof.Machine
end

