-- ==== Sys2Proof/Machine/Well.lean ====
section
/-! DEFINITION. The wells and what lies behind them (R176 to R181, R191 to R203): the check of a carter's request, device memory,
commons windows, the field SRAM direct view, register space and guest windows. -/

namespace Sys2Proof.Machine

/-- TYPE of a request: WRITE 1, READ 2 (R292). -/
def Req.typ (r : Req) : Nat := if r.ch = .load then 2 else 1

/-! ### Answers -/

/-- The response to a request goes to its carter. -/
def State.wellAnswer (s : State) (id : Nat) (r : Req) (status : BitVec 4) (data : List Byte) (poison : List Bool) : State :=
  { s with reqs := s.reqs.put id { r with stage := .toCarter, status := status, data := data, poison := poison } }

/-- A response without data. -/
def State.wellRefuse (s : State) (id : Nat) (r : Req) (status : BitVec 4) : State := s.wellAnswer id r status [] []

/-- STATUS 2, with WINDOW_FAULT once per core per run (R181). -/
def State.windowFault (s : State) (id : Nat) (r : Req) : State :=
  let s := s.wellRefuse id r 2
  match s.allotOf r.core.parish with
  | none => s
  | some a =>
    let run := s.coreRun r.core
    if s.noted a evWindowFault r.core.id run then s
    else (s.raiseA evWindowFault a [(r.core.id, 4), (r.addr, 8), (chanNo r.ch, 1)]).note a evWindowFault r.core.id run

/-! ### The ranges one by one (R181) -/

/-- Device memory, in either view: on to the controller where the quota holds the whole access. -/
def State.wellMem (s : State) (id : Nat) (r : Req) : State :=
  match s.viewDpa r.addr with
  | none => s.wellRefuse id r 1
  | some d =>
    match s.allotOf r.core.parish with
    | none => s.windowFault id r
    | some a =>
      if s.inQuota a d r.piece.len then { s with reqs := s.reqs.put id { r with stage := .atMem } }
      else s.windowFault id r

/-- The packet of a commons access (R301, R302). -/
def commonsPacket (s : State) (id : Nat) (r : Req) (tag : Nat) (e : BitVec 128) (seq : Nat) : FabPkt :=
  { hdr := mkHdr r.typ false (if bit e 3 then 3 else 2) tag (if r.ch = .load then 0 else 1) (bits e 8 24) s.feid (bits e 32 20)
      seq 0 (bits e 64 48 + (r.addr - commonsBase) % 2 ^ 34) r.piece.len (b2n (r.poison.any fun b => b)) 0 id 0
    data := if r.ch = .load then [] else flitsOf r.data }

/-- A commons window: checked by its entry and sent as one fabric packet; this module's own FEID loops back, its memory as slow as
the operand says (R196, R301, R302). -/
def State.wellCommons (s : State) (id : Nat) (r : Req) (slow : List (Fin 64 × Nat)) : State :=
  let w := (r.addr - commonsBase) / 2 ^ 34
  match s.allotOf r.core.parish with
  | none => s.windowFault id r
  | some a =>
    let x := s.allot a
    let e := x.windows.get 0 w
    let sent := match x.exec with
      | some t => t.windowWrites.get 0 w
      | none => 0
    if !bit e 0 ∨ !bit e (if r.ch = .load then 2 else 1) ∨ sent ≥ 65535 then s.windowFault id r
    else
      let k := commonsPacket s id r x.tag e (if r.ch = .load then 0 else sent)
      let s := if r.ch = .load then s
        else s.updExec a fun t => { t with windowWrites := t.windowWrites.put w (sent + 1) }
      let r := { r with stage := .atFabric, feid := BitVec.ofNat 24 (bits e 8 24), window := w }
      let s := { s with reqs := s.reqs.put id r }
      if bits e 8 24 = s.feid then
        let t := s.served k (chanNo r.ch) r.core.id
        (if pTc k = 2 then s.noteSlow t.1 (some a) slow else t.1).respHere t.2
      else s.forward k none

/-- The field SRAM direct view at the core an address names, if one, for the requester's allotment, if one: a core of the same
allotment; one in a fallow column has no SRAM, one in a dark parish does not answer (R40, R136, R181). -/
def State.wellDirectAt (s : State) (id : Nat) (r : Req) (q : Option Pos) (a : Option Nat) : State :=
  match q, a with
  | some q, some a =>
    let x := s.parish q.parish
    if s.allotOf q.parish ≠ some a then s.windowFault id r
    else if !x.railOn || x.dark || (s.wellOf q).isNone then s.wellRefuse id r 3
    else if s.fallow q.parish q.col then s.wellRefuse id r 1
    else { s with reqs := s.reqs.put id { r with stage := .atField, target := some q } }
  | _, _ => s.windowFault id r

/-- The field SRAM direct view: 128 KiB for each core position (R181). -/
def State.wellDirect (s : State) (id : Nat) (r : Req) : State :=
  s.wellDirectAt id r (posOfId ((r.addr - directBase) / 2 ^ 17)) (s.allotOf r.core.parish)

/-- Register space: the parish block of the core's own parish, in aligned accesses of 8 bytes (R181, R485 to R487). -/
def State.wellRegister (s : State) (id : Nat) (r : Req) : State :=
  let o := r.addr - registerBase
  if parishOfOff o ≠ some r.core.parish.val then s.windowFault id r
  else if o % 8 ≠ 0 ∨ r.piece.len ≠ 8 then s.wellRefuse id r 1
  else if r.ch = .load then s.wellAnswer id r 0 (leBytes 8 (s.regRead o).toNat) ((rowsOf r.addr 8).map fun _ => false)
  else (s.regWrite (.core r.core) o (BitVec.ofNat 64 (leNat r.data))).wellRefuse id r 0

/-- A guest window: a site holds at most 1,024 core requests, and one more waits in the hub; one that arrives is judged once:
refused at a site not OPEN, or without a CORE rule that grants the access (R422, R424, R425, R430). -/
def State.wellGuest (s : State) (id : Nat) (r : Req) : State :=
  let site := (r.addr - guestBase) / 2 ^ 36
  let off := (r.addr - guestBase) % 2 ^ 36
  let g := s.guest site
  let al := s.allotOf r.core.parish
  let fits (x : BitVec 256) : Bool :=
    (if r.ch = .load then rRd x else rWr x) && decide (some (rAllot x) = al) && rCovers x 2 off r.piece.len
  if site ≥ s.fuses.guests then s.wellRefuse id r 1
  else if (s.reqs.filter fun e => decide (e.2.stage = .atGuest ∧ e.2.site = site)).length ≥ 1024 then s
  else if g.st ≠ .opened then (s.deny site 1 .notOpen r.typ 0 off al).wellRefuse id r 3
  else
    match g.rule fits with
    | none => (s.deny site 1 .noRule r.typ 0 off al).windowFault id r
    | some x =>
        let k : FabPkt :=
          { hdr := mkHdr r.typ false (if rBg x then 3 else 2) (s.allot (rAllot x)).tag (if r.ch = .load then 0 else 1) 0 s.feid 0 0
              0 off r.piece.len (b2n (r.poison.any fun b => b)) 0 id 0
            data := if r.ch = .load then [] else flitsOf r.data }
        let s := { s with reqs := s.reqs.put id { r with stage := .atGuest, site := site } }
        (s.bump (gsBase site + 0x88) (pFlits k)).send (.guest site k)

/-- The well checks a request: the first range that matches decides (R181). -/
def State.wellCheck (s : State) (id : Nat) (r : Req) (slow : List (Fin 64 × Nat)) : State :=
  let a := r.addr
  let p := s.parish r.core.parish
  if !p.railOn || p.dark then s
  else if (s.wellOf r.core).isNone then s.wellRefuse id r 3
  else if a < 2 * nearBase then s.wellMem id r
  else if a < directBase then s.wellCommons id r slow
  else if a < directBase + 2 ^ 37 then s.wellDirect id r
  else if registerBase ≤ a ∧ a < registerBase + 2 ^ 24 then s.wellRegister id r
  else if guestBase ≤ a ∧ a < guestBase + 2 ^ 38 then s.wellGuest id r
  else s.wellRefuse id r 1

/-- A request of a channel that has reached its well is checked. -/
def State.atWell (s : State) (id : Slowed Nat) (ch : Chan) : State :=
  match s.reqs.find? id.val with
  | some r => if r.ch = ch ∧ r.stage = .toWell then s.wellCheck id.val r id.slow else s
  | none => s

/-- READ: a carter's READ reaches its well and is checked, forwarded or answered (R178, R181). -/
def execRead (id : Slowed Nat) (s : State) : Host.Outcome State Fault Refusal := .next (s.atWell id .load)

/-- WRITE: a carter's WRITE reaches its well (R178, R181). -/
def execWrite (id : Slowed Nat) (s : State) : Host.Outcome State Fault Refusal := .next (s.atWell id .store)

/-! ### The memory controller (R191 to R201) -/

/-- The controller performs a request on the bytes from a key: a READ returns data with the POISON bit of each row, a WRITE stores
(R198, R199, R203). -/
def State.serveMem (s : State) (id : Nat) (r : Req) (key : Nat) : State :=
  let m := key / 2 ^ 36
  let n := r.piece.len
  let al := s.allotOf r.core.parish
  let s := s.activate key
  if r.ch = .load then
    let s := (s.touchMem 0 r.core.id al key n).bump (mcBase m + 0x68) n
    s.wellAnswer id r 0 (s.memBytes key n) (s.rowPoison key n)
  else ((s.storeMem 1 r.core.id al key r.data r.poison).bump (mcBase m + 0x70) n).wellRefuse id r 0

/-- MEMORY_ACCESS: a controller serves a request and returns its response; a stack out of service answers TARGET_ERROR (R191,
R196 to R201). Part of its time may have passed in a refresh window (R203). A request none of whose minimal routes avoids a dark
router waits for the escape table (R184). -/
def execMemoryAccess (id : Nat) (time : Latency) (s : State) : Host.Outcome State Fault Refusal :=
  .next (match s.reqs.find? id with
    | none => s
    | some r =>
      if r.stage ≠ .atMem then s
      else
        match s.viewDpa r.addr with
        | none => s.wellRefuse id r 1
        | some d =>
          let key := s.memKey d
          let m := key / 2 ^ 36
          if !s.hubToWell r.core (stackSector m) then s
          else if !s.stackUp m then s.wellRefuse id r 3
          else
            let t := (s.serveMem id r key).bump (mcBase m + 0x80) (min time.waitNs time.ns)
            t.noteLatency m (s.allotOf r.core.parish) time.ns (decide (t.memUe.length = s.memUe.length)))

/-! ### A core's data SRAM from the hub (R40, R178) -/

/-- Whether a direct-view request reaches SRAM that is there: offsets 0x1_8000 on are unpopulated (R40). -/
def Req.inSram (r : Req) : Bool := decide ((r.addr - directBase) % 2 ^ 17 + r.piece.len ≤ 0x18000)

/-- The answer of a core waits to leave for the hub, behind those that wait already. -/
def State.fieldAnswer (s : State) (q : Pos) (id : Nat) (r : Req) (status : BitVec 4) (data : List Byte) (poison : List Bool) :
    State :=
  { s.updCore q fun c => { c with answers := c.answers ++ [id] } with
    reqs := s.reqs.put id { r with stage := .fieldResp, status := status, data := data, poison := poison } }

/-- SRAM_READ: a direct-view read reaches a core's data SRAM over a slot its well may send in; it works whether or not the core
runs (R40, R178, R179). -/
def execSramRead (id : Nat) (s : State) : Host.Outcome State Fault Refusal :=
  .next (match s.reqs.find? id with
    | none => s
    | some r =>
      match r.target with
      | none => s
      | some q =>
        if r.stage ≠ .atField ∨ r.ch ≠ .load ∨ !s.hubToWell r.core (s.sectorOf q) then s
        else if !s.alive q ∨ !s.portOpen q false then s
        else if !r.inSram then s.fieldAnswer q id r 1 [] []
        else
          let a := (r.addr - directBase) % 2 ^ 17
          let rows := rowsOf a r.piece.len
          let s := s.touchSram q 0 (a / 16 * 16) (16 * rows.length)
          let c := s.core q
          s.fieldAnswer q id r 0 (c.bytes a r.piece.len) (rows.map fun w => c.poisoned (16 * w) 16))

/-- A direct-view write reaches a core's data SRAM (R40, R72, R75, R178, R179). -/
def State.sramWriteAt (s : State) (q : Pos) (id : Nat) : State :=
  match s.reqs.find? id with
  | none => s
  | some r =>
    if r.stage ≠ .atField ∨ r.ch ≠ .store ∨ r.target ≠ some q ∨ !s.hubToWell r.core (s.sectorOf q) then s
    else if !s.alive q ∨ !s.portOpen q false then s
    else if !r.inSram then s.fieldAnswer q id r 1 [] []
    else
      let a := (r.addr - directBase) % 2 ^ 17
      let l := (r.data.zipIdx).map fun e => (a + e.2, some e.1, (r.poison[(a + e.2) / 16 - a / 16]?).getD false)
      (s.carterWrite q l).fieldAnswer q id r 0 [] []

/-- SRAM_WRITE: the section loader writes block `k` of the shadow bank of a core (R155, R157, R178), its reads as slow as
the operand says (R196), or the direct-view write of request `k` reaches the core's data SRAM (R40). -/
def execSramWrite (p : Pos) (loader : Bool) (k : Slowed Nat) (s : State) :
    Host.Outcome State Fault Refusal :=
  .next (if loader then s.loaderWrite p k.val k.slow else s.sramWriteAt p k.val)

/-- Whether an answer of a core still waits to leave. -/
def State.answerDue (s : State) (q : Pos) (id : Nat) : Bool :=
  match s.reqs.find? id with
  | some r => decide (r.stage = .fieldResp ∧ r.target = some q)
  | none => false

/-- Whether a core's answer may leave over its CARTER endpoint: it is the oldest of those that wait, and the slot gives the
port to that endpoint (R120, R122). -/
def State.mayAnswer (s : State) (id : Nat) (q : Pos) : Bool :=
  s.portOpen q true && decide ((s.core q).answers.find? (s.answerDue q) = some id)

/-- A core's answer reaches the hub and goes to the requester (R120, R178). -/
def State.fieldReturn (s : State) (id : Nat) (ch : Chan) : State :=
  match s.reqs.find? id with
  | some r =>
    match r.target with
    | some q =>
      if r.stage = .fieldResp ∧ r.ch = ch ∧ s.mayAnswer id q then
        (s.updCore q fun c => { c with answers := c.answers.erase id }).wellAnswer id r r.status r.data r.poison
      else s
    | none => s
  | none => s

/-- SRAM_READ_RESP: the answer to a direct-view read reaches the hub (R178). -/
def execSramReadResp (id : Nat) (s : State) : Host.Outcome State Fault Refusal := .next (s.fieldReturn id .load)

/-- SRAM_WRITE_ACK: the acknowledgement of a direct-view write reaches the hub (R178). -/
def execSramWriteAck (id : Nat) (s : State) : Host.Outcome State Fault Refusal := .next (s.fieldReturn id .store)

end Sys2Proof.Machine
end

