-- ==== Sys2Proof/Machine/Dispatch.lean ====
section
/-! DEFINITION. The dispatch: one arm for each command, a direct call of its meaning. -/

namespace Sys2Proof.Machine

def exec (i : Instr) (s : State) : Host.Outcome State Fault Refusal :=
  match i with
  | .powerEnRise => Sys2Proof.Machine.execPowerEnRise s
  | .powerEnFall => Sys2Proof.Machine.execPowerEnFall s
  | .resetNFall => Sys2Proof.Machine.execResetNFall s
  | .resetNRise o => Sys2Proof.Machine.execResetNRise o s
  | .resetReleaseImplied o => Sys2Proof.Machine.execResetReleaseImplied o s
  | .startupSlotWait o => Sys2Proof.Machine.execStartupSlotWait o s
  | .warmN => Sys2Proof.Machine.execWarmN s
  | .warmRestart o => Sys2Proof.Machine.execWarmRestart o s
  | .undervoltageLockout => Sys2Proof.Machine.execUndervoltageLockout s
  | .hubSectorLost h cause => Sys2Proof.Machine.execHubSectorLost h cause s
  | .escapeTableLoad => Sys2Proof.Machine.execEscapeTableLoad s
  | .railFault rail o => Sys2Proof.Machine.execRailFault rail o s
  | .thermalTrip stack unit deciC => Sys2Proof.Machine.execThermalTrip stack unit deciC s
  | .add p f => Sys2Proof.Machine.execAdd p f s
  | .sub p f => Sys2Proof.Machine.execSub p f s
  | .and p f => Sys2Proof.Machine.execAnd p f s
  | .or p f => Sys2Proof.Machine.execOr p f s
  | .xor p f => Sys2Proof.Machine.execXor p f s
  | .sll p f => Sys2Proof.Machine.execSll p f s
  | .srl p f => Sys2Proof.Machine.execSrl p f s
  | .sra p f => Sys2Proof.Machine.execSra p f s
  | .slt p f => Sys2Proof.Machine.execSlt p f s
  | .sltu p f => Sys2Proof.Machine.execSltu p f s
  | .min p f => Sys2Proof.Machine.execMin p f s
  | .max p f => Sys2Proof.Machine.execMax p f s
  | .mul p f => Sys2Proof.Machine.execMul p f s
  | .mulh p f => Sys2Proof.Machine.execMulh p f s
  | .mulhu p f => Sys2Proof.Machine.execMulhu p f s
  | .div p f => Sys2Proof.Machine.execDiv p f s
  | .divu p f => Sys2Proof.Machine.execDivu p f s
  | .rem p f => Sys2Proof.Machine.execRem p f s
  | .remu p f => Sys2Proof.Machine.execRemu p f s
  | .addi p f => Sys2Proof.Machine.execAddi p f s
  | .slti p f => Sys2Proof.Machine.execSlti p f s
  | .andi p f => Sys2Proof.Machine.execAndi p f s
  | .ori p f => Sys2Proof.Machine.execOri p f s
  | .xori p f => Sys2Proof.Machine.execXori p f s
  | .slli p f => Sys2Proof.Machine.execSlli p f s
  | .srli p f => Sys2Proof.Machine.execSrli p f s
  | .srai p f => Sys2Proof.Machine.execSrai p f s
  | .luh p f => Sys2Proof.Machine.execLuh p f s
  | .llo p f => Sys2Proof.Machine.execLlo p f s
  | .lw p f => Sys2Proof.Machine.execLw p f s
  | .sw p f => Sys2Proof.Machine.execSw p f s
  | .lh p f => Sys2Proof.Machine.execLh p f s
  | .lhu p f => Sys2Proof.Machine.execLhu p f s
  | .sh p f => Sys2Proof.Machine.execSh p f s
  | .branchEq p f => Sys2Proof.Machine.execBranchEq p f s
  | .branchNe p f => Sys2Proof.Machine.execBranchNe p f s
  | .branchLt p f => Sys2Proof.Machine.execBranchLt p f s
  | .branchGe p f => Sys2Proof.Machine.execBranchGe p f s
  | .branchLtu p f => Sys2Proof.Machine.execBranchLtu p f s
  | .branchGeu p f => Sys2Proof.Machine.execBranchGeu p f s
  | .loop p f => Sys2Proof.Machine.execLoop p f s
  | .jal p f h => Sys2Proof.Machine.execJal p f h s
  | .jalr p f => Sys2Proof.Machine.execJalr p f s
  | .nop p f => Sys2Proof.Machine.execNop p f s
  | .endIssue p f => Sys2Proof.Machine.execEndIssue p f s
  | .endRetire p => Sys2Proof.Machine.execEndRetire p s
  | .fence p f => Sys2Proof.Machine.execFence p f s
  | .fenceDone p => Sys2Proof.Machine.execFenceDone p s
  | .csrr p f => Sys2Proof.Machine.execCsrr p f s
  | .csrw p f => Sys2Proof.Machine.execCsrw p f s
  | .bellwait p f => Sys2Proof.Machine.execBellwait p f s
  | .pcmpEq p f => Sys2Proof.Machine.execPcmpEq p f s
  | .pcmpNe p f => Sys2Proof.Machine.execPcmpNe p f s
  | .pcmpLt p f => Sys2Proof.Machine.execPcmpLt p f s
  | .pcmpGe p f => Sys2Proof.Machine.execPcmpGe p f s
  | .pcmpLtu p f => Sys2Proof.Machine.execPcmpLtu p f s
  | .pcmpGeu p f => Sys2Proof.Machine.execPcmpGeu p f s
  | .pset p f => Sys2Proof.Machine.execPset p f s
  | .pand p f => Sys2Proof.Machine.execPand p f s
  | .por p f => Sys2Proof.Machine.execPor p f s
  | .pxor p f => Sys2Proof.Machine.execPxor p f s
  | .pnot p f => Sys2Proof.Machine.execPnot p f s
  | .vadd p f => Sys2Proof.Machine.execVadd p f s
  | .vsub p f => Sys2Proof.Machine.execVsub p f s
  | .vmul p f => Sys2Proof.Machine.execVmul p f s
  | .vfma p f => Sys2Proof.Machine.execVfma p f s
  | .vmax p f => Sys2Proof.Machine.execVmax p f s
  | .vmin p f => Sys2Proof.Machine.execVmin p f s
  | .vabs p f => Sys2Proof.Machine.execVabs p f s
  | .vexp2 p f => Sys2Proof.Machine.execVexp2 p f s
  | .vrcp p f => Sys2Proof.Machine.execVrcp p f s
  | .vrsqrt p f => Sys2Proof.Machine.execVrsqrt p f s
  | .vredsum p f => Sys2Proof.Machine.execVredsum p f s
  | .vredmax p f => Sys2Proof.Machine.execVredmax p f s
  | .vcmp p f => Sys2Proof.Machine.execVcmp p f s
  | .vsel p f => Sys2Proof.Machine.execVsel p f s
  | .vcvt p f => Sys2Proof.Machine.execVcvt p f s
  | .viadd p f => Sys2Proof.Machine.execViadd p f s
  | .vand p f => Sys2Proof.Machine.execVand p f s
  | .vor p f => Sys2Proof.Machine.execVor p f s
  | .vxor p f => Sys2Proof.Machine.execVxor p f s
  | .vsrl p f => Sys2Proof.Machine.execVsrl p f s
  | .vld p f => Sys2Proof.Machine.execVld p f s
  | .vst p f => Sys2Proof.Machine.execVst p f s
  | .vbcast p f => Sys2Proof.Machine.execVbcast p f s
  | .vins p f => Sys2Proof.Machine.execVins p f s
  | .vext p f => Sys2Proof.Machine.execVext p f s
  | .wld p f => Sys2Proof.Machine.execWld p f s
  | .mma p f => Sys2Proof.Machine.execMma p f s
  | .accz p f => Sys2Proof.Machine.execAccz p f s
  | .accrd p f => Sys2Proof.Machine.execAccrd p f s
  | .accwr p f => Sys2Proof.Machine.execAccwr p f s
  | .msync p f => Sys2Proof.Machine.execMsync p f s
  | .msyncDone p => Sys2Proof.Machine.execMsyncDone p s
  | .matrixCommandStart p pipe => Sys2Proof.Machine.execMatrixCommandStart p pipe s
  | .qpopV p f => Sys2Proof.Machine.execQpopV p f s
  | .qpushV p f => Sys2Proof.Machine.execQpushV p f s
  | .qpopS p f => Sys2Proof.Machine.execQpopS p f s
  | .qpushS p f => Sys2Proof.Machine.execQpushS p f s
  | .qvoid p f => Sys2Proof.Machine.execQvoid p f s
  | .qlast p f => Sys2Proof.Machine.execQlast p f s
  | .qstat p f => Sys2Proof.Machine.execQstat p f s
  | .queueWaitEnd p => Sys2Proof.Machine.execQueueWaitEnd p s
  | .tinc p f => Sys2Proof.Machine.execTinc p f s
  | .tdec p f => Sys2Proof.Machine.execTdec p f s
  | .twait p f => Sys2Proof.Machine.execTwait p f s
  | .twaitd p f => Sys2Proof.Machine.execTwaitd p f s
  | .tread p f => Sys2Proof.Machine.execTread p f s
  | .tallyOperationArrival p carter lvl => Sys2Proof.Machine.execTallyOperationArrival p carter lvl s
  | .tallyAnswer p => Sys2Proof.Machine.execTallyAnswer p s
  | .dld p f => Sys2Proof.Machine.execDld p f s
  | .dst p f => Sys2Proof.Machine.execDst p f s
  | .dstat p f => Sys2Proof.Machine.execDstat p f s
  | .tkinit p f => Sys2Proof.Machine.execTkinit p f s
  | .tkpush p f => Sys2Proof.Machine.execTkpush p f s
  | .tkrd p f => Sys2Proof.Machine.execTkrd p f s
  | .tkrdi p f => Sys2Proof.Machine.execTkrdi p f s
  | .sample p f => Sys2Proof.Machine.execSample p f s
  | .rand p f => Sys2Proof.Machine.execRand p f s
  | .sramCeWriteback p addr => Sys2Proof.Machine.execSramCeWriteback p addr s
  | .bankSwap p => Sys2Proof.Machine.execBankSwap p s
  | .tokenTransfer p out bad => Sys2Proof.Machine.execTokenTransfer p out bad s
  | .slotAdvance p => Sys2Proof.Machine.execSlotAdvance p s
  | .sum p => Sys2Proof.Machine.execSum p s
  | .refill p q => Sys2Proof.Machine.execRefill p q s
  | .deadmap path par col hi value => Sys2Proof.Machine.execDeadmap path par col hi value s
  | .fallow path par hi value => Sys2Proof.Machine.execFallow path par hi value s
  | .ctrclr path offset value => Sys2Proof.Machine.execCtrclr path offset value s
  | .sectionLoaderFill a => Sys2Proof.Machine.execSectionLoaderFill a s
  | .bellTick shortPulse => Sys2Proof.Machine.execBellTick shortPulse s
  | .bellWave par low => Sys2Proof.Machine.execBellWave par low s
  | .sectionOverrun a => Sys2Proof.Machine.execSectionOverrun a s
  | .graceExpiry a => Sys2Proof.Machine.execGraceExpiry a s
  | .coreLost p => Sys2Proof.Machine.execCoreLost p s
  | .quiescenceCheck a => Sys2Proof.Machine.execQuiescenceCheck a s
  | .signatureCompare a => Sys2Proof.Machine.execSignatureCompare a s
  | .riserCalibration par dA dB skew => Sys2Proof.Machine.execRiserCalibration par dA dB skew s
  | .deadlock a => Sys2Proof.Machine.execDeadlock a s
  | .watchSnapshotDone a => Sys2Proof.Machine.execWatchSnapshotDone a s
  | .crierPlaneDown plane sector unit link => Sys2Proof.Machine.execCrierPlaneDown plane sector unit link s
  | .hubTally path idx value => Sys2Proof.Machine.execHubTally path idx value s
  | .parishTally path par idx value => Sys2Proof.Machine.execParishTally path par idx value s
  | .read id => Sys2Proof.Machine.execRead id s
  | .write id => Sys2Proof.Machine.execWrite id s
  | .memoryAccess id time => Sys2Proof.Machine.execMemoryAccess id time s
  | .readResp id => Sys2Proof.Machine.execReadResp id s
  | .writeAck id => Sys2Proof.Machine.execWriteAck id s
  | .sramWrite p loader k => Sys2Proof.Machine.execSramWrite p loader k s
  | .sramRead id => Sys2Proof.Machine.execSramRead id s
  | .sramReadResp id => Sys2Proof.Machine.execSramReadResp id s
  | .sramWriteAck id => Sys2Proof.Machine.execSramWriteAck id s
  | .refreshWindow group second => Sys2Proof.Machine.execRefreshWindow group second s
  | .scrubRead stack => Sys2Proof.Machine.execScrubRead stack s
  | .ceHourlyRoll => Sys2Proof.Machine.execCeHourlyRoll s
  | .stackOffline stack cause => Sys2Proof.Machine.execStackOffline stack cause s
  | .descriptorStart p ch => Sys2Proof.Machine.execDescriptorStart p ch s
  | .carterRequest p ch => Sys2Proof.Machine.execCarterRequest p ch s
  | .descriptorComplete p ch => Sys2Proof.Machine.execDescriptorComplete p ch s
  | .resume path par => Sys2Proof.Machine.execResume path par s
  | .skip path par fill => Sys2Proof.Machine.execSkip path par fill s
  | .abort path par all => Sys2Proof.Machine.execAbort path par all s
  | .dmaDrainTimeout p => Sys2Proof.Machine.execDmaDrainTimeout p s
  | .monitorWindow o => Sys2Proof.Machine.execMonitorWindow o s
  | .edgeGap src shortPulse => Sys2Proof.Machine.execEdgeGap src shortPulse s
  | .primarySwitch => Sys2Proof.Machine.execPrimarySwitch s
  | .clkSelect path value => Sys2Proof.Machine.execClkSelect path value s
  | .muxSwitchComplete => Sys2Proof.Machine.execMuxSwitchComplete s
  | .muxStuck shortPulse => Sys2Proof.Machine.execMuxStuck shortPulse s
  | .fmeterStart path value => Sys2Proof.Machine.execFmeterStart path value s
  | .fmeterDone count => Sys2Proof.Machine.execFmeterDone count s
  | .fmeterTimeout => Sys2Proof.Machine.execFmeterTimeout s
  | .marker count period domainId level oos atPeriod atPs => Sys2Proof.Machine.execMarker count period domainId level oos atPeriod atPs s
  | .markerLost => Sys2Proof.Machine.execMarkerLost s
  | .markerSend => Sys2Proof.Machine.execMarkerSend s
  | .codeword port group lseq symErr ctrl flits => Sys2Proof.Machine.execCodeword port group lseq symErr ctrl flits s
  | .ack port group lseq => Sys2Proof.Machine.execAck port group lseq s
  | .nak port group lseq => Sys2Proof.Machine.execNak port group lseq s
  | .credit port vc n => Sys2Proof.Machine.execCredit port vc n s
  | .train port o => Sys2Proof.Machine.execTrain port o s
  | .gfail port lost lseq => Sys2Proof.Machine.execGfail port lost lseq s
  | .groupLost port group cause => Sys2Proof.Machine.execGroupLost port group cause s
  | .portTraining port => Sys2Proof.Machine.execPortTraining port s
  | .trainingComplete port o => Sys2Proof.Machine.execTrainingComplete port o s
  | .retrainTimer port => Sys2Proof.Machine.execRetrainTimer port s
  | .portCtl path port value => Sys2Proof.Machine.execPortCtl path port value s
  | .portDrainTimeout port => Sys2Proof.Machine.execPortDrainTimeout port s
  | .fabricRead port pkt => Sys2Proof.Machine.execFabricRead port pkt s
  | .fabricWrite port pkt => Sys2Proof.Machine.execFabricWrite port pkt s
  | .fabricReadResp port pkt => Sys2Proof.Machine.execFabricReadResp port pkt s
  | .fabricWriteAck port pkt => Sys2Proof.Machine.execFabricWriteAck port pkt s
  | .notice port pkt => Sys2Proof.Machine.execNotice port pkt s
  | .transferTimeout id => Sys2Proof.Machine.execTransferTimeout id s
  | .reduce port pkt => Sys2Proof.Machine.execReduce port pkt s
  | .reductionTrigger entry => Sys2Proof.Machine.execReductionTrigger entry s
  | .reductionStall entry => Sys2Proof.Machine.execReductionStall entry s
  | .reductionPoisonFill entry => Sys2Proof.Machine.execReductionPoisonFill entry s
  | .noEntryTimeout port => Sys2Proof.Machine.execNoEntryTimeout port s
  | .tallyInc port pkt => Sys2Proof.Machine.execTallyInc port pkt s
  | .stretch port pkt => Sys2Proof.Machine.execStretch port pkt s
  | .domain port pkt => Sys2Proof.Machine.execDomain port pkt s
  | .routeCmdRead path => Sys2Proof.Machine.execRouteCmdRead path s
  | .routeCmdWrite path => Sys2Proof.Machine.execRouteCmdWrite path s
  | .send qp msg => Sys2Proof.Machine.execSend qp msg s
  | .openSession qp => Sys2Proof.Machine.execOpenSession qp s
  | .close ses => Sys2Proof.Machine.execClose ses s
  | .allot ses wintab => Sys2Proof.Machine.execAllot ses wintab s
  | .release a => Sys2Proof.Machine.execRelease a s
  | .load a => Sys2Proof.Machine.execLoad a s
  | .run a => Sys2Proof.Machine.execRun a s
  | .halt ses => Sys2Proof.Machine.execHalt ses s
  | .status ses => Sys2Proof.Machine.execStatus ses s
  | .stats ses => Sys2Proof.Machine.execStats ses s
  | .ledgerRead ses => Sys2Proof.Machine.execLedgerRead ses s
  | .setOp ses => Sys2Proof.Machine.execSetOp ses s
  | .contextSave a => Sys2Proof.Machine.execContextSave a s
  | .contextRestore a => Sys2Proof.Machine.execContextRestore a s
  | .resetFunction a => Sys2Proof.Machine.execResetFunction a s
  | .routeAmend ses a => Sys2Proof.Machine.execRouteAmend ses a s
  | .fwStage ses img => Sys2Proof.Machine.execFwStage ses img s
  | .queuedCommandStart a => Sys2Proof.Machine.execQueuedCommandStart a s
  | .cmReq port qp mtu ip => Sys2Proof.Machine.execCmReq port qp mtu ip s
  | .rdmaWrite qp rkey va data => Sys2Proof.Machine.execRdmaWrite qp rkey va data s
  | .rdmaRead qp rkey va len => Sys2Proof.Machine.execRdmaRead qp rkey va len s
  | .ringConsumerPoll ses ring => Sys2Proof.Machine.execRingConsumerPoll ses ring s
  | .qpError qp => Sys2Proof.Machine.execQpError qp s
  | .sessionExpired ses => Sys2Proof.Machine.execSessionExpired ses s
  | .hostPortDown port => Sys2Proof.Machine.execHostPortDown port s
  | .hpCtl path port value => Sys2Proof.Machine.execHpCtl path port value s
  | .ptp port time ns offset => Sys2Proof.Machine.execPtp port time ns offset s
  | .hostTodLost => Sys2Proof.Machine.execHostTodLost s
  | .taiSecond => Sys2Proof.Machine.execTaiSecond s
  | .todSec path => Sys2Proof.Machine.execTodSec path s
  | .cnp qp => Sys2Proof.Machine.execCnp qp s
  | .arp port target => Sys2Proof.Machine.execArp port target s
  | .neighbourDiscovery port target => Sys2Proof.Machine.execNeighbourDiscovery port target s
  | .icmpEcho port echo => Sys2Proof.Machine.execIcmpEcho port echo s
  | .reeveTelemetry o => Sys2Proof.Machine.execReeveTelemetry o s
  | .deferMaxExpiry a => Sys2Proof.Machine.execDeferMaxExpiry a s
  | .floorHoldExpiry => Sys2Proof.Machine.execFloorHoldExpiry s
  | .droop par ns => Sys2Proof.Machine.execDroop par ns s
  | .droopEnd par => Sys2Proof.Machine.execDroopEnd par s
  | .parishThrottle par deciC => Sys2Proof.Machine.execParishThrottle par deciC s
  | .throttleStep par hot => Sys2Proof.Machine.execThrottleStep par hot s
  | .stackThrottle stack deciC => Sys2Proof.Machine.execStackThrottle stack deciC s
  | .reeveFailover => Sys2Proof.Machine.execReeveFailover s
  | .loanRequest port pkt => Sys2Proof.Machine.execLoanRequest port pkt s
  | .loanCollection => Sys2Proof.Machine.execLoanCollection s
  | .loanGrant port pkt => Sys2Proof.Machine.execLoanGrant port pkt s
  | .loanDecline port pkt => Sys2Proof.Machine.execLoanDecline port pkt s
  | .loanExpiry k => Sys2Proof.Machine.execLoanExpiry k s
  | .energyRescale => Sys2Proof.Machine.execEnergyRescale s
  | .cap path value => Sys2Proof.Machine.execCap path value s
  | .capMax path value => Sys2Proof.Machine.execCapMax path value s
  | .railCtl path par value => Sys2Proof.Machine.execRailCtl path par value s
  | .getVersion => Sys2Proof.Machine.execGetVersion s
  | .getCapabilities version => Sys2Proof.Machine.execGetCapabilities version s
  | .negotiateAlgorithms asym hash meas => Sys2Proof.Machine.execNegotiateAlgorithms asym hash meas s
  | .getDigests => Sys2Proof.Machine.execGetDigests s
  | .getCertificate slot off len => Sys2Proof.Machine.execGetCertificate slot off len s
  | .challenge slot nonce => Sys2Proof.Machine.execChallenge slot nonce s
  | .getMeasurements index nonce => Sys2Proof.Machine.execGetMeasurements index nonce s
  | .getTid => Sys2Proof.Machine.execGetTid s
  | .getPldmVersion typ => Sys2Proof.Machine.execGetPldmVersion typ s
  | .getPldmTypes => Sys2Proof.Machine.execGetPldmTypes s
  | .getPldmCommands typ => Sys2Proof.Machine.execGetPldmCommands typ s
  | .pldmSensorRead id => Sys2Proof.Machine.execPldmSensorRead id s
  | .pldmFirmwareUpdate u => Sys2Proof.Machine.execPldmFirmwareUpdate u s
  | .pldmShutdown slack appendOk => Sys2Proof.Machine.execPldmShutdown slack appendOk s
  | .guestPacket site pkt => Sys2Proof.Machine.execGuestPacket site pkt s
  | .guestTraining site mods => Sys2Proof.Machine.execGuestTraining site mods s
  | .guestTrainingTimeout site => Sys2Proof.Machine.execGuestTrainingTimeout site s
  | .guestSpdmResponse site ans => Sys2Proof.Machine.execGuestSpdmResponse site ans s
  | .guestAttestTimeout site => Sys2Proof.Machine.execGuestAttestTimeout site s
  | .reattestPeriodExpiry site => Sys2Proof.Machine.execReattestPeriodExpiry site s
  | .gsCtlFence path site => Sys2Proof.Machine.execGsCtlFence path site s
  | .gsCtlReattest path site => Sys2Proof.Machine.execGsCtlReattest path site s
  | .fenceDrainTimeout site => Sys2Proof.Machine.execFenceDrainTimeout site s
  | .ruleCmdRead path site => Sys2Proof.Machine.execRuleCmdRead path site s
  | .ruleCmdWrite path site => Sys2Proof.Machine.execRuleCmdWrite path site s
  | .guestNoResponse id => Sys2Proof.Machine.execGuestNoResponse id s
  | .guestLost site cause => Sys2Proof.Machine.execGuestLost site cause s
  | .wearAppend slack okA okB => Sys2Proof.Machine.execWearAppend slack okA okB s
  | .appendSite path => Sys2Proof.Machine.execAppendSite path s
  | .revokeFwKey path key => Sys2Proof.Machine.execRevokeFwKey path key s
  | .programOwner path slot => Sys2Proof.Machine.execProgramOwner path slot s
  | .revokeOwner path slot => Sys2Proof.Machine.execRevokeOwner path slot s
  | .fuseProgrammingDone ok => Sys2Proof.Machine.execFuseProgrammingDone ok s
  | .bootSelect path value => Sys2Proof.Machine.execBootSelect path value s
  | .warmReq path => Sys2Proof.Machine.execWarmReq path s
  | .shutdown path slack appendOk => Sys2Proof.Machine.execShutdown path slack appendOk s
  | .softRepair k => Sys2Proof.Machine.execSoftRepair k s
  | .suspectHold path hold => Sys2Proof.Machine.execSuspectHold path hold s
  | .suspectClear path => Sys2Proof.Machine.execSuspectClear path s
  | .stewardRestart k inTenMinutes => Sys2Proof.Machine.execStewardRestart k inTenMinutes s
  | .unlock path block value => Sys2Proof.Machine.execUnlock path block value s
  | .registerWrite path offset value => Sys2Proof.Machine.execRegisterWrite path offset value s
  | .postedWriteDone block => Sys2Proof.Machine.execPostedWriteDone block s
  | .hostLinkUp port => Sys2Proof.Machine.execHostLinkUp port s
  | .regulatorLoss rail second => Sys2Proof.Machine.execRegulatorLoss rail second s
  | .ackIntervalExpiry port group => Sys2Proof.Machine.execAckIntervalExpiry port group s
  | .reduceOutPortTimeout port => Sys2Proof.Machine.execReduceOutPortTimeout port s
  | .pfcPause port prio => Sys2Proof.Machine.execPfcPause port prio s
  | .rdmaReadResponse ses ring consumer => Sys2Proof.Machine.execRdmaReadResponse ses ring consumer s
  | .mctpEventRead => Sys2Proof.Machine.execMctpEventRead s

end Sys2Proof.Machine
end

