-- ==== Sys2Proof/Safety.lean ====
section
/-! DEFINITION. What counts as a safe step, and the properties of states that the statements are about. -/

namespace Sys2Proof.Machine

/-- The core at a position is ready to issue an instruction with a predicate that lets it take effect (R39, R44, R46, R48, R80,
R146): its site works and its allotment is not HALTED, a bank is ACTIVE, nothing is waited for, the word at its PC is in
the text region, reads without an uncorrectable error and has an assigned class and operation code. -/
structure State.ready (s : State) (p : Pos) (pr : Pred) : Prop where
  thawed : s.frozen p = false
  issues : (s.core p).canIssue = true
  fetched : (s.core p).active.ue.contains ((s.core p).pc / 2) = false
  inText : (s.core p).pc < 1536
  assigned : (s.core p).assigned = true
  legal : ¬ (pr.pn = 1 ∧ pr.ps = 0)
  taken : (s.core p).takes pr = true

/-- The same for an instruction predicated off. -/
structure State.readyOff (s : State) (p : Pos) (pr : Pred) : Prop where
  thawed : s.frozen p = false
  issues : (s.core p).canIssue = true
  fetched : (s.core p).active.ue.contains ((s.core p).pc / 2) = false
  inText : (s.core p).pc < 1536
  assigned : (s.core p).assigned = true
  legal : ¬ (pr.pn = 1 ∧ pr.ps = 0)
  off : (s.core p).takes pr = false

/-- No check of an instruction fails. -/
def Check.clean (k : Check) : Prop := ∀ x ∈ k.word ++ k.always ++ k.on, x.1 = false

/-- No accumulator read that has not run writes a vector register the instruction reads (R59). -/
def Check.unblocked (k : Check) (c : Core) : Prop := ∀ r ∈ k.reads, c.accrdPending r.toNat = false

/-- The state an instruction leaves that writes one scalar register and goes on. -/
def State.wroteS (s : State) (p : Pos) (rd : BitVec 5) (v : Word) (poison : Bool) : State :=
  s.retire p ((s.core p).setS rd v poison).next

/-- The state an instruction leaves that writes one predicate and goes on. -/
def State.wroteP (s : State) (p : Pos) (pd : BitVec 5) (v : Bool) : State :=
  s.retire p ((s.core p).setP (predNo pd) v).next

/-- The state a lane instruction leaves: the lanes and flags of `l` go to vd and VSTAT, and the quarters' poison. -/
def State.wroteLanes (s : State) (p : Pos) (vd : BitVec 4) (l : List (Word × Flg)) (poison : BitVec 4) : State :=
  s.retire p (((s.core p).flag (gatherLanes l).2).setV vd (gatherLanes l).1 poison).next

/-- Nothing changes but at core `p`, and there no byte of data SRAM outside `n` from `ea`, and no tally or queue. -/
structure State.keepsBut (s t : State) (p : Pos) (ea n : Nat) : Prop where
  cores : ∀ q : Pos, q.id ≠ p.id → t.core q = s.core q
  memory : ∀ k, t.memByte k = s.memByte k
  sram : ∀ k, k < ea ∨ ea + n ≤ k → (t.core p).byte k = (s.core p).byte k
  tallies : (t.core p).t = (s.core p).t ∧ t.hub = s.hub ∧ ∀ par, (t.parish par).tallies = (s.parish par).tallies
  queues : (t.core p).inq = (s.core p).inq ∧ (t.core p).outq = (s.core p).outq
  mesh : t.xroads = s.xroads

/-- The same with every byte of data SRAM unchanged. -/
def State.keeps (s t : State) (p : Pos) : Prop := s.keepsBut t p 0 0

/-- No scalar register of a core but one changes, nor its poison bit. -/
def State.keepsS (s t : State) (p : Pos) (rd : BitVec 5) : Prop :=
  ∀ r, r ≠ rd → (t.core p).sreg r = (s.core p).sreg r ∧ (t.core p).spois r = (s.core p).spois r

/-- No vector register of a core but at most one changes, nor its poison bits; no accumulator tile and no weight buffer does. -/
def State.keepsV (s t : State) (p : Pos) (vd : Option (BitVec 4)) : Prop :=
  (t.core p).acc = (s.core p).acc ∧ (t.core p).w = (s.core p).w ∧
    ∀ r, vd ≠ some r → (t.core p).vreg r = (s.core p).vreg r ∧ (t.core p).vpois r = (s.core p).vpois r

/-- An access of `n` bytes that a core may make through a register (R38, R39, R81). -/
def accessible (c : Core) (r : BitVec 5) (ea n al : Nat) : Prop :=
  c.spois r = false ∧ (c.sreg r).toNat < 2 ^ 18 ∧ regionOf ea n ≠ .nowhere ∧ ea % al = 0

/-- A frame on a QP's port of at most 9,216 bytes whose check sequence is right, in the VLAN of the QP's address, with no CE mark
(R320). -/
def Qp.takes (q : Qp) (f : Frame) : Prop := f.fcsBad = false ∧ f.bytes ≤ 9216 ∧ f.vlan = q.vlan ∧ f.ce = false

/-- The outcome is a next state, and it has the property. -/
def leads (o : Host.Outcome State Fault Refusal) (P : State → Prop) : Prop := ∃ t, o = .next t ∧ P t

/-- On the way from `s` to `t` an event of a code was raised: the log of events has grown, and one of the new ones has it. -/
def State.raises (s t : State) (code : Nat) : Prop := ∃ l, t.events = l ++ s.events ∧ ∃ e ∈ l, e.code = code

/-- A write that a posted block takes: it reaches the block, is not one a core's path ignores, is armed where the register is
key-guarded, and finds the block in service and no write pending (R486, R487, R490, R494, R495, R498). -/
structure State.takesPost (s : State) (path : RegPath) (o : Nat) (rwk : Bool) : Prop where
  reached : s.reaches path o = true
  allowed : State.coreIgnored path o = false
  keyed : rwk = true → s.keyed path ((blockOf o).getD 0) = true
  there : (s.consumeArm path ((blockOf o).getD 0)).absent o = false
  free : s.posted.find? ((blockOf o).getD 0) = none

/-- The state after a posted block has taken a write: its effect is still to come, and BUSY reads set. -/
def State.postedWith (s : State) (path : RegPath) (o : Nat) (v : DWord) : State :=
  let t := s.consumeArm path ((blockOf o).getD 0)
  { t with posted := t.posted.put ((blockOf o).getD 0) { offset := o, value := v } }

/-- Fuses burn one way (R410, R438, R439): what was revoked, programmed or recorded in `f` still is in `g`, no rollback
counter is lower, and the identity and the factory maps are the same. -/
structure Fuses.kept (f g : Fuses) : Prop where
  keys : ∀ k, bit f.fwRevoked k = true → bit g.fwRevoked k = true
  owner0 : f.owner0.programmed = true → g.owner0.programmed = true ∧ g.owner0.hash = f.owner0.hash
  owner1 : f.owner1.programmed = true → g.owner1.programmed = true ∧ g.owner1.hash = f.owner1.hash
  revoked0 : f.owner0.revoked = true → g.owner0.revoked = true
  revoked1 : f.owner1.revoked = true → g.owner1.revoked = true
  rollFw : f.rollFw ≤ g.rollFw
  rollCfg : f.rollCfg ≤ g.rollCfg
  infield : List.IsPrefix f.infield g.infield
  order : g.orderB = f.orderB ∧ g.orderF = f.orderF ∧ g.guests = f.guests ∧ g.grade = f.grade
  maps : g.dead = f.dead ∧ g.sramRows = f.sramRows ∧ g.deadWells = f.deadWells ∧ g.badLanes = f.badLanes ∧
    g.hostLanes = f.hostLanes ∧ g.wires = f.wires ∧ g.coeff = f.coeff

/-- An owner slot being programmed is not programmed yet (R410). -/
def Fuses.steady (f : Fuses) : Prop :=
  ∀ (k : Nat) (h : BitVec 256), f.busy = some (.programOwner k h) → (f.owner k).programmed = false

/-- The entry of an LSN is DONE with a status and a DETAIL (R342, R344, R345). -/
def State.done (t : State) (lsn status detail : Nat) : Prop :=
  ∃ i e, t.entryOf lsn = some (i, e) ∧ e.st = 2 ∧ e.status = BitVec.ofNat 8 status ∧ e.detail = BitVec.ofNat 16 detail

/-- A session executes an immediate command of an opcode, and neither it nor another session has accepted one that is still to be
taken up (R339). -/
structure State.executes (s : State) (id op lsn : Nat) (x : Session) (e : LEntry) : Prop where
  head : s.immHead id op = some (lsn, x, e)
  only : x.imm = [lsn]
  alone : ∀ y ∈ s.ses, y.1 ≠ id → y.2.imm = []
  mine : e.ses.toNat = id
  attached : x.attached = true

/-- An allotment executes a queued command of an opcode, and no session has accepted one that is still to be taken up (R346). -/
structure State.runsCommand (s : State) (a : Fin 16) (op lsn : Nat) (e : LEntry) : Prop where
  active : s.activeCmd a op = some (lsn, e)
  idle : ∀ y ∈ s.ses, y.2.imm = []

/-- The commands lie in different entries of the ledger (R343). -/
def State.apart (s : State) (l : List Nat) : Prop :=
  l.Pairwise fun p q => ∀ i j d e, s.entryOf p = some (i, d) → s.entryOf q = some (j, e) → i ≠ j

end Sys2Proof.Machine
end

