-- ==== Sys2Proof/WellFormed.lean ====
section
/-! DEFINITION. The shape of a command that the spec's tables allow and the operand types alone do not enforce. The machine
runs an ill-formed command too, by the same rules; no statement assumes well-formedness unless it says so. -/

namespace Sys2Proof

/-- A packet carries at most 32 data flits (R291). -/
def FabPkt.wf (k : FabPkt) : Bool := decide (k.data.length ≤ 32)

/-- A training finds a group's lanes and codeword lock good, or names a cause (R286, R317). -/
def TrainObs.wf (o : TrainObs) : Bool := o.group0 || o.group1 || decide (o.cause ≠ 0)

/-- What the types of the operands leave open, by command. -/
def Instr.wf : Instr → Bool
  -- the loader writes a bank of 128 blocks (R76, R178)
  | .sramWrite _ loader k => !loader || decide (k.val < 128)
  -- a tally operation travels to a parish or a hub tally (R257)
  | .tallyOperationArrival _ _ lvl => decide (lvl.val = 1 ∨ lvl.val = 2)
  -- 16 sectors or 78 parishes (R268), 64 stacks or 78 parishes (R385)
  | .crierPlaneDown _ sector unit _ => !sector || decide (unit.val < 16)
  | .thermalTrip stack unit _ => !stack || decide (unit.val < 64)
  -- three causes (R419)
  | .guestLost _ cause => decide (cause.toNat ≤ 2)
  -- a codeword has 10 slots, and 68 of its 544 symbols run over each lane of its group (R283)
  | .codeword _ _ _ symErr ctrl flits => decide (ctrl + flits ≤ 10) && symErr.all fun e => decide (e.2 ≤ 68)
  -- packets (R291)
  | .fabricReadResp _ k | .fabricWriteAck _ k | .notice _ k
  | .tallyInc _ k | .stretch _ k | .domain _ k | .loanRequest _ k | .loanGrant _ k | .loanDecline _ k
  => k.wf
  | .reduce _ k | .guestPacket _ k => k.val.wf
  | .fabricRead _ k | .fabricWrite _ k => k.pkt.wf
  | .trainingComplete _ o | .train _ o => o.wf
  | _ => true

end Sys2Proof
end

