-- ==== Sys2Proof/Certificates/Slice0/Obligations.lean ====
section
/-! DEFINITION. The statements about the model. -/

open Sys2Proof Sys2Proof.Machine

/-! ### The machine -/

/-- A step takes the command at the front of the queue and runs it on the state with the queue's rest; on an empty queue the block
idles (the model's choice, log entry 1). -/
def Obligations.StepRunsFrontCommand : Prop :=
  (∀ (c : Instr) (rest : List Instr) (s : State),
    step { s with pending := c :: rest } = exec c { s with pending := rest }) ∧
  (∀ s : State, s.pending = [] → step s = .next s)

/-! ### Scalar instructions (R43, R44, R47, R48) -/

/-- The ALU: rd takes the result and the poison of its sources, the PC goes on, and nothing else changes. -/
def Obligations.ScalarAluResults : Prop :=
  ∀ (p : Pos) (s : State),
    (∀ f : FmtR, s.ready p f.pr → f.rsv = 0 →
      let a := (s.core p).sreg f.ra
      let b := (s.core p).sreg f.rb
      let put (v : Word) : Host.Outcome State Fault Refusal :=
        .next (s.wroteS p f.rd v ((s.core p).spois f.ra || (s.core p).spois f.rb))
      exec (.add p f) s = put (a + b) ∧ exec (.sub p f) s = put (a - b) ∧
      exec (.and p f) s = put (a &&& b) ∧ exec (.or p f) s = put (a ||| b) ∧ exec (.xor p f) s = put (a ^^^ b) ∧
      exec (.sll p f) s = put (a <<< (b.toNat % 32)) ∧ exec (.srl p f) s = put (a >>> (b.toNat % 32)) ∧
      exec (.sra p f) s = put (a.sshiftRight (b.toNat % 32)) ∧
      exec (.slt p f) s = put (if a.toInt < b.toInt then 1 else 0) ∧
      exec (.sltu p f) s = put (if a.toNat < b.toNat then 1 else 0) ∧
      exec (.min p f) s = put (if b.toInt < a.toInt then b else a) ∧
      exec (.max p f) s = put (if a.toInt < b.toInt then b else a) ∧
      exec (.mul p f) s = put (a * b) ∧
      exec (.mulh p f) s = put (BitVec.ofInt 32 (a.toInt * b.toInt / 2 ^ 32)) ∧
      exec (.mulhu p f) s = put (BitVec.ofNat 32 (a.toNat * b.toNat / 2 ^ 32)) ∧
      exec (.div p f) s = put (if b = 0 then 0xFFFFFFFF else BitVec.ofInt 32 (a.toInt.tdiv b.toInt)) ∧
      exec (.divu p f) s = put (if b = 0 then 0xFFFFFFFF else a / b) ∧
      exec (.rem p f) s = put (if b = 0 then a else BitVec.ofInt 32 (a.toInt.tmod b.toInt)) ∧
      exec (.remu p f) s = put (if b = 0 then a else a % b)) ∧
    (∀ f : FmtI, s.ready p f.pr →
      let a := (s.core p).sreg f.ra
      let se := f.imm.signExtend 32
      let ze := f.imm.setWidth 32
      let put (v : Word) : Host.Outcome State Fault Refusal := .next (s.wroteS p f.rd v ((s.core p).spois f.ra))
      exec (.addi p f) s = put (a + se) ∧ exec (.slti p f) s = put (if a.toInt < se.toInt then 1 else 0) ∧
      exec (.andi p f) s = put (a &&& ze) ∧ exec (.ori p f) s = put (a ||| ze) ∧ exec (.xori p f) s = put (a ^^^ ze) ∧
      exec (.slli p f) s = put (a <<< (f.imm.toNat % 32)) ∧ exec (.srli p f) s = put (a >>> (f.imm.toNat % 32)) ∧
      exec (.srai p f) s = put (a.sshiftRight (f.imm.toNat % 32))) ∧
    (∀ f : FmtU, s.ready p f.pr →
      exec (.luh p f) s = .next (s.wroteS p f.rd (f.imm.setWidth 32 <<< 14) false) ∧
      exec (.llo p f) s =
        .next (s.wroteS p f.rd (setBits ((s.core p).sreg f.rd) 0 18 f.imm.toNat) ((s.core p).spois f.rd)))

/-- Writing a scalar register or a predicate (R42, R43, R52): s0 and p0 keep their constants, another register takes the value and
its poison bit, and no other register changes. -/
def Obligations.RegisterWrites : Prop :=
  ∀ (c : Core) (r q : BitVec 5) (v : Word) (b : Bool),
    (c.setS 0 v b = c) ∧ c.sreg 0 = 0 ∧ c.spois 0 = false ∧
    (r ≠ 0 → (c.setS r v b).sreg r = v ∧ (c.setS r v b).spois r = b) ∧
    (q ≠ r → (c.setS r v b).sreg q = c.sreg q ∧ (c.setS r v b).spois q = c.spois q) ∧
    (∀ (i j : BitVec 3) (w : Bool), c.pred 0 = true ∧ c.setP 0 w = c ∧ (i ≠ 0 → (c.setP i w).pred i = w) ∧
      (j ≠ i → (c.setP i w).pred j = c.pred j)) ∧
    (∀ (i j : BitVec 4) (x : VReg) (m : BitVec 4), (c.setV i x m).vreg i = x ∧ (c.setV i x m).vpois i = m ∧
      (j ≠ i → (c.setV i x m).vreg j = c.vreg j ∧ (c.setV i x m).vpois j = c.vpois j))

/-- Scalar loads and stores (R47, R72, R75): the value of the bytes at ra + imm11 goes to rd with their poison; a store writes its
bytes and leaves the rest of the word. -/
def Obligations.ScalarMemory : Prop :=
  ∀ (p : Pos) (f : FmtI) (s : State), s.ready p f.pr →
    let c := s.core p
    let ea := (c.sreg f.ra + f.imm.signExtend 32).toNat
    let loaded (f3 : BitVec 3) (n : Nat) (conv : Nat → Word) : Host.Outcome State Fault Refusal :=
      let t := s.touchLocal p (wordI 0x4 f3 f) ea n
      .next (t.wroteS p f.rd (conv (leNat ((t.core p).localBytes ea n))) ((t.core p).localPoison ea n))
    let stored (f3 : BitVec 3) (n : Nat) : Host.Outcome State Fault Refusal :=
      let t := s.touchSram p (wordI 0x4 f3 f) ea n
      .next (t.retire p ((t.core p).storeNarrow ea (leBytes n ((t.core p).sreg f.rd).toNat) ((t.core p).spois f.rd)).next)
    (accessible c f.ra ea 4 4 → exec (.lw p f) s = loaded 0 4 (fun v => BitVec.ofNat 32 v)) ∧
    (accessible c f.ra ea 2 2 → exec (.lh p f) s = loaded 2 2 (fun v => (BitVec.ofNat 16 v).signExtend 32)) ∧
    (accessible c f.ra ea 2 2 → exec (.lhu p f) s = loaded 3 2 (fun v => BitVec.ofNat 32 v)) ∧
    (accessible c f.ra ea 4 4 → ea + 4 ≤ 0x18000 → exec (.sw p f) s = stored 1 4) ∧
    (accessible c f.ra ea 2 2 → ea + 2 ≤ 0x18000 → exec (.sh p f) s = stored 4 2)

/-- Branches and jumps (R47, R48): a taken branch goes to pc + off11 words, LOOP counts down to zero, JAL and JALR link. -/
def Obligations.Branches : Prop :=
  ∀ (p : Pos) (s : State),
    (∀ f : FmtB, s.ready p f.pr → (s.core p).spois f.ra = false → 
      let c := s.core p
      let a := c.sreg f.ra
      let b := c.sreg f.rb
      let target := pcAdd c.pc f.off.toInt
      let go (taken : Bool) : Host.Outcome State Fault Refusal :=
        .next (s.retire p { c with pc := if taken then target else c.pc + 1 })
      (c.spois f.rb = false →
        exec (.branchEq p f) s = go (a == b) ∧ exec (.branchNe p f) s = go (a != b) ∧
        exec (.branchLt p f) s = go (decide (a.toInt < b.toInt)) ∧
        exec (.branchGe p f) s = go (decide (b.toInt ≤ a.toInt)) ∧
        exec (.branchLtu p f) s = go (decide (a.toNat < b.toNat)) ∧
        exec (.branchGeu p f) s = go (decide (b.toNat ≤ a.toNat))) ∧
      (f.rb = 0 → exec (.loop p f) s =
        .next (s.retire p { c.setS f.ra (a - 1) false with pc := if a - 1 ≠ 0 then target else c.pc + 1 }))) ∧
    (∀ f : FmtU, s.ready p f.pr → exec (.jal p f 0) s =
      .next (s.retire p { (s.core p).setS f.rd (pcAddr ((s.core p).pc + 1)) false with
        pc := pcAdd (s.core p).pc f.imm.toInt })) ∧
    (∀ f : FmtR, s.ready p f.pr → f.rsv = 0 → (s.core p).spois f.ra = false → exec (.jalr p f) s =
      .next (s.retire p { (s.core p).setS f.rd (pcAddr ((s.core p).pc + 1)) false with
        pc := pcOf ((s.core p).sreg f.ra) }))

/-- The system class (R48, R50): NOP, END, FENCE, special registers, BELLWAIT. BEATS_LO reads a count that is a free value (log
entry 2), and latches BEATS_HI. -/
def Obligations.SystemClass : Prop :=
  ∀ (p : Pos) (s : State),
    (∀ f : FmtR, s.ready p f.pr → f.rsv = 0 →
      let c := s.core p
      let n := f.ra.toNat * 32 + f.rb.toNat
      exec (.nop p f) s = .next (s.retire p { c with pc := c.pc + 1 }) ∧
      exec (.endIssue p f) s = .next (s.setCore p { c with mode := .ended, pc := c.pc + 1 }) ∧
      exec (.fence p f) s = .next (s.setCore p (if c.mq.isEmpty && c.mrun.isNone then { c with pc := c.pc + 1 }
        else { c with wait := .fence })) ∧
      (n ≠ 4 → n ≠ 8 → exec (.csrr p f) s = .next (s.wroteS p f.rd (c.csr p (s.parish p.parish).bell n) false)) ∧
      (n = 4 → exec (.csrr p f) s = .next (s.retire p
        ({ c with bellHi := ((s.parish p.parish).bell >>> 32).setWidth 32 }.setS f.rd ((s.parish p.parish).bell.setWidth 32)
          false).next)) ∧
      (n = 8 → ∃ beats : BitVec 48, ∃ over' : Bool, exec (.csrr p f) s = .next (s.drawn.retire p
        ({ c with beats := beats, beatsOvf := over', beatsHi := BitVec.ofNat 32 (beats.toNat / 2 ^ 32 + (if over' then 2 ^ 31 else 0)) }.setS
          f.rd (beats.setWidth 32) false).next)) ∧
      (c.spois f.rd = false → n = 6 → exec (.csrw p f) s = .next (s.retire p { c with rngctr := c.sreg f.rd, pc := c.pc + 1 })) ∧
      (c.spois f.rd = false → n = 7 → exec (.csrw p f) s =
        .next (s.retire p { c with vstat := c.vstat &&& ~~~ ((c.sreg f.rd).setWidth 4), pc := c.pc + 1 })) ∧
      (n < 6 ∨ (8 ≤ n ∧ n < 13) → exec (.csrw p f) s = .next (s.except p (wordR 0x0 0x05 f) .ro)) ∧
      (c.spois f.rd = false → 13 ≤ n → exec (.csrw p f) s = .next (s.retire p { c with pc := c.pc + 1 })) ∧
      (c.spois f.ra = false → exec (.bellwait p f) s = .next (s.setCore p
        (if ((s.parish p.parish).bell.setWidth 32 - c.sreg f.ra).toNat < 2 ^ 31 then { c with pc := c.pc + 1 }
         else { c with wait := .bell (c.sreg f.ra) })))) ∧
    ((s.core p).wait = .fence → (s.core p).mq = [] → (s.core p).mrun = none →
      exec (.fenceDone p) s = .next (s.setCore p { s.core p with wait := .none, pc := (s.core p).pc + 1 }))

/-- Predicates (R52): pd takes the outcome; pd must be p1 to p7. -/
def Obligations.PredicateResults : Prop :=
  ∀ (p : Pos) (f : FmtR) (s : State), s.ready p f.pr → f.rsv = 0 → 1 ≤ f.rd.toNat → f.rd.toNat < 8 →
    let c := s.core p
    let a := c.sreg f.ra
    let b := c.sreg f.rb
    let put (v : Bool) : Host.Outcome State Fault Refusal := .next (s.wroteP p f.rd v)
    (c.spois f.ra = false → c.spois f.rb = false →
      exec (.pcmpEq p f) s = put (a == b) ∧ exec (.pcmpNe p f) s = put (a != b) ∧
      exec (.pcmpLt p f) s = put (decide (a.toInt < b.toInt)) ∧ exec (.pcmpGe p f) s = put (decide (b.toInt ≤ a.toInt)) ∧
      exec (.pcmpLtu p f) s = put (decide (a.toNat < b.toNat)) ∧
      exec (.pcmpGeu p f) s = put (decide (b.toNat ≤ a.toNat))) ∧
    (c.spois f.ra = false → f.rb = 0 → exec (.pset p f) s = put (decide (a ≠ 0))) ∧
    (f.ra.toNat < 8 → f.rb.toNat < 8 →
      let x := c.pred (f.ra.setWidth 3)
      let y := c.pred (f.rb.setWidth 3)
      exec (.pand p f) s = put (x && y) ∧ exec (.por p f) s = put (x || y) ∧ exec (.pxor p f) s = put (x != y)) ∧
    (f.ra.toNat < 8 → f.rb = 0 → exec (.pnot p f) s = put (!c.pred (f.ra.setWidth 3)))

/-! ### Vector instructions (R43, R54 to R57) -/

/-- Lane instructions (R54): each lane of vd is the function of the source lanes, its flags go to VSTAT, and each quarter takes
the poison of its sources' quarters. -/
def Obligations.VectorLanes : Prop :=
  ∀ (p : Pos) (f : FmtV) (s : State), s.ready p f.pr →
    (s.core p).accrdPending f.va.toNat = false → (s.core p).accrdPending f.vb.toNat = false →
    (s.core p).accrdPending f.vc.toNat = false →
    let c := s.core p
    let sat := bit f.mode 2
    let two (op : Word → Word → Word × Flg) : Host.Outcome State Fault Refusal :=
      .next (s.wroteLanes p f.vd
        ((List.range 16).map fun i => op (lane (c.vreg f.va) i) (lane (c.vreg f.vb) i)) (c.vpois f.va ||| c.vpois f.vb))
    let one (op : Word → Word × Flg) : Host.Outcome State Fault Refusal :=
      .next (s.wroteLanes p f.vd ((List.range 16).map fun i => op (lane (c.vreg f.va) i)) (c.vpois f.va))
    (f.vc = 0 → (f.mode = 0 ∨ f.mode = 4) →
      exec (.vadd p f) s = two (fadd sat) ∧ exec (.vsub p f) s = two (fsub sat) ∧ exec (.vmul p f) s = two (fmul sat)) ∧
    (f.vc = 0 → f.mode = 0 →
      exec (.vmax p f) s = two (fun a b => (fmax a b, {})) ∧ exec (.vmin p f) s = two (fun a b => (fmin a b, {})) ∧
      exec (.viadd p f) s = two (fun a b => (a + b, {})) ∧ exec (.vand p f) s = two (fun a b => (a &&& b, {})) ∧
      exec (.vor p f) s = two (fun a b => (a ||| b, {})) ∧ exec (.vxor p f) s = two (fun a b => (a ^^^ b, {})) ∧
      exec (.vsrl p f) s = two (fun a b => (a >>> (b.toNat % 32), {}))) ∧
    (f.vc = 0 → f.mode.toNat < 4 →
      exec (.vcmp p f) s = two (fun a b => (if fcmp f.mode.toNat a b then 0xFFFFFFFF else 0, {}))) ∧
    (f.vb = 0 → f.vc = 0 → f.mode = 0 → exec (.vabs p f) s = one (fun a => (a &&& 0x7FFFFFFF, {}))) ∧
    (f.vb = 0 → f.vc = 0 → (f.mode = 0 ∨ f.mode = 4) →
      exec (.vexp2 p f) s = one (fexp2 sat) ∧ exec (.vrcp p f) s = one (frcp sat) ∧ exec (.vrsqrt p f) s = one (frsqrt sat)) ∧
    ((f.mode = 0 ∨ f.mode = 4) → exec (.vfma p f) s = .next (s.wroteLanes p f.vd
      ((List.range 16).map fun i => ffma sat (lane (c.vreg f.va) i) (lane (c.vreg f.vb) i) (lane (c.vreg f.vc) i))
      (c.vpois f.va ||| c.vpois f.vb ||| c.vpois f.vc))) ∧
    (f.mode = 0 → exec (.vsel p f) s = .next (s.retire p (c.setV f.vd
      (ofLanes ((List.range 16).map fun i =>
        if lane (c.vreg f.vc) i ≠ 0 then lane (c.vreg f.va) i else lane (c.vreg f.vb) i))
      (selPoison (c.vreg f.vc) (c.vpois f.va) (c.vpois f.vb) (c.vpois f.vc))).next))

/-- Reductions, conversion, vector memory and moves (R54 to R57, R75). A conversion gives each quarter of vd the poison of the
quarters of va it is read from; packing, a quarter that the group covers in part keeps its own too (log entry 15). VREDMAX leaves
+0.0 beyond lane 0 (the model's choice, log entry 83). -/
def Obligations.VectorMoves : Prop :=
  ∀ (p : Pos) (s : State),
    (∀ f : FmtV, s.ready p f.pr → (s.core p).accrdPending f.va.toNat = false →
      let c := s.core p
      let red (op : Word → Word → Word × Flg) : Host.Outcome State Fault Refusal :=
        let r := treeReduce op (lanes (c.vreg f.va))
        .next (s.retire p ((c.flag r.2).setV f.vd (ofLanes [r.1]) (allQuarters (decide (c.vpois f.va ≠ 0)))).next)
      (f.vb = 0 → f.vc = 0 → (f.mode = 0 ∨ f.mode = 4) → exec (.vredsum p f) s = red (fadd (bit f.mode 2))) ∧
      (f.vb = 0 → f.vc = 0 → f.mode = 0 → exec (.vredmax p f) s = red (fun a b => (fmax a b, {}))) ∧
      (∀ el, cvtElem f.vc.toNat = some el →
        let b := el.width
        let group := f.vb.toNat * 2 + (if bit f.mode 1 then 1 else 0)
        let lo := 16 * b * group
        group < cvtGroups b →
        (bit f.mode 0 = false → ∃ m : BitVec 4,
          exec (.vcvt p f) s = .next (s.retire p (c.setV f.vd
            (ofLanes ((List.range 16).map fun i => el.toFp32 (bits (c.vreg f.va) (lo + b * i) b))) m).next) ∧
          ∀ q : Fin 4, bit m q = true ↔
            ∃ k : Fin 4, bit (c.vpois f.va) k = true ∧ lo + 4 * b * q < 128 * (k + 1) ∧ 128 * k < lo + 4 * b * (q + 1)) ∧
        (bit f.mode 0 = true → c.accrdPending f.vd.toNat = false →
          let r := (lanes (c.vreg f.va)).map (el.ofFp32 (bit f.mode 2))
          ∃ m : BitVec 4,
            exec (.vcvt p f) s = .next (s.retire p ((c.flag (r.foldl (fun a x => a.or x.2) {})).setV f.vd
              (setBits (c.vreg f.vd) lo (16 * b) (packCodes b (r.map (·.1)))) m).next) ∧
            ∀ q : Fin 4, bit m q = true ↔
              (∃ i : Fin 16, bit (c.vpois f.va) (i / 4) = true ∧ lo + b * i < 128 * (q + 1) ∧ 128 * q < lo + b * (i + 1)) ∨
              (bit (c.vpois f.vd) q = true ∧ ¬ (lo ≤ 128 * q ∧ 128 * (q + 1) ≤ lo + 16 * b))))) ∧
    (∀ f : FmtVM, s.ready p f.pr →
      let c := s.core p
      let ea := (c.sreg f.ra + BitVec.ofNat 32 (16 * f.off.toNat)).toNat
      (accessible c f.ra ea 64 16 →
        let t := s.touchLocal p (wordVM 0 f) ea 64
        exec (.vld p f) s = .next (t.retire p
          ((t.core p).setV f.vd (ofBytes ((t.core p).localBytes ea 64)) ((t.core p).quarterPoison ea)).next)) ∧
      (accessible c f.ra ea 64 16 → ea + 64 ≤ 0x18000 → c.accrdPending f.vd.toNat = false →
        exec (.vst p f) s = .next (s.retire p
          (c.storeWords ea (vbytes (c.vreg f.vd)) (fun i => bit (c.vpois f.vd) (i / 2))).next)) ∧
      (f.off = 0 → exec (.vbcast p f) s = .next (s.retire p
        (c.setV f.vd (ofLanes (List.replicate 16 (c.sreg f.ra))) (allQuarters (c.spois f.ra))).next)) ∧
      (f.off.toNat < 16 → c.accrdPending f.vd.toNat = false →
        exec (.vins p f) s = .next (s.retire p (c.setV f.vd
          (setBits (c.vreg f.vd) (32 * f.off.toNat) 32 (c.sreg f.ra).toNat)
          (c.vpois f.vd ||| (if c.spois f.ra then BitVec.ofNat 4 (2 ^ (f.off.toNat / 4)) else 0))).next) ∧
        exec (.vext p f) s = .next (s.wroteS p f.ra (lane (c.vreg f.vd) f.off.toNat)
          (bit (c.vpois f.vd) (f.off.toNat / 4)))))

/-! ### Matrix engine, queues, tallies, launches, top-k (R58 to R70) -/

/-- Matrix commands (R53, R58, R59, R61, R374): each joins a queue of fewer than four and issue goes on, an MMA from local
memory or from an enabled queue, which predicated off still takes its entries; MSYNC waits until the engine is idle; the oldest
command of a pipe leaves the queue and takes effect once its interlocks allow. Below quota 256 a core whose tick's allowance
holds no further row holds an MMA, and a started MMA issues as many rows as the allowance holds. The model's choices: any
alignment (log entry 84), a queued ACCRD does not hold writers of vd (85), rows are held by whole rows (100), MSYNC with the
engine idle goes on at once (35). -/
def Obligations.MatrixEngine : Prop :=
  ∀ (p : Pos) (s : State),
    let c := s.core p
    (∀ f : FmtM, s.ready p f.pr → f.rsv = 0 →
      let push (m : MCmd) : Host.Outcome State Fault Refusal := .next (s.retire p { c with mq := c.mq ++ [m], pc := c.pc + 1 })
      (c.mq.length < 4 →
        (∀ m, mfmt f.a.toNat = some m → f.acc = 0 → f.b.toNat % 4 = 0 → f.sb = 0 →
          (bit f.b 2 = true → sparseOk f.a.toNat = true) → c.spois f.sa = false → (c.sreg f.sa).toNat < 2 ^ 18 →
          regionOf (c.sreg f.sa).toNat (m.blockBytes (bit f.b 2)) ≠ .nowhere →
          exec (.wld p f) s = push (.wld f.w f.a (bit f.b 2) (c.sreg f.sa))) ∧
        (∀ b m, f.b = 0 → c.bufFmt f.w = some b → mfmt b.1.toNat = some m → c.spois f.sa = false → c.spois f.sb = false →
          (c.sreg f.sa).toNat < 2 ^ 18 → (c.sreg f.sb).toNat % 16 = 0 → actBytes m b.2 ≤ (c.sreg f.sb).toNat →
          regionOf (c.sreg f.sa).toNat (tileSpan m b.2 (f.a.toNat + 1) (c.sreg f.sb).toNat) ≠ .nowhere →
          exec (.mma p f) s = push (.mma f.acc f.w (f.a.toNat + 1) 0 (c.sreg f.sa) (c.sreg f.sb) false)) ∧
        (∀ b m, f.b.toNat ≥ 4 → bit (c.qcfg[f.b.toNat % 4]) 0 = true → c.bufFmt f.w = some b → mfmt b.1.toNat = some m →
          (m.el.width = 6 → f.a.toNat % 2 = 1) →
          exec (.mma p f) s = push (.mma f.acc f.w (f.a.toNat + 1) f.b (c.sreg f.sa) (c.sreg f.sb) false)) ∧
        (f.w = 0 → f.a = 0 → f.b = 0 → f.sa = 0 → f.sb = 0 → exec (.accz p f) s = push (.accz f.acc)) ∧
        (f.w = 0 → f.sa = 0 → f.sb = 0 → exec (.accrd p f) s = push (.accrd f.acc f.b f.a) ∧
          (c.accrdPending f.a.toNat = false →
            exec (.accwr p f) s = push (.accwr f.acc f.b (c.vreg f.a) (c.vpois f.a))))) ∧
      (f.w = 0 → f.sa = 0 → f.sb = 0 → f.acc = 0 → f.a = 0 → f.b = 0 → exec (.msync p f) s = .next (s.setCore p
        (if c.mq.isEmpty && c.mrun.isNone then { c with pc := c.pc + 1 } else { c with wait := .msync })))) ∧
    (∀ (f : FmtM) (b : BitVec 4 × Bool) (m : MFmt), s.readyOff p f.pr → f.rsv = 0 → f.b.toNat ≥ 4 → c.mq.length < 4 →
      bit (c.qcfg[f.b.toNat % 4]) 0 = true → c.bufFmt f.w = some b → mfmt b.1.toNat = some m →
      (m.el.width = 6 → f.a.toNat % 2 = 1) → exec (.mma p f) s =
        .next (s.retire p { c with mq := c.mq ++ [.mma f.acc f.w (f.a.toNat + 1) f.b 0 0 true], pc := c.pc + 1 })) ∧
    (c.wait = .msync → c.mq = [] → c.mrun = none →
      exec (.msyncDone p) s = .next (s.setCore p { c with wait := .none, pc := c.pc + 1 })) ∧
    (let x := s.parish p.parish
     let g := if x.droop then min x.grant x.throttle / 2 else min x.grant x.throttle
     let left := (g * s.beatsOf p.parish + 255) / 256 - c.rowBeats
     (∀ (pipe : Pipe) (before after : List MCmd) (m : MCmd), c.mq = before ++ m :: after → (pipe = .row → c.mrun = none) →
        (∀ x ∈ before, x.isLoad ≠ decide (pipe = .load)) → m.isLoad = decide (pipe = .load) → c.mayStart before m = true →
        (∀ acc buf rows src a b w (y : MFmt), m = .mma acc buf rows src a b false → c.w[buf.toNat] = some w → mfmt w.fmt.toNat = some y →
          g = 256 ∨ y.beats ≤ left) →
        exec (.matrixCommandStart p pipe) s = .next ((s.mqTake p (before ++ after)).runMatrix p m)) ∧
     (∀ acc buf rows src a b w (y : MFmt) (before after : List MCmd), c.mq = before ++ .mma acc buf rows src a b false :: after →
        c.mrun = none → (∀ x ∈ before, x.isLoad = true) → c.w[buf.toNat] = some w → mfmt w.fmt.toNat = some y → g ≠ 256 → left < y.beats →
        exec (.matrixCommandStart p .row) s = .next s) ∧
     (∀ acc buf rows src a b w (y : MFmt) (r : MRun), c.mrun = some r → r.cmd = .mma acc buf rows src a b false → r.need ≤ r.got.length →
        c.w[buf.toNat] = some w → mfmt w.fmt.toNat = some y → r.done < rows →
        let n := if g = 256 then rows - r.done else min (rows - r.done) (left / y.beats)
        ((s.issueRows p).core p).mrun = (if r.done + n < rows then some { r with done := r.done + n } else none) ∧
        (r.done + n < rows → exec (.matrixCommandStart p .row) s = .next (s.issueRows p))))

/-- What a matrix command leaves when it runs (R43, R59, R61, R92, R93): WLD fills its buffer from local memory; each row that
an MMA issues adds its group's product to the eight columns of its accumulator row, with the poison of what it read; ACCZ clears
a tile, ACCWR writes two rows of it and ACCRD reads them back; the other rows and tiles stay. An MMA takes from its queue the
entries it still needs. -/
def Obligations.AccumulatorTiles : Prop :=
  (∀ (c : Core) (acc other : BitVec 2) (pair : BitVec 3) (vd : BitVec 4) (v : VReg) (q : BitVec 4),
    ((c.acczDone acc).acc[acc.toNat] = Vector.replicate 128 0) ∧
    bit (c.acczDone acc).accp acc.toNat = false ∧
    (other ≠ acc → (c.acczDone acc).acc[other.toNat] = c.acc[other.toNat] ∧
      (c.accwrDone acc pair v q).acc[other.toNat] = c.acc[other.toNat]) ∧
    ((c.accwrDone acc pair v q).accrdDone acc pair vd).vreg vd = v) ∧
  (∀ (c : Core) (acc other : BitVec 2) (b : WBuf) (m : MFmt) (scales : List Byte) (rowAt : Nat → List Byte) (i n : Nat) (bad : Bool),
    i + n ≤ 16 →
    let d := c.mmaLand acc b m scales rowAt i n bad
    let tile (x : Core) (k : Nat) : Word := (x.acc[acc.toNat].toList[k]?).getD 0
    (∀ row col, row < 16 → col < 8 → tile d (8 * row + col) =
      if i ≤ row ∧ row < i + n then (accumulate (tile c (8 * row + col)) (if b.sparse then
        sparseGroup m b.block (rowAt row) scales row col else denseGroup m b.block (rowAt row) scales row col)).1
      else tile c (8 * row + col)) ∧
    (other ≠ acc → d.acc[other.toNat] = c.acc[other.toNat]) ∧
    bit d.accp acc.toNat = (bit c.accp acc.toNat || bad || b.poison)) ∧
  (∀ (c : Core) (r : MRun) (acc : BitVec 2) (buf : BitVec 1) (rows : Nat) (src : BitVec 3) (addr pitch : Word) (off : Bool),
    c.mrun = some r → r.cmd = .mma acc buf rows src addr pitch off → 4 ≤ src.toNat →
    let q := src.toNat - 4
    let n := min (r.need - r.got.length) (c.inQ q).length
    let d := c.engineTake
    d.1 = n ∧ d.2.inQ q = (c.inQ q).drop n ∧ (∀ k, k ≠ q → d.2.inQ k = c.inQ k) ∧
    d.2.mrun = (if off = true ∧ r.need ≤ r.got.length + n then none else some { r with got := r.got ++ (c.inQ q).take n })) ∧
  (∀ (p : Pos) (s : State),
    (∀ (b : BitVec 1) (fmt : BitVec 4) (sp : Bool) (addr : Word) (m : MFmt), mfmt fmt.toNat = some m →
      let n := m.blockBytes sp
      let t := (s.touchLocal p 0 addr.toNat n).core p
      ((s.runMatrix p (.wld b fmt sp addr)).core p).w[b.toNat] =
        some { fmt := fmt, sparse := sp, block := t.localBytes addr.toNat n, poison := t.localPoison addr.toNat n }) ∧
    (∀ (r : MRun) (acc : BitVec 2) (buf : BitVec 1) (rows : Nat) (src : BitVec 3) (addr pitch : Word) (b : WBuf) (m : MFmt),
      (s.core p).mrun = some r → r.cmd = .mma acc buf rows src addr pitch false → r.need ≤ r.got.length →
      (s.core p).w[buf.toNat] = some b → mfmt b.fmt.toNat = some m →
      let n := s.rowsNow p m.beats (rows - r.done)
      let hdr := scaleBytes m b.sparse
      let len := actBytes m b.sparse
      let u := (s.issueRows p).core p
      let got := r.got.flatMap Token.bytes
      (4 ≤ src.toNat → u.acc = ((s.core p).mmaLand acc b m (got.take hdr) (fun i => (got.drop (hdr + i * len)).take len) r.done n
        (r.got.any (·.poison))).acc) ∧
      (src = 0 → 0 < n →
        let parts := tileParts m b.sparse addr.toNat pitch.toNat r.done n
        let c := (parts.foldl (fun s x => s.touchLocal p 0 x.1 x.2) s).core p
        u.acc = (c.mmaLand acc b m (c.localBytes addr.toNat hdr) (fun i => c.localBytes (addr.toNat + hdr + i * pitch.toNat) len)
          r.done n (parts.any fun x => c.localPoison x.1 x.2)).acc)))

/-- Queue instructions (R53, R63, R64): a push appends its tokens where 16 entries hold them, a pop takes the oldest entries,
and otherwise the core waits; the wait ends when the operation can be done. Predicated off, a push emits as many void tokens and
a pop drops its entries. Quarters that no popped entry fills stay (the model's choice, log entry 86). -/
def Obligations.QueueInstructions : Prop :=
  ∀ (p : Pos) (s : State),
    let c := s.core p
    let pushed (f : FmtQ) (op : PushOp) (off : Bool) (e : List Token) : Host.Outcome State Fault Refusal :=
      let l := c.outQ (f.q.toNat % 4)
      .next (s.retire p (if l.length + e.length ≤ 16 then
        { c with outq := c.outq.setIfInBounds (f.q.toNat % 4) (l ++ e), pc := c.pc + 1 } else { c with wait := .push op off f }))
    let void (last : Bool) : Token := { data := 0, colour := c.colour, void := true, poison := false, last := last }
    (∀ f : FmtQ, s.ready p f.pr → f.rsv = 0 → c.qEnabled f.q = true →
      let fromV (lastToo : Bool) : List Token := (List.range (f.n1.toNat + 1)).map fun j =>
        { data := BitVec.ofNat 128 (bits (c.vreg f.vr) (128 * j) 128), colour := c.colour, void := false
          poison := bit (c.vpois f.vr) j, last := lastToo && decide (j = f.n1.toNat) }
      (f.q.toNat ≥ 4 → f.pd = 0 →
        (f.rs = 0 → c.accrdPending f.vr.toNat = false →
          exec (.qpushV p f) s = pushed f .v false (fromV false) ∧ exec (.qlast p f) s = pushed f .last false (fromV true)) ∧
        (f.vr = 0 → f.n1 = 0 → exec (.qpushS p f) s = pushed f .s false
          [{ data := BitVec.ofNat 128 (c.sreg f.rs).toNat, colour := c.colour, void := false, poison := c.spois f.rs
             last := false }]) ∧
        (f.vr = 0 → f.rs = 0 → exec (.qvoid p f) s = pushed f .void false (List.replicate (f.n1.toNat + 1) (void false)))) ∧
      (f.q.toNat < 4 → f.rs = 0 →
        let l := c.inQ f.q.toNat
        exec (.qpopV p f) s = .next (s.retire p (if f.n1.toNat < l.length then
          ((({ c with inq := c.inq.setIfInBounds f.q.toNat (l.drop (f.n1.toNat + 1)) }.setP f.pd
            ((l.take (f.n1.toNat + 1)).all fun t => !t.void)).popQuarters f.vr (l.take (f.n1.toNat + 1))).next)
          else { c with wait := .pop true false f }))) ∧
      (f.q.toNat < 4 → f.vr = 0 → f.n1 = 0 →
        (∀ t rest, c.inQ f.q.toNat = t :: rest → exec (.qpopS p f) s = .next (s.retire p
          (({ c with inq := c.inq.setIfInBounds f.q.toNat rest }.setP f.pd (!t.void)).setS f.rs
            (if t.void then 0 else t.data.setWidth 32) t.poison).next)) ∧
        (c.inQ f.q.toNat = [] → exec (.qpopS p f) s = .next (s.retire p { c with wait := .pop false false f }))) ∧
      (f.vr = 0 → f.n1 = 0 → f.pd = 0 → exec (.qstat p f) s = .next (s.wroteS p f.rs
        (qstatWord (if f.q.toNat < 4 then c.inQ f.q.toNat else c.outQ (f.q.toNat - 4))) false))) ∧
    (∀ f : FmtQ, s.readyOff p f.pr → f.rsv = 0 → c.qEnabled f.q = true →
      let popped (vec : Bool) (n : Nat) : Host.Outcome State Fault Refusal :=
        let l := c.inQ f.q.toNat
        .next (s.retire p (if n ≤ l.length then { c with inq := c.inq.setIfInBounds f.q.toNat (l.drop n), pc := c.pc + 1 }
          else { c with wait := .pop vec true f }))
      (f.q.toNat ≥ 4 → f.pd = 0 →
        (f.rs = 0 → exec (.qpushV p f) s = pushed f .v true (List.replicate (f.n1.toNat + 1) (void false)) ∧
          exec (.qlast p f) s = pushed f .last true (List.replicate f.n1.toNat (void false) ++ [void true])) ∧
        (f.vr = 0 → f.n1 = 0 → exec (.qpushS p f) s = pushed f .s true [void false]) ∧
        (f.vr = 0 → f.rs = 0 → exec (.qvoid p f) s = pushed f .void true (List.replicate (f.n1.toNat + 1) (void false)))) ∧
      (f.q.toNat < 4 → (f.rs = 0 → exec (.qpopV p f) s = popped true (f.n1.toNat + 1)) ∧
        (f.vr = 0 → f.n1 = 0 → exec (.qpopS p f) s = popped false 1))) ∧
    (∀ (vec off : Bool) (f : FmtQ) (d : Core), c.wait = .pop vec off f → ({ c with wait := .none } : Core).pop vec off f = some d →
      exec (.queueWaitEnd p) s = .next (s.retire p d)) ∧
    (∀ (op : PushOp) (off : Bool) (f : FmtQ) (d : Core), c.wait = .push op off f →
      ({ c with wait := .none } : Core).push op off f = some d → exec (.queueWaitEnd p) s = .next (s.retire p d))

/-- Tally instructions (R65, R260): an operation on the core's own tally is applied at once, another starts on its way to its
home; TWAIT, TWAITD and TREAD hold the core; the oldest operation of a unit and level arrives and is applied; an answer resumes
issue. INC holds at the maximum; DEC leaves a value that is too small as it is. -/
def Obligations.TallyInstructions : Prop :=
  ∀ (p : Pos) (s : State),
    let c := s.core p
    (∀ f : FmtT, s.ready p f.pr → f.rsv = 0 → (f.one = 1 → f.rs = 0) → f.idx.toNat < tallyRange f.lvl.toNat →
      (f.lvl = 2 → s.hubOwner f.idx.toNat = s.allotOf p.parish) →
      let n := if f.one = 1 then 1 else (c.sreg f.rs).toNat
      let go (t : State) (op : TallyOp) : State :=
        if f.lvl = 0 then t.applyTally { lvl := 0, core := p, idx := f.idx.toNat } op n
        else t.sendTally { src := p, carter := false, lvl := f.lvl, idx := f.idx, op := op, n := n }
      ((f.one = 0 → c.spois f.rs = false) →
        exec (.tinc p f) s = .next ((go s .inc).retire p ((go s .inc).core p).next) ∧
        exec (.tdec p f) s = .next ((go s .dec).retire p ((go s .dec).core p).next) ∧
        exec (.twait p f) s = .next (go (s.setCore p { c with wait := .tally .waitGe f }) .waitGe) ∧
        exec (.twaitd p f) s = .next (go (s.setCore p { c with wait := .tally .waitGeDec f }) .waitGeDec)) ∧
      exec (.tread p f) s = .next (go (s.setCore p { c with wait := .tally .readVal f }) .readVal)) ∧
    (∀ (carter : Bool) (lvl : BitVec 2) (m : TallyMsg),
      s.tallyOps.find? (fun m => decide (m.src = p ∧ m.carter = carter ∧ m.lvl = lvl)) = some m →
      (s.crierReaches m = true → exec (.tallyOperationArrival p carter ⟨lvl, false⟩) s =
        .next (({ s with tallyOps := s.tallyOps.erase m }).applyTally
          { lvl := lvl.toNat, core := p, idx := m.idx.toNat } m.op m.n)) ∧
      exec (.tallyOperationArrival p carter ⟨lvl, true⟩) s = .next (if lvl = 1 then s.bump (parishBase p.parish + 0x3820) else s)) ∧
    (∀ m : TallyMsg, (s.sendTally m).tallyOps = s.tallyOps ++ [{ m with seq := s.crierSeq.get 0 m.src.id }] ∧
      (s.sendTally m).crierSeq.get 0 m.src.id = s.crierSeq.get 0 m.src.id + 1) ∧
    (∀ (op : TallyOp) (f : FmtT) (v : Nat), c.wait = .answer op f v → exec (.tallyAnswer p) s = .next
      (if s.answerReaches p f.lvl.toNat = false then s
       else if op = .readVal then s.retire p ({ c with wait := .none }.setS f.rs (BitVec.ofNat 32 v) false).next
       else s.setCore p { c with wait := .none, pc := c.pc + 1 })) ∧
    (∀ (h : THome) (n src : Nat), (h.lvl = 1 ∨ h.lvl = 2) → s.waitersAt h = [] →
      (s.tallyInc h n src).tally h = Nat.min (s.tally h + n) (if h.lvl = 2 then 4294967295 else 65535) ∧
      (s.tallyDec h n src).tally h = (if n ≤ s.tally h then s.tally h - n else s.tally h))

/-- Launches (R66, R210): a descriptor that passes its checks is copied to the end of its channel; DSTAT reads the channels. -/
def Obligations.CarterLaunch : Prop :=
  ∀ (p : Pos) (f : FmtD) (s : State), s.ready p f.pr → f.rsv = 0 →
    let c := s.core p
    let a := (c.sreg f.ra).toNat
    let d := descOf (c.descWords a)
    (f.rd = 0 → c.spois f.ra = false → a < 2 ^ 18 → descPlace a = true → a % 16 = 0 → (∀ w, s.touchLocal p w a 48 = s) →
      (∀ x ∈ descChecks s p c a, x.1 = false) →
      (c.load.running.length + c.load.waiting.length < 4 → exec (.dld p f) s =
        .next (s.retire p { c with load := { c.load with waiting := c.load.waiting ++ [d] }, pc := c.pc + 1 })) ∧
      (c.store.running.length + c.store.waiting.length < 4 → exec (.dst p f) s =
        .next (s.retire p { c with store := { c.store with waiting := c.store.waiting ++ [d] }, pc := c.pc + 1 }))) ∧
    (f.ra = 0 → exec (.dstat p f) s = .next (s.wroteS p f.rd c.dstat false))

/-- The top-k unit, RAND and SAMPLE (R67 to R70). -/
def Obligations.TopkClass : Prop :=
  ∀ (p : Pos) (f : FmtV) (s : State), s.ready p f.pr → f.vc = 0 →
    let c := s.core p
    (f.vd = 0 → f.mode.toNat < 2 → f.va.toNat * 16 + f.vb.toNat < 64 → exec (.tkinit p f) s = .next (s.retire p
      { c with topk := { k := f.va.toNat * 16 + f.vb.toNat + 1, smallest := bit f.mode 0 }, pc := c.pc + 1 })) ∧
    (f.mode = 0 →
      (f.vd = 0 → f.vb = 0 → c.accrdPending f.va.toNat = false → exec (.tkpush p f) s = .next (s.retire p
        { c with topk := { (lanes (c.vreg f.va)).foldl TopK.offer c.topk with
                           poison := ((lanes (c.vreg f.va)).foldl TopK.offer c.topk).poison || decide (c.vpois f.va ≠ 0) }
                 pc := c.pc + 1 })) ∧
      (f.va = 0 →
        exec (.tkrd p f) s = .next (s.retire p (c.setV f.vd
          (ofLanes ((List.range 16).map fun i => (c.topk.entry (16 * f.vb.toNat + i)).1)) (allQuarters c.topk.poison)).next) ∧
        exec (.tkrdi p f) s = .next (s.retire p (c.setV f.vd
          (ofLanes ((List.range 16).map fun i => (c.topk.entry (16 * f.vb.toNat + i)).2)) (allQuarters c.topk.poison)).next)) ∧
      (f.vb = 0 → c.accrdPending f.va.toNat = false →
        let stream := lane (c.vreg f.va) 0
        let key := s.samplingKey p
        exec (.rand p f) s = .next (s.retire p
          { c.setV f.vd (ofLanes ((List.range 4).flatMap fun i => c.philoxBlock key (c.rngctr + BitVec.ofNat 32 i) stream))
              (allQuarters (bit (c.vpois f.va) 0)) with rngctr := c.rngctr + 4, pc := c.pc + 1 }) ∧
        (let r := c.topk.sample (((c.philoxBlock key c.rngctr stream).head?).getD 0)
         exec (.sample p f) s = .next (s.retire p
          { (c.setV f.vd (ofLanes [r.1]) (allQuarters (bit (c.vpois f.va) 0 || c.topk.poison))).flag { degenerate := r.2 } with
            rngctr := c.rngctr + 1, pc := c.pc + 1 }))))

/-! ### Exceptions and predication (R53, R80, R82, R464) -/

/-- A core exception (R80 to R82, R464): the core halts at the instruction, the run it executes is charged and its allotment's
halt by fault is due; an instruction with a word fault takes it whether or not its predicate lets it take effect, and text whose
class or operation code is unassigned (R45, R46) takes OPCODE, whatever command issues it (log entry 24). One predicated off
(R44, R53) goes on to the next and has no other effect; the pops, the pushes and an MMA from a queue, which have one, are in
QueueInstructions and MatrixEngine. -/
def Obligations.CoreExceptions : Prop :=
  ∀ (p : Pos) (s : State),
    (∀ (w : Word) (k : Cause) (a : Nat), s.allotOf p.parish = some a → (s.allot a).st = .running →
      ((s.except p w k).core p).mode = .halted ∧ ((s.except p w k).core p).pc = (s.core p).pc ∧
      (∃ y, ((s.except p w k).allot a).haltAt = some y ∧ y ≠ .haltCmd ∧ y ≠ .close) ∧
      (∀ r e, s.coreRun p = some r → (s.allot a).exec = some e →
        ∃ e', ((s.except p w k).allot a).exec = some e' ∧ e'.invalid.contains r = true) ∧
      (∀ q : Pos, q.id ≠ p.id → (s.except p w k).core q = s.core q)) ∧
    (∀ f : FmtR, s.frozen p = false → (s.core p).canIssue = true →
      (s.core p).active.ue.contains ((s.core p).pc / 2) = false → (s.core p).pc < 1536 →
      ((s.core p).assigned = true → ¬ (f.pr.pn = 1 ∧ f.pr.ps = 0) → f.rsv ≠ 0 →
        exec (.add p f) s = .next (s.except p (wordR 0x1 0 f) .reserved)) ∧
      ((s.core p).assigned = false → ¬ (bits (s.core p).text 31 1 = 1 ∧ bits (s.core p).text 28 3 = 0) →
        exec (.add p f) s = .next (s.except p (s.core p).text .opcode) ∧
        exec (.nop p f) s = .next (s.except p (s.core p).text .opcode))) ∧
    (∀ f : FmtR, s.readyOff p f.pr → f.rsv = 0 →
      exec (.add p f) s = .next (s.skipCore p) ∧ exec (.divu p f) s = .next (s.skipCore p) ∧
      exec (.endIssue p f) s = .next (s.skipCore p) ∧ exec (.jalr p f) s = .next (s.skipCore p) ∧
      exec (.fence p f) s = .next (s.skipCore p) ∧ exec (.bellwait p f) s = .next (s.skipCore p)) ∧
    (∀ f : FmtI, s.readyOff p f.pr →
      exec (.addi p f) s = .next (s.skipCore p) ∧ exec (.lw p f) s = .next (s.skipCore p) ∧
      exec (.sw p f) s = .next (s.skipCore p)) ∧
    (∀ f : FmtVM, s.readyOff p f.pr →
      exec (.vld p f) s = .next (s.skipCore p) ∧ exec (.vst p f) s = .next (s.skipCore p)) ∧
    (∀ f : FmtB, s.readyOff p f.pr → exec (.branchEq p f) s = .next (s.skipCore p))

/-- Observation points (R81): a poisoned value used as a PCMP or PSET operand, as a branch, LOOP or JALR operand, as an address,
as a tally count, as a descriptor's address, as a CSRW source or as BELLWAIT's ra raises POISON_CONSUMED, once a run. -/
def Obligations.ObservationPoints : Prop :=
  ∀ (p : Pos) (s : State),
    let c := s.core p
    let used (i : Instr) : Prop := ∃ w, exec i s = .next (s.except p w .poison)
    (∀ (w : Word) (a : Nat), s.allotOf p.parish = some a → s.noted a evPoisonConsumed 0 (s.coreRun p) = false →
      s.raises (s.except p w .poison) evPoisonConsumed) ∧
    (∀ f : FmtR, s.ready p f.pr → f.rsv = 0 →
      (1 ≤ f.rd.toNat → f.rd.toNat < 8 →
        ((c.spois f.ra = true ∨ c.spois f.rb = true) → used (.pcmpEq p f) ∧ used (.pcmpNe p f) ∧ used (.pcmpLt p f) ∧
          used (.pcmpGe p f) ∧ used (.pcmpLtu p f) ∧ used (.pcmpGeu p f)) ∧
        (f.rb = 0 → c.spois f.ra = true → used (.pset p f))) ∧
      (c.spois f.ra = true → used (.jalr p f) ∧ used (.bellwait p f)) ∧
      (c.spois f.rd = true → (f.ra.toNat * 32 + f.rb.toNat = 6 ∨ f.ra.toNat * 32 + f.rb.toNat = 7) → used (.csrw p f))) ∧
    (∀ f : FmtB, s.ready p f.pr →
      ((c.spois f.ra = true ∨ c.spois f.rb = true) → used (.branchEq p f) ∧ used (.branchNe p f) ∧ used (.branchLt p f) ∧
        used (.branchGe p f) ∧ used (.branchLtu p f) ∧ used (.branchGeu p f)) ∧
      (f.rb = 0 → c.spois f.ra = true → used (.loop p f))) ∧
    (∀ f : FmtI, s.ready p f.pr → c.spois f.ra = true →
      used (.lw p f) ∧ used (.lh p f) ∧ used (.lhu p f) ∧ used (.sw p f) ∧ used (.sh p f)) ∧
    (∀ f : FmtVM, s.ready p f.pr → c.spois f.ra = true →
      used (.vld p f) ∧ (c.accrdPending f.vd.toNat = false → used (.vst p f))) ∧
    (∀ f : FmtT, s.ready p f.pr → f.rsv = 0 → f.one = 0 → f.idx.toNat < tallyRange f.lvl.toNat →
      (f.lvl = 2 → s.hubOwner f.idx.toNat = s.allotOf p.parish) → c.spois f.rs = true →
      used (.tinc p f) ∧ used (.tdec p f) ∧ used (.twait p f) ∧ used (.twaitd p f)) ∧
    (∀ f : FmtD, s.ready p f.pr → f.rsv = 0 → f.rd = 0 → c.spois f.ra = true → used (.dld p f) ∧ used (.dst p f)) ∧
    (∀ f : FmtM, s.ready p f.pr → f.rsv = 0 →
      (∀ m, mfmt f.a.toNat = some m → f.acc = 0 → f.b.toNat % 4 = 0 → f.sb = 0 → (bit f.b 2 = true → sparseOk f.a.toNat = true) →
        c.spois f.sa = true → used (.wld p f)) ∧
      (f.b = 0 → c.bufFmt f.w ≠ none → (c.spois f.sa = true ∨ c.spois f.sb = true) → used (.mma p f)))


/-- Frames (R43, R47, R54): whatever path a scalar or lane instruction takes, it changes no scalar register but rd, no vector
register but vd, no byte of data SRAM or device memory, no tally, no crossroads and no other core. -/
def Obligations.RegisterFrames : Prop :=
  ∀ (p : Pos) (s t : State),
    (∀ (f : FmtR) (c : Instr), c ∈ [Instr.add p f, .sub p f, .and p f, .or p f, .xor p f, .sll p f, .srl p f, .sra p f, .slt p f,
        .sltu p f, .min p f, .max p f, .mul p f, .mulh p f, .mulhu p f, .div p f, .divu p f, .rem p f, .remu p f, .csrr p f] →
      exec c s = .next t → s.keeps t p ∧ s.keepsS t p f.rd ∧ s.keepsV t p none) ∧
    (∀ (f : FmtI) (c : Instr), c ∈ [Instr.addi p f, .slti p f, .andi p f, .ori p f, .xori p f, .slli p f, .srli p f, .srai p f,
        .lw p f, .lh p f, .lhu p f] →
      exec c s = .next t → s.keeps t p ∧ s.keepsS t p f.rd ∧ s.keepsV t p none) ∧
    (∀ (f : FmtU) (c : Instr), c ∈ [Instr.luh p f, .llo p f, .jal p f 0, .jal p f 1] → exec c s = .next t →
      s.keeps t p ∧ s.keepsS t p f.rd ∧ s.keepsV t p none) ∧
    (∀ (f : FmtV) (c : Instr), c ∈ [Instr.vadd p f, .vsub p f, .vmul p f, .vfma p f, .vmax p f, .vmin p f, .vabs p f, .vexp2 p f,
        .vrcp p f, .vrsqrt p f, .vredsum p f, .vredmax p f, .vcmp p f, .vsel p f, .vcvt p f, .viadd p f, .vand p f, .vor p f,
        .vxor p f, .vsrl p f] →
      exec c s = .next t → s.keeps t p ∧ s.keepsS t p 0 ∧ s.keepsV t p (some f.vd))

/-- Frames of stores (R39, R47, R57, R72): whatever path it takes, a store changes no register, no byte of data SRAM outside those
it stores to at its effective address, no device memory, no tally, no crossroads and no other core. -/
def Obligations.StoreFrames : Prop :=
  ∀ (p : Pos) (s t : State),
    (∀ f : FmtI,
      let ea := ((s.core p).sreg f.ra + f.imm.signExtend 32).toNat
      (exec (.sw p f) s = .next t → s.keepsBut t p ea 4 ∧ s.keepsS t p 0 ∧ s.keepsV t p none) ∧
      (exec (.sh p f) s = .next t → s.keepsBut t p ea 2 ∧ s.keepsS t p 0 ∧ s.keepsV t p none)) ∧
    (∀ f : FmtVM, exec (.vst p f) s = .next t →
      s.keepsBut t p ((s.core p).sreg f.ra + BitVec.ofNat 32 (16 * f.off.toNat)).toNat 64 ∧ s.keepsS t p 0 ∧ s.keepsV t p none)

/-! ### Mesh, SRAM, banks (R74, R79, R110 to R135) -/

/-- The mesh (R110 to R125): a port's next token goes from its source to the receiver that takes it; a complete slot gives way to
the next or, at the end of the round, to slot 0; a SUM joins one token of each operand; a spilled entry of the running colour
returns to its queue; a token that crosses to a neighbour keeps its data and side bits, or with a link error arrives poisoned. -/
def Obligations.MeshMoves : Prop :=
  ∀ (p : Pos) (s : State),
    let x := s.xroad p
    let e := (s.core p).slot x.slot
    (∀ (out : Dir) (bad : Bool) (s1 s2 : State) (t : Token), s.meshRuns p = true →
      1 ≤ e.source (dirNo out) → e.source (dirNo out) ≤ 5 → (x.moved.toList[dirNo out]?).getD 0 < e.len →
      s.inbound p e (e.source (dirNo out)) = (s1, some t) → x.offers e (e.source (dirNo out)) (dirNo out) = true →
      s1.deliverToken p e (dirNo out) t bad = some s2 →
      exec (.tokenTransfer p out bad) s = .next ((s2.countMoved p (dirNo out) t).takeFrom p e (e.source (dirNo out)) (dirNo out))) ∧
    (s.meshRuns p = true → x.complete e = true → (s.core p).hold = none →
      leads (exec (.slotAdvance p) s) fun t =>
        (t.xroad p).slot = (if e.wrap ∨ 63 ≤ x.slot then 0 else x.slot + 1) ∧
        (t.xroad p).moved = Vector.replicate 5 0 ∧ t.core p = s.core p) ∧
    (∀ (s1 s2 : State) (t u : Token), s.meshRuns p = true → 1 ≤ e.suma → 1 ≤ e.sumb → e.suma ≤ 5 → e.sumb ≤ 5 → x.sumOut = [] →
      x.offers e e.suma 5 = true → x.offers e e.sumb 5 = true → s.inbound p e e.suma = (s1, some t) →
      s1.inbound p e e.sumb = (s2, some u) → t.colour = u.colour →
      leads (exec (.sum p) s) fun z => (z.xroad p).sumOut = sumTokens e.bf16 t u) ∧
    (∀ q : Fin 4,
      let c := s.core p
      let cfg := c.inCfg q
      let r := c.region q
      let l := (c.inq.toList[q.val]?).getD []
      r.2 ≠ 0 → qRegionSize cfg ≠ 0 → l.length < 16 → (c.spilledAt cfg r.1).colour = c.colour →
      (∀ a n, s.touchSram p 0 a n = s) →
      exec (.refill p q) s = .next (((s.setCore p
        { c with spill := c.spill.setIfInBounds q ((r.1 + 1) % qRegionSize cfg, r.2 - 1)
                 inq := c.inq.setIfInBounds q (l ++ [c.spilledAt cfg r.1]) }).engineRuns p).enterHold p)) ∧
    (∀ (q : Pos) (u : State) (o : Nat) (k : Token) (bad : Bool), o < 4 → neighbour p o = some q →
      s.deliverToken p e o k bad = some u →
      ((s.xroad q).latch.toList[opposite o]?).getD none = none ∧
      ((u.xroad q).latch.toList[opposite o]?).getD none = some (if bad then { k with poison := true, void := false } else k))

/-- SRAM write-back and the swap (R42, R74, R79, R119): a corrected word is no longer waiting; a swap makes the shadow bank
ACTIVE, sets every register, from the bank's entry block or to its cleared value, and starts slot 0. -/
def Obligations.BankSwap : Prop :=
  ∀ (p : Pos) (s : State),
    (∀ addr : BitVec 17, exec (.sramCeWriteback p addr) s = .next (s.setCore p
      { s.core p with writeback := (s.core p).writeback.filter (· ≠ addr.toNat / 8) })) ∧
    (let b := (s.core p).shadow
     s.maySwap p = true → (∀ i < 4, b.ue.contains (0x1AA0 / 8 + i) = false) →
     leads (exec (.bankSwap p) s) fun t =>
       (t.core p).mode = .running ∧ (t.core p).active = { b with st := .active } ∧ (t.core p).shadow.st = .empty ∧
       (t.core p).pc = b.nat 0x1AA0 2 ∧ (t.core p).colour = BitVec.ofNat 2 (b.byte 0x1AA2).toNat ∧
       (t.core p).secseq = BitVec.ofNat 32 (b.nat 0x1AA8 4) ∧ (t.core p).taskidx = BitVec.ofNat 32 (b.nat 0x1AA4 4) ∧
       (t.core p).rngctr = BitVec.ofNat 32 (b.nat 0x1AAC 4) ∧ (t.core p).p = b.byte 0x1AA3 ||| 1 ∧
       (∀ r : BitVec 5, (t.core p).sreg r = (if r.toNat < 16 then 0 else BitVec.ofNat 32 (b.nat (0x1AC0 + 4 * (r.toNat - 16)) 4)) ∧
         (t.core p).spois r = false) ∧
       (∀ i : Fin 16, (t.core p).t[i] = BitVec.ofNat 16 (b.nat (0x1A80 + 2 * i) 2)) ∧
       (t.core p).v = Vector.replicate 16 0 ∧ (t.core p).vp = Vector.replicate 16 0 ∧
       (t.core p).acc = Vector.replicate 4 (Vector.replicate 128 0) ∧ (t.core p).accp = 0 ∧ (t.core p).w = Vector.replicate 2 none ∧
       (t.core p).topk = {} ∧ (t.core p).vstat = 0 ∧ (t.core p).beats = 0 ∧ (t.core p).mq = [] ∧ (t.core p).mrun = none ∧
       (t.core p).wait = .none ∧ (t.xroad p).slot = 0)

/-! ### Posted registers (R141, R224, R266, R404, R494) -/

/-- A write to a posted block is taken and stays pending until it is done (R494); then its effect follows. A read of STATUS
shows BUSY set while a write of its block is pending and clear when none is. -/
def Obligations.PostedWrites : Prop :=
  ∀ (s : State) (path : RegPath) (par : Fin 78),
    (∀ (col : Fin 80) (hi : Bool) (v : DWord),
      let o := parishBase par + 0x1000 + 0x10 * col + (if hi then 8 else 0)
      s.takesPost path o true → exec (.deadmap path par col hi v) s = .next (s.postedWith path o v)) ∧
    (∀ (hi : Bool) (v : DWord), let o := parishBase par + (if hi then 0x1508 else 0x1500)
      s.takesPost path o true → exec (.fallow path par hi v) s = .next (s.postedWith path o v)) ∧
    (∀ v : DWord, s.takesPost path (parishBase par + 0x4038) true →
      exec (.railCtl path par v) s = .next (s.postedWith path (parishBase par + 0x4038) v)) ∧
    (∀ (idx : Byte) (v : DWord), let o := parishBase par + 0x3000 + 8 * idx.toNat
      s.takesPost path o false → exec (.parishTally path par idx v) s = .next (s.postedWith path o v)) ∧
    (s.takesPost path (parishBase par + 0x2020) false →
      exec (.resume path par) s = .next (s.postedWith path (parishBase par + 0x2020) 1) ∧
      (∀ fill : BitVec 2, exec (.skip path par fill) s =
        .next (s.postedWith path (parishBase par + 0x2020) (BitVec.ofNat 64 (2 + 4 * fill.toNat)))) ∧
      (∀ all : Bool, exec (.abort path par all) s =
        .next (s.postedWith path (parishBase par + 0x2020) (if all then 19 else 3)))) ∧
    (∀ v : DWord, s.takesPost path (parishBase par + 0x1538) false →
      exec (.ctrclr path (BitVec.ofNat 24 (parishBase par + 0x1538)) v) s = .next (s.postedWith path (parishBase par + 0x1538) v)) ∧
    (∀ (m : Fin 64) (v : DWord), s.takesPost path (mcBase m + 0xF0) false →
      exec (.ctrclr path (BitVec.ofNat 24 (mcBase m + 0xF0)) v) s = .next (s.postedWith path (mcBase m + 0xF0) v)) ∧
    (∀ (block : BitVec 24) (w : Posted), s.posted.find? block.toNat = some w →
      let t := { s with posted := s.posted.del block.toNat }.applyPosted w.offset w.value
      exec (.postedWriteDone block) s = .next t ∧ t.posted.find? block.toNat = none) ∧
    (s.absent (parishBase par + 8) = false →
      bit (s.regRead (parishBase par + 8)) 0 = (s.posted.find? (parishBase par)).isSome) ∧
    (∀ m : Fin 64, s.absent (mcBase m + 8) = false → bit (s.regRead (mcBase m + 8)) 0 = (s.posted.find? (mcBase m)).isSome)

/-- What the posted writes of a parish block do when they take effect (R221, R266, R404): a tally register of an allotment that
is not RUNNING takes the value; RESUME puts the failed requests of the halted channel back to be sent; clearing RAIL_CTL.EN of a
parish in no allotment puts it dark. -/
def Obligations.PostedEffects : Prop :=
  ∀ (s : State) (par : Fin 78) (v : DWord),
    (∀ i : Nat, i < 256 → s.isRunning (s.allotOf par) = false → (s.parish par).waiters.get [] i = [] →
      (((s.parishTallyWrite par i v).parish par).tallies.get 0 i).toNat = bits v 0 16) ∧
    (∀ (p : Pos) (l : Latch), selPos par (s.reg (parishBase par + 0x2000)) = some p →
      ((s.core p).chan (selChan (s.reg (parishBase par + 0x2000)))).latch = some l →
      let x := (s.core p).chan (selChan (s.reg (parishBase par + 0x2000)))
      let y := ((s.carterCtl par 1).core p).chan (selChan (s.reg (parishBase par + 0x2000)))
      y.halted = false ∧ y.latch = none ∧ y.failed = [] ∧ y.waiting = x.waiting ∧
      (∀ r ∈ x.running, ∃ r' ∈ y.running, r' = { r with redo := r'.redo } ∧
        ∀ k, k ∈ r'.redo ↔ k ∈ r.redo ∨ ∃ f ∈ l :: x.failed, f.serial = r.serial ∧ f.piece = k)) ∧
    (bit v 0 = false → s.allotOf par = none → (s.parish par).railOn = true →
      ((s.railCtlWrite par v).parish par).railOn = false ∧ ((s.railCtlWrite par v).parish par).dark = true) ∧
    (bit v 0 = false → ∀ a, s.allotOf par = some a →
      s.railCtlWrite par v = s.orReg (parishBase par + 0x4040) 1)

/-! ### Sections, runs and the bell (R147 to R175, R245 to R274) -/

/-- Filling, deadlines and ends of runs (R83, R147, R148, R151, R158, R163). -/
def Obligations.RunsOfAProgram : Prop :=
  ∀ (a : Fin 16) (s : State) (g : Prog) (e : Exec),
    let x := s.allot a
    x.prog = some g → x.exec = some e → x.st = .running →
    (∀ r : RunId, e.nextRun g = some r → e.mayFill = true → e.launched = e.fills.length → s.fieldTick a < x.launchTick e r →
      exec (.sectionLoaderFill a) s = .next (s.setAllot a
        { x with colour := x.colour + 1, exec := some { e with fills := e.fills ++ [(r, x.colour)] } })) ∧
    (∀ (i : Nat) (r : RunId), (i, r) ∈ x.unended e → x.deadlineTick e r ≤ s.fieldTick a →
      (e.overran.contains r = false →
        leads (exec (.sectionOverrun a) s) fun t => (t.allot a).probing = true ∧ s.raises t evSectionOverrun) ∧
      (x.deadlineTick e r + x.graceOf r ≤ s.fieldTick a →
        leads (exec (.graceExpiry a) s) fun t => (t.allot a).st = .halted ∧ (t.allot a).exec = none)) ∧
    (e.quiescing g = true → x.haltAt ≠ some .fault → (∀ y ∈ s.ses, y.2.closing = none) →
      leads (exec (.quiescenceCheck a) s) fun t => (t.allot a).st = .loaded ∧ (t.allot a).exec = none) ∧
    (∀ p : Pos, s.allotOf p.parish = some a.val → x.probing = true → s.alive p = true → (s.core p).dead = false →
      leads (exec (.coreLost p) s) fun t => (t.core p).dead = true ∧ s.raises t evCoreLost ∧ (t.allot a).haltAt ≠ none) ∧
    (∀ (i : Nat) (rest : List Nat) (r : RunId) (c : BitVec 2) (sec : Sect), e.sigDue = i :: rest → e.fills[i]? = some (r, c) →
      x.sectOf r = some sec → ∀ slow, leads (exec (.signatureCompare ⟨a, slow⟩) s) fun t =>
        ((t.allot a).exec.map (·.sigDue)) = some rest ∨
        ((t.allot a).haltAt ≠ none ∧ ((t.allot a).exec.map (·.sigDue)) =
          some (rest.filter fun j => !(e.fills[j]?).any fun f => decide (f.1.sect = r.sect)))) ∧
    (∀ r : RunId, x.curRun = some r → e.deadlock = false → s.allQuiet a = true →
      leads (exec (.deadlock a) s) fun t => s.raises t evDeadlock ∧ ((t.allot a).exec.map (·.deadlock)) = some true ∧
        (t.allot a).st = .running ∧ (t.allot a).probing = true)

/-- The bell (R245 to R248, R267, R268, R274): a tick advances the unit's counter; a wave that fits advances the parish's copy and
applies its grant; calibration keeps its measurements; a plane lost is lost; the snapshot's header is written last. -/
def Obligations.BellAndCrier : Prop :=
  ∀ s : State,
    (s.pins.pwrGood = true → s.pins.resetN = true →
      let u := { s with bell := { s.bell with count := s.bell.count + 1 }, tod := s.tod.ticked (s.ticksNs 1) }.mirror.raiseHeldBack
      exec (.bellTick false) s = .next u ∧ exec (.bellTick true) s = .next (u.forceSuspect (s.bell.count + 1).toNat)) ∧
    (∀ par : Fin 78, (s.parish par).hears = true → (s.planeOpen par 0 false || s.planeOpen par 1 false) = true →
      let x := s.parish par
      let t := (x.bell + 1).toNat
      let granted := (s.setParish par { x with bell := x.bell + 1, grant := x.nextGrant, gPast := x.gOver (s.ticksNs 1)
                                               gSum := 0, gSince := 0 }).newAllowance par
      let u := if x.throttle < 256 then granted.bump (parishBase par + 0x4030) else granted
      let wave (v : State) : Prop :=
        exec (.bellWave par ⟨((x.bell + 1).setWidth 8), false⟩) s = .next (((v.releaseBellwaits par).wavesAsk s par).closeAll)
      (u.allotOf par = none → wave (u.judgeQuiet [par])) ∧
      (∀ a, u.allotOf par = some a → wave (if (u.allot a).acted < t then u.allotActs a t else u)) ∧
      (∀ low : BitVec 8, exec (.bellWave par ⟨low, true⟩) s = .next (s.bump (parishBase par + 0x3820)))) ∧
    (∀ (par : Fin 78) (dA dB skew : Half), (s.parish par).hears = true →
      exec (.riserCalibration par dA dB skew) s = .next
        { (s.setReg (parishBase par + 0x3818) (BitVec.ofNat 64 (dA.toNat + 2 ^ 16 * dB.toNat))).setReg 0x30060 (skew.setWidth 64) with
          bell := { s.bell with calibrated := true } }) ∧
    (∀ (par : Fin 78) (link : Half), (s.parish par).planeB = true →
      leads (exec (.crierPlaneDown 0 false par link) s) fun t =>
        (t.parish par).planeA = false ∧ (t.parish par).planeB = true ∧ (t.parish par).isolated = (s.parish par).isolated ∧
        s.raises t evCrierPlaneDown) ∧
    (∀ (a : Fin 16) (h : List Byte), (s.allot a).snap = some h →
      exec (.watchSnapshotDone a) s =
        .next ((s.viewWrite (s.allot a).snapDpa h (some a)).updAllot a fun x => { x with snap := none })) ∧
    (∀ (path : RegPath) (idx : BitVec 12) (v : DWord) (t : State), s.gate path (0x38000 + 8 * idx.toNat) false = (t, true) →
      exec (.hubTally path idx v) s = .next (t.hubTallyWrite idx.toNat v)) ∧
    (∀ (i : Nat) (v : DWord), s.isRunning (s.hubOwner i) = false → s.hubWait.get [] i = [] →
      ((s.hubTallyWrite i v).hub.get 0 i).toNat = bits v 0 32)

/-- The bell counter (R246): whatever command runs, the counter stays, or a tick advances it by one, or a module joining a
schedule domain loads the count of the marker, or a cold reset or the loss of power sets it to 0. -/
def Obligations.BellCounterSet : Prop :=
  ∀ s t : State, step s = .next t →
    t.bell.count = s.bell.count ∨
    (t.bell.count = s.bell.count + 1 ∧ ∃ short rest, s.pending = .bellTick short :: rest) ∨
    (s.bell.member = false ∧ t.bell.member = true ∧ ∃ period dom lvl oos atPeriod atPs rest,
      s.pending = .marker t.bell.count period dom lvl oos atPeriod atPs :: rest) ∨
    (t.bell.count = 0 ∧ (t.pins.pwrGood = false ∨ t.boot.st = .coldReset))

/-! ### Clocks (R226 to R244) -/

/-- Sources, switching and the frequency meter (R231 to R239). -/
def Obligations.Clocks : Prop :=
  ∀ s : State,
    (∀ o : MonObs, s.pins.pwrGood = true → leads (exec (.monitorWindow o) s) fun t =>
      let refGood := within 50000 o.refVsMon && !s.clk.gaps.contains .ref
      let limit := if s.clk.refFailed = true ∨ refGood = false then 50000 else 500
      t.clk.refOk = refGood ∧ t.clk.tlaneOk = (s.tlaneRuns && within limit o.tlane && !s.clk.gaps.contains .tlane) ∧
      t.clk.synceOk = (s.synceRuns && within limit o.synce && !s.clk.gaps.contains .synce) ∧
      t.clk.monOk = (o.refVsMon.any fun d => decide (10 * (d.natAbs : Int) ≤ 1000000 + d)) ∧ t.clk.gaps = []) ∧
    (∀ (src : Src) (short : Bool), s.pins.pwrGood = true → src ≠ .mon →
      leads (exec (.edgeGap src short) s) fun t => t.clk.ok src = false) ∧
    (s.clk.primaryPending = true → s.clk.ok (primarySrc s.boot.cfg) = true → s.clk.switching = none →
      leads (exec .primarySwitch s) fun t => t.clk.primaryPending = false ∧
        t.clk.switching = (if s.clk.sel = primarySrc s.boot.cfg then none else some (primarySrc s.boot.cfg))) ∧
    (∀ (path : RegPath) (v : DWord) (t : State) (x : Src), s.gate path 0x20008 true = (t, true) → srcOf (bits v 0 4) = some x →
      t.clk.ok x = true → t.clk.switching = none → x ≠ t.clk.sel →
      exec (.clkSelect path v) s = .next
        { t.setReg 0x20008 (BitVec.ofNat 64 (bits v 0 4)) with clk := { t.clk with switching := some x } }) ∧
    (∀ x : Src, s.clk.switching = some x → s.clk.refOk = true →
      let u : State := { s with clk := { s.clk with sel := x, switching := none, lastForced := false } }
      exec .muxSwitchComplete s = .next (if s.boot.warmHeld ∧ u.honours then u.beginRestart else u) ∧
      (s.boot.warmHeld = false → ∀ short : Bool, leads (exec (.muxStuck short) s) fun t => t.clk.switching = none ∧
        t.clk.lastForced = true ∧ t.clk.sel = (if s.clk.ok x then x else .ref) ∧ s.raises t evMuxStuck)) ∧
    (∀ (path : RegPath) (v : DWord) (t : State), s.gate path 0x20030 false = (t, true) → bits v 8 24 ≠ 0 → bit v 63 = true →
      bits v 0 4 ≤ 4 → bits v 4 4 ≤ 4 → leads (exec (.fmeterStart path v) s) fun u =>
        u.clk.meterRunning = true ∧ u.reg 0x20038 = 0 ∧ u.reg 0x20030 = BitVec.ofNat 64 (bits v 0 32)) ∧
    (s.clk.meterRunning = true →
      (∀ count : BitVec 48, leads (exec (.fmeterDone count) s) fun t => t.clk.meterRunning = false ∧
        t.reg 0x20038 = BitVec.ofNat 64 (count.toNat + 2 ^ 63)) ∧
      (leads (exec .fmeterTimeout s) fun t => t.clk.meterRunning = false ∧ bit (t.reg 0x20038) 62 = true ∧
        bit (t.reg 0x20038) 63 = true))

/-! ### Wells and device memory (R40, R177 to R181, R187 to R203) -/

/-- A request for memory, or beyond every view, at its well (R178, R181): the first range of addresses that holds it decides. -/
def Obligations.WellChecks : Prop :=
  ∀ (id : Nat) (r : Req) (s : State), s.reqs.find? id = some r → r.stage = .toWell →
    (s.parish r.core.parish).railOn = true → (s.parish r.core.parish).dark = false → s.wellOf r.core ≠ none →
    ∀ slow,
    let run := if r.ch = .load then exec (.read ⟨id, slow⟩) s else exec (.write ⟨id, slow⟩) s
    let put (q : Req) : Host.Outcome State Fault Refusal := .next { s with reqs := s.reqs.put id q }
    let refused (st : BitVec 4) : Req := { r with stage := .toCarter, status := st, data := [], poison := [] }
    (r.addr < 2 * nearBase →
      (s.viewDpa r.addr = none → run = put (refused 1)) ∧
      (∀ d a, s.viewDpa r.addr = some d → s.allotOf r.core.parish = some a →
        (s.inQuota a d r.piece.len = true → run = put { r with stage := .atMem }) ∧
        (s.inQuota a d r.piece.len = false → s.noted a evWindowFault r.core.id (s.coreRun r.core) = false →
          leads run fun t => t.reqs.find? id = some (refused 2) ∧ s.raises t evWindowFault))) ∧
    (guestBase + 2 ^ 38 ≤ r.addr → run = put (refused 1))

/-- A memory controller serves a request (R191, R198, R199, R201): a read returns the bytes and the poison of their rows and
changes none; a write stores its bytes and no others; a stack out of service answers TARGET_ERROR. One cell written is read
back, no other cell changes, and the canonical form stays. -/
def Obligations.MemoryController : Prop :=
  ∀ (id lat wait : Nat) (r : Req) (d : Nat) (s : State), s.reqs.find? id = some r → r.stage = .atMem → s.viewDpa r.addr = some d →
    let key := s.memKey d
    let answer (st : BitVec 4) (l : List Byte) (bad : List Bool) : Req :=
      { r with stage := .toCarter, status := st, data := l, poison := bad }
    let reached := s.hubToWell r.core (stackSector (key / 2 ^ 36))
    (reached = false → exec (.memoryAccess id ⟨lat, wait⟩) s = .next s) ∧
    (reached = true → s.stackUp (key / 2 ^ 36) = true →
      (r.ch = .load → leads (exec (.memoryAccess id ⟨lat, wait⟩) s) fun t => (∀ k, t.memByte k = s.memByte k) ∧
        t.reqs.find? id = some (answer 0 (s.memBytes key r.piece.len) (t.rowPoison key r.piece.len))) ∧
      (r.ch = .store → leads (exec (.memoryAccess id ⟨lat, wait⟩) s) fun t =>
        (∀ i, i < r.data.length → t.memByte (key + i) = (r.data[i]?).getD 0) ∧
        (∀ k, k < key ∨ key + r.data.length ≤ k → t.memByte k = s.memByte k) ∧
        t.reqs.find? id = some (answer 0 [] []))) ∧
    (reached = true → s.stackUp (key / 2 ^ 36) = false →
      exec (.memoryAccess id ⟨lat, wait⟩) s = .next { s with reqs := s.reqs.put id (answer 3 [] []) }) ∧
    (∀ (k j : Nat) (v : Byte), (s.setMemByte k v).memByte k = v ∧
      (j ≠ k → (s.setMemByte k v).memByte j = s.memByte j) ∧ (s.memWf = true → (s.setMemByte k v).memWf = true))

/-- Data SRAM from the hub (R40, R72, R178): an address of the direct view names the core and the offset in its slot; a read
returns bytes and poison, a write stores its bytes and no others, an access past the data SRAM ends UNMAPPED; the section
loader's block goes to the shadow bank; an answer goes back to its requester. -/
def Obligations.FieldSram : Prop :=
  ∀ s : State,
    let answered (q : Pos) (id : Nat) (k : Req) : State :=
      { s.updCore q fun c => { c with answers := c.answers ++ [id] } with reqs := s.reqs.put id k }
    (∀ (id : Nat) (r : Req) (q : Pos) (a : Nat), s.reqs.find? id = some r → r.stage = .toWell →
      (s.parish r.core.parish).railOn = true → (s.parish r.core.parish).dark = false → s.wellOf r.core ≠ none →
      directBase ≤ r.addr → r.addr < directBase + 2 ^ 37 →
      posOfId ((r.addr - directBase) / 2 ^ 17) = some q → s.allotOf r.core.parish = some a → s.allotOf q.parish = some a →
      (s.parish q.parish).railOn = true → (s.parish q.parish).dark = false → s.wellOf q ≠ none →
      let k : Req := if s.fallow q.parish q.col then { r with stage := .toCarter, status := 1, data := [], poison := [] }
        else { r with stage := .atField, target := some q }
      ∀ slow, (if r.ch = .load then exec (.read ⟨id, slow⟩) s else exec (.write ⟨id, slow⟩) s) =
        .next { s with reqs := s.reqs.put id k }) ∧
    (∀ (id : Nat) (r : Req) (q : Pos), s.reqs.find? id = some r → r.stage = .atField → r.target = some q → s.alive q = true →
      s.portOpen q false = true → s.hubToWell r.core (s.sectorOf q) = true →
      0x18000 < (r.addr - directBase) % 2 ^ 17 + r.piece.len →
      (if r.ch = .load then exec (.sramRead id) s else exec (.sramWrite q false ⟨id, []⟩) s) =
        .next (answered q id { r with stage := .fieldResp, status := 1, data := [], poison := [] })) ∧
    (∀ (id : Nat) (r : Req) (q : Pos), s.reqs.find? id = some r → r.stage = .atField → r.target = some q → s.alive q = true →
      s.portOpen q false = true → s.hubToWell r.core (s.sectorOf q) = true → r.inSram = true →
      let a := (r.addr - directBase) % 2 ^ 17
      let read : Req := { r with stage := .fieldResp, status := 0, data := (s.core q).bytes a r.piece.len,
                                 poison := (rowsOf a r.piece.len).map fun w => (s.core q).poisoned (16 * w) 16 }
      (r.ch = .load → (∀ b n, s.touchSram q 0 b n = s) →
        exec (.sramRead id) s = .next (answered q id read)) ∧
      (r.ch = .store → leads (exec (.sramWrite q false ⟨id, []⟩) s) fun t =>
        t.reqs.find? id = some { r with stage := .fieldResp, status := 0, data := [], poison := [] } ∧
        (∀ i, i < r.data.length → (t.core q).byte (a + i) = (r.data[i]?).getD 0) ∧
        (∀ k, k < a ∨ a + r.data.length ≤ k → (t.core q).byte k = (s.core q).byte k))) ∧
    (∀ (id : Nat) (r : Req) (q : Pos), s.reqs.find? id = some r → r.stage = .fieldResp → r.target = some q →
      s.mayAnswer id q = true →
      (if r.ch = .load then exec (.sramReadResp id) s else exec (.sramWriteAck id) s) =
        .next { s.updCore q fun c => { c with answers := c.answers.erase id } with
                reqs := s.reqs.put id { r with stage := .toCarter } }) ∧
    (∀ (p : Pos) (a : Nat) (g : Prog) (e : Exec) (r : RunId) (colour : BitVec 2) (sec : Sect) (k : Nat),
      s.allotOf p.parish = some a → (s.allot a).prog = some g → (s.allot a).exec = some e →
      e.fills[(s.core p).nextFill]? = some (r, colour) → g.sectOf r = some sec → k < 128 → s.alive p = true →
      s.portOpen p false = true →
      ((s.core p).shadow.st = .empty ∨ (s.core p).shadow.st = .filling) → bit (s.core p).shadow.got k = false →
      ((s.core p).shadow.st = .empty ∨ setBit (s.core p).shadow.got k true ≠ BitVec.allOnes 128) →
      (∀ n x, s.recordOf g r p = some (n, x) →
        let len := if 64 * k < x.bodyLen then min 64 (x.bodyLen - 64 * k) else 0
        s.readable (g.dpa + x.bodyOfs + 64 * k) len = true ∧ s.hubToBody p (g.dpa + x.bodyOfs + 64 * k) len = true) →
      ∀ slow, leads (exec (.sramWrite p true ⟨k, slow⟩) s) fun t =>
        (t.core p).shadow.st = .filling ∧ bit (t.core p).shadow.got k = true ∧
        ∀ j, j < 64 → (t.core p).shadow.byte (64 * k + j) = s.bankByte g (s.recordOf g r p) p colour sec.secseq (64 * k + j))

/-- Refresh, scrub, the hourly counts and stacks out of service (R193, R194, R200, R201). -/
def Obligations.MemoryUpkeep : Prop :=
  ∀ s : State,
    (∀ (g : Fin 8) (second : Bool), leads (exec (.refreshWindow g second) s) fun t => ∀ m : Nat,
      (m / 8 = g.val → s.stackUp m = true → (second = true → (s.mc m).hot = true) →
        (t.mc m).acts = (s.mc m).acts.mapVals fun _ n => n - 32) ∧
      ((m / 8 ≠ g.val ∨ s.stackUp m = false ∨ (second = true ∧ (s.mc m).hot = false)) → t.mc m = s.mc m)) ∧
    (∀ (m : Fin 64) (i : Nat), s.slotOf m = some i → s.stackUp m = true → bit (s.reg (mcBase m + 0x40)) 0 = true →
      leads (exec (.scrubRead m) s) fun t => (t.mc m).scrubPos = ((s.mc m).scrubPos + 1) % 2 ^ 27 ∧
        ∀ k, t.memByte k = s.memByte k) ∧
    (leads (exec .ceHourlyRoll s) fun t => ∀ (m : Nat) (x : Stack), m < 64 → s.mcs.find? m = some x →
      ((t.mc m).rows.map fun r => (r.1, r.2.1)) =
        (x.rows.map fun r => (r.1, 0 :: r.2.1.take 23)).filter fun r => decide (r.2.sum ≠ 0)) ∧
    (∀ (m : Fin 64) (cause : Fin 3), (s.mc m).online = true → leads (exec (.stackOffline m cause) s) fun t =>
      (t.mc m).online = false ∧ t.stackUp m = false ∧ t.boot.set = s.boot.set ∧ s.raises t evStackOffline)

/-! ### The carter (R205 to R225) -/

/-- A channel's work (R180, R205, R213, R216, R217): the next descriptor starts, a request goes out with a credit, the oldest
descriptor completes with its status word; a response returns the credit, and a failure halts the channel once nothing is
outstanding; the drain ends what is outstanding. -/
def Obligations.CarterChannel : Prop :=
  ∀ (p : Pos) (ch : Chan) (s : State),
    let c := s.core p
    let x := c.chan ch
    (s.carterRuns p = true →
      (x.issuing = true → (∀ r ∈ x.running, r.issued = true) → ∀ d rest, x.waiting = d :: rest →
        exec (.descriptorStart p ch) s = .next (s.setCore p (c.setChan ch
          { x with waiting := rest, serial := x.serial + 1, running := x.running ++ [{ d := d, serial := x.serial }] }))) ∧
      (x.issuing = true → ∀ r k redo, x.nextPiece = some (r, k, redo) → r.d.outside k.burst = false → 0 < x.credits →
        s.mayEnter p ch = true → leads (exec (.carterRequest p ch) s) fun t => ((t.core p).chan ch).credits = x.credits - 1 ∧
          t.nextReq = s.nextReq + 1 ∧ ∃ q, t.reqs.find? s.nextReq = some q ∧ q.core = p ∧ q.ch = ch ∧ q.piece = k ∧
            q.addr = r.d.dpa k ∧ q.stage = .toWell ∧ q.data.length = (if ch = .store then k.len else 0))) ∧
    (∀ r rest, x.running = r :: rest → x.mayComplete r = true → r.d.tbind = false → (∀ f, c.wait ≠ .carterFull ch f) →
      ((s.carterRuns p = true ∨ (r.aborted = false ∧ c.drained = false)) →
        leads (exec (.descriptorComplete p ch) s) fun t => ((t.core p).chan ch).running = rest ∧
          (r.d.statEn = true → leNat ((t.core p).bytes r.d.statAddr 8) = r.statusWord)) ∧
      (s.carterRuns p = false → (r.aborted = true ∨ c.drained = true) → exec (.descriptorComplete p ch) s = .next s)) ∧
    (∀ (id : Nat) (r : Req), s.reqs.find? id = some r → r.core = p → r.ch = ch → r.stage = .toCarter → s.portOpen p false = true →
      leads (if ch = .load then exec (.readResp id) s else exec (.writeAck id) s) fun t =>
        t.reqs.find? id = none ∧ ((t.core p).chan ch).credits = x.credits + 1 ∧
        (r.status ≠ 0 → r.status ≠ 4 → x.halted = false → x.failed = [] →
          (∀ d ∈ x.running, (if d.serial = r.serial then d.outstanding.erase r.piece else d.outstanding) = []) →
          ((t.core p).chan ch).halted = true ∧ s.raises t evDmaHalt ∧ ((t.core p).chan ch).latch =
            some { serial := r.serial, piece := r.piece, status := r.status, dpa := r.addr })) ∧
    (∀ a, s.allotOf p.parish = some a → (s.allot a).st = .halted → s.outstandingOf p ch ≠ [] →
      leads (exec (.dmaDrainTimeout p) s) fun t => t.outstandingOf p ch = [] ∧ s.raises t evDmaDrainTimeout)

/-! ### Links (R283 to R290) -/

/-- The link layer of a port that carries traffic (R283, R285, R288, R293). On a healthy group a codeword with at most 15 symbol
errors that is the next expected is taken, one out of order leaves the port as it is, and one with more is discarded with all
after it; a NAK for it, and at each interval an ACK, leaves in the next codeword (with nothing else waiting, at once). An ACK
received frees the codewords up to the one it names, a NAK has those from the one it names on sent again, or past RETRY_LIMIT in
a millisecond loses the group, and CREDIT adds to its channel. -/
def Obligations.LinkLayer : Prop :=
  ∀ (port : Fin 64) (s : State),
    let x := s.port port
    let atOnce : Prop := x.ctrl = [] ∧ x.queued = [] ∧ x.st ≠ .draining ∧ x.g0.held.length < 1024 ∧ x.g1.held.length < 1024
    x.carries = true →
    (∀ g : BitVec 1,
      let y := x.group g.toNat
      y.ok = true →
      (∀ (err : List (Fin 8 × Nat)) (c n : Nat),
        ((err.map (·.2)).sum ≤ 15 →
          (leads (exec (.codeword port g y.recvSeq err c n) s) fun t =>
            ((t.port port).group g.toNat).recvSeq = y.recvSeq + 1 ∧ ((t.port port).group g.toNat).discarding = false) ∧
          (∀ l, l ≠ y.recvSeq → leads (exec (.codeword port g l err c n) s) fun t => t.port port = x)) ∧
        (15 < (err.map (·.2)).sum → ∀ l,
          (y.discarding = true → l ≠ y.recvSeq → leads (exec (.codeword port g l err c n) s) fun t => t.port port = x) ∧
          ((y.discarding = false ∨ l = y.recvSeq) → leads (exec (.codeword port g l err c n) s) fun t =>
            ((t.port port).group g.toNat).discarding = true ∧ ((t.port port).group g.toNat).recvSeq = y.recvSeq ∧
            (atOnce → t.out = .link port 2 [g.toNat, y.recvSeq.toNat] :: s.out)))) ∧
      (leads (exec (.ackIntervalExpiry port g) s) fun t =>
        ((t.port port).group g.toNat).lastAck = y.recvSeq ∧
        (atOnce → t.out = .link port 1 [g.toNat, (y.recvSeq - 1).toNat] :: s.out)) ∧
      (∀ l : BitVec 10,
        let recent := (s.tick :: y.naks).filter fun t => decide (s.ticksNs (s.tick - t) < 1000000)
        let limit := bits (s.reg (portBase port + 0x60)) 0 16
        (recent.length ≤ limit → leads (exec (.nak port g l) s) fun t =>
          t.port port = x.setGroup g.toNat { y with naks := recent } ∧
          t.out = (((y.held.dropWhile fun h => h.lseq ≠ l).flatMap (·.items)).map (·.out port)).reverse ++ s.out) ∧
        (limit < recent.length → leads (exec (.nak port g l) s) fun t =>
          ((t.port port).group g.toNat).ok = false ∧ s.raises t evLinkRetryStorm))) ∧
    (x.queued = [] → x.ctrl = [] → s.fabWait = [] → x.st ≠ .draining →
      (∀ (g : BitVec 1) (l : BitVec 10), (x.group g.toNat).held.any (fun h => h.lseq = l) = true →
        leads (exec (.ack port g l) s) fun t => t.port port = x.setGroup g.toNat
          { x.group g.toNat with held := ((x.group g.toNat).held.dropWhile fun h => h.lseq ≠ l).drop 1 }) ∧
      (∀ (vc : Fin 25) (n : Nat), leads (exec (.credit port vc n) s) fun t =>
        t.port port = { x with credits := x.credits.put vc (x.credit vc + n) }))

/-- A port trains, comes up, goes down, is switched off and on (R286 to R290). A group lost here or at the peer leaves the port
on the other, which sends the unacknowledged codewords again; with none left the port is DOWN, or DISABLED where it is switched
off. -/
def Obligations.PortStates : Prop :=
  ∀ (port : Fin 64) (s : State),
    let x := s.port port
    let freed := x.parkedRed.map fun k => (24, k, pFlits k)
    (s.portThere port = true → x.en = true →
      ((x.st = .disabled ∨ x.st = .down) → leads (exec (.portTraining port) s) fun t =>
        t.port port = { x with st := .training } ∧ t.out = .link port 5 [s.feid, port, 1, s.boot.cfg.domainId.toNat] :: s.out) ∧
      (x.st = .down → leads (exec (.retrainTimer port) s) fun t =>
        t.port port = { x with st := .training, attempts := x.attempts + 1 })) ∧
    (x.st = .training → ∀ o : TrainObs,
      let found := s.fuseLanes port o
      exec (.train port o) s = .next (s.setPort port
        { x with peer := some (o.peerFeid, o.peerPort), peerDomain := o.peerDomain, delayPs := o.delayPs }) ∧
      (s.portThere port = true → o.peerVerux1 = true → o.peerFeid.toNat ≠ s.feid → (trainGroup found 0 = true ∨ trainGroup found 1 = true) →
        leads (exec (.trainingComplete port o) s) fun t =>
          (t.port port).st = (if trainGroup found 0 ∧ trainGroup found 1 then .up else .degraded) ∧
          (t.port port).peer = some (o.peerFeid, o.peerPort) ∧ (t.port port).g0.ok = trainGroup found 0 ∧
          (t.port port).g1.ok = trainGroup found 1) ∧
      (s.portThere port = true → x.en = true → trainGroup found 0 = false → trainGroup found 1 = false →
        leads (exec (.trainingComplete port o) s) fun t =>
          (t.port port).st = .down ∧ (t.port port).cause = trainWhy found ∧ s.raises t evPortDown)) ∧
    (∀ (o : TrainObs) (g : Nat),
      (o.txBad.dedup.length ≤ 1 → o.rxBad.dedup.length ≤ 1 → trainGroup o g = (if g = 0 then o.group0 else o.group1)) ∧
      (∀ i j : Fin 17, i ≠ j → i ∈ o.txBad → j ∈ o.txBad → i.val / 8 = g → trainGroup o g = false)) ∧
    (∀ (path : RegPath) (v : DWord) (t : State), s.gate path (portBase port + 8) true = (t, true) →
      leads (exec (.portCtl path port v) s) fun u => (u.port port).en = bit v 0 ∧
        (bit v 0 = true → x.st = .disabled → (u.port port).st = (if s.portThere port then .training else .disabled)) ∧
        (bit v 0 = false → (x.st = .up ∨ x.st = .degraded) →
          ((u.port port).st = .draining ∨ ((u.port port).st = .disabled ∧ (u.port port).queued = freed)))) ∧
    (x.st = .draining → leads (exec (.portDrainTimeout port) s) fun t =>
      (t.port port).st = .disabled ∧ (t.port port).queued = freed) ∧
    (∀ g : BitVec 1, x.carries = true → (x.group g.toNat).ok = true →
      let other := x.group (1 - g.toNat)
      (∀ cause : BitVec 4,
        (other.ok = true → leads (exec (.groupLost port g cause) s) fun t =>
          ((t.port port).group g.toNat).ok = false ∧ ((t.port port).group (1 - g.toNat)).ok = true ∧ s.raises t evPortDegraded ∧
          (x.st = .up → (t.port port).st = .degraded)) ∧
        (other.ok = false → leads (exec (.groupLost port g cause) s) fun t =>
          (t.port port).st = (if x.en then .down else .disabled) ∧ (t.port port).queued = [] ∧ (t.port port).ctrl = [] ∧
          s.raises t evPortDown)) ∧
      (∀ l, other.ok = true → x.st ≠ .draining → leads (exec (.gfail port g l) s) fun t =>
        ((t.port port).group g.toNat).held = [] ∧ ((t.port port).group g.toNat).ok = false ∧
        ((t.port port).group (1 - g.toNat)).ok = true))

/-! ### The schedule domain (R240, R249, R252, R255, R311 to R314) -/

/-- Markers, admission and stretch requests. -/
def Obligations.ScheduleDomain : Prop :=
  ∀ s : State,
    let c := s.boot.cfg
    let b := s.bell
    (s.up = true → c.domain = true → c.root = false →
      ∀ (count : DWord) (period : BitVec 18) (dom : Half) (lvl : BitVec 3) (oos : Bool) (atPeriod atPs : Nat),
      (b.member = true → leads (exec (.marker count period dom lvl oos atPeriod atPs) s) fun t =>
        t.bell.parentOos = oos ∧ t.bell.count = b.count ∧ (oos = true → t.bell.outOfStep = true) ∧
        t.reg (clkBase + 0x48) = BitVec.ofNat 64 ((s.phaseErr count period (6400 * atPeriod + atPs)).toNat + 2 ^ 63)) ∧
      (b.member = false → ∀ ex, b.parentDomain = some ex →
        (s.admission ex dom lvl.toNat = none → leads (exec (.marker count period dom lvl oos atPeriod atPs) s) fun t =>
          t.bell.member = true ∧ t.bell.count = count ∧ t.bell.parentOos = oos) ∧
        (s.admission ex dom lvl.toNat ≠ none → leads (exec (.marker count period dom lvl oos atPeriod atPs) s) fun t =>
          t.bell = b ∧ s.raises t evDomainRefused))) ∧
    (s.up = true → b.member = true → c.root = false → b.errRaised = false → leads (exec .markerLost s) fun t =>
      t.bell.outOfStep = true ∧ s.raises t evTimebasePhaseError) ∧
    (s.up = true → b.member = true → 0 < b.markersDue → leads (exec .markerSend s) fun t => t.bell = b ∧
      ∃ k, k < b.markersDue ∧ ∀ p ∈ s.children,
        let args := [b.count.toNat, b.markerPeriod + 1600 * k, c.domainId.toNat, c.level, b2n b.outOfStep]
        Out.link p 4 args ∈ t.out ∨ (4, args) ∈ (t.port p).ctrl) ∧
    (∀ (port : Fin 64) (k : FabPkt), (s.port port).carries = true → pMalformed k = false →
      (pType k = 7 → s.crierOpen (portSector port) 0 = true → b.member = true → s.tick ≤ (stretchReqOf k).td →
        b.requests.contains (stretchReqOf k) = false →
          leads (exec (.stretch port k) s) fun t => t.bell.requests = b.requests ++ [stretchReqOf k]) ∧
      (pType k = 10 → c.domain = true → port.val = c.parentPort → leads (exec (.domain port k) s) fun t =>
        t.bell.parentDomain = some (BitVec.ofNat 16 (pBody k 32 2), pBody k 34 4 % 2 ^ 18, decide (pBody k 39 1 = 1),
          pBody k 38 1)))

/-! ### The fabric (R296 to R310) -/

/-- Requests at their target (R298, R303, R306): a READ is answered with the bytes from its address, a WRITE stores its bytes and
no others; a packet out of hops is dropped. -/
def Obligations.FabricTarget : Prop :=
  ∀ (port : Fin 64) (k : FabPkt) (s : State), (s.port port).carries = true → pMalformed k = false →
    (pType k = 2 → pHops k = 0 → s.fabLocal.contains k = false → ∀ ns, leads (exec (.fabricRead port ⟨k, ns⟩) s) fun t =>
      s.raises t evUnroutable) ∧
    (pHops k ≠ 0 → s.routeOf (pHop k) = .here →
      (pType k = 2 → ∀ d, s.judgeFabric (pTag k) (pAddr k) (readSpan (pAddr k)) = (0, d) →
        (s.serveRead k 7 0xFFFFFFFF).2.data = flitsOf (s.memBytes (s.memKey d) (readSpan (pAddr k))) ∧
        ∀ ns, leads (exec (.fabricRead port ⟨k, ns⟩) s) fun t => ∀ a, t.memByte a = s.memByte a) ∧
      (pType k = 1 →
        let l := (pData k).take (min (pBytes k) (readSpan (pAddr k)))
        ∀ d, s.judgeFabric (pTag k) (pAddr k) (min (pBytes k) (readSpan (pAddr k))) = (0, d) →
        ∀ ns, leads (exec (.fabricWrite port ⟨k, ns⟩) s) fun t =>
          (∀ i, i < l.length → t.memByte (s.memKey d + i) = (l[i]?).getD 0) ∧
          (∀ a, a < s.memKey d ∨ s.memKey d + l.length ≤ a → t.memByte a = s.memByte a)))

/-- What comes back to a requester (R304): a response or a NOTICE answers the request that waits for it, a request unanswered is
answered ABORTED. -/
def Obligations.FabricAnswers : Prop :=
  ∀ (id : Nat) (r : Req) (s : State), r.stage = .atFabric →
    let aborted : Req := { r with stage := .toCarter, status := 4, data := [], poison := [] }
    (∀ (port : Fin 64) (k : FabPkt), (s.port port).carries = true → pMalformed k = false → pHops k ≠ 0 →
      s.routeOf (pHop k) = .here → s.waiting (pRtag k) = some (id, r) →
      (pType k = 3 → r.ch = .load → pStatus k = 0 → leads (exec (.fabricReadResp port k) s) fun t => t.reqs.find? id = some
        { r with stage := .toCarter, status := 0, data := (pData k).take r.piece.len
                 poison := (rowsOf r.addr r.piece.len).map fun _ => decide (pPoison k % 2 = 1) }) ∧
      (pType k = 4 → r.ch = .store → pStatus k ≠ 4 → leads (exec (.fabricWriteAck port k) s) fun t => t.reqs.find? id = some
        { r with stage := .toCarter, status := BitVec.ofNat 4 (pStatus k), data := [], poison := [] }) ∧
      (pType k = 8 → 1 ≤ pBody k 33 1 → pBody k 33 1 ≤ 4 → leads (exec (.notice port k) s) fun t => t.reqs.find? id = some aborted)) ∧
    (s.reqs.find? id = some r → leads (exec (.transferTimeout id) s) fun t =>
      t.reqs.find? id = some aborted ∧ s.raises t evTransferTimeout)

/-- Remote increments and the route table's registers (R262, R299, R318). -/
def Obligations.FabricTables : Prop :=
  ∀ s : State,
    (∀ (k : FabPkt) (a : Nat), s.allotOfTag (pTag k) = some a → s.hubOwner (pBody k 32 2 % 4096) = some a →
      let h : THome := { lvl := 2, core := { parish := 0, col := 0, row := 0 }, idx := pBody k 32 2 % 4096 }
      s.waitersAt h = [] →
      (s.fabLocal.contains k = true → leads (exec (.tallyInc none k) s) fun t =>
        t.tally h = Nat.min (s.tally h + pBody k 34 4) 4294967295 ∧ t.fabLocal = s.fabLocal.erase k) ∧
      (∀ port : Fin 64, (s.port port).carries = true → pMalformed k = false → pType k = 6 → pHops k ≠ 0 →
        s.routeOf (pHop k) = .here → s.crierOpen (portSector port) 0 = true → leads (exec (.tallyInc (some port) k) s) fun t =>
          t.tally h = Nat.min (s.tally h + pBody k 34 4) 4294967295)) ∧
    (∀ (path : RegPath) (t : State), s.gate path 0x900018 true = (t, true) → t.routeIsBusy = true →
      exec (.routeCmdRead path) s = .next (t.orReg 0x900020 4) ∧ exec (.routeCmdWrite path) s = .next (t.orReg 0x900020 4)) ∧
    (∀ (path : RegPath) (t : State), s.gate path 0x900018 true = (t, true) → t.routeIsBusy = false →
      let i := bits (t.reg 0x900000) 0 18
      let e := BitVec.ofNat 128 ((t.reg 0x900008).toNat + 2 ^ 64 * (t.reg 0x900010).toNat)
      (leads (exec (.routeCmdRead path) s) fun u => u.reg 0x900008 = BitVec.ofNat 64 (bits (t.route i) 0 64) ∧
        u.reg 0x900010 = BitVec.ofNat 64 (bits (t.route i) 64 64) ∧ u.routes = t.routes) ∧
      (t.badRoute e = false → leads (exec (.routeCmdWrite path) s) fun u => u.route i = setBits e 79 49 0) ∧
      (t.badRoute e = true → leads (exec (.routeCmdWrite path) s) fun u => u.routes = t.routes ∧
        bit (u.reg 0x900020) 1 = true))

/-- The reduction table (R307 to R310): a packet an entry accepts is staged until every input of its SEQ is there; the LOCAL
contribution starts at its trigger; a SEQ overdue is reported, then completed with poison; packets no entry takes, or no port
sends, are dropped. -/
def Obligations.ReductionTable : Prop :=
  ∀ s : State, (∀ p : Nat, (s.port p).redQ = []) →
    (∀ (port : Fin 64) (k : FabPkt), (s.port port).carries = true → pMalformed k = false → pType k = 5 →
      ∀ slow,
      (s.allotOfTag (pTag k) = none → leads (exec (.reduce port ⟨k, slow⟩) s) fun t => s.raises t evFabricDrop ∧ t.reds = s.reds) ∧
      (∀ (a i q : Nat), s.allotOfTag (pTag k) = some a → s.redOf port k = some i →
        let x := s.red i
        x.accepts port k = true → q ∈ x.ports → q ≠ port.val → x.hasPort q x.seq = false →
        let staged : RedIn := { next := (x.input port).next + 1,
                                staged := (x.input port).staged.put (pSeq k) (k.data, BitVec.ofNat 32 (pPoison k)) }
        leads (exec (.reduce port ⟨k, slow⟩) s) fun t =>
          t.red i = { x with ins := x.ins.put port staged, filled := x.filled.erase (port.val, pSeq k) } ∧
          (t.port port).redQ = []) ∧
      (∀ (a i : Nat), s.allotOfTag (pTag k) = some a → s.redOf port k = some i → (s.red i).accepts port k = false →
        (s.red i).filled.contains (port.val, pSeq k) = true → leads (exec (.reduce port ⟨k, slow⟩) s) fun t =>
          t.red i = { s.red i with filled := (s.red i).filled.erase (port.val, pSeq k) } ∧ (t.port port).redQ = [])) ∧
    (∀ (i : BitVec 12) (slow : List (Fin 64 × Nat)),
      let x := s.red i.toNat
      let h : THome := { lvl := 2, core := { parish := 0, col := 0, row := 0 }, idx := x.trigIdx }
      (∀ q, q ∈ x.ports → x.hasPort q x.seq = false → x.valid = true → x.localIn = true → x.started = false →
        (x.trigEn = true → x.trigN ≤ s.tally h) → leads (exec (.reductionTrigger ⟨i, slow⟩) s) fun t =>
          (t.red i.toNat).started = true ∧ (x.trigEn = true → t.tally h = s.tally h - x.trigN)) ∧
      (x.partial' = true → x.stalls = 0 → leads (exec (.reductionStall i) s) fun t =>
        s.raises t evReductionStall ∧ t.red i.toNat = { x with stalls := 1 }) ∧
      (x.partial' = true → x.stalls ≠ 0 → x.seq + 1 < x.seqs → ∀ q, q ∈ x.ports → x.hasPort q (x.seq + 1) = false →
        leads (exec (.reductionPoisonFill ⟨i, slow⟩) s) fun t =>
          s.raises t evReductionStall ∧ (t.red i.toNat).seq = x.seq + 1 ∧ (t.red i.toNat).stalls = 0)) ∧
    (∀ (port : Fin 64) (k : FabPkt), s.redOf port k = none →
      let u := s.updPort port fun x => { x with redQ := [k] }
      ∀ slow, leads (exec (.noEntryTimeout ⟨port, slow⟩) u) fun t => s.raises t evFabricDrop ∧ (t.port port).redQ = []) ∧
    (∀ port : Fin 64, (s.port port).carries = false → leads (exec (.reduceOutPortTimeout port) s) fun t =>
      ∀ q ∈ (t.port port).queued, q.1 ≠ 24)

/-! ### Sessions and commands (R331 to R363) -/

/-- Messages and sessions (R333, R337, R338, R347, R348): an OPEN binds a new session or changes none; on a bound QP the next
SEQ is accepted and journalled, a later one is a gap and changes nothing; on an unbound QP a well-formed OPEN is taken, and
anything else is counted in UNBOUND_SENDS and disconnects the QP with no record written. A frame of another VLAN, or of more
than 9,216 bytes, is dropped. -/
def Obligations.SessionMessages : Prop :=
  ∀ (qp : Nat) (q : Qp) (s : State), s.qps.find? qp = some q →
    (∀ m : List Byte, q.opening = some m →
      (∀ d, s.openFault q m = some d → leads (exec (.openSession qp) s) fun t => t.ses = s.ses ∧ t.ledger = s.ledger ∧
        t.qps.find? qp = some { q with opening := none }) ∧
      (s.openFault q m = none → (leAt m 49 1).testBit 0 = false →
        leads (exec (.openSession qp) s) fun t => t.ledger.nextLsn = s.ledger.nextLsn + 1 ∧
          (t.qps.find? qp).bind (·.ses) = some s.freeSession ∧
          ∃ x, t.ses.find? s.freeSession = some x ∧ x.st = .attached ∧ x.qp = qp ∧ x.grant = s.grantFor' m ∧ x.nextSeq = 1)) ∧
    (∀ (msg : List Byte) (f : Frame), s.hpUp q.port = true → f.fcsBad = false →
      (9216 < f.bytes → exec (.send ⟨qp, f⟩ msg) s = .next s) ∧
      (f.bytes ≤ 9216 → f.vlan ≠ q.vlan → exec (.send ⟨qp, f⟩ msg) s = .next (s.rxFrame q.port))) ∧
    (∀ (msg : List Byte) (f : Frame), s.hpUp q.port = true → q.takes f → q.opening = none →
      (q.ses = none → openOk msg = true → leads (exec (.send ⟨qp, f⟩ msg) s) fun t =>
        t.qps.find? qp = some { q with opening := some msg }) ∧
      (q.ses = none → openOk msg = false →
        leads (exec (.send ⟨qp, f⟩ msg) s) fun t => t.qps = s.qps.del qp ∧ t.out = .disconnect qp :: s.out ∧ t.ledger = s.ledger ∧
          t.reg (hpBase q.port + 0x58) = (s.bump (hpBase q.port + 0x58)).reg (hpBase q.port + 0x58) ∧
          ∀ id x, s.ses.find? id = some x → x.qp ≠ qp → t.ses.find? id = some x) ∧
      (∀ id x, q.ses = some id → s.ses.find? id = some x → x.firstBad id msg = none → leAt msg 4 2 = x.epoch.toNat →
        let seq := BitVec.ofNat 32 (leAt msg 8 4)
        (seq = x.nextSeq → x.held < x.grant → leads (exec (.send ⟨qp, f⟩ msg) s) fun t =>
          t.ledger.nextLsn = s.ledger.nextLsn + 1 ∧ (t.ses.find? id).map (·.nextSeq) = some (x.nextSeq + 1)) ∧
        (1 ≤ (seq - x.nextSeq).toNat → (seq - x.nextSeq).toNat < 2 ^ 31 → leads (exec (.send ⟨qp, f⟩ msg) s) fun t =>
          t.ledger = s.ledger ∧ (t.ses.find? id).map (·.nextSeq) = some x.nextSeq)))

/-- Immediate commands (R349, R350, R354, R356, R359 to R363). -/
def Obligations.ImmediateCommands : Prop :=
  ∀ (ses : BitVec 12) (lsn : Nat) (x : Session) (e : LEntry) (s : State),
    let id := ses.toNat
    let a := e.allot.toNat
    (s.executes id 0x02 lsn x e → 0 < lsn → x.closing = none →
      (s.ownedBy id = [] → leads (exec (.close ses) s) fun t => t.done lsn 0 0 ∧ (∀ k q, t.qps.find? k = some q → q.ses ≠ some id) ∧
        (∀ y, t.ses.find? id = some y → y.ending = true) ∧
        (x.heldRecs.length < min x.cring.free 65536 → t.ses.find? id = none)) ∧
      (s.ownedBy id ≠ [] → leAt e.body 32 1 % 2 = 0 → leads (exec (.close ses) s) fun t => t.done lsn 1 0x37 ∧
        t.allots.map (fun y => (y.1, y.2.st)) = s.allots.map (fun y => (y.1, y.2.st)))) ∧
    (s.executes id 0x03 lsn x e → ∀ w : HostData, s.allotWaits lsn (leAt e.body 32 16) = false →
      (∀ n, s.allotCheck e.body w = .ok n → leads (exec (.allot ses w) s) fun t => t.done lsn 0 0 ∧ (t.allot n).st = .idle ∧
        (t.allot n).owner = id ∧ (t.allot n).parishes = BitVec.ofNat 80 (leAt e.body 32 16) ∧
        (t.allot n).tag = leAt e.body 48 1 ∧ (t.allot n).prog = none) ∧
      (∀ d, s.allotCheck e.body w = .error d → leads (exec (.allot ses w) s) fun t => t.done lsn 1 d)) ∧
    (s.executes id 0x07 lsn x e → s.ownerFault x id 0x07 a = none → (s.allot a).halts.contains lsn = false →
      ((s.allot a).st ≠ .running → leads (exec (.halt ses) s) fun t => t.done lsn 0 0x20) ∧
      ((s.allot a).st = .running → (s.allot a).quiescing = false → leads (exec (.halt ses) s) fun t =>
        (t.allot a).haltAt ≠ none ∧ (t.allot a).halts = (s.allot a).halts ++ [lsn] ∧ (t.allot a).st = .running)) ∧
    (s.executes id 0x08 lsn x e → 576 ≤ leAt e.body 44 4 → leads (exec (.status ses) s) fun t => t.done lsn 0 0 ∧
      Out.rdma x.qp (BitVec.ofNat 32 (leAt e.body 40 4)) (leAt e.body 32 8) (s.digest id x) ∈ t.out) ∧
    (s.executes id 0x09 lsn x e → x.mgmt = true → leAt e.body 36 4 ≤ leAt e.body 52 4 → leads (exec (.stats ses) s) fun t =>
      t.done lsn 0 0) ∧
    (s.executes id 0x0A lsn x e → leads (exec (.ledgerRead ses) s) fun t => t.done lsn 0 0) ∧
    (s.executes id 0x0B lsn x e → s.ownerFault x id 0x0B a = none → leads (exec (.setOp ses) s) fun t => t.done lsn 0 0 ∧
      (t.allot a).opCeil = leAt e.body 32 1) ∧
    (s.executes id 0x0F lsn x e → x.mgmt = true → leAt e.body 32 1 = 0 →
      (s.badRoute (BitVec.ofNat 128 (leAt e.body 48 16)) = false →
        ∀ slow, leads (exec (.routeAmend ⟨ses, slow⟩ none) s) fun t => t.done lsn 0 0 ∧
        t.route (leAt e.body 36 4) = setBits (BitVec.ofNat 128 (leAt e.body 48 16)) 79 49 0)) ∧
    (s.executes id 0x10 lsn x e → x.mgmt = true → s.boot.pldmUpdate = false → s.stagingBefore lsn = false → ∀ i : StoreImage,
      let fault := imgFault i s.fuses (len := min imageCapacity (leAt e.body 44 4))
      (fault = none → leads (exec (.fwStage ses (some i)) s) fun t => t.done lsn 0 0 ∧
        t.store.image (!s.boot.imageB) = some { i with dir := directoryFor (!s.boot.imageB) i } ∧
        t.store.image s.boot.imageB = s.store.image s.boot.imageB) ∧
      (∀ f, fault = some f → leads (exec (.fwStage ses (some i)) s) fun t => t.store = s.store ∧
        s.raises t evImageRejected ∧ t.done lsn 1 (if f.2 = 5 then 0x2F else 0x2E))) ∧
    (s.ses.find? id = some x → x.attached = false → x.ending = false → s.ownedBy id = [] → leads (exec (.sessionExpired ses) s) fun t =>
      t.ses.find? id = none ∧ s.raises t evSessionExpired)

/-- Queued commands (R346, R351 to R353, R355, R357 to R359): the head of the queue begins where the allotment's state accepts it,
and each does what its rule says. -/
def Obligations.QueuedCommands : Prop :=
  ∀ (a : Fin 16) (lsn : Nat) (e : LEntry) (s : State),
    let x := s.allot a
    (∀ (rest : List Nat) (i : Nat), x.queue = lsn :: rest → x.active = none → x.st ≠ .running → x.st ≠ .free →
      s.ras.repairs = [] → s.entryOf lsn = some (i, e) → acceptedIn e.opcode.toNat x.st = true →
      (e.opcode.toNat = 0x06 → s.tick < s.startTick (leAt e.body 32 8)) →
      leads (exec (.queuedCommandStart a) s) fun t => (t.allot a).active = some lsn ∧ (t.allot a).queue = rest ∧
        (t.allot a).st = x.st) ∧
    (s.runsCommand a 0x04 lsn e → x.queue = [] → leads (exec (.release a) s) fun t =>
      t.done lsn 0 0 ∧ t.allots.find? a = none) ∧
    (s.runsCommand a 0x05 lsn e →
      (∀ g, s.judgeLoad a (leAt e.body 32 8) = .ok g → leads (exec (.load a) s) fun t =>
        t.done lsn 0 0 ∧ (t.allot a).st = .loaded ∧ (t.allot a).prog = some g) ∧
      (∀ d, s.judgeLoad a (leAt e.body 32 8) = .error d → leads (exec (.load a) s) fun t =>
        t.done lsn 1 d ∧ (t.allot a).st = .idle ∧ (t.allot a).prog = none)) ∧
    (s.runsCommand a 0x06 lsn e → x.st = .loaded → leads (exec (.run a) s) fun t => (t.allot a).st = .running ∧
      (t.allot a).exec = some { lsn := lsn, start := s.startTick (leAt e.body 32 8) } ∧ t.reeve.jobTime = true) ∧
    (s.runsCommand a 0x0C lsn e → (leAt e.body 48 1).testBit 0 = false → ∀ d, s.viewDpa (leAt e.body 32 8) = some d →
      s.inQuota a d 1 = true → s.inQuota a d (ctxSize x.hubCount x.parishList.length false) = true →
      ctxSize x.hubCount x.parishList.length false ≤ leAt e.body 40 8 →
      let l := s.ctxImage a false
      s.rangeUp d l.length = true →
      leads (exec (.contextSave a) s) fun t => t.done lsn 0 0 ∧
        ∀ i, i < l.length → (∀ j, j < l.length → s.memKey (d + j) = s.memKey (d + i) → j = i) →
          t.memByte (s.memKey (d + i)) = (l[i]?).getD 0) ∧
    (s.runsCommand a 0x0D lsn e → ∀ d, s.viewDpa (leAt e.body 32 8) = some d → s.inQuota a d 64 = true →
      let h := leAt (s.imgBytes d 64) 4 4
      let sram := (leAt (s.imgBytes d 64) 2 1).testBit 0
      leAt (s.imgBytes d 64) 0 2 = 1 → leAt (s.imgBytes d 64) 8 16 = x.parishes.toNat →
      s.inQuota a d (ctxSize h x.parishList.length sram) = true →
      leads (exec (.contextRestore a) s) fun t => t.done lsn 0 0 ∧ (t.allot a).colour = 0 ∧
        ∀ i, i < min h x.hubCount → t.hub.get 0 (x.hubBase + i) = BitVec.ofNat 32 (leNat (s.imgBytes (d + 64 + 4 * i) 4))) ∧
    (s.runsCommand a 0x0E lsn e → s.apart (lsn :: x.queue) → leads (exec (.resetFunction a) s) fun t => t.done lsn 0 0 ∧
      (∀ q ∈ x.queue, s.entryOf q ≠ none → t.done q 3 0x42) ∧ (t.allot a).queue = [] ∧ (t.allot a).st = .idle ∧
      (t.allot a).prog = none ∧ (t.allot a).exec = none ∧ (t.allot a).owner = x.owner ∧ (t.allot a).parishes = x.parishes) ∧
    (s.runsCommand a 0x0F lsn e → leAt e.body 32 1 = 1 → badWindow (BitVec.ofNat 128 (leAt e.body 48 16)) = false →
      ∀ (ses : BitVec 12) (slow : List (Fin 64 × Nat)), leads (exec (.routeAmend ⟨ses, slow⟩ (some a)) s) fun t => t.done lsn 0 0 ∧
        (t.allot a).windows.get 0 (leAt e.body 36 4) = BitVec.ofNat 128 (leAt e.body 48 16))

/-! ### Host ports and host memory (R320 to R330, R370) -/

/-- Host accesses and the consumer counts of rings (R320, R323 to R325, R329, R330, R370, R462). -/
def Obligations.HostMemory : Prop :=
  ∀ (qp : Nat) (q : Qp) (id : Nat) (x : Session) (rkey : Word) (va : Nat) (s : State),
    s.qps.find? qp = some q → s.hpUp q.port = true → q.ses = some id → s.ses.find? id = some x →
    (∀ (l : List Byte) (n : Nat) (f : Frame), f.fcsBad = true →
      let t := s.bump (hpBase q.port + 0x30)
      exec (.rdmaWrite ⟨qp, f⟩ rkey va l) s = .next t ∧ exec (.rdmaRead ⟨qp, f⟩ rkey va n) s = .next t) ∧
    (∀ (a : Nat) (f : Frame), s.regionOf id x rkey = some (.devmem a) → q.takes f →
      let d := (s.allot a).stripeFirst * s.stripe + va
      (∀ l : List Byte, l ≠ [] → va % 64 + l.length ≤ 64 → s.stripe % 64 = 0 →
        va + l.length ≤ (s.allot a).stripeCount * s.stripe → s.rangeUp d l.length = true →
        leads (exec (.rdmaWrite ⟨qp, f⟩ rkey va l) s) fun t =>
          (∀ i, i < l.length → t.memByte (s.memKey d + i) = (l[i]?).getD 0) ∧
          (∀ k, k < s.memKey d ∨ s.memKey d + l.length ≤ k → t.memByte k = s.memByte k)) ∧
      (∀ l : List Byte, (s.allot a).stripeCount * s.stripe < va + l.length →
        leads (exec (.rdmaWrite ⟨qp, f⟩ rkey va l) s) fun t => t.qps.find? qp = none ∧ t.mem = s.mem) ∧
      (∀ n : Nat, va + n ≤ (s.allot a).stripeCount * s.stripe → s.rangeUp d n = true → s.memUe = [] → s.memCe = [] →
        leads (exec (.rdmaRead ⟨qp, f⟩ rkey va n) s) fun t => t.mem = s.mem ∧
          Out.rdmaRead qp (s.cleanBytes d n) ∈ t.out)) ∧
    (s.regionOf id x rkey = some .regs → va % 8 = 0 → va < 2 ^ 24 → ∀ (l : List Byte) (f : Frame), l.length = 8 → q.takes f →
      exec (.rdmaWrite ⟨qp, f⟩ rkey va l) s =
        exec (.registerWrite (.session (BitVec.ofNat 12 id)) (BitVec.ofNat 24 va) (BitVec.ofNat 64 (leNat l))) (s.rxFrame q.port)) ∧
    (∀ (ses : BitVec 12) (ring : Fin 18), ses.toNat = id → x.qp = qp →
      (x.attached = true → (x.ring ring).room = false → x.reads < 16 →
        (∀ t, (x.ring ring).polledAt = some t → 10000 ≤ s.ticksNs (s.tick - t)) → leads (exec (.ringConsumerPoll ses ring) s) fun t =>
        t.out = .ringRead id ring (x.ring ring).rkey ((x.ring ring).addr + 8) :: s.out) ∧
      (∀ t, (x.ring ring).polledAt = some t → s.ticksNs (s.tick - t) < 10000 → exec (.ringConsumerPoll ses ring) s = .next s) ∧
      ((x.ring ring).polling = true → x.ending = false → ∀ (c : DWord) (f : Frame), q.takes f →
        ((x.ring ring).cons ≤ c.toNat → c.toNat ≤ (x.ring ring).prod → leads (exec (.rdmaReadResponse ⟨ses, f⟩ ring c) s) fun t =>
          (t.ses.find? id).map (fun y => (y.ring ring).cons) = some c.toNat) ∧
        ((c.toNat < (x.ring ring).cons ∨ (x.ring ring).prod < c.toNat) → leads (exec (.rdmaReadResponse ⟨ses, f⟩ ring c) s) fun t =>
          (t.ses.find? id).map (fun y => (y.ring ring).cons) = some (x.ring ring).cons ∧ t.out = s.out)))

/-- Queue pairs, host ports, time of day (R320, R321, R323, R326, R327, R331, R370), and the board controller's read of events
(R32). -/
def Obligations.HostPorts : Prop :=
  ∀ (port : Fin 4) (s : State),
    (∀ (qp : Nat) (q : Qp), s.qps.find? qp = some q →
      (∀ id x, q.ses = some id → s.ses.find? id = some x → leads (exec (.qpError qp) s) fun t => t.qps.find? qp = none ∧
        t.ses.find? id = some { x with st := .detached, qp := 0 }) ∧
      (s.hpUp q.port = true → ∀ f : Frame,
        (0 < q.rate → q.takes f → leads (exec (.cnp ⟨qp, f⟩) s) fun t => ∃ r, r < q.rate ∧
          t.qps.find? qp = some { q with rate := r }) ∧
        (∀ msg : List Byte, q.ses = none → q.opening = none → q.cnpTick = none → openOk msg = true → f.fcsBad = false →
          f.bytes ≤ 9216 → f.vlan = q.vlan → f.ce = true → leads (exec (.send ⟨qp, f⟩ msg) s) fun t => t.out = .cnp qp :: s.out ∧
            t.qps.find? qp = some { q with opening := some msg, cnpTick := some s.tick }))) ∧
    ((s.hp port).up = true → leads (exec (.hostPortDown port) s) fun t => (t.hp port).up = false ∧ s.raises t evHostPortDown ∧
      ∀ e ∈ s.qps, e.2.port = port.val → t.qps.find? e.1 = none) ∧
    (s.up = true → s.hostPortThere port = true → (s.hp port).en = true →
      exec (.hostLinkUp port) s = .next (s.setHp port { s.hp port with up := true })) ∧
    (∀ (path : RegPath) (v : DWord) (t : State), s.gate path (hpBase port + 8) true = (t, true) →
      leads (exec (.hpCtl path port v) s) fun u => (u.hp port).en = bit v 0 ∧ (bit v 0 = false → (u.hp port).up = false)) ∧
    (s.hpUp port = true → ∀ f : Frame, f.fcsBad = false → f.bytes ≤ 9216 →
      (∀ (qp mtu : Nat) (ip : Addrs),
        (s.hasIp port ip.dst f.vlan = false → exec (.cmReq ⟨port, f⟩ qp mtu ip) s = .next (s.rxFrame port)) ∧
        (s.hasIp port ip.dst f.vlan = true →
          (mtu = 4096 → 1 < qp → s.qps.length < 4160 → s.qps.find? qp = none → leads (exec (.cmReq ⟨port, f⟩ qp mtu ip) s) fun t =>
            t.out = .cm port qp true :: s.out ∧
            t.qps.find? qp = some { port := port, src := ip.src, rate := lineRate, vlan := f.vlan }) ∧
          ((mtu ≠ 4096 ∨ 4160 ≤ s.qps.length) → leads (exec (.cmReq ⟨port, f⟩ qp mtu ip) s) fun t =>
            t.out = .cm port qp false :: s.out ∧ t.qps = s.qps))) ∧
      (∀ target : Word, s.hasIp port (mapped target) f.vlan = true → leads (exec (.arp ⟨port, f⟩ target) s) fun t =>
        t.out = .eth port 1 (leBytes 6 (s.mac port).toNat) :: s.out) ∧
      (∀ target : BitVec 128,
        (s.hasIp port target f.vlan = true → leads (exec (.neighbourDiscovery ⟨port, f⟩ target) s) fun t =>
          t.out = .eth port 2 (leBytes 6 (s.mac port).toNat) :: s.out) ∧
        (∀ l : List Byte, l.length ≤ 9216 → s.hasIp port target f.vlan = true → leads (exec (.icmpEcho ⟨port, f⟩ ⟨target, l⟩) s) fun t =>
          t.out = .eth port 3 l :: s.out) ∧
        (s.hasIp port target f.vlan = false → exec (.neighbourDiscovery ⟨port, f⟩ target) s = .next (s.rxFrame port))) ∧
      (∀ prio : BitVec 3, leads (exec (.pfcPause ⟨port, f⟩ prio) s) fun t => (t.hp port).paused =
        (if s.boot.cfg.pfcPrio = some prio.toNat then some prio.toNat else (s.hp port).paused)) ∧
      (∀ (dom : Byte) (sec : BitVec 48) (ns : BitVec 30) (off : Word), s.ptpSource port = true →
        leads (exec (.ptp ⟨port, f⟩ ⟨dom, sec⟩ ns off) s) fun t => t.tod = if dom ≠ s.boot.cfg.ptpDomain then s.tod else
          { s.tod with sec := sec, ns := ns, valid := true, holdover := false, port := port, offset := off })) ∧
    (s.tod.valid = true → leads (exec .hostTodLost s) fun t => t.tod = { s.tod with valid := false, holdover := true } ∧
      s.raises t evHostTodLost) ∧
    (s.up = true → exec .taiSecond s = .next
      { s with tod := { s.tod with sec := s.tod.sec + 1, ns := 0, secTick := s.bell.count, secLast := s.tod.sec + 1 } }) ∧
    (∀ path : RegPath, s.reaches path (hostBase + 0x4010) = true →
      exec (.todSec path) s = .next { s with tod := { s.tod with nsLatched := s.tod.ns } }) ∧
    (∀ e l, s.unreadBoard = e :: l →
      exec .mctpEventRead s = .next { s with unreadBoard := l, pins := { s.pins with alertN := l.isEmpty && !s.boot.stopped } })

/-! ### Power and heat (R372 to R405) -/

/-- The reeve's books (R372, R373, R376, R378, R381, R390, R401, R403): telemetry, the bounds of a grant, deferral, floor hold,
failover, caps, the energy scale. -/
def Obligations.ReevePower : Prop :=
  ∀ s : State,
    let r := s.reeve
    (∀ o : Telemetry, s.up = true → leads (exec (.reeveTelemetry o) s) fun t =>
      t.reeve.inputW = o.inputW ∧ t.reeve.inputMv = o.inputMv ∧ t.reeve.inputDeciA = o.inputDeciA ∧
      t.reeve.overheadW = o.overheadW ∧ t.reeve.demandW = o.demandW ∧ t.reeve.parishW = o.parishW ∧
      t.reeve.meanW = o.meanW ∧ t.reeve.plates = o.plates ∧ t.reeve.engines = o.engines ∧ t.reeve.regulators = o.regulators ∧
      t.reeve.energy = r.energy + BitVec.ofNat 64 o.energyUj) ∧
    (∀ (l : List Share) (x : Share), x.floor ≤ x.ceiling → s.grantFor l x ≤ x.ceiling ∧
      (floors l ≤ r.field r.hard (floors l + headroom l) → s.deferPast x.a = false → x.floor ≤ s.grantFor l x)) ∧
    (∀ (a : Fin 16) (e : Exec), (s.allot a).exec = some e → exec (.deferMaxExpiry a) s = .next
      (s.setAllot a { s.allot a with
        deferOver := (s.allot a).deferOver || e.deferred, capOver := (s.allot a).capOver || e.capDeferred
        exec := some { e with deferred := false, capDeferred := false } })) ∧
    (r.jobEnding = true → exec .floorHoldExpiry s = .next { s with reeve := { r with jobTime := false, jobEnding := false } }) ∧
    (s.up = true → r.standby = true → leads (exec .reeveFailover s) fun t =>
      t.reeve = { r with steward := 3 - r.steward, standby := r.failing && !s.ras.retired.contains r.steward, failing := false } ∧
      s.raises t evReeveFailover) ∧
    (∀ (path : RegPath) (v : DWord) (t : State), s.gate path 0x40008 false = (t, true) → exec (.cap path v) s = .next
      (if 8000 ≤ bits v 0 16 ∧ bits v 0 16 ≤ t.reeve.capMax then { t with reeve := { t.reeve with cap := bits v 0 16 } } else t)) ∧
    (∀ (path : RegPath) (v : DWord) (t : State), s.gate path 0x40010 true = (t, true) → exec (.capMax path v) s = .next
      (if 8000 ≤ bits v 0 16 ∧ bits v 0 16 ≤ 32000 then { t with reeve := { t.reeve with capMax := bits v 0 16 } } else t)) ∧
    (leads (exec .energyRescale s) fun t => t.reeve.energy = r.energy ∧ t.reeve.est = r.est ∧
      t.reeve.rawUj = 0 ∧ t.reeve.chargedUj = 0 ∧ t.reeve.nativeUj = 0 ∧
      t.reeve.carryUj = r.carryUj + (r.nativeUj : Int) - (r.chargedUj : Int))

/-- Loans (R395 to R399). A lender's expiry is a free value within 1,024 ticks (log entry 124). -/
def Obligations.Loans : Prop :=
  ∀ s : State,
    let r := s.reeve
    (∀ (port : Fin 64) (k : FabPkt), (s.port port).carries = true → pMalformed k = false → pType k = 9 → pHops k ≠ 0 →
      s.routeOf (pHop k) = .here → pBody k 34 2 = s.boot.cfg.domainId.toNat → s.boot.cfg.domain = true →
      let peer := BitVec.ofNat 24 (pSrc k)
      let id := BitVec.ofNat 32 (pBody k 52 4)
      (pBody k 32 1 = 1 → s.boot.cfg.loans = true → s.bell.member = true → s.boot.cfg.partners.contains peer = true →
        leads (exec (.loanRequest port k) s) fun t => t.reeve = { r with collecting := r.collecting ++
          [(peer, pBody k 36 4, (BitVec.ofNat 32 (pBody k 48 4)).toInt, id)] }) ∧
      (pBody k 32 1 = 2 → ∀ i, r.freeLoan = some i → (∃ a ∈ r.asked, a.1.toNat = pSrc k ∧ a.2.1.toNat = pBody k 52 4 ∧
          s.expiryFits a.2.2 (pBody k 40 8) = true) →
        leads (exec (.loanGrant port k) s) fun t => t.reeve.loans.find? i =
            some { feid := peer, borrowed := true, amount := pBody k 36 4, expiry := pBody k 40 8, id := id } ∧
          t.reeve.envelope = r.envelope + 1000000 * pBody k 36 4) ∧
      (pBody k 32 1 = 3 → leads (exec (.loanDecline port k) s) fun t => t.reeve = r.answered k)) ∧
    (∀ (peer : BitVec 24) (want : Nat) (slack : Int) (id : Word) (i : Nat), r.collecting = [(peer, want, slack, id)] →
      r.freeLoan = some i → s.loansOn = true →
      let amount := min want (r.budget - r.demandW - 1000)
      0 < amount → leads (exec .loanCollection s) fun t => t.reeve.collecting = [] ∧ ∃ exp, s.tick < exp ∧ exp ≤ s.tick + 1024 ∧
        t.reeve.loans.find? i = some { feid := peer, borrowed := false, amount := amount, expiry := exp, id := id }) ∧
    (∀ (k : Fin 16) (x : Loan), r.loans.find? k = some x → x.expiry + b2n (!x.borrowed) ≤ s.tick →
      leads (exec (.loanExpiry k) s) fun t => t.reeve.loans.find? k = none ∧
        (x.borrowed = true → t.reeve.loanCut = true ∧ t.reeve.envelope = r.envelope - 1000000 * x.amount) ∧
        (x.borrowed = false → t.reeve.envelope = r.envelope + 1000000 * x.amount))

/-- Droop and heat (R383 to R385). -/
def Obligations.DroopAndHeat : Prop :=
  ∀ (par : Fin 78) (s : State),
    let x := s.parish par
    (x.railOn = true → x.dark = false →
      (∀ ns : Nat, leads (exec (.droop par ns) s) fun t => (t.parish par).droop = true ∧ s.raises t evDroop) ∧
      (∀ deciC : Half, 256 ≤ x.throttle → 900 ≤ deciC.toNat → leads (exec (.parishThrottle par deciC) s) fun t =>
        (t.parish par).throttle = 192 ∧
        ((∀ a, s.allotOf par = some a → s.noted a evParishThrottle par = false) → s.raises t evParishThrottle)) ∧
      (x.throttle < 256 →
        (leads (exec (.throttleStep par true) s) fun t => (t.parish par).throttle = max 32 (x.throttle - 16)) ∧
        (leads (exec (.throttleStep par false) s) fun t => (t.parish par).throttle = min 256 (x.throttle + 16)))) ∧
    (leads (exec (.droopEnd par) s) fun t => (t.parish par).droop = false ∧ (t.parish par).grant = x.grant ∧
      (t.parish par).throttle = x.throttle ∧ ∀ q : Fin 78, q ≠ par → t.parish q = s.parish q) ∧
    (∀ (m : Fin 64) (deciC : Half), s.stackUp m = true → leads (exec (.stackThrottle m deciC) s) fun t =>
      (t.mc m).hot = decide (850 < deciC.toNat) ∧ (t.mc m).halved = decide (850 ≤ deciC.toNat) ∧ (t.mc m).deciC = deciC.toNat)

/-- Rails, trips and the loss of service (R22, R25, R32, R184, R386, R392, R471 to R473). -/
def Obligations.RailsAndLoss : Prop :=
  ∀ s : State, s.pins.pwrGood = true →
    (∀ (par : Fin 78) (rail : Fin 112), rail.val = par.val → (s.parish par).railOn = true → s.boot.railsOff.contains rail.val = false →
      (∀ o : RailObs, s.trips rail o = true → leads (exec (.railFault rail o) s) fun t =>
        (t.parish par).railOn = false ∧ (t.parish par).dark = true ∧ s.raises t evRailFault ∧ ∀ e ∈ t.reqs, e.2.core.parish ≠ par) ∧
      (∀ deciA : Nat, 2 * deciA ≤ 3 * s.railLimit rail → exec (.railFault rail (.overcurrent deciA)) s = .next s) ∧
      (∀ mv : Nat, 9 * s.railMv rail ≤ 10 * mv → exec (.railFault rail (.undervoltage mv)) s = .next s) ∧
      (∀ deciC : Half,
        (1050 ≤ deciC.toNat → leads (exec (.thermalTrip false par deciC) s) fun t => t.pins.thermtripN = false ∧
          (t.parish par).dark = true ∧ s.raises t evThermalTrip) ∧
        (deciC.toNat < 1050 → exec (.thermalTrip false par deciC) s = .next s)) ∧
      (s.failedRegs = [] → exec (.regulatorLoss rail false) s = .next { s with failedRegs := [(rail.val, false)] }) ∧
      ((rail.val, false) ∈ s.failedRegs → leads (exec (.regulatorLoss rail true) s) fun t =>
        (t.parish par).dark = true ∧ s.raises t evRailFault)) ∧
    (∀ (h : Fin 16) (cause : BitVec 1),
      (h ≠ 0 → s.sectorUp h = true → leads (exec (.hubSectorLost h cause) s) fun t => t.sectorUp h = false ∧
        s.raises t evHubSectorLost) ∧
      (h = 0 → leads (exec (.hubSectorLost h cause) s) fun t => t.pins.pwrGood = false ∧ t.boot.stopped = true ∧ t.up = false)) ∧
    (s.up = true →
      let t := { s with boot := { s.boot with escapeLoaded := true }, crierHeld := [] }
      (s.crierHeld = [] → exec .escapeTableLoad s = .next t) ∧
      (∀ (p : Nat) (k : FabPkt), s.crierHeld = [(p, k)] → pType k ≠ 7 → exec .escapeTableLoad s = .next (t.tallyIncHere k))) ∧
    (s.pins.powerEn = true → leads (exec .undervoltageLockout s) fun t => t.pins.pwrGood = false ∧ t.mem = [] ∧ t.ses = [] ∧
      t.boot.uvlo = true ∧ t.fuses = { s.fuses with busy := none } ∧ t.store =
        { if s.staging then s.store.setImage (!s.boot.imageB) none else s.store with lastOk := false, uvlos := s.store.uvlos + 1 })

/-! ### The side channel (R407, R413 to R415, R452, R504) -/

/-- SPDM (R407, R414, R415): each request is answered; a version or an algorithm that is not the module's is refused. -/
def Obligations.SpdmAnswers : Prop :=
  ∀ s : State, s.up = true →
    (exec .getVersion s = .next ({ s with spdmVer := false, spdmAlgo := false }.send (.spdm 0x04 [0x13]))) ∧
    (∀ v : Byte, exec (.getCapabilities v) s = .next
      (if v = 0x13 then { s with spdmVer := true }.send (.spdm 0x61 [20, spdmCaps]) else s.send (.spdm 0x7F [0x41]))) ∧
    (∀ asym hash meas : Word, s.spdmVer = true → exec (.negotiateAlgorithms asym hash meas) s = .next
      (if bit asym 9 ∧ bit hash 6 ∧ bit meas 7 then { s with spdmAlgo := true }.send (.spdm 0x63 [512, 64, 128])
       else s.send (.spdm 0x7F [1]))) ∧
    (s.spdmAlgo = true →
      (exec .getDigests s = .next (s.send (.spdm 0x01 [1, (Config.sm3 Config.certificateChain).toNat]))) ∧
      (∀ off len : Half, off.toNat < Config.certificateChain.length → ∃ a b l, l.length = a ∧
        a = min len.toNat (Config.certificateChain.length - off.toNat) ∧ a + b + off.toNat = Config.certificateChain.length ∧
        exec (.getCertificate 0 off len) s = .next (s.send (.spdm 0x02 ([0, a, b] ++ l)))) ∧
      (∀ (slot : BitVec 4) (off len : Half), slot ≠ 0 →
        exec (.getCertificate slot off len) s = .next (s.send (.spdm 0x7F [1]))) ∧
      (∀ nonce : BitVec 256, leads (exec (.challenge 0 nonce) s) fun t => t.fresh = s.fresh + 1 ∧ ∃ own sig,
        t.out = .spdm 0x03 [0, (Config.sm3 Config.certificateChain).toNat, own, sig] :: s.out) ∧
      (∀ (index : Byte) (nonce : BitVec 256), (index = 0 ∨ index = 0xFF ∨ ∃ v, (index.toNat, v) ∈ s.measurements) →
        leads (exec (.getMeasurements index nonce) s) fun t => t.fresh = s.fresh + 1 ∧ ∃ l, t.out = .spdm 0x60 l :: s.out))

/-- PLDM (R413, R452, R504). The command and completion codes are the model's, from the standards the spec names. -/
def Obligations.PldmAnswers : Prop :=
  ∀ s : State, s.mctp = true →
    (leads (exec .getTid s) fun t => t.fresh = s.fresh + 1 ∧ ∃ v, v < 256 ∧ t.out = .pldm 0x02 [0, v] :: s.out) ∧
    (exec .getPldmTypes s = .next (s.send (.pldm 0x04 [0, (s.pldmTypes.map (2 ^ ·)).sum]))) ∧
    (∀ typ : Byte,
      (s.pldmTypes.contains typ.toNat = true → leads (exec (.getPldmVersion typ) s) fun t => ∃ v,
        t.out = .pldm 0x03 [0, v] :: s.out) ∧
      (s.pldmTypes.contains typ.toNat = true → leads (exec (.getPldmCommands typ) s) fun t => ∃ v,
        t.out = .pldm 0x05 [0, v] :: s.out) ∧
      (s.pldmTypes.contains typ.toNat = false →
        exec (.getPldmVersion typ) s = .next (s.send (.pldm 0x03 [0x83])) ∧
        exec (.getPldmCommands typ) s = .next (s.send (.pldm 0x05 [0x83])))) ∧
    (∀ (id : Half) (v : Nat), s.boot.st ≠ .recovery → s.sensor id.toNat = some v →
      exec (.pldmSensorRead id) s = .next (s.send (.pldm 0x11 [0, v]))) ∧
    (let going (b : Bool) : State := { s with boot := { s.boot with pldmUpdate := b } }
     exec (.pldmFirmwareUpdate .request) s =
       .next (if s.staging then s.send (.pldm 0x05 [0x20]) else (going true).send (.pldm 0x05 [0])) ∧
     exec (.pldmFirmwareUpdate .cancel) s =
       .next (if s.boot.pldmUpdate then (going false).send (.pldm 0x05 [0]) else s.send (.pldm 0x05 [0x80]))) ∧
    (∀ img : StoreImage,
      (s.boot.pldmUpdate = false → exec (.pldmFirmwareUpdate (.image img)) s = .next (s.send (.pldm 0x05 [0x80]))) ∧
      (s.boot.pldmUpdate = true →
        (imgFault img s.fuses = none → leads (exec (.pldmFirmwareUpdate (.image img)) s) fun t =>
          let b := if s.boot.st = .recovery then false else !s.boot.imageB
          t.store.image b = some { img with dir := directoryFor b img } ∧ t.store.image (!b) = s.store.image (!b) ∧
          t.boot = { s.boot with pldmUpdate := false } ∧
          t.out = .pldm 0x05 [0, if s.boot.st = .recovery then 2 else 1] :: s.out) ∧
        (∀ f, imgFault img s.fuses = some f → leads (exec (.pldmFirmwareUpdate (.image img)) s) fun t => t.store = s.store ∧
          t.boot.pldmUpdate = false ∧ s.raises t evImageRejected))) ∧
    (∀ (l : List (Fin 78 × Nat)) (ok : Bool × Bool), s.up = true →
      (s.boot.st = .ready ∨ s.boot.st = .degradedReady ∨ s.boot.st = .mgmtOnly) →
      leads (exec (.pldmShutdown l ok) s) fun t => (t.boot.st = .shutdownDone ∨ t.boot.st = .restarting) ∧ t.cores = [] ∧
        t.boot.selfRefresh = true ∧ s.raises t evShutdownDone)

/-! ### Guests (R418 to R431) -/

/-- Packets of guests (R420, R422, R424, R425, R429): a write that a rule admits stores its bytes, an access no rule admits is
answered and changes no memory, a request no guest answers ends TARGET_ERROR, a drain ends what is outstanding. -/
def Obligations.GuestTraffic : Prop :=
  ∀ (site : Fin 4) (s : State),
    let g := s.guest site
    (∀ (k : FabPkt) (slow : List (Fin 64 × Nat)), s.guestThere site = true → g.st = .opened → s.withheld site k = false →
      bit (s.reg (gsBase site + 0x10)) (s.guestClass k) = true →
      (∀ r, pType k = 1 → g.rule (s.ruleFits k) = some r →
        let k' := gateHdr s k (s.allot (rAllot r)).tag (rBg r)
        let l := (pData k').take (min (pBytes k') (readSpan (pAddr k')))
        ((pMalformed k' = true ∨ 1 < pLen k') → leads (exec (.guestPacket site ⟨k, slow⟩) s) fun t =>
          t.mem = s.mem ∧ s.raises t evFabricDrop) ∧
        (pMalformed k' = false → pLen k' ≤ 1 → pType k' = 1 → pDst k' = s.feid →
          ∀ d, s.judgeFabric (pTag k') (pAddr k') (min (pBytes k') (readSpan (pAddr k'))) = (0, d) →
          leads (exec (.guestPacket site ⟨k, slow⟩) s) fun t => (∀ i, i < l.length → t.memByte (s.memKey d + i) = (l[i]?).getD 0) ∧
            (∀ a, a < s.memKey d ∨ s.memKey d + l.length ≤ a → t.memByte a = s.memByte a))) ∧
      ((pType k = 1 ∨ pType k = 2) → g.rule (s.ruleFits k) = none → leads (exec (.guestPacket site ⟨k, slow⟩) s) fun t =>
        t.mem = s.mem ∧ t.guestReqs = s.guestReqs ∧ t.allots = s.allots ∧ ∃ a, Out.guest site a ∈ t.out)) ∧
    (∀ (id : Nat) (r : Req), s.reqs.find? id = some r → r.stage = .atGuest → leads (exec (.guestNoResponse id) s) fun t =>
      t.reqs.find? id = some { r with stage := .toCarter, status := 3, data := [], poison := [] } ∧ s.raises t evGuestNoResponse) ∧
    (g.draining = true → leads (exec (.fenceDrainTimeout site) s) fun t => (t.guest site).draining = false ∧
      (∀ e ∈ t.guestReqs, e.2.site ≠ site.val) ∧
      t.reg (gsBase site + 0x70) =
        count48 (s.reg (gsBase site + 0x70)) (s.reqs.filter fun e => decide (e.2.stage = .atGuest ∧ e.2.site = site.val)).length ∧
      ∀ id r, s.reqs.find? id = some r → r.stage = .atGuest → r.site = site.val →
        t.reqs.find? id = some { r with stage := .toCarter, status := 4, data := [], poison := [] })

/-- Attestation, fencing, loss and rules of a site (R419, R423, R426 to R429). -/
def Obligations.GuestSites : Prop :=
  ∀ (site : Fin 4) (s : State),
    let i := site.val
    let g := s.guest i
    (s.guestThere i = true → s.up = true → (g.st = .off ∨ g.st = .training) → ∀ m : BitVec 4, m ≠ 0 →
      leads (exec (.guestTraining site m) s) fun t => t.guest i =
        { g with st := .attesting, mods := m, side := true, step := 1, nonce := 0 }) ∧
    (g.st = .training → leads (exec (.guestTrainingTimeout site) s) fun t => (t.guest i).st = .lost ∧ s.raises t evGuestLost) ∧
    ((g.st = .attesting ∨ g.st = .opened) →
      (∀ ans : GuestAnswer, g.step = answerStep ans →
        (∀ c, attestFault s.boot.cfg i g.nonce ans = some c → leads (exec (.guestSpdmResponse site ans) s) fun t =>
          (t.guest i).st = .fenced ∧ (t.guest i).cause = BitVec.ofNat 4 c ∧ s.raises t evGuestFenced) ∧
        (attestFault s.boot.cfg i g.nonce ans = none → answerStep ans < 6 → leads (exec (.guestSpdmResponse site ans) s) fun t =>
          ∃ n, t.guest i = { g with step := g.step + 1, nonce := n } ∧ t.out = .guestAsk i (g.step + 1) n :: s.out)) ∧
      (∀ (l : List (Byte × BitVec 256)) (d : BitVec 256), g.step = 6 → measureOk (expectedOf s.boot.cfg i) l = true →
        leads (exec (.guestSpdmResponse site (.measurements g.nonce true l d)) s) fun t =>
          (g.fenceAt ≠ some s.tick → t.guest i = { g with st := .opened, cause := 0, step := 0, digest := d }) ∧
          (g.fenceAt = some s.tick → (t.guest i).st = .fenced ∧ (t.guest i).cause = 7)) ∧
      (0 < g.step → leads (exec (.guestAttestTimeout site) s) fun t => (t.guest i).st = .fenced ∧ (t.guest i).cause = 6)) ∧
    (g.st = .opened → g.step = 0 → s.boot.cfg.gsReattestHours.contains (i, 0) = false →
      leads (exec (.reattestPeriodExpiry site) s) fun t => t.guest i = { g with step := 1, nonce := 0 }) ∧
    (∀ c : BitVec 2, (g.st = .opened ∨ g.st = .attesting ∨ g.st = .fenced) → leads (exec (.guestLost site c) s) fun t =>
      (t.guest i).st = .lost ∧ s.raises t evGuestLost) ∧
    (∀ (path : RegPath) (t : State), i < s.fuses.guests →
      (s.gate path (gsBase i + 8) true = (t, true) →
        (g.st = .opened → leads (exec (.gsCtlFence path site) s) fun u => (u.guest i).st = .fenced ∧ (u.guest i).cause = 7) ∧
        (g.st = .attesting → leads (exec (.gsCtlFence path site) s) fun u => u.guest i = { g with fenceAt := some s.tick }) ∧
        (g.st = .fenced → leads (exec (.gsCtlReattest path site) s) fun u =>
          u.guest i = { g with st := .attesting, step := 1, nonce := 0 })) ∧
      (s.gate path (gsBase i + 0x58) true = (t, true) →
        let n := bits (t.reg (gsBase i + 0x30)) 0 5
        let r := BitVec.ofNat 256 (((List.range 4).map fun j => (t.reg (gsBase i + 0x38 + 8 * j)).toNat * 2 ^ (64 * j)).sum)
        (leads (exec (.ruleCmdRead path site) s) fun u => ∀ j, j < 4 →
          u.reg (gsBase i + 0x38 + 8 * j) = BitVec.ofNat 64 (bits (g.rules.get 0 n) (64 * j) 64)) ∧
        (t.badRule i r = false → leads (exec (.ruleCmdWrite path site) s) fun u =>
          u.guest i = { g with rules := g.rules.put n r }) ∧
        (t.badRule i r = true → leads (exec (.ruleCmdWrite path site) s) fun u => u.guests = t.guests ∧
          bit (u.reg (gsBase i + 0x60)) 0 = true)))

/-! ### Start, stop, records and fuses (R32 to R35, R410, R437 to R441, R450 to R455) -/

/-- Reset (R32, R35, R243, R494): power is off, RESET_N is low and nothing is in any table; registers read as their tables say. -/
def Obligations.ResetState : Prop :=
  State.reset.pins.pwrGood = false ∧ State.reset.pins.powerEn = false ∧ State.reset.pins.resetN = false ∧
  State.reset.pins.alertN = true ∧ State.reset.pins.thermtripN = true ∧ State.reset.clk.sel = .ref ∧ State.reset.bell.count = 0 ∧
  State.reset.memWf = true ∧ State.reset.pending = [] ∧ State.reset.up = false ∧ State.reset.fuses.steady ∧
  State.reset.reg 0x30048 = 10 ∧ State.reset.reg 0x20050 = 10 ∧ State.reset.reg 0xC0028 = 50 ∧ State.reset.reg 0xC0030 = 100 ∧
  (∀ m : Fin 64, State.reset.reg (mcBase m + 0x38) = 8 ∧ State.reset.reg (mcBase m + 0x40) = 0x1801) ∧
  (∀ p : Fin 64, State.reset.reg (portBase p + 0x60) = 64) ∧
  State.reset.regRead 0x40000 = 0 ∧ State.reset.regRead 0xA00000 = 0 ∧ State.reset.regRead 0xA00088 = 0 ∧
  (∀ p : Nat, State.reset.readPwr p 0x4000 = 0 ∧ State.reset.readPwr p 0x4010 = 256) ∧
  (∀ p : Pos, (State.reset.core p).mode = .noBank ∧ (State.reset.core p).load.credits = 8 ∧ (State.reset.core p).store.credits = 8)

/-- Power and reset pins (R25, R32 to R34, R440, R441); whether the input has risen far enough since an undervoltage lockout is
a free value (log entry 97). -/
def Obligations.PowerAndReset : Prop :=
  ∀ s : State,
    (s.pins.powerEn = false → s.failedRegs = [] →
      let starts (t : State) : State :=
        { t with pins := { t.pins with powerEn := true, pwrGood := true }, boot := { t.boot with st := .coldReset, step := 1 } }
      (s.boot.uvlo = false → exec .powerEnRise s = .next (starts s)) ∧
      (s.boot.uvlo = true → ∃ risen : Bool, exec .powerEnRise s = .next
        (if risen then starts s.drawn else { s.drawn with pins := { s.pins with powerEn := true } }))) ∧
    (leads (exec .powerEnFall s) fun t => t.pins.powerEn = false ∧ t.pins.pwrGood = false ∧ t.pins.thermtripN = true ∧
      t.mem = [] ∧ t.ses = [] ∧ t.cores = [] ∧ t.fuses = { s.fuses with busy := none } ∧
      t.store = { if s.staging then s.store.setImage (!s.boot.imageB) none else s.store with lastOk := false }) ∧
    (leads (exec .resetNFall s) fun t => t.pins.resetN = false ∧ t.pins.thermtripN = true ∧ (s.pins.pwrGood = true →
      t.boot.st = .coldReset ∧ t.ledger = {} ∧ t.ses = [] ∧ t.reg 0x20040 = s.reg 0x20040)) ∧
    (∀ o : StartObs, s.pins.pwrGood = true → s.boot.stopped = false →
      let starts (c : Instr) : Prop :=
        (o.straps.test = true → leads (exec c s) fun t => t.boot.st = .strapHalt ∧ t.pins.alertN = false) ∧
        (o.straps.test = false →
          (s.store.a = none → s.store.b = none → leads (exec c s) fun t => t.boot.st = .recovery ∧ s.raises t evRecoveryMode) ∧
          (o.straps.mgmt = true → s.imageFault o.readFail o.straps.img = none → leads (exec c s) fun t => t.boot.st = .mgmtOnly ∧
            t.boot.imageB = o.straps.img))
      (s.pins.resetN = false → starts (.resetNRise o)) ∧
      (s.pins.resetN = true → s.boot.st = .coldReset → starts (.resetReleaseImplied o))) ∧
    (∀ o : StartObs, s.reeve.slotWait = true → s.boot.st = .training → (s.reeve.slotAt.getD 0) ≤ s.tod.sec.toNat →
      leads (exec (.startupSlotWait o) s) fun t =>
      t.boot.st = .ready ∨ t.boot.st = .degradedReady ∨ t.boot.st = .mgmtOnly)

/-- Restarts and shutdown (R364, R450, R452, R453, R455): a warm restart is honoured in four states, raises the epoch, aborts
every command and releases every allotment. -/
def Obligations.Restarts : Prop :=
  ∀ s : State, (s.boot.st = .ready ∨ s.boot.st = .degradedReady ∨ s.boot.st = .mgmtOnly ∨ s.boot.st = .shutdownDone) →
    s.boot.stopped = false →
    (s.pins.pwrGood = true → s.clk.switching.isSome = true →
      exec .warmN s = .next { s with boot := { s.boot with warmHeld := true } }) ∧
    (s.clk.switching = none →
      (s.pins.pwrGood = true → leads (exec .warmN s) fun t => t.boot.st = .restarting ∧ t.boot.epoch = s.boot.epoch + 1 ∧
        t.qps = [] ∧ t.reeve.jobTime = false ∧ t.cores = [] ∧ t.boot.selfRefresh = true) ∧
      (∀ (path : RegPath) (t : State), s.gate path (configBase + 0x78) true = (t, true) →
        leads (exec (.warmReq path) s) fun u => u.boot.st = .restarting ∧ u.boot.epoch = s.boot.epoch + 1) ∧
      (∀ o : StartObs, leads (exec (.warmRestart o) s) fun t =>
        t.boot.epoch = s.boot.epoch + 1 ∧ t.posted = [] ∧ (t.boot.st = .recovery ∨ t.boot.st = .ready ∨ t.boot.st = .degradedReady ∨
          t.boot.st = .mgmtOnly))) ∧
    (∀ (path : RegPath) (t : State) (l : List (Fin 78 × Nat)) (ok : Bool × Bool), s.gate path (configBase + 0x80) true = (t, true) →
      s.boot.st ≠ .shutdownDone → s.boot.warmHeld = false → leads (exec (.shutdown path l ok) s) fun u =>
        u.boot.st = .shutdownDone ∧ u.boot.epoch = s.boot.epoch + 1 ∧ u.cores = [] ∧ u.boot.selfRefresh = true ∧
        s.raises u evShutdownDone) ∧
    (∀ (path : RegPath) (v : DWord) (t : State), s.gate path (configBase + 0x10) true = (t, true) → bits v 0 2 ≠ 1 →
      exec (.bootSelect path v) s = .next (t.setReg (configBase + 0x10) (BitVec.ofNat 64 (bits v 0 2))))

/-- Fuse commands and records (R387, R410, R437, R439, R455): a command is refused or begun; its end programs the fuses; a WEAR
record is appended with the trims moved. -/
def Obligations.FusesAndRecords : Prop :=
  ∀ s : State,
    (∀ (path : RegPath) (t : State), s.gate path 0xA00068 true = (t, true) → t.fuses.busy = none →
      let begun (c : Instr) (refused : Bool) (op : FuseOp) : Prop :=
        leads (exec c s) fun u => if refused then u.fuses = t.fuses ∧ bit (u.reg 0xA00070) 1 = true
          else u.fuses = { t.fuses with busy := some op }
      begun (.appendSite path) (t.fuses.badEntry t.fuseEntry) (.appendSite t.fuseEntry) ∧
      (∀ k : BitVec 4,
        begun (.revokeFwKey path k)
          (decide (3 < k.toNat) || (List.range 4).all fun j => decide (j = k.toNat) || bit t.fuses.fwRevoked j) (.revokeFw k.toNat) ∧
        begun (.programOwner path k) (decide (1 < k.toNat) || (t.fuses.owner k.toNat).programmed) (.programOwner k.toNat t.ownerHash) ∧
        begun (.revokeOwner path k) (decide (1 < k.toNat) || !(t.fuses.owner k.toNat).programmed) (.revokeOwner k.toNat))) ∧
    (∀ op, s.fuses.busy = some op →
      exec (.fuseProgrammingDone true) s = .next { s with fuses := { s.fuses.program op with busy := none } } ∧
      leads (exec (.fuseProgrammingDone false) s) fun t => t.fuses = { s.fuses with busy := none } ∧ bit (t.reg 0xA00070) 2 = true) ∧
    (∀ (l : List (Fin 78 × Nat)) (a b : Bool),
      (s.boot.st = .restarting →
        exec (.wearAppend l a b) s = .next { s with boot := { s.boot with appendDue := some (l, a, b) } }) ∧
      (s.boot.st ≠ .restarting → s.up = true → leads (exec (.wearAppend l a b) s) fun t =>
        let r := (RecBody.wear (s.wearNow (s.movedTrims l) (l.map fun e => (e.1.val, e.2)))).record (s.store.seq + 1)
        t.store.seq = s.store.seq + 1 ∧ (if a then r ∈ t.store.recsA.all else t.store.recsA = s.store.recsA) ∧
        (if b then r ∈ t.store.recsB.all else t.store.recsB = s.store.recsB) ∧
        (a = false ∨ b = false → s.raises t evRecordAppendFail) ∧ t.fuses = s.fuses))

/-- Fuses burn one way (R410, R411, R438, R439): whatever command runs, nothing that was revoked, programmed or recorded comes
back, no rollback counter falls, and the identity and factory maps stay. -/
def Obligations.FusesBurnOneWay : Prop :=
  ∀ s t : State, s.fuses.steady → step s = .next t → s.fuses.kept t.fuses ∧ t.fuses.steady

/-! ### Registers and the fault steward (R466, R467, R478, R480, R486 to R500) -/

/-- The key guard (R486, R490, R497 to R500): the key arms a block for a management session, another value counts and locks it
at the sixteenth; a guarded write finds the block armed or sets NOT_ARMED, and consumes the arm, whether the register is
immediate or posted; stewards pass without it, and a core passes never and arms nothing. -/
def Obligations.KeyGuard : Prop :=
  ∀ (id : BitVec 12) (s : State), s.up = true → s.mgmt id = true →
    let path := RegPath.session id
    (∀ (b : BitVec 24) (v : DWord), blockOf (b.toNat + 0xFF8) = some b.toNat → s.absent (b.toNat + 0xFF8) = false →
      let g := s.guard b.toNat
      g.locked = false →
      (v = 0x6B71 → exec (.unlock path b v) s = .next (s.setGuard b.toNat { g with armed := true, armedBy := id })) ∧
      (v ≠ 0x6B71 → g.faults < 15 →
        exec (.unlock path b v) s = .next (s.setGuard b.toNat { g with armed := false, faults := g.faults + 1 })) ∧
      (v ≠ 0x6B71 → g.faults = 15 → leads (exec (.unlock path b v) s) fun t => (t.guard b.toNat).locked = true ∧
        (t.guard b.toNat).armed = false ∧ s.raises t evKeyLockout)) ∧
    (∀ (o b : Nat), blockOf o = some b → s.absent o = false →
      let g := s.guard b
      let unarmed := s.setGuard b { g with armed := false }
      s.gate path o false = (unarmed, true) ∧
      (g.armed = true → g.locked = false → s.gate path o true = (unarmed, true)) ∧
      (g.armed = false → s.gate path o true = (unarmed.setGuard b { g with armed := false, notArmed := true }, false)) ∧
      s.gate .steward o true = (s, true)) ∧
    (∀ (par : Fin 78) (hi : Bool) (v : DWord),
      let o := parishBase par + (if hi then 0x1508 else 0x1500)
      let b := parishBase par
      let g := s.guard b
      let unarmed := s.setGuard b { g with armed := false }
      s.absent o = false →
      (s.posted.find? b ≠ none → exec (.fallow path par hi v) s = .next (unarmed.orReg (b + 8) 2)) ∧
      (s.posted.find? b = none → (g.armed = false ∨ g.locked = true) →
        exec (.fallow path par hi v) s = .next (unarmed.setGuard b { g with armed := false, notArmed := true }))) ∧
    (∀ (p : Pos) (o : Nat), (s.gate (.core p) o true).2 = false ∧ ¬ s.takesPost (.core p) o true) ∧
    (∀ (p : Pos) (b : BitVec 24) (v : DWord), leads (exec (.unlock (.core p) b v) s) fun t => t.guards = s.guards)

/-- Registers written by their access codes (R203, R277, R316, R486, R487, R493): a field takes a value in its range, flags
written 1 clear; a core reaches its own parish block only, six registers of it, and a write of another sets
CORE_WRITE_IGNORED. -/
def Obligations.RegisterEffects : Prop :=
  ∀ (s : State) (v : DWord), s.up = true →
    (∀ o : BitVec 24, (o = 0xC0028 ∨ o = 0xC0030) → exec (.registerWrite .steward o v) s = .next
      (if 10 ≤ bits v 0 14 ∧ bits v 0 14 ≤ 10000 then s.setReg o.toNat (BitVec.ofNat 64 (bits v 0 14)) else s)) ∧
    (exec (.registerWrite .steward 0x30048 v) s = .next
      (if 1 ≤ bits v 0 10 ∧ bits v 0 10 ≤ 1000 then s.setReg 0x30048 (BitVec.ofNat 64 (bits v 0 10)) else s)) ∧
    (exec (.registerWrite .steward 0x20020 v) s = .next (s.setReg 0x20020 (s.reg 0x20020 &&& ~~~ (v &&& 0x1FF)))) ∧
    (∀ m : Fin 64, s.applyPosted (mcBase m + 0x38) v = (if s.absent (mcBase m + 0x38) = false ∧ 1 ≤ v.toNat ∧ v.toNat ≤ 255 then
      s.setReg (mcBase m + 0x38) v else s)) ∧
    (∀ (p : Pos) (o : BitVec 24), o.toNat % 8 = 0 →
      (parishOfOff o.toNat ≠ some p.parish.val → exec (.registerWrite (.core p) o v) s = .next s) ∧
      (parishOfOff o.toNat = some p.parish.val → coreWritable (o.toNat % 0x10000) = false →
        exec (.registerWrite (.core p) o v) s = .next (s.orReg (parishBase p.parish + 8) 4)))

/-- The fault steward (R467, R478, R480). -/
def Obligations.FaultSteward : Prop :=
  ∀ s : State,
    (∀ (k : Nat) (r : Repair), s.ras.repairs[k]? = some r → s.up = true → s.mayRepair r = true →
      leads (exec (.softRepair k) s) fun t => s.raises t evSoftRepair ∧ r ∉ t.ras.repairs ∧
        (r.row < 100 → t.rowDead r.parish r.col r.row = true)) ∧
    (∀ (path : RegPath) (t : State), s.gate path (rasBase + 0x20) true = (t, true) →
      (∀ h : Bool, leads (exec (.suspectHold path h) s) fun u => u.ras = { t.ras with hold := h }) ∧
      (leads (exec (.suspectClear path) s) fun u =>
        u.ras.suspects.find? (bits (t.reg (rasBase + 0x10)) 0 8) = none ∧ u.ras.hold = t.ras.hold)) ∧
    (∀ (k : Fin 8) (n : Nat), s.up = true → s.ras.retired.contains k.val = false → leads (exec (.stewardRestart k n) s) fun t =>
      s.raises t evStewardRestart ∧ (n < 3 → t.ras.retired = s.ras.retired ∧ t.boot.st = s.boot.st) ∧
      (3 ≤ n → k.val ∈ t.ras.retired) ∧
      (s.reeve.steward = k.val → s.reeve.standby = true → t.reeve = { s.reeve with failing := true } ∧ t.boot.st = s.boot.st) ∧
      (3 ≤ n → (k.val = 1 ∨ k.val = 2) → s.reeve.steward ≠ k.val →
        t.reeve.steward = s.reeve.steward ∧ t.reeve.standby = false ∧ (s.reeve.standby = false → t.boot.st = s.boot.st)) ∧
      (3 ≤ n → k.val ≠ 1 → k.val ≠ 2 → s.reeve.steward ≠ k.val → s.honours = true → s.clk.switching = none → t.boot.st = .restarting)) ∧
    (∀ p : Pos, (s.core p).mayRetire = true → s.frozen p = false → (s.core p).t = (s.core p).tstart →
      (s.core p).wait = .none →
      exec (.endRetire p) s = .next { s.setCore p { s.core p with mode := .retired } with stirred := s.stirred.insert p.parish })
end

