-- ==== Sys2Proof/Laws/Core.lean ====
section
/-! SUPPORT. What the shared operations of the core do: the verdict on an instruction, and what running one leaves. -/

namespace Sys2Proof.Machine

/-- No cause is reported exactly when no condition holds. -/
theorem firstCause_none {l : List (Bool × Cause)} (h : ∀ x ∈ l, x.1 = false) : firstCause l = none := by
  induction l with
  | nil => rfl
  | cons x t ih =>
    obtain ⟨b, c⟩ := x
    have hb : b = false := h (b, c) (by simp)
    subst hb
    simpa [firstCause] using ih fun y hy => h y (by simp [hy])

/-- Some cause is reported when a condition holds. -/
theorem firstCause_some {l : List (Bool × Cause)} (h : ∃ x ∈ l, x.1 = true) : ∃ c, firstCause l = some c := by
  induction l with
  | nil => simp at h
  | cons x t ih =>
    obtain ⟨b, c⟩ := x
    cases b with
    | true => cases ht : firstCause t <;> simp [firstCause, ht]
              split <;> simp
    | false => exact ih (by simpa using h)

/-- An instruction of a ready core with clean checks takes effect. -/
theorem judge_on {s : State} {p : Pos} {pr : Pred} {k : Check} (h : s.ready p pr) (hk : k.clean)
    (hr : k.unblocked (s.core p)) : (s.core p).judge pr k = .on := by
  obtain ⟨_, h2, h3, h4, ha, h5, h6⟩ := h
  have hf : firstCause ((s.core p).fetchFaults pr ++ k.word ++ k.always ++ k.on) = none := by
    apply firstCause_none
    intro x hx
    simp only [List.append_assoc, List.mem_append] at hx
    rcases hx with hx | hx
    · simp only [Core.fetchFaults, List.mem_cons, List.not_mem_nil, or_false] at hx
      rcases hx with rfl | rfl | rfl
      · simp only [h3, Bool.and_false]
      · simpa using h4
      · simpa using h5
    · exact hk x (by simpa [or_assoc] using hx)
  have hb : k.reads.any (fun r => (s.core p).accrdPending r.toNat) = false := by
    simpa [Check.unblocked] using hr
  simp only [List.append_assoc] at hf
  simp [Core.judge, h2, ha, h6, hb, hf]

/-- An instruction predicated off, with a clean word, only issues. -/
theorem judge_off {s : State} {p : Pos} {pr : Pred} {k : Check} (h : s.readyOff p pr)
    (hk : ∀ x ∈ k.word ++ k.always, x.1 = false) : (s.core p).judge pr k = .off := by
  obtain ⟨_, h2, h3, h4, ha, h5, h6⟩ := h
  have hf : firstCause ((s.core p).fetchFaults pr ++ k.word ++ k.always) = none := by
    apply firstCause_none
    intro x hx
    simp only [List.append_assoc, List.mem_append] at hx
    rcases hx with hx | hx
    · simp only [Core.fetchFaults, List.mem_cons, List.not_mem_nil, or_false] at hx
      rcases hx with rfl | rfl | rfl
      · simp only [h3, Bool.and_false]
      · simpa using h4
      · simpa using h5
    · exact hk x (by simpa using hx)
  simp only [List.append_assoc] at hf
  simp [Core.judge, h2, ha, h6, hf]

/-- A ready core runs an instruction whose effect is on itself. -/
theorem runCore_on {s : State} {p : Pos} {pr : Pred} (w : Word) {k : Core → Check} (eff off : Core → Core)
    (h : s.ready p pr) (hk : (k (s.core p)).clean) (hr : (k (s.core p)).unblocked (s.core p)) :
    s.runCore p w pr k eff off = s.retire p (eff (s.core p)) := by
  simp [State.runCore, h.thawed, judge_on h hk hr]

/-- A ready core runs an instruction whose effect goes beyond itself. -/
theorem runWide_on {s : State} {p : Pos} {pr : Pred} (w : Word) {k : Core → Check} (eff off : State → State)
    (h : s.ready p pr) (hk : (k (s.core p)).clean) (hr : (k (s.core p)).unblocked (s.core p)) :
    s.runWide p w pr k eff off = eff s := by
  simp [State.runWide, h.thawed, judge_on h hk hr]

/-- Predicated off, an instruction of the first kind leaves its `off` effect. -/
theorem runCore_off {s : State} {p : Pos} {pr : Pred} (w : Word) {k : Core → Check} (eff off : Core → Core)
    (h : s.readyOff p pr) (hk : ∀ x ∈ (k (s.core p)).word ++ (k (s.core p)).always, x.1 = false) :
    s.runCore p w pr k eff off = s.retire p (off (s.core p)) := by
  simp [State.runCore, h.thawed, judge_off h hk]

/-- Predicated off, an instruction of the second kind leaves its `off` effect. -/
theorem runWide_off {s : State} {p : Pos} {pr : Pred} (w : Word) {k : Core → Check} (eff off : State → State)
    (h : s.readyOff p pr) (hk : ∀ x ∈ (k (s.core p)).word ++ (k (s.core p)).always, x.1 = false) :
    s.runWide p w pr k eff off = off s := by
  simp [State.runWide, h.thawed, judge_off h hk]

/-- A core that is frozen issues nothing. -/
theorem runCore_frozen {s : State} {p : Pos} (w : Word) (pr : Pred) (k : Core → Check) (eff off : Core → Core)
    (h : s.frozen p = true) : s.runCore p w pr k eff off = s := by
  simp [State.runCore, h]

/-- Whatever an instruction of the first kind does, it leaves the state, takes an exception, or replaces its core. -/
theorem runCore_cases (s : State) (p : Pos) (w : Word) (pr : Pred) (k : Core → Check) (eff off : Core → Core) :
    s.runCore p w pr k eff off = s ∨ (∃ v x, s.runCore p w pr k eff off = s.except p v x) ∨
    s.runCore p w pr k eff off = s.retire p (eff (s.core p)) ∨
    s.runCore p w pr k eff off = s.retire p (off (s.core p)) := by
  unfold State.runCore
  dsimp only
  generalize (if s.frozen p then Verdict.stuck else (s.core p).judge pr (k (s.core p))) = v
  cases v with
  | stuck => exact .inl rfl
  | fault x => exact .inr (.inl ⟨_, x, rfl⟩)
  | on => exact .inr (.inr (.inl rfl))
  | off => exact .inr (.inr (.inr rfl))

/-- The same for an instruction of the second kind. -/
theorem runWide_cases (s : State) (p : Pos) (w : Word) (pr : Pred) (k : Core → Check) (eff off : State → State) :
    s.runWide p w pr k eff off = s ∨ (∃ v x, s.runWide p w pr k eff off = s.except p v x) ∨
    s.runWide p w pr k eff off = eff s ∨ s.runWide p w pr k eff off = off s := by
  unfold State.runWide
  dsimp only
  generalize (if s.frozen p then Verdict.stuck else (s.core p).judge pr (k (s.core p))) = v
  cases v with
  | stuck => exact .inl rfl
  | fault x => exact .inr (.inl ⟨_, x, rfl⟩)
  | on => exact .inr (.inr (.inl rfl))
  | off => exact .inr (.inr (.inr rfl))

/-- Touching words none of which has an error changes nothing. -/
theorem touch_clean (c : Core) (a n : Nat) (h1 : c.ue = []) (h2 : c.ce = []) : c.touch a n = (c, []) := by
  have f : (wordsOf a n).filter ([] : List Nat).contains = [] := by simp
  obtain ⟨⟩ := c
  dsimp only at h1 h2
  subst h1 h2
  simp only [Core.touch, f, List.foldl_nil, List.append_nil, List.filter_nil, List.length_nil, Nat.add_zero]

/-- Nor does it change the state of a listed core whose corrected errors have not passed the limit (R73, R74). -/
theorem touchSram_clean (s : State) (p : Pos) (w : Word) (a n : Nat) (h1 : (s.core p).ue = []) (h2 : (s.core p).ce = [])
    (h3 : (s.core p).ceCount ≤ s.boot.cfg.ceLimit) (h4 : s.setCore p (s.core p) = s) : s.touchSram p w a n = s := by
  simp only [State.touchSram, touch_clean _ a n h1 h2, h4, List.foldl_nil, Nat.sub_self, if_true]
  unfold State.checkCe
  simp only [Nat.not_lt.2 h3, false_and, if_false]

end Sys2Proof.Machine
end

