-- ==== Sys2Proof/Laws/Word.lean ====
section
/-! SUPPORT. Sparse tables: reading after writing, and the canonical form kept. -/

namespace Sys2Proof.Tab

variable {α : Type}

@[simp] theorem find?_nil (k : Nat) : Tab.find? ([] : Tab α) k = none := rfl

@[simp] theorem find?_put_self (t : Tab α) (k : Nat) (v : α) : (t.put k v).find? k = some v := by
  induction t with
  | nil => simp [put, find?]
  | cons e t ih =>
    obtain ⟨j, u⟩ := e
    unfold put
    split
    · simp [find?]
    · split
      · simp [find?]
      · rename_i h1 h2
        simp only [find?]
        rw [if_neg (fun h => h2 h.symm), ih]

theorem find?_put_ne (t : Tab α) {k j : Nat} (v : α) (h : j ≠ k) : (t.put k v).find? j = t.find? j := by
  have hk : ¬ k = j := fun e => h e.symm
  induction t with
  | nil => simp [put, find?, hk]
  | cons e t ih =>
    obtain ⟨i, u⟩ := e
    unfold put
    split
    · simp [find?, hk]
    · split
      · rename_i h2
        subst h2
        simp [find?, hk]
      · simp only [find?]
        rw [ih]

@[simp] theorem get_put_self (d : α) (t : Tab α) (k : Nat) (v : α) : Tab.get d (t.put k v) k = v := by simp [get]

theorem get_put_ne (d : α) (t : Tab α) {k j : Nat} (v : α) (h : j ≠ k) : Tab.get d (t.put k v) j = Tab.get d t j := by
  simp [get, find?_put_ne t v h]

@[simp] theorem find?_del_self (t : Tab α) (k : Nat) : (t.del k).find? k = none := by
  unfold del
  induction t with
  | nil => rfl
  | cons e t ih =>
    obtain ⟨j, u⟩ := e
    by_cases h : j = k
    · simpa [List.filter_cons, h] using ih
    · simpa [List.filter_cons, h, find?] using ih

theorem find?_del_ne (t : Tab α) {k j : Nat} (h : j ≠ k) : (t.del k).find? j = t.find? j := by
  unfold del
  induction t with
  | nil => rfl
  | cons e t ih =>
    obtain ⟨i, u⟩ := e
    by_cases hi : i = k
    · have : ¬ i = j := fun e => h (e ▸ hi)
      simpa [List.filter_cons, hi, find?, hi ▸ this] using ih
    · by_cases hj : i = j
      · subst hj
        simp [hi, find?]
      · simpa [List.filter_cons, hi, find?, hj] using ih

theorem find?_mapVals (t : Tab α) (f : Nat → α → α) (k : Nat) : (t.mapVals f).find? k = (t.find? k).map (f k) := by
  unfold mapVals
  induction t with
  | nil => rfl
  | cons e t ih =>
    obtain ⟨j, u⟩ := e
    by_cases h : j = k
    · subst h
      simp [find?]
    · simpa [find?, h] using ih

theorem mem_put {t : Tab α} {k : Nat} {v : α} {e : Nat × α} (h : e ∈ t.put k v) : e = (k, v) ∨ e ∈ t := by
  induction t with
  | nil => simpa [put] using h
  | cons x t ih =>
    obtain ⟨j, u⟩ := x
    unfold put at h
    split at h
    · simpa using h
    · split at h
      · rcases List.mem_cons.1 h with h | h
        · exact .inl h
        · exact .inr (List.mem_cons_of_mem _ h)
      · rcases List.mem_cons.1 h with h | h
        · exact .inr (h ▸ List.mem_cons_self)
        · rcases ih h with h | h
          · exact .inl h
          · exact .inr (List.mem_cons_of_mem _ h)

theorem wf_del {t : Tab α} (h : t.wf = true) (k : Nat) : (t.del k).wf = true := by
  simp only [wf, decide_eq_true_eq] at *
  exact List.Pairwise.filter _ h

theorem wf_put {t : Tab α} (h : t.wf = true) (k : Nat) (v : α) : (t.put k v).wf = true := by
  simp only [wf, decide_eq_true_eq] at *
  induction t with
  | nil => simp [put]
  | cons e t ih =>
    obtain ⟨j, u⟩ := e
    have hp := List.pairwise_cons.1 h
    unfold put
    split
    · rename_i hk
      refine List.pairwise_cons.2 ⟨fun b hb => ?_, h⟩
      rcases List.mem_cons.1 hb with rfl | hb
      · exact hk
      · exact Nat.lt_trans hk (hp.1 b hb)
    · split
      · rename_i hk
        exact List.pairwise_cons.2 ⟨fun b hb => hk ▸ hp.1 b hb, hp.2⟩
      · rename_i h1 h2
        refine List.pairwise_cons.2 ⟨fun b hb => ?_, ih hp.2⟩
        rcases mem_put hb with rfl | hb
        · show j < k
          omega
        · exact hp.1 b hb

end Sys2Proof.Tab
end

