-- ==== Sys2Proof/Laws/State.lean ====
section
/-! SUPPORT. The state's updates: for each update of one part of the state and each field, what the field is afterwards; and each
part read after it was written. -/

namespace Sys2Proof.Machine

variable (s : State)

/-! ### Reading back -/

@[simp] theorem State.core_setCore (p : Pos) (c : Core) : (s.setCore p c).core p = c := by simp [State.core, State.setCore]
theorem State.core_setCore_ne {p q : Pos} (c : Core) (h : q.id ≠ p.id) : (s.setCore p c).core q = s.core q := by
  simp [State.core, State.setCore, Tab.get_put_ne _ _ _ h]
@[simp] theorem State.core_updCore (p : Pos) (f : Core → Core) : (s.updCore p f).core p = f (s.core p) := by
  simp [State.updCore]
@[simp] theorem State.core_retire (p : Pos) (c : Core) : (s.retire p c).core p = c := by simp [State.core, State.retire]
theorem State.core_retire_ne {p q : Pos} (c : Core) (h : q.id ≠ p.id) : (s.retire p c).core q = s.core q := by
  simp [State.core, State.retire, Tab.get_put_ne _ _ _ h]
@[simp] theorem State.core_skipCore (p : Pos) : (s.skipCore p).core p = (s.core p).next := by simp [State.skipCore]

@[simp] theorem State.xroad_setXroad (p : Pos) (x : Xroad) : (s.setXroad p x).xroad p = x := by simp [State.xroad, State.setXroad]
theorem State.xroad_setXroad_ne {p q : Pos} (x : Xroad) (h : q.id ≠ p.id) : (s.setXroad p x).xroad q = s.xroad q := by
  simp [State.xroad, State.setXroad, Tab.get_put_ne _ _ _ h]

@[simp] theorem State.parish_setParish (p : Nat) (x : Parish) : (s.setParish p x).parish p = x := by simp [State.parish, State.setParish]
theorem State.parish_setParish_ne {p q : Nat} (x : Parish) (h : q ≠ p) : (s.setParish p x).parish q = s.parish q := by
  simp [State.parish, State.setParish, Tab.get_put_ne _ _ _ h]

@[simp] theorem State.allot_setAllot (p : Nat) (x : Allot) : (s.setAllot p x).allot p = x := by simp [State.allot, State.setAllot]
theorem State.allot_setAllot_ne {p q : Nat} (x : Allot) (h : q ≠ p) : (s.setAllot p x).allot q = s.allot q := by
  simp [State.allot, State.setAllot, Tab.get_put_ne _ _ _ h]

@[simp] theorem State.mc_setMc (p : Nat) (x : Stack) : (s.setMc p x).mc p = x := by simp [State.mc, State.setMc]
theorem State.mc_setMc_ne {p q : Nat} (x : Stack) (h : q ≠ p) : (s.setMc p x).mc q = s.mc q := by
  simp [State.mc, State.setMc, Tab.get_put_ne _ _ _ h]

@[simp] theorem State.port_setPort (p : Nat) (x : Port) : (s.setPort p x).port p = x := by simp [State.port, State.setPort]
theorem State.port_setPort_ne {p q : Nat} (x : Port) (h : q ≠ p) : (s.setPort p x).port q = s.port q := by
  simp [State.port, State.setPort, Tab.get_put_ne _ _ _ h]

@[simp] theorem State.guest_setGuest (p : Nat) (x : Guest) : (s.setGuest p x).guest p = x := by simp [State.guest, State.setGuest]
theorem State.guest_setGuest_ne {p q : Nat} (x : Guest) (h : q ≠ p) : (s.setGuest p x).guest q = s.guest q := by
  simp [State.guest, State.setGuest, Tab.get_put_ne _ _ _ h]

@[simp] theorem State.hp_setHp (p : Nat) (x : HostPort) : (s.setHp p x).hp p = x := by simp [State.hp, State.setHp]
theorem State.hp_setHp_ne {p q : Nat} (x : HostPort) (h : q ≠ p) : (s.setHp p x).hp q = s.hp q := by
  simp [State.hp, State.setHp, Tab.get_put_ne _ _ _ h]

@[simp] theorem State.guard_setGuard (p : Nat) (x : Guard) : (s.setGuard p x).guard p = x := by simp [State.guard, State.setGuard]
theorem State.guard_setGuard_ne {p q : Nat} (x : Guard) (h : q ≠ p) : (s.setGuard p x).guard q = s.guard q := by
  simp [State.guard, State.setGuard, Tab.get_put_ne _ _ _ h]

@[simp] theorem State.red_setRed (p : Nat) (x : Red) : (s.setRed p x).red p = x := by simp [State.red, State.setRed]
theorem State.red_setRed_ne {p q : Nat} (x : Red) (h : q ≠ p) : (s.setRed p x).red q = s.red q := by
  simp [State.red, State.setRed, Tab.get_put_ne _ _ _ h]

/-! ### Field by field -/

@[simp] theorem State.setCore_pins (p : Pos) (c : Core) : (s.setCore p c).pins = s.pins := rfl
@[simp] theorem State.setCore_boot (p : Pos) (c : Core) : (s.setCore p c).boot = s.boot := rfl
@[simp] theorem State.setCore_store (p : Pos) (c : Core) : (s.setCore p c).store = s.store := rfl
@[simp] theorem State.setCore_failedRegs (p : Pos) (c : Core) : (s.setCore p c).failedRegs = s.failedRegs := rfl
@[simp] theorem State.setCore_fuses (p : Pos) (c : Core) : (s.setCore p c).fuses = s.fuses := rfl
@[simp] theorem State.setCore_xroads (p : Pos) (c : Core) : (s.setCore p c).xroads = s.xroads := rfl
@[simp] theorem State.setCore_parishes (p : Pos) (c : Core) : (s.setCore p c).parishes = s.parishes := rfl
@[simp] theorem State.setCore_allots (p : Pos) (c : Core) : (s.setCore p c).allots = s.allots := rfl
@[simp] theorem State.setCore_bell (p : Pos) (c : Core) : (s.setCore p c).bell = s.bell := rfl
@[simp] theorem State.setCore_hub (p : Pos) (c : Core) : (s.setCore p c).hub = s.hub := rfl
@[simp] theorem State.setCore_hubWait (p : Pos) (c : Core) : (s.setCore p c).hubWait = s.hubWait := rfl
@[simp] theorem State.setCore_tallyOps (p : Pos) (c : Core) : (s.setCore p c).tallyOps = s.tallyOps := rfl
@[simp] theorem State.setCore_crierSeq (p : Pos) (c : Core) : (s.setCore p c).crierSeq = s.crierSeq := rfl
@[simp] theorem State.setCore_stirred (p : Pos) (c : Core) : (s.setCore p c).stirred = s.stirred := rfl
@[simp] theorem State.setCore_reqs (p : Pos) (c : Core) : (s.setCore p c).reqs = s.reqs := rfl
@[simp] theorem State.setCore_nextReq (p : Pos) (c : Core) : (s.setCore p c).nextReq = s.nextReq := rfl
@[simp] theorem State.setCore_mem (p : Pos) (c : Core) : (s.setCore p c).mem = s.mem := rfl
@[simp] theorem State.setCore_memInit (p : Pos) (c : Core) : (s.setCore p c).memInit = s.memInit := rfl
@[simp] theorem State.setCore_memPoison (p : Pos) (c : Core) : (s.setCore p c).memPoison = s.memPoison := rfl
@[simp] theorem State.setCore_memFills (p : Pos) (c : Core) : (s.setCore p c).memFills = s.memFills := rfl
@[simp] theorem State.setCore_memUe (p : Pos) (c : Core) : (s.setCore p c).memUe = s.memUe := rfl
@[simp] theorem State.setCore_memCe (p : Pos) (c : Core) : (s.setCore p c).memCe = s.memCe := rfl
@[simp] theorem State.setCore_mcs (p : Pos) (c : Core) : (s.setCore p c).mcs = s.mcs := rfl
@[simp] theorem State.setCore_clk (p : Pos) (c : Core) : (s.setCore p c).clk = s.clk := rfl
@[simp] theorem State.setCore_ports (p : Pos) (c : Core) : (s.setCore p c).ports = s.ports := rfl
@[simp] theorem State.setCore_routes (p : Pos) (c : Core) : (s.setCore p c).routes = s.routes := rfl
@[simp] theorem State.setCore_reds (p : Pos) (c : Core) : (s.setCore p c).reds = s.reds := rfl
@[simp] theorem State.setCore_rxs (p : Pos) (c : Core) : (s.setCore p c).rxs = s.rxs := rfl
@[simp] theorem State.setCore_fabWait (p : Pos) (c : Core) : (s.setCore p c).fabWait = s.fabWait := rfl
@[simp] theorem State.setCore_fabLocal (p : Pos) (c : Core) : (s.setCore p c).fabLocal = s.fabLocal := rfl
@[simp] theorem State.setCore_crierHeld (p : Pos) (c : Core) : (s.setCore p c).crierHeld = s.crierHeld := rfl
@[simp] theorem State.setCore_routeBusy (p : Pos) (c : Core) : (s.setCore p c).routeBusy = s.routeBusy := rfl
@[simp] theorem State.setCore_ses (p : Pos) (c : Core) : (s.setCore p c).ses = s.ses := rfl
@[simp] theorem State.setCore_qps (p : Pos) (c : Core) : (s.setCore p c).qps = s.qps := rfl
@[simp] theorem State.setCore_ledger (p : Pos) (c : Core) : (s.setCore p c).ledger = s.ledger := rfl
@[simp] theorem State.setCore_tod (p : Pos) (c : Core) : (s.setCore p c).tod = s.tod := rfl
@[simp] theorem State.setCore_hps (p : Pos) (c : Core) : (s.setCore p c).hps = s.hps := rfl
@[simp] theorem State.setCore_reeve (p : Pos) (c : Core) : (s.setCore p c).reeve = s.reeve := rfl
@[simp] theorem State.setCore_guests (p : Pos) (c : Core) : (s.setCore p c).guests = s.guests := rfl
@[simp] theorem State.setCore_guestReqs (p : Pos) (c : Core) : (s.setCore p c).guestReqs = s.guestReqs := rfl
@[simp] theorem State.setCore_spdmVer (p : Pos) (c : Core) : (s.setCore p c).spdmVer = s.spdmVer := rfl
@[simp] theorem State.setCore_spdmAlgo (p : Pos) (c : Core) : (s.setCore p c).spdmAlgo = s.spdmAlgo := rfl
@[simp] theorem State.setCore_ras (p : Pos) (c : Core) : (s.setCore p c).ras = s.ras := rfl
@[simp] theorem State.setCore_unreadBoard (p : Pos) (c : Core) : (s.setCore p c).unreadBoard = s.unreadBoard := rfl
@[simp] theorem State.setCore_regs (p : Pos) (c : Core) : (s.setCore p c).regs = s.regs := rfl
@[simp] theorem State.setCore_guards (p : Pos) (c : Core) : (s.setCore p c).guards = s.guards := rfl
@[simp] theorem State.setCore_posted (p : Pos) (c : Core) : (s.setCore p c).posted = s.posted := rfl
@[simp] theorem State.setCore_fresh (p : Pos) (c : Core) : (s.setCore p c).fresh = s.fresh := rfl
@[simp] theorem State.setCore_events (p : Pos) (c : Core) : (s.setCore p c).events = s.events := rfl
@[simp] theorem State.setCore_out (p : Pos) (c : Core) : (s.setCore p c).out = s.out := rfl
@[simp] theorem State.setCore_pending (p : Pos) (c : Core) : (s.setCore p c).pending = s.pending := rfl
@[simp] theorem State.updCore_pins (p : Pos) (f : Core → Core) : (s.updCore p f).pins = s.pins := rfl
@[simp] theorem State.updCore_boot (p : Pos) (f : Core → Core) : (s.updCore p f).boot = s.boot := rfl
@[simp] theorem State.updCore_store (p : Pos) (f : Core → Core) : (s.updCore p f).store = s.store := rfl
@[simp] theorem State.updCore_failedRegs (p : Pos) (f : Core → Core) : (s.updCore p f).failedRegs = s.failedRegs := rfl
@[simp] theorem State.updCore_fuses (p : Pos) (f : Core → Core) : (s.updCore p f).fuses = s.fuses := rfl
@[simp] theorem State.updCore_xroads (p : Pos) (f : Core → Core) : (s.updCore p f).xroads = s.xroads := rfl
@[simp] theorem State.updCore_parishes (p : Pos) (f : Core → Core) : (s.updCore p f).parishes = s.parishes := rfl
@[simp] theorem State.updCore_allots (p : Pos) (f : Core → Core) : (s.updCore p f).allots = s.allots := rfl
@[simp] theorem State.updCore_bell (p : Pos) (f : Core → Core) : (s.updCore p f).bell = s.bell := rfl
@[simp] theorem State.updCore_hub (p : Pos) (f : Core → Core) : (s.updCore p f).hub = s.hub := rfl
@[simp] theorem State.updCore_hubWait (p : Pos) (f : Core → Core) : (s.updCore p f).hubWait = s.hubWait := rfl
@[simp] theorem State.updCore_tallyOps (p : Pos) (f : Core → Core) : (s.updCore p f).tallyOps = s.tallyOps := rfl
@[simp] theorem State.updCore_crierSeq (p : Pos) (f : Core → Core) : (s.updCore p f).crierSeq = s.crierSeq := rfl
@[simp] theorem State.updCore_stirred (p : Pos) (f : Core → Core) : (s.updCore p f).stirred = s.stirred := rfl
@[simp] theorem State.updCore_reqs (p : Pos) (f : Core → Core) : (s.updCore p f).reqs = s.reqs := rfl
@[simp] theorem State.updCore_nextReq (p : Pos) (f : Core → Core) : (s.updCore p f).nextReq = s.nextReq := rfl
@[simp] theorem State.updCore_mem (p : Pos) (f : Core → Core) : (s.updCore p f).mem = s.mem := rfl
@[simp] theorem State.updCore_memInit (p : Pos) (f : Core → Core) : (s.updCore p f).memInit = s.memInit := rfl
@[simp] theorem State.updCore_memPoison (p : Pos) (f : Core → Core) : (s.updCore p f).memPoison = s.memPoison := rfl
@[simp] theorem State.updCore_memFills (p : Pos) (f : Core → Core) : (s.updCore p f).memFills = s.memFills := rfl
@[simp] theorem State.updCore_memUe (p : Pos) (f : Core → Core) : (s.updCore p f).memUe = s.memUe := rfl
@[simp] theorem State.updCore_memCe (p : Pos) (f : Core → Core) : (s.updCore p f).memCe = s.memCe := rfl
@[simp] theorem State.updCore_mcs (p : Pos) (f : Core → Core) : (s.updCore p f).mcs = s.mcs := rfl
@[simp] theorem State.updCore_clk (p : Pos) (f : Core → Core) : (s.updCore p f).clk = s.clk := rfl
@[simp] theorem State.updCore_ports (p : Pos) (f : Core → Core) : (s.updCore p f).ports = s.ports := rfl
@[simp] theorem State.updCore_routes (p : Pos) (f : Core → Core) : (s.updCore p f).routes = s.routes := rfl
@[simp] theorem State.updCore_reds (p : Pos) (f : Core → Core) : (s.updCore p f).reds = s.reds := rfl
@[simp] theorem State.updCore_rxs (p : Pos) (f : Core → Core) : (s.updCore p f).rxs = s.rxs := rfl
@[simp] theorem State.updCore_fabWait (p : Pos) (f : Core → Core) : (s.updCore p f).fabWait = s.fabWait := rfl
@[simp] theorem State.updCore_fabLocal (p : Pos) (f : Core → Core) : (s.updCore p f).fabLocal = s.fabLocal := rfl
@[simp] theorem State.updCore_crierHeld (p : Pos) (f : Core → Core) : (s.updCore p f).crierHeld = s.crierHeld := rfl
@[simp] theorem State.updCore_routeBusy (p : Pos) (f : Core → Core) : (s.updCore p f).routeBusy = s.routeBusy := rfl
@[simp] theorem State.updCore_ses (p : Pos) (f : Core → Core) : (s.updCore p f).ses = s.ses := rfl
@[simp] theorem State.updCore_qps (p : Pos) (f : Core → Core) : (s.updCore p f).qps = s.qps := rfl
@[simp] theorem State.updCore_ledger (p : Pos) (f : Core → Core) : (s.updCore p f).ledger = s.ledger := rfl
@[simp] theorem State.updCore_tod (p : Pos) (f : Core → Core) : (s.updCore p f).tod = s.tod := rfl
@[simp] theorem State.updCore_hps (p : Pos) (f : Core → Core) : (s.updCore p f).hps = s.hps := rfl
@[simp] theorem State.updCore_reeve (p : Pos) (f : Core → Core) : (s.updCore p f).reeve = s.reeve := rfl
@[simp] theorem State.updCore_guests (p : Pos) (f : Core → Core) : (s.updCore p f).guests = s.guests := rfl
@[simp] theorem State.updCore_guestReqs (p : Pos) (f : Core → Core) : (s.updCore p f).guestReqs = s.guestReqs := rfl
@[simp] theorem State.updCore_spdmVer (p : Pos) (f : Core → Core) : (s.updCore p f).spdmVer = s.spdmVer := rfl
@[simp] theorem State.updCore_spdmAlgo (p : Pos) (f : Core → Core) : (s.updCore p f).spdmAlgo = s.spdmAlgo := rfl
@[simp] theorem State.updCore_ras (p : Pos) (f : Core → Core) : (s.updCore p f).ras = s.ras := rfl
@[simp] theorem State.updCore_unreadBoard (p : Pos) (f : Core → Core) : (s.updCore p f).unreadBoard = s.unreadBoard := rfl
@[simp] theorem State.updCore_regs (p : Pos) (f : Core → Core) : (s.updCore p f).regs = s.regs := rfl
@[simp] theorem State.updCore_guards (p : Pos) (f : Core → Core) : (s.updCore p f).guards = s.guards := rfl
@[simp] theorem State.updCore_posted (p : Pos) (f : Core → Core) : (s.updCore p f).posted = s.posted := rfl
@[simp] theorem State.updCore_fresh (p : Pos) (f : Core → Core) : (s.updCore p f).fresh = s.fresh := rfl
@[simp] theorem State.updCore_events (p : Pos) (f : Core → Core) : (s.updCore p f).events = s.events := rfl
@[simp] theorem State.updCore_out (p : Pos) (f : Core → Core) : (s.updCore p f).out = s.out := rfl
@[simp] theorem State.updCore_pending (p : Pos) (f : Core → Core) : (s.updCore p f).pending = s.pending := rfl
@[simp] theorem State.retire_pins (p : Pos) (c : Core) : (s.retire p c).pins = s.pins := rfl
@[simp] theorem State.retire_boot (p : Pos) (c : Core) : (s.retire p c).boot = s.boot := rfl
@[simp] theorem State.retire_store (p : Pos) (c : Core) : (s.retire p c).store = s.store := rfl
@[simp] theorem State.retire_failedRegs (p : Pos) (c : Core) : (s.retire p c).failedRegs = s.failedRegs := rfl
@[simp] theorem State.retire_fuses (p : Pos) (c : Core) : (s.retire p c).fuses = s.fuses := rfl
@[simp] theorem State.retire_xroads (p : Pos) (c : Core) : (s.retire p c).xroads = s.xroads := rfl
@[simp] theorem State.retire_parishes (p : Pos) (c : Core) : (s.retire p c).parishes = s.parishes := rfl
@[simp] theorem State.retire_allots (p : Pos) (c : Core) : (s.retire p c).allots = s.allots := rfl
@[simp] theorem State.retire_bell (p : Pos) (c : Core) : (s.retire p c).bell = s.bell := rfl
@[simp] theorem State.retire_hub (p : Pos) (c : Core) : (s.retire p c).hub = s.hub := rfl
@[simp] theorem State.retire_hubWait (p : Pos) (c : Core) : (s.retire p c).hubWait = s.hubWait := rfl
@[simp] theorem State.retire_tallyOps (p : Pos) (c : Core) : (s.retire p c).tallyOps = s.tallyOps := rfl
@[simp] theorem State.retire_crierSeq (p : Pos) (c : Core) : (s.retire p c).crierSeq = s.crierSeq := rfl
@[simp] theorem State.retire_reqs (p : Pos) (c : Core) : (s.retire p c).reqs = s.reqs := rfl
@[simp] theorem State.retire_nextReq (p : Pos) (c : Core) : (s.retire p c).nextReq = s.nextReq := rfl
@[simp] theorem State.retire_mem (p : Pos) (c : Core) : (s.retire p c).mem = s.mem := rfl
@[simp] theorem State.retire_memInit (p : Pos) (c : Core) : (s.retire p c).memInit = s.memInit := rfl
@[simp] theorem State.retire_memPoison (p : Pos) (c : Core) : (s.retire p c).memPoison = s.memPoison := rfl
@[simp] theorem State.retire_memFills (p : Pos) (c : Core) : (s.retire p c).memFills = s.memFills := rfl
@[simp] theorem State.retire_memUe (p : Pos) (c : Core) : (s.retire p c).memUe = s.memUe := rfl
@[simp] theorem State.retire_memCe (p : Pos) (c : Core) : (s.retire p c).memCe = s.memCe := rfl
@[simp] theorem State.retire_mcs (p : Pos) (c : Core) : (s.retire p c).mcs = s.mcs := rfl
@[simp] theorem State.retire_clk (p : Pos) (c : Core) : (s.retire p c).clk = s.clk := rfl
@[simp] theorem State.retire_ports (p : Pos) (c : Core) : (s.retire p c).ports = s.ports := rfl
@[simp] theorem State.retire_routes (p : Pos) (c : Core) : (s.retire p c).routes = s.routes := rfl
@[simp] theorem State.retire_reds (p : Pos) (c : Core) : (s.retire p c).reds = s.reds := rfl
@[simp] theorem State.retire_rxs (p : Pos) (c : Core) : (s.retire p c).rxs = s.rxs := rfl
@[simp] theorem State.retire_fabWait (p : Pos) (c : Core) : (s.retire p c).fabWait = s.fabWait := rfl
@[simp] theorem State.retire_fabLocal (p : Pos) (c : Core) : (s.retire p c).fabLocal = s.fabLocal := rfl
@[simp] theorem State.retire_crierHeld (p : Pos) (c : Core) : (s.retire p c).crierHeld = s.crierHeld := rfl
@[simp] theorem State.retire_routeBusy (p : Pos) (c : Core) : (s.retire p c).routeBusy = s.routeBusy := rfl
@[simp] theorem State.retire_ses (p : Pos) (c : Core) : (s.retire p c).ses = s.ses := rfl
@[simp] theorem State.retire_qps (p : Pos) (c : Core) : (s.retire p c).qps = s.qps := rfl
@[simp] theorem State.retire_ledger (p : Pos) (c : Core) : (s.retire p c).ledger = s.ledger := rfl
@[simp] theorem State.retire_tod (p : Pos) (c : Core) : (s.retire p c).tod = s.tod := rfl
@[simp] theorem State.retire_hps (p : Pos) (c : Core) : (s.retire p c).hps = s.hps := rfl
@[simp] theorem State.retire_reeve (p : Pos) (c : Core) : (s.retire p c).reeve = s.reeve := rfl
@[simp] theorem State.retire_guests (p : Pos) (c : Core) : (s.retire p c).guests = s.guests := rfl
@[simp] theorem State.retire_guestReqs (p : Pos) (c : Core) : (s.retire p c).guestReqs = s.guestReqs := rfl
@[simp] theorem State.retire_spdmVer (p : Pos) (c : Core) : (s.retire p c).spdmVer = s.spdmVer := rfl
@[simp] theorem State.retire_spdmAlgo (p : Pos) (c : Core) : (s.retire p c).spdmAlgo = s.spdmAlgo := rfl
@[simp] theorem State.retire_ras (p : Pos) (c : Core) : (s.retire p c).ras = s.ras := rfl
@[simp] theorem State.retire_unreadBoard (p : Pos) (c : Core) : (s.retire p c).unreadBoard = s.unreadBoard := rfl
@[simp] theorem State.retire_regs (p : Pos) (c : Core) : (s.retire p c).regs = s.regs := rfl
@[simp] theorem State.retire_guards (p : Pos) (c : Core) : (s.retire p c).guards = s.guards := rfl
@[simp] theorem State.retire_posted (p : Pos) (c : Core) : (s.retire p c).posted = s.posted := rfl
@[simp] theorem State.retire_fresh (p : Pos) (c : Core) : (s.retire p c).fresh = s.fresh := rfl
@[simp] theorem State.retire_events (p : Pos) (c : Core) : (s.retire p c).events = s.events := rfl
@[simp] theorem State.retire_out (p : Pos) (c : Core) : (s.retire p c).out = s.out := rfl
@[simp] theorem State.retire_pending (p : Pos) (c : Core) : (s.retire p c).pending = s.pending := rfl
@[simp] theorem State.skipCore_pins (p : Pos) : (s.skipCore p).pins = s.pins := rfl
@[simp] theorem State.skipCore_boot (p : Pos) : (s.skipCore p).boot = s.boot := rfl
@[simp] theorem State.skipCore_store (p : Pos) : (s.skipCore p).store = s.store := rfl
@[simp] theorem State.skipCore_failedRegs (p : Pos) : (s.skipCore p).failedRegs = s.failedRegs := rfl
@[simp] theorem State.skipCore_fuses (p : Pos) : (s.skipCore p).fuses = s.fuses := rfl
@[simp] theorem State.skipCore_xroads (p : Pos) : (s.skipCore p).xroads = s.xroads := rfl
@[simp] theorem State.skipCore_parishes (p : Pos) : (s.skipCore p).parishes = s.parishes := rfl
@[simp] theorem State.skipCore_allots (p : Pos) : (s.skipCore p).allots = s.allots := rfl
@[simp] theorem State.skipCore_bell (p : Pos) : (s.skipCore p).bell = s.bell := rfl
@[simp] theorem State.skipCore_hub (p : Pos) : (s.skipCore p).hub = s.hub := rfl
@[simp] theorem State.skipCore_hubWait (p : Pos) : (s.skipCore p).hubWait = s.hubWait := rfl
@[simp] theorem State.skipCore_tallyOps (p : Pos) : (s.skipCore p).tallyOps = s.tallyOps := rfl
@[simp] theorem State.skipCore_crierSeq (p : Pos) : (s.skipCore p).crierSeq = s.crierSeq := rfl
@[simp] theorem State.skipCore_reqs (p : Pos) : (s.skipCore p).reqs = s.reqs := rfl
@[simp] theorem State.skipCore_nextReq (p : Pos) : (s.skipCore p).nextReq = s.nextReq := rfl
@[simp] theorem State.skipCore_mem (p : Pos) : (s.skipCore p).mem = s.mem := rfl
@[simp] theorem State.skipCore_memInit (p : Pos) : (s.skipCore p).memInit = s.memInit := rfl
@[simp] theorem State.skipCore_memPoison (p : Pos) : (s.skipCore p).memPoison = s.memPoison := rfl
@[simp] theorem State.skipCore_memFills (p : Pos) : (s.skipCore p).memFills = s.memFills := rfl
@[simp] theorem State.skipCore_memUe (p : Pos) : (s.skipCore p).memUe = s.memUe := rfl
@[simp] theorem State.skipCore_memCe (p : Pos) : (s.skipCore p).memCe = s.memCe := rfl
@[simp] theorem State.skipCore_mcs (p : Pos) : (s.skipCore p).mcs = s.mcs := rfl
@[simp] theorem State.skipCore_clk (p : Pos) : (s.skipCore p).clk = s.clk := rfl
@[simp] theorem State.skipCore_ports (p : Pos) : (s.skipCore p).ports = s.ports := rfl
@[simp] theorem State.skipCore_routes (p : Pos) : (s.skipCore p).routes = s.routes := rfl
@[simp] theorem State.skipCore_reds (p : Pos) : (s.skipCore p).reds = s.reds := rfl
@[simp] theorem State.skipCore_rxs (p : Pos) : (s.skipCore p).rxs = s.rxs := rfl
@[simp] theorem State.skipCore_fabWait (p : Pos) : (s.skipCore p).fabWait = s.fabWait := rfl
@[simp] theorem State.skipCore_fabLocal (p : Pos) : (s.skipCore p).fabLocal = s.fabLocal := rfl
@[simp] theorem State.skipCore_crierHeld (p : Pos) : (s.skipCore p).crierHeld = s.crierHeld := rfl
@[simp] theorem State.skipCore_routeBusy (p : Pos) : (s.skipCore p).routeBusy = s.routeBusy := rfl
@[simp] theorem State.skipCore_ses (p : Pos) : (s.skipCore p).ses = s.ses := rfl
@[simp] theorem State.skipCore_qps (p : Pos) : (s.skipCore p).qps = s.qps := rfl
@[simp] theorem State.skipCore_ledger (p : Pos) : (s.skipCore p).ledger = s.ledger := rfl
@[simp] theorem State.skipCore_tod (p : Pos) : (s.skipCore p).tod = s.tod := rfl
@[simp] theorem State.skipCore_hps (p : Pos) : (s.skipCore p).hps = s.hps := rfl
@[simp] theorem State.skipCore_reeve (p : Pos) : (s.skipCore p).reeve = s.reeve := rfl
@[simp] theorem State.skipCore_guests (p : Pos) : (s.skipCore p).guests = s.guests := rfl
@[simp] theorem State.skipCore_guestReqs (p : Pos) : (s.skipCore p).guestReqs = s.guestReqs := rfl
@[simp] theorem State.skipCore_spdmVer (p : Pos) : (s.skipCore p).spdmVer = s.spdmVer := rfl
@[simp] theorem State.skipCore_spdmAlgo (p : Pos) : (s.skipCore p).spdmAlgo = s.spdmAlgo := rfl
@[simp] theorem State.skipCore_ras (p : Pos) : (s.skipCore p).ras = s.ras := rfl
@[simp] theorem State.skipCore_unreadBoard (p : Pos) : (s.skipCore p).unreadBoard = s.unreadBoard := rfl
@[simp] theorem State.skipCore_regs (p : Pos) : (s.skipCore p).regs = s.regs := rfl
@[simp] theorem State.skipCore_guards (p : Pos) : (s.skipCore p).guards = s.guards := rfl
@[simp] theorem State.skipCore_posted (p : Pos) : (s.skipCore p).posted = s.posted := rfl
@[simp] theorem State.skipCore_fresh (p : Pos) : (s.skipCore p).fresh = s.fresh := rfl
@[simp] theorem State.skipCore_events (p : Pos) : (s.skipCore p).events = s.events := rfl
@[simp] theorem State.skipCore_out (p : Pos) : (s.skipCore p).out = s.out := rfl
@[simp] theorem State.skipCore_pending (p : Pos) : (s.skipCore p).pending = s.pending := rfl
@[simp] theorem State.setXroad_pins (p : Pos) (x : Xroad) : (s.setXroad p x).pins = s.pins := rfl
@[simp] theorem State.setXroad_boot (p : Pos) (x : Xroad) : (s.setXroad p x).boot = s.boot := rfl
@[simp] theorem State.setXroad_store (p : Pos) (x : Xroad) : (s.setXroad p x).store = s.store := rfl
@[simp] theorem State.setXroad_failedRegs (p : Pos) (x : Xroad) : (s.setXroad p x).failedRegs = s.failedRegs := rfl
@[simp] theorem State.setXroad_fuses (p : Pos) (x : Xroad) : (s.setXroad p x).fuses = s.fuses := rfl
@[simp] theorem State.setXroad_cores (p : Pos) (x : Xroad) : (s.setXroad p x).cores = s.cores := rfl
@[simp] theorem State.setXroad_parishes (p : Pos) (x : Xroad) : (s.setXroad p x).parishes = s.parishes := rfl
@[simp] theorem State.setXroad_allots (p : Pos) (x : Xroad) : (s.setXroad p x).allots = s.allots := rfl
@[simp] theorem State.setXroad_bell (p : Pos) (x : Xroad) : (s.setXroad p x).bell = s.bell := rfl
@[simp] theorem State.setXroad_hub (p : Pos) (x : Xroad) : (s.setXroad p x).hub = s.hub := rfl
@[simp] theorem State.setXroad_hubWait (p : Pos) (x : Xroad) : (s.setXroad p x).hubWait = s.hubWait := rfl
@[simp] theorem State.setXroad_tallyOps (p : Pos) (x : Xroad) : (s.setXroad p x).tallyOps = s.tallyOps := rfl
@[simp] theorem State.setXroad_crierSeq (p : Pos) (x : Xroad) : (s.setXroad p x).crierSeq = s.crierSeq := rfl
@[simp] theorem State.setXroad_stirred (p : Pos) (x : Xroad) : (s.setXroad p x).stirred = s.stirred := rfl
@[simp] theorem State.setXroad_reqs (p : Pos) (x : Xroad) : (s.setXroad p x).reqs = s.reqs := rfl
@[simp] theorem State.setXroad_nextReq (p : Pos) (x : Xroad) : (s.setXroad p x).nextReq = s.nextReq := rfl
@[simp] theorem State.setXroad_mem (p : Pos) (x : Xroad) : (s.setXroad p x).mem = s.mem := rfl
@[simp] theorem State.setXroad_memInit (p : Pos) (x : Xroad) : (s.setXroad p x).memInit = s.memInit := rfl
@[simp] theorem State.setXroad_memPoison (p : Pos) (x : Xroad) : (s.setXroad p x).memPoison = s.memPoison := rfl
@[simp] theorem State.setXroad_memFills (p : Pos) (x : Xroad) : (s.setXroad p x).memFills = s.memFills := rfl
@[simp] theorem State.setXroad_memUe (p : Pos) (x : Xroad) : (s.setXroad p x).memUe = s.memUe := rfl
@[simp] theorem State.setXroad_memCe (p : Pos) (x : Xroad) : (s.setXroad p x).memCe = s.memCe := rfl
@[simp] theorem State.setXroad_mcs (p : Pos) (x : Xroad) : (s.setXroad p x).mcs = s.mcs := rfl
@[simp] theorem State.setXroad_clk (p : Pos) (x : Xroad) : (s.setXroad p x).clk = s.clk := rfl
@[simp] theorem State.setXroad_ports (p : Pos) (x : Xroad) : (s.setXroad p x).ports = s.ports := rfl
@[simp] theorem State.setXroad_routes (p : Pos) (x : Xroad) : (s.setXroad p x).routes = s.routes := rfl
@[simp] theorem State.setXroad_reds (p : Pos) (x : Xroad) : (s.setXroad p x).reds = s.reds := rfl
@[simp] theorem State.setXroad_rxs (p : Pos) (x : Xroad) : (s.setXroad p x).rxs = s.rxs := rfl
@[simp] theorem State.setXroad_fabWait (p : Pos) (x : Xroad) : (s.setXroad p x).fabWait = s.fabWait := rfl
@[simp] theorem State.setXroad_fabLocal (p : Pos) (x : Xroad) : (s.setXroad p x).fabLocal = s.fabLocal := rfl
@[simp] theorem State.setXroad_crierHeld (p : Pos) (x : Xroad) : (s.setXroad p x).crierHeld = s.crierHeld := rfl
@[simp] theorem State.setXroad_routeBusy (p : Pos) (x : Xroad) : (s.setXroad p x).routeBusy = s.routeBusy := rfl
@[simp] theorem State.setXroad_ses (p : Pos) (x : Xroad) : (s.setXroad p x).ses = s.ses := rfl
@[simp] theorem State.setXroad_qps (p : Pos) (x : Xroad) : (s.setXroad p x).qps = s.qps := rfl
@[simp] theorem State.setXroad_ledger (p : Pos) (x : Xroad) : (s.setXroad p x).ledger = s.ledger := rfl
@[simp] theorem State.setXroad_tod (p : Pos) (x : Xroad) : (s.setXroad p x).tod = s.tod := rfl
@[simp] theorem State.setXroad_hps (p : Pos) (x : Xroad) : (s.setXroad p x).hps = s.hps := rfl
@[simp] theorem State.setXroad_reeve (p : Pos) (x : Xroad) : (s.setXroad p x).reeve = s.reeve := rfl
@[simp] theorem State.setXroad_guests (p : Pos) (x : Xroad) : (s.setXroad p x).guests = s.guests := rfl
@[simp] theorem State.setXroad_guestReqs (p : Pos) (x : Xroad) : (s.setXroad p x).guestReqs = s.guestReqs := rfl
@[simp] theorem State.setXroad_spdmVer (p : Pos) (x : Xroad) : (s.setXroad p x).spdmVer = s.spdmVer := rfl
@[simp] theorem State.setXroad_spdmAlgo (p : Pos) (x : Xroad) : (s.setXroad p x).spdmAlgo = s.spdmAlgo := rfl
@[simp] theorem State.setXroad_ras (p : Pos) (x : Xroad) : (s.setXroad p x).ras = s.ras := rfl
@[simp] theorem State.setXroad_unreadBoard (p : Pos) (x : Xroad) : (s.setXroad p x).unreadBoard = s.unreadBoard := rfl
@[simp] theorem State.setXroad_regs (p : Pos) (x : Xroad) : (s.setXroad p x).regs = s.regs := rfl
@[simp] theorem State.setXroad_guards (p : Pos) (x : Xroad) : (s.setXroad p x).guards = s.guards := rfl
@[simp] theorem State.setXroad_posted (p : Pos) (x : Xroad) : (s.setXroad p x).posted = s.posted := rfl
@[simp] theorem State.setXroad_fresh (p : Pos) (x : Xroad) : (s.setXroad p x).fresh = s.fresh := rfl
@[simp] theorem State.setXroad_events (p : Pos) (x : Xroad) : (s.setXroad p x).events = s.events := rfl
@[simp] theorem State.setXroad_out (p : Pos) (x : Xroad) : (s.setXroad p x).out = s.out := rfl
@[simp] theorem State.setXroad_pending (p : Pos) (x : Xroad) : (s.setXroad p x).pending = s.pending := rfl
@[simp] theorem State.setParish_pins (p : Nat) (x : Parish) : (s.setParish p x).pins = s.pins := rfl
@[simp] theorem State.setParish_boot (p : Nat) (x : Parish) : (s.setParish p x).boot = s.boot := rfl
@[simp] theorem State.setParish_store (p : Nat) (x : Parish) : (s.setParish p x).store = s.store := rfl
@[simp] theorem State.setParish_failedRegs (p : Nat) (x : Parish) : (s.setParish p x).failedRegs = s.failedRegs := rfl
@[simp] theorem State.setParish_fuses (p : Nat) (x : Parish) : (s.setParish p x).fuses = s.fuses := rfl
@[simp] theorem State.setParish_cores (p : Nat) (x : Parish) : (s.setParish p x).cores = s.cores := rfl
@[simp] theorem State.setParish_xroads (p : Nat) (x : Parish) : (s.setParish p x).xroads = s.xroads := rfl
@[simp] theorem State.setParish_allots (p : Nat) (x : Parish) : (s.setParish p x).allots = s.allots := rfl
@[simp] theorem State.setParish_bell (p : Nat) (x : Parish) : (s.setParish p x).bell = s.bell := rfl
@[simp] theorem State.setParish_hub (p : Nat) (x : Parish) : (s.setParish p x).hub = s.hub := rfl
@[simp] theorem State.setParish_hubWait (p : Nat) (x : Parish) : (s.setParish p x).hubWait = s.hubWait := rfl
@[simp] theorem State.setParish_tallyOps (p : Nat) (x : Parish) : (s.setParish p x).tallyOps = s.tallyOps := rfl
@[simp] theorem State.setParish_crierSeq (p : Nat) (x : Parish) : (s.setParish p x).crierSeq = s.crierSeq := rfl
@[simp] theorem State.setParish_stirred (p : Nat) (x : Parish) : (s.setParish p x).stirred = s.stirred := rfl
@[simp] theorem State.setParish_reqs (p : Nat) (x : Parish) : (s.setParish p x).reqs = s.reqs := rfl
@[simp] theorem State.setParish_nextReq (p : Nat) (x : Parish) : (s.setParish p x).nextReq = s.nextReq := rfl
@[simp] theorem State.setParish_mem (p : Nat) (x : Parish) : (s.setParish p x).mem = s.mem := rfl
@[simp] theorem State.setParish_memInit (p : Nat) (x : Parish) : (s.setParish p x).memInit = s.memInit := rfl
@[simp] theorem State.setParish_memPoison (p : Nat) (x : Parish) : (s.setParish p x).memPoison = s.memPoison := rfl
@[simp] theorem State.setParish_memFills (p : Nat) (x : Parish) : (s.setParish p x).memFills = s.memFills := rfl
@[simp] theorem State.setParish_memUe (p : Nat) (x : Parish) : (s.setParish p x).memUe = s.memUe := rfl
@[simp] theorem State.setParish_memCe (p : Nat) (x : Parish) : (s.setParish p x).memCe = s.memCe := rfl
@[simp] theorem State.setParish_mcs (p : Nat) (x : Parish) : (s.setParish p x).mcs = s.mcs := rfl
@[simp] theorem State.setParish_clk (p : Nat) (x : Parish) : (s.setParish p x).clk = s.clk := rfl
@[simp] theorem State.setParish_ports (p : Nat) (x : Parish) : (s.setParish p x).ports = s.ports := rfl
@[simp] theorem State.setParish_routes (p : Nat) (x : Parish) : (s.setParish p x).routes = s.routes := rfl
@[simp] theorem State.setParish_reds (p : Nat) (x : Parish) : (s.setParish p x).reds = s.reds := rfl
@[simp] theorem State.setParish_rxs (p : Nat) (x : Parish) : (s.setParish p x).rxs = s.rxs := rfl
@[simp] theorem State.setParish_fabWait (p : Nat) (x : Parish) : (s.setParish p x).fabWait = s.fabWait := rfl
@[simp] theorem State.setParish_fabLocal (p : Nat) (x : Parish) : (s.setParish p x).fabLocal = s.fabLocal := rfl
@[simp] theorem State.setParish_crierHeld (p : Nat) (x : Parish) : (s.setParish p x).crierHeld = s.crierHeld := rfl
@[simp] theorem State.setParish_routeBusy (p : Nat) (x : Parish) : (s.setParish p x).routeBusy = s.routeBusy := rfl
@[simp] theorem State.setParish_ses (p : Nat) (x : Parish) : (s.setParish p x).ses = s.ses := rfl
@[simp] theorem State.setParish_qps (p : Nat) (x : Parish) : (s.setParish p x).qps = s.qps := rfl
@[simp] theorem State.setParish_ledger (p : Nat) (x : Parish) : (s.setParish p x).ledger = s.ledger := rfl
@[simp] theorem State.setParish_tod (p : Nat) (x : Parish) : (s.setParish p x).tod = s.tod := rfl
@[simp] theorem State.setParish_hps (p : Nat) (x : Parish) : (s.setParish p x).hps = s.hps := rfl
@[simp] theorem State.setParish_reeve (p : Nat) (x : Parish) : (s.setParish p x).reeve = s.reeve := rfl
@[simp] theorem State.setParish_guests (p : Nat) (x : Parish) : (s.setParish p x).guests = s.guests := rfl
@[simp] theorem State.setParish_guestReqs (p : Nat) (x : Parish) : (s.setParish p x).guestReqs = s.guestReqs := rfl
@[simp] theorem State.setParish_spdmVer (p : Nat) (x : Parish) : (s.setParish p x).spdmVer = s.spdmVer := rfl
@[simp] theorem State.setParish_spdmAlgo (p : Nat) (x : Parish) : (s.setParish p x).spdmAlgo = s.spdmAlgo := rfl
@[simp] theorem State.setParish_ras (p : Nat) (x : Parish) : (s.setParish p x).ras = s.ras := rfl
@[simp] theorem State.setParish_unreadBoard (p : Nat) (x : Parish) : (s.setParish p x).unreadBoard = s.unreadBoard := rfl
@[simp] theorem State.setParish_regs (p : Nat) (x : Parish) : (s.setParish p x).regs = s.regs := rfl
@[simp] theorem State.setParish_guards (p : Nat) (x : Parish) : (s.setParish p x).guards = s.guards := rfl
@[simp] theorem State.setParish_posted (p : Nat) (x : Parish) : (s.setParish p x).posted = s.posted := rfl
@[simp] theorem State.setParish_fresh (p : Nat) (x : Parish) : (s.setParish p x).fresh = s.fresh := rfl
@[simp] theorem State.setParish_events (p : Nat) (x : Parish) : (s.setParish p x).events = s.events := rfl
@[simp] theorem State.setParish_out (p : Nat) (x : Parish) : (s.setParish p x).out = s.out := rfl
@[simp] theorem State.setParish_pending (p : Nat) (x : Parish) : (s.setParish p x).pending = s.pending := rfl
@[simp] theorem State.updParish_pins (p : Nat) (f : Parish → Parish) : (s.updParish p f).pins = s.pins := rfl
@[simp] theorem State.updParish_boot (p : Nat) (f : Parish → Parish) : (s.updParish p f).boot = s.boot := rfl
@[simp] theorem State.updParish_store (p : Nat) (f : Parish → Parish) : (s.updParish p f).store = s.store := rfl
@[simp] theorem State.updParish_failedRegs (p : Nat) (f : Parish → Parish) : (s.updParish p f).failedRegs = s.failedRegs := rfl
@[simp] theorem State.updParish_fuses (p : Nat) (f : Parish → Parish) : (s.updParish p f).fuses = s.fuses := rfl
@[simp] theorem State.updParish_cores (p : Nat) (f : Parish → Parish) : (s.updParish p f).cores = s.cores := rfl
@[simp] theorem State.updParish_xroads (p : Nat) (f : Parish → Parish) : (s.updParish p f).xroads = s.xroads := rfl
@[simp] theorem State.updParish_allots (p : Nat) (f : Parish → Parish) : (s.updParish p f).allots = s.allots := rfl
@[simp] theorem State.updParish_bell (p : Nat) (f : Parish → Parish) : (s.updParish p f).bell = s.bell := rfl
@[simp] theorem State.updParish_hub (p : Nat) (f : Parish → Parish) : (s.updParish p f).hub = s.hub := rfl
@[simp] theorem State.updParish_hubWait (p : Nat) (f : Parish → Parish) : (s.updParish p f).hubWait = s.hubWait := rfl
@[simp] theorem State.updParish_tallyOps (p : Nat) (f : Parish → Parish) : (s.updParish p f).tallyOps = s.tallyOps := rfl
@[simp] theorem State.updParish_crierSeq (p : Nat) (f : Parish → Parish) : (s.updParish p f).crierSeq = s.crierSeq := rfl
@[simp] theorem State.updParish_stirred (p : Nat) (f : Parish → Parish) : (s.updParish p f).stirred = s.stirred := rfl
@[simp] theorem State.updParish_reqs (p : Nat) (f : Parish → Parish) : (s.updParish p f).reqs = s.reqs := rfl
@[simp] theorem State.updParish_nextReq (p : Nat) (f : Parish → Parish) : (s.updParish p f).nextReq = s.nextReq := rfl
@[simp] theorem State.updParish_mem (p : Nat) (f : Parish → Parish) : (s.updParish p f).mem = s.mem := rfl
@[simp] theorem State.updParish_memInit (p : Nat) (f : Parish → Parish) : (s.updParish p f).memInit = s.memInit := rfl
@[simp] theorem State.updParish_memPoison (p : Nat) (f : Parish → Parish) : (s.updParish p f).memPoison = s.memPoison := rfl
@[simp] theorem State.updParish_memFills (p : Nat) (f : Parish → Parish) : (s.updParish p f).memFills = s.memFills := rfl
@[simp] theorem State.updParish_memUe (p : Nat) (f : Parish → Parish) : (s.updParish p f).memUe = s.memUe := rfl
@[simp] theorem State.updParish_memCe (p : Nat) (f : Parish → Parish) : (s.updParish p f).memCe = s.memCe := rfl
@[simp] theorem State.updParish_mcs (p : Nat) (f : Parish → Parish) : (s.updParish p f).mcs = s.mcs := rfl
@[simp] theorem State.updParish_clk (p : Nat) (f : Parish → Parish) : (s.updParish p f).clk = s.clk := rfl
@[simp] theorem State.updParish_ports (p : Nat) (f : Parish → Parish) : (s.updParish p f).ports = s.ports := rfl
@[simp] theorem State.updParish_routes (p : Nat) (f : Parish → Parish) : (s.updParish p f).routes = s.routes := rfl
@[simp] theorem State.updParish_reds (p : Nat) (f : Parish → Parish) : (s.updParish p f).reds = s.reds := rfl
@[simp] theorem State.updParish_rxs (p : Nat) (f : Parish → Parish) : (s.updParish p f).rxs = s.rxs := rfl
@[simp] theorem State.updParish_fabWait (p : Nat) (f : Parish → Parish) : (s.updParish p f).fabWait = s.fabWait := rfl
@[simp] theorem State.updParish_fabLocal (p : Nat) (f : Parish → Parish) : (s.updParish p f).fabLocal = s.fabLocal := rfl
@[simp] theorem State.updParish_crierHeld (p : Nat) (f : Parish → Parish) : (s.updParish p f).crierHeld = s.crierHeld := rfl
@[simp] theorem State.updParish_routeBusy (p : Nat) (f : Parish → Parish) : (s.updParish p f).routeBusy = s.routeBusy := rfl
@[simp] theorem State.updParish_ses (p : Nat) (f : Parish → Parish) : (s.updParish p f).ses = s.ses := rfl
@[simp] theorem State.updParish_qps (p : Nat) (f : Parish → Parish) : (s.updParish p f).qps = s.qps := rfl
@[simp] theorem State.updParish_ledger (p : Nat) (f : Parish → Parish) : (s.updParish p f).ledger = s.ledger := rfl
@[simp] theorem State.updParish_tod (p : Nat) (f : Parish → Parish) : (s.updParish p f).tod = s.tod := rfl
@[simp] theorem State.updParish_hps (p : Nat) (f : Parish → Parish) : (s.updParish p f).hps = s.hps := rfl
@[simp] theorem State.updParish_reeve (p : Nat) (f : Parish → Parish) : (s.updParish p f).reeve = s.reeve := rfl
@[simp] theorem State.updParish_guests (p : Nat) (f : Parish → Parish) : (s.updParish p f).guests = s.guests := rfl
@[simp] theorem State.updParish_guestReqs (p : Nat) (f : Parish → Parish) : (s.updParish p f).guestReqs = s.guestReqs := rfl
@[simp] theorem State.updParish_spdmVer (p : Nat) (f : Parish → Parish) : (s.updParish p f).spdmVer = s.spdmVer := rfl
@[simp] theorem State.updParish_spdmAlgo (p : Nat) (f : Parish → Parish) : (s.updParish p f).spdmAlgo = s.spdmAlgo := rfl
@[simp] theorem State.updParish_ras (p : Nat) (f : Parish → Parish) : (s.updParish p f).ras = s.ras := rfl
@[simp] theorem State.updParish_unreadBoard (p : Nat) (f : Parish → Parish) : (s.updParish p f).unreadBoard = s.unreadBoard := rfl
@[simp] theorem State.updParish_regs (p : Nat) (f : Parish → Parish) : (s.updParish p f).regs = s.regs := rfl
@[simp] theorem State.updParish_guards (p : Nat) (f : Parish → Parish) : (s.updParish p f).guards = s.guards := rfl
@[simp] theorem State.updParish_posted (p : Nat) (f : Parish → Parish) : (s.updParish p f).posted = s.posted := rfl
@[simp] theorem State.updParish_fresh (p : Nat) (f : Parish → Parish) : (s.updParish p f).fresh = s.fresh := rfl
@[simp] theorem State.updParish_events (p : Nat) (f : Parish → Parish) : (s.updParish p f).events = s.events := rfl
@[simp] theorem State.updParish_out (p : Nat) (f : Parish → Parish) : (s.updParish p f).out = s.out := rfl
@[simp] theorem State.updParish_pending (p : Nat) (f : Parish → Parish) : (s.updParish p f).pending = s.pending := rfl
@[simp] theorem State.setAllot_pins (a : Nat) (x : Allot) : (s.setAllot a x).pins = s.pins := rfl
@[simp] theorem State.setAllot_boot (a : Nat) (x : Allot) : (s.setAllot a x).boot = s.boot := rfl
@[simp] theorem State.setAllot_store (a : Nat) (x : Allot) : (s.setAllot a x).store = s.store := rfl
@[simp] theorem State.setAllot_failedRegs (a : Nat) (x : Allot) : (s.setAllot a x).failedRegs = s.failedRegs := rfl
@[simp] theorem State.setAllot_fuses (a : Nat) (x : Allot) : (s.setAllot a x).fuses = s.fuses := rfl
@[simp] theorem State.setAllot_cores (a : Nat) (x : Allot) : (s.setAllot a x).cores = s.cores := rfl
@[simp] theorem State.setAllot_xroads (a : Nat) (x : Allot) : (s.setAllot a x).xroads = s.xroads := rfl
@[simp] theorem State.setAllot_parishes (a : Nat) (x : Allot) : (s.setAllot a x).parishes = s.parishes := rfl
@[simp] theorem State.setAllot_bell (a : Nat) (x : Allot) : (s.setAllot a x).bell = s.bell := rfl
@[simp] theorem State.setAllot_hub (a : Nat) (x : Allot) : (s.setAllot a x).hub = s.hub := rfl
@[simp] theorem State.setAllot_hubWait (a : Nat) (x : Allot) : (s.setAllot a x).hubWait = s.hubWait := rfl
@[simp] theorem State.setAllot_tallyOps (a : Nat) (x : Allot) : (s.setAllot a x).tallyOps = s.tallyOps := rfl
@[simp] theorem State.setAllot_crierSeq (a : Nat) (x : Allot) : (s.setAllot a x).crierSeq = s.crierSeq := rfl
@[simp] theorem State.setAllot_stirred (a : Nat) (x : Allot) : (s.setAllot a x).stirred = s.stirred := rfl
@[simp] theorem State.setAllot_reqs (a : Nat) (x : Allot) : (s.setAllot a x).reqs = s.reqs := rfl
@[simp] theorem State.setAllot_nextReq (a : Nat) (x : Allot) : (s.setAllot a x).nextReq = s.nextReq := rfl
@[simp] theorem State.setAllot_mem (a : Nat) (x : Allot) : (s.setAllot a x).mem = s.mem := rfl
@[simp] theorem State.setAllot_memInit (a : Nat) (x : Allot) : (s.setAllot a x).memInit = s.memInit := rfl
@[simp] theorem State.setAllot_memPoison (a : Nat) (x : Allot) : (s.setAllot a x).memPoison = s.memPoison := rfl
@[simp] theorem State.setAllot_memFills (a : Nat) (x : Allot) : (s.setAllot a x).memFills = s.memFills := rfl
@[simp] theorem State.setAllot_memUe (a : Nat) (x : Allot) : (s.setAllot a x).memUe = s.memUe := rfl
@[simp] theorem State.setAllot_memCe (a : Nat) (x : Allot) : (s.setAllot a x).memCe = s.memCe := rfl
@[simp] theorem State.setAllot_mcs (a : Nat) (x : Allot) : (s.setAllot a x).mcs = s.mcs := rfl
@[simp] theorem State.setAllot_clk (a : Nat) (x : Allot) : (s.setAllot a x).clk = s.clk := rfl
@[simp] theorem State.setAllot_ports (a : Nat) (x : Allot) : (s.setAllot a x).ports = s.ports := rfl
@[simp] theorem State.setAllot_routes (a : Nat) (x : Allot) : (s.setAllot a x).routes = s.routes := rfl
@[simp] theorem State.setAllot_reds (a : Nat) (x : Allot) : (s.setAllot a x).reds = s.reds := rfl
@[simp] theorem State.setAllot_rxs (a : Nat) (x : Allot) : (s.setAllot a x).rxs = s.rxs := rfl
@[simp] theorem State.setAllot_fabWait (a : Nat) (x : Allot) : (s.setAllot a x).fabWait = s.fabWait := rfl
@[simp] theorem State.setAllot_fabLocal (a : Nat) (x : Allot) : (s.setAllot a x).fabLocal = s.fabLocal := rfl
@[simp] theorem State.setAllot_crierHeld (a : Nat) (x : Allot) : (s.setAllot a x).crierHeld = s.crierHeld := rfl
@[simp] theorem State.setAllot_routeBusy (a : Nat) (x : Allot) : (s.setAllot a x).routeBusy = s.routeBusy := rfl
@[simp] theorem State.setAllot_ses (a : Nat) (x : Allot) : (s.setAllot a x).ses = s.ses := rfl
@[simp] theorem State.setAllot_qps (a : Nat) (x : Allot) : (s.setAllot a x).qps = s.qps := rfl
@[simp] theorem State.setAllot_ledger (a : Nat) (x : Allot) : (s.setAllot a x).ledger = s.ledger := rfl
@[simp] theorem State.setAllot_tod (a : Nat) (x : Allot) : (s.setAllot a x).tod = s.tod := rfl
@[simp] theorem State.setAllot_hps (a : Nat) (x : Allot) : (s.setAllot a x).hps = s.hps := rfl
@[simp] theorem State.setAllot_reeve (a : Nat) (x : Allot) : (s.setAllot a x).reeve = s.reeve := rfl
@[simp] theorem State.setAllot_guests (a : Nat) (x : Allot) : (s.setAllot a x).guests = s.guests := rfl
@[simp] theorem State.setAllot_guestReqs (a : Nat) (x : Allot) : (s.setAllot a x).guestReqs = s.guestReqs := rfl
@[simp] theorem State.setAllot_spdmVer (a : Nat) (x : Allot) : (s.setAllot a x).spdmVer = s.spdmVer := rfl
@[simp] theorem State.setAllot_spdmAlgo (a : Nat) (x : Allot) : (s.setAllot a x).spdmAlgo = s.spdmAlgo := rfl
@[simp] theorem State.setAllot_ras (a : Nat) (x : Allot) : (s.setAllot a x).ras = s.ras := rfl
@[simp] theorem State.setAllot_unreadBoard (a : Nat) (x : Allot) : (s.setAllot a x).unreadBoard = s.unreadBoard := rfl
@[simp] theorem State.setAllot_regs (a : Nat) (x : Allot) : (s.setAllot a x).regs = s.regs := rfl
@[simp] theorem State.setAllot_guards (a : Nat) (x : Allot) : (s.setAllot a x).guards = s.guards := rfl
@[simp] theorem State.setAllot_posted (a : Nat) (x : Allot) : (s.setAllot a x).posted = s.posted := rfl
@[simp] theorem State.setAllot_fresh (a : Nat) (x : Allot) : (s.setAllot a x).fresh = s.fresh := rfl
@[simp] theorem State.setAllot_events (a : Nat) (x : Allot) : (s.setAllot a x).events = s.events := rfl
@[simp] theorem State.setAllot_out (a : Nat) (x : Allot) : (s.setAllot a x).out = s.out := rfl
@[simp] theorem State.setAllot_pending (a : Nat) (x : Allot) : (s.setAllot a x).pending = s.pending := rfl
@[simp] theorem State.updAllot_pins (a : Nat) (f : Allot → Allot) : (s.updAllot a f).pins = s.pins := rfl
@[simp] theorem State.updAllot_boot (a : Nat) (f : Allot → Allot) : (s.updAllot a f).boot = s.boot := rfl
@[simp] theorem State.updAllot_store (a : Nat) (f : Allot → Allot) : (s.updAllot a f).store = s.store := rfl
@[simp] theorem State.updAllot_failedRegs (a : Nat) (f : Allot → Allot) : (s.updAllot a f).failedRegs = s.failedRegs := rfl
@[simp] theorem State.updAllot_fuses (a : Nat) (f : Allot → Allot) : (s.updAllot a f).fuses = s.fuses := rfl
@[simp] theorem State.updAllot_cores (a : Nat) (f : Allot → Allot) : (s.updAllot a f).cores = s.cores := rfl
@[simp] theorem State.updAllot_xroads (a : Nat) (f : Allot → Allot) : (s.updAllot a f).xroads = s.xroads := rfl
@[simp] theorem State.updAllot_parishes (a : Nat) (f : Allot → Allot) : (s.updAllot a f).parishes = s.parishes := rfl
@[simp] theorem State.updAllot_bell (a : Nat) (f : Allot → Allot) : (s.updAllot a f).bell = s.bell := rfl
@[simp] theorem State.updAllot_hub (a : Nat) (f : Allot → Allot) : (s.updAllot a f).hub = s.hub := rfl
@[simp] theorem State.updAllot_hubWait (a : Nat) (f : Allot → Allot) : (s.updAllot a f).hubWait = s.hubWait := rfl
@[simp] theorem State.updAllot_tallyOps (a : Nat) (f : Allot → Allot) : (s.updAllot a f).tallyOps = s.tallyOps := rfl
@[simp] theorem State.updAllot_crierSeq (a : Nat) (f : Allot → Allot) : (s.updAllot a f).crierSeq = s.crierSeq := rfl
@[simp] theorem State.updAllot_stirred (a : Nat) (f : Allot → Allot) : (s.updAllot a f).stirred = s.stirred := rfl
@[simp] theorem State.updAllot_reqs (a : Nat) (f : Allot → Allot) : (s.updAllot a f).reqs = s.reqs := rfl
@[simp] theorem State.updAllot_nextReq (a : Nat) (f : Allot → Allot) : (s.updAllot a f).nextReq = s.nextReq := rfl
@[simp] theorem State.updAllot_mem (a : Nat) (f : Allot → Allot) : (s.updAllot a f).mem = s.mem := rfl
@[simp] theorem State.updAllot_memInit (a : Nat) (f : Allot → Allot) : (s.updAllot a f).memInit = s.memInit := rfl
@[simp] theorem State.updAllot_memPoison (a : Nat) (f : Allot → Allot) : (s.updAllot a f).memPoison = s.memPoison := rfl
@[simp] theorem State.updAllot_memFills (a : Nat) (f : Allot → Allot) : (s.updAllot a f).memFills = s.memFills := rfl
@[simp] theorem State.updAllot_memUe (a : Nat) (f : Allot → Allot) : (s.updAllot a f).memUe = s.memUe := rfl
@[simp] theorem State.updAllot_memCe (a : Nat) (f : Allot → Allot) : (s.updAllot a f).memCe = s.memCe := rfl
@[simp] theorem State.updAllot_mcs (a : Nat) (f : Allot → Allot) : (s.updAllot a f).mcs = s.mcs := rfl
@[simp] theorem State.updAllot_clk (a : Nat) (f : Allot → Allot) : (s.updAllot a f).clk = s.clk := rfl
@[simp] theorem State.updAllot_ports (a : Nat) (f : Allot → Allot) : (s.updAllot a f).ports = s.ports := rfl
@[simp] theorem State.updAllot_routes (a : Nat) (f : Allot → Allot) : (s.updAllot a f).routes = s.routes := rfl
@[simp] theorem State.updAllot_reds (a : Nat) (f : Allot → Allot) : (s.updAllot a f).reds = s.reds := rfl
@[simp] theorem State.updAllot_rxs (a : Nat) (f : Allot → Allot) : (s.updAllot a f).rxs = s.rxs := rfl
@[simp] theorem State.updAllot_fabWait (a : Nat) (f : Allot → Allot) : (s.updAllot a f).fabWait = s.fabWait := rfl
@[simp] theorem State.updAllot_fabLocal (a : Nat) (f : Allot → Allot) : (s.updAllot a f).fabLocal = s.fabLocal := rfl
@[simp] theorem State.updAllot_crierHeld (a : Nat) (f : Allot → Allot) : (s.updAllot a f).crierHeld = s.crierHeld := rfl
@[simp] theorem State.updAllot_routeBusy (a : Nat) (f : Allot → Allot) : (s.updAllot a f).routeBusy = s.routeBusy := rfl
@[simp] theorem State.updAllot_ses (a : Nat) (f : Allot → Allot) : (s.updAllot a f).ses = s.ses := rfl
@[simp] theorem State.updAllot_qps (a : Nat) (f : Allot → Allot) : (s.updAllot a f).qps = s.qps := rfl
@[simp] theorem State.updAllot_ledger (a : Nat) (f : Allot → Allot) : (s.updAllot a f).ledger = s.ledger := rfl
@[simp] theorem State.updAllot_tod (a : Nat) (f : Allot → Allot) : (s.updAllot a f).tod = s.tod := rfl
@[simp] theorem State.updAllot_hps (a : Nat) (f : Allot → Allot) : (s.updAllot a f).hps = s.hps := rfl
@[simp] theorem State.updAllot_reeve (a : Nat) (f : Allot → Allot) : (s.updAllot a f).reeve = s.reeve := rfl
@[simp] theorem State.updAllot_guests (a : Nat) (f : Allot → Allot) : (s.updAllot a f).guests = s.guests := rfl
@[simp] theorem State.updAllot_guestReqs (a : Nat) (f : Allot → Allot) : (s.updAllot a f).guestReqs = s.guestReqs := rfl
@[simp] theorem State.updAllot_spdmVer (a : Nat) (f : Allot → Allot) : (s.updAllot a f).spdmVer = s.spdmVer := rfl
@[simp] theorem State.updAllot_spdmAlgo (a : Nat) (f : Allot → Allot) : (s.updAllot a f).spdmAlgo = s.spdmAlgo := rfl
@[simp] theorem State.updAllot_ras (a : Nat) (f : Allot → Allot) : (s.updAllot a f).ras = s.ras := rfl
@[simp] theorem State.updAllot_unreadBoard (a : Nat) (f : Allot → Allot) : (s.updAllot a f).unreadBoard = s.unreadBoard := rfl
@[simp] theorem State.updAllot_regs (a : Nat) (f : Allot → Allot) : (s.updAllot a f).regs = s.regs := rfl
@[simp] theorem State.updAllot_guards (a : Nat) (f : Allot → Allot) : (s.updAllot a f).guards = s.guards := rfl
@[simp] theorem State.updAllot_posted (a : Nat) (f : Allot → Allot) : (s.updAllot a f).posted = s.posted := rfl
@[simp] theorem State.updAllot_fresh (a : Nat) (f : Allot → Allot) : (s.updAllot a f).fresh = s.fresh := rfl
@[simp] theorem State.updAllot_events (a : Nat) (f : Allot → Allot) : (s.updAllot a f).events = s.events := rfl
@[simp] theorem State.updAllot_out (a : Nat) (f : Allot → Allot) : (s.updAllot a f).out = s.out := rfl
@[simp] theorem State.updAllot_pending (a : Nat) (f : Allot → Allot) : (s.updAllot a f).pending = s.pending := rfl
@[simp] theorem State.updExec_pins (a : Nat) (f : Exec → Exec) : (s.updExec a f).pins = s.pins := rfl
@[simp] theorem State.updExec_boot (a : Nat) (f : Exec → Exec) : (s.updExec a f).boot = s.boot := rfl
@[simp] theorem State.updExec_store (a : Nat) (f : Exec → Exec) : (s.updExec a f).store = s.store := rfl
@[simp] theorem State.updExec_failedRegs (a : Nat) (f : Exec → Exec) : (s.updExec a f).failedRegs = s.failedRegs := rfl
@[simp] theorem State.updExec_fuses (a : Nat) (f : Exec → Exec) : (s.updExec a f).fuses = s.fuses := rfl
@[simp] theorem State.updExec_cores (a : Nat) (f : Exec → Exec) : (s.updExec a f).cores = s.cores := rfl
@[simp] theorem State.updExec_xroads (a : Nat) (f : Exec → Exec) : (s.updExec a f).xroads = s.xroads := rfl
@[simp] theorem State.updExec_parishes (a : Nat) (f : Exec → Exec) : (s.updExec a f).parishes = s.parishes := rfl
@[simp] theorem State.updExec_bell (a : Nat) (f : Exec → Exec) : (s.updExec a f).bell = s.bell := rfl
@[simp] theorem State.updExec_hub (a : Nat) (f : Exec → Exec) : (s.updExec a f).hub = s.hub := rfl
@[simp] theorem State.updExec_hubWait (a : Nat) (f : Exec → Exec) : (s.updExec a f).hubWait = s.hubWait := rfl
@[simp] theorem State.updExec_tallyOps (a : Nat) (f : Exec → Exec) : (s.updExec a f).tallyOps = s.tallyOps := rfl
@[simp] theorem State.updExec_crierSeq (a : Nat) (f : Exec → Exec) : (s.updExec a f).crierSeq = s.crierSeq := rfl
@[simp] theorem State.updExec_stirred (a : Nat) (f : Exec → Exec) : (s.updExec a f).stirred = s.stirred := rfl
@[simp] theorem State.updExec_reqs (a : Nat) (f : Exec → Exec) : (s.updExec a f).reqs = s.reqs := rfl
@[simp] theorem State.updExec_nextReq (a : Nat) (f : Exec → Exec) : (s.updExec a f).nextReq = s.nextReq := rfl
@[simp] theorem State.updExec_mem (a : Nat) (f : Exec → Exec) : (s.updExec a f).mem = s.mem := rfl
@[simp] theorem State.updExec_memInit (a : Nat) (f : Exec → Exec) : (s.updExec a f).memInit = s.memInit := rfl
@[simp] theorem State.updExec_memPoison (a : Nat) (f : Exec → Exec) : (s.updExec a f).memPoison = s.memPoison := rfl
@[simp] theorem State.updExec_memFills (a : Nat) (f : Exec → Exec) : (s.updExec a f).memFills = s.memFills := rfl
@[simp] theorem State.updExec_memUe (a : Nat) (f : Exec → Exec) : (s.updExec a f).memUe = s.memUe := rfl
@[simp] theorem State.updExec_memCe (a : Nat) (f : Exec → Exec) : (s.updExec a f).memCe = s.memCe := rfl
@[simp] theorem State.updExec_mcs (a : Nat) (f : Exec → Exec) : (s.updExec a f).mcs = s.mcs := rfl
@[simp] theorem State.updExec_clk (a : Nat) (f : Exec → Exec) : (s.updExec a f).clk = s.clk := rfl
@[simp] theorem State.updExec_ports (a : Nat) (f : Exec → Exec) : (s.updExec a f).ports = s.ports := rfl
@[simp] theorem State.updExec_routes (a : Nat) (f : Exec → Exec) : (s.updExec a f).routes = s.routes := rfl
@[simp] theorem State.updExec_reds (a : Nat) (f : Exec → Exec) : (s.updExec a f).reds = s.reds := rfl
@[simp] theorem State.updExec_rxs (a : Nat) (f : Exec → Exec) : (s.updExec a f).rxs = s.rxs := rfl
@[simp] theorem State.updExec_fabWait (a : Nat) (f : Exec → Exec) : (s.updExec a f).fabWait = s.fabWait := rfl
@[simp] theorem State.updExec_fabLocal (a : Nat) (f : Exec → Exec) : (s.updExec a f).fabLocal = s.fabLocal := rfl
@[simp] theorem State.updExec_crierHeld (a : Nat) (f : Exec → Exec) : (s.updExec a f).crierHeld = s.crierHeld := rfl
@[simp] theorem State.updExec_routeBusy (a : Nat) (f : Exec → Exec) : (s.updExec a f).routeBusy = s.routeBusy := rfl
@[simp] theorem State.updExec_ses (a : Nat) (f : Exec → Exec) : (s.updExec a f).ses = s.ses := rfl
@[simp] theorem State.updExec_qps (a : Nat) (f : Exec → Exec) : (s.updExec a f).qps = s.qps := rfl
@[simp] theorem State.updExec_ledger (a : Nat) (f : Exec → Exec) : (s.updExec a f).ledger = s.ledger := rfl
@[simp] theorem State.updExec_tod (a : Nat) (f : Exec → Exec) : (s.updExec a f).tod = s.tod := rfl
@[simp] theorem State.updExec_hps (a : Nat) (f : Exec → Exec) : (s.updExec a f).hps = s.hps := rfl
@[simp] theorem State.updExec_reeve (a : Nat) (f : Exec → Exec) : (s.updExec a f).reeve = s.reeve := rfl
@[simp] theorem State.updExec_guests (a : Nat) (f : Exec → Exec) : (s.updExec a f).guests = s.guests := rfl
@[simp] theorem State.updExec_guestReqs (a : Nat) (f : Exec → Exec) : (s.updExec a f).guestReqs = s.guestReqs := rfl
@[simp] theorem State.updExec_spdmVer (a : Nat) (f : Exec → Exec) : (s.updExec a f).spdmVer = s.spdmVer := rfl
@[simp] theorem State.updExec_spdmAlgo (a : Nat) (f : Exec → Exec) : (s.updExec a f).spdmAlgo = s.spdmAlgo := rfl
@[simp] theorem State.updExec_ras (a : Nat) (f : Exec → Exec) : (s.updExec a f).ras = s.ras := rfl
@[simp] theorem State.updExec_unreadBoard (a : Nat) (f : Exec → Exec) : (s.updExec a f).unreadBoard = s.unreadBoard := rfl
@[simp] theorem State.updExec_regs (a : Nat) (f : Exec → Exec) : (s.updExec a f).regs = s.regs := rfl
@[simp] theorem State.updExec_guards (a : Nat) (f : Exec → Exec) : (s.updExec a f).guards = s.guards := rfl
@[simp] theorem State.updExec_posted (a : Nat) (f : Exec → Exec) : (s.updExec a f).posted = s.posted := rfl
@[simp] theorem State.updExec_fresh (a : Nat) (f : Exec → Exec) : (s.updExec a f).fresh = s.fresh := rfl
@[simp] theorem State.updExec_events (a : Nat) (f : Exec → Exec) : (s.updExec a f).events = s.events := rfl
@[simp] theorem State.updExec_out (a : Nat) (f : Exec → Exec) : (s.updExec a f).out = s.out := rfl
@[simp] theorem State.updExec_pending (a : Nat) (f : Exec → Exec) : (s.updExec a f).pending = s.pending := rfl
@[simp] theorem State.note_pins (a k j : Nat) (r : Option RunId) : (s.note a k j r).pins = s.pins := rfl
@[simp] theorem State.note_boot (a k j : Nat) (r : Option RunId) : (s.note a k j r).boot = s.boot := rfl
@[simp] theorem State.note_store (a k j : Nat) (r : Option RunId) : (s.note a k j r).store = s.store := rfl
@[simp] theorem State.note_failedRegs (a k j : Nat) (r : Option RunId) : (s.note a k j r).failedRegs = s.failedRegs := rfl
@[simp] theorem State.note_fuses (a k j : Nat) (r : Option RunId) : (s.note a k j r).fuses = s.fuses := rfl
@[simp] theorem State.note_cores (a k j : Nat) (r : Option RunId) : (s.note a k j r).cores = s.cores := rfl
@[simp] theorem State.note_xroads (a k j : Nat) (r : Option RunId) : (s.note a k j r).xroads = s.xroads := rfl
@[simp] theorem State.note_parishes (a k j : Nat) (r : Option RunId) : (s.note a k j r).parishes = s.parishes := rfl
@[simp] theorem State.note_bell (a k j : Nat) (r : Option RunId) : (s.note a k j r).bell = s.bell := rfl
@[simp] theorem State.note_hub (a k j : Nat) (r : Option RunId) : (s.note a k j r).hub = s.hub := rfl
@[simp] theorem State.note_hubWait (a k j : Nat) (r : Option RunId) : (s.note a k j r).hubWait = s.hubWait := rfl
@[simp] theorem State.note_tallyOps (a k j : Nat) (r : Option RunId) : (s.note a k j r).tallyOps = s.tallyOps := rfl
@[simp] theorem State.note_crierSeq (a k j : Nat) (r : Option RunId) : (s.note a k j r).crierSeq = s.crierSeq := rfl
@[simp] theorem State.note_stirred (a k j : Nat) (r : Option RunId) : (s.note a k j r).stirred = s.stirred := rfl
@[simp] theorem State.note_reqs (a k j : Nat) (r : Option RunId) : (s.note a k j r).reqs = s.reqs := rfl
@[simp] theorem State.note_nextReq (a k j : Nat) (r : Option RunId) : (s.note a k j r).nextReq = s.nextReq := rfl
@[simp] theorem State.note_mem (a k j : Nat) (r : Option RunId) : (s.note a k j r).mem = s.mem := rfl
@[simp] theorem State.note_memInit (a k j : Nat) (r : Option RunId) : (s.note a k j r).memInit = s.memInit := rfl
@[simp] theorem State.note_memPoison (a k j : Nat) (r : Option RunId) : (s.note a k j r).memPoison = s.memPoison := rfl
@[simp] theorem State.note_memFills (a k j : Nat) (r : Option RunId) : (s.note a k j r).memFills = s.memFills := rfl
@[simp] theorem State.note_memUe (a k j : Nat) (r : Option RunId) : (s.note a k j r).memUe = s.memUe := rfl
@[simp] theorem State.note_memCe (a k j : Nat) (r : Option RunId) : (s.note a k j r).memCe = s.memCe := rfl
@[simp] theorem State.note_mcs (a k j : Nat) (r : Option RunId) : (s.note a k j r).mcs = s.mcs := rfl
@[simp] theorem State.note_clk (a k j : Nat) (r : Option RunId) : (s.note a k j r).clk = s.clk := rfl
@[simp] theorem State.note_ports (a k j : Nat) (r : Option RunId) : (s.note a k j r).ports = s.ports := rfl
@[simp] theorem State.note_routes (a k j : Nat) (r : Option RunId) : (s.note a k j r).routes = s.routes := rfl
@[simp] theorem State.note_reds (a k j : Nat) (r : Option RunId) : (s.note a k j r).reds = s.reds := rfl
@[simp] theorem State.note_rxs (a k j : Nat) (r : Option RunId) : (s.note a k j r).rxs = s.rxs := rfl
@[simp] theorem State.note_fabWait (a k j : Nat) (r : Option RunId) : (s.note a k j r).fabWait = s.fabWait := rfl
@[simp] theorem State.note_fabLocal (a k j : Nat) (r : Option RunId) : (s.note a k j r).fabLocal = s.fabLocal := rfl
@[simp] theorem State.note_crierHeld (a k j : Nat) (r : Option RunId) : (s.note a k j r).crierHeld = s.crierHeld := rfl
@[simp] theorem State.note_routeBusy (a k j : Nat) (r : Option RunId) : (s.note a k j r).routeBusy = s.routeBusy := rfl
@[simp] theorem State.note_ses (a k j : Nat) (r : Option RunId) : (s.note a k j r).ses = s.ses := rfl
@[simp] theorem State.note_qps (a k j : Nat) (r : Option RunId) : (s.note a k j r).qps = s.qps := rfl
@[simp] theorem State.note_ledger (a k j : Nat) (r : Option RunId) : (s.note a k j r).ledger = s.ledger := rfl
@[simp] theorem State.note_tod (a k j : Nat) (r : Option RunId) : (s.note a k j r).tod = s.tod := rfl
@[simp] theorem State.note_hps (a k j : Nat) (r : Option RunId) : (s.note a k j r).hps = s.hps := rfl
@[simp] theorem State.note_reeve (a k j : Nat) (r : Option RunId) : (s.note a k j r).reeve = s.reeve := rfl
@[simp] theorem State.note_guests (a k j : Nat) (r : Option RunId) : (s.note a k j r).guests = s.guests := rfl
@[simp] theorem State.note_guestReqs (a k j : Nat) (r : Option RunId) : (s.note a k j r).guestReqs = s.guestReqs := rfl
@[simp] theorem State.note_spdmVer (a k j : Nat) (r : Option RunId) : (s.note a k j r).spdmVer = s.spdmVer := rfl
@[simp] theorem State.note_spdmAlgo (a k j : Nat) (r : Option RunId) : (s.note a k j r).spdmAlgo = s.spdmAlgo := rfl
@[simp] theorem State.note_ras (a k j : Nat) (r : Option RunId) : (s.note a k j r).ras = s.ras := rfl
@[simp] theorem State.note_unreadBoard (a k j : Nat) (r : Option RunId) : (s.note a k j r).unreadBoard = s.unreadBoard := rfl
@[simp] theorem State.note_regs (a k j : Nat) (r : Option RunId) : (s.note a k j r).regs = s.regs := rfl
@[simp] theorem State.note_guards (a k j : Nat) (r : Option RunId) : (s.note a k j r).guards = s.guards := rfl
@[simp] theorem State.note_posted (a k j : Nat) (r : Option RunId) : (s.note a k j r).posted = s.posted := rfl
@[simp] theorem State.note_fresh (a k j : Nat) (r : Option RunId) : (s.note a k j r).fresh = s.fresh := rfl
@[simp] theorem State.note_events (a k j : Nat) (r : Option RunId) : (s.note a k j r).events = s.events := rfl
@[simp] theorem State.note_out (a k j : Nat) (r : Option RunId) : (s.note a k j r).out = s.out := rfl
@[simp] theorem State.note_pending (a k j : Nat) (r : Option RunId) : (s.note a k j r).pending = s.pending := rfl
@[simp] theorem State.setReg_pins (o : Nat) (v : DWord) : (s.setReg o v).pins = s.pins := rfl
@[simp] theorem State.setReg_boot (o : Nat) (v : DWord) : (s.setReg o v).boot = s.boot := rfl
@[simp] theorem State.setReg_store (o : Nat) (v : DWord) : (s.setReg o v).store = s.store := rfl
@[simp] theorem State.setReg_failedRegs (o : Nat) (v : DWord) : (s.setReg o v).failedRegs = s.failedRegs := rfl
@[simp] theorem State.setReg_fuses (o : Nat) (v : DWord) : (s.setReg o v).fuses = s.fuses := rfl
@[simp] theorem State.setReg_cores (o : Nat) (v : DWord) : (s.setReg o v).cores = s.cores := rfl
@[simp] theorem State.setReg_xroads (o : Nat) (v : DWord) : (s.setReg o v).xroads = s.xroads := rfl
@[simp] theorem State.setReg_parishes (o : Nat) (v : DWord) : (s.setReg o v).parishes = s.parishes := rfl
@[simp] theorem State.setReg_allots (o : Nat) (v : DWord) : (s.setReg o v).allots = s.allots := rfl
@[simp] theorem State.setReg_bell (o : Nat) (v : DWord) : (s.setReg o v).bell = s.bell := rfl
@[simp] theorem State.setReg_hub (o : Nat) (v : DWord) : (s.setReg o v).hub = s.hub := rfl
@[simp] theorem State.setReg_hubWait (o : Nat) (v : DWord) : (s.setReg o v).hubWait = s.hubWait := rfl
@[simp] theorem State.setReg_tallyOps (o : Nat) (v : DWord) : (s.setReg o v).tallyOps = s.tallyOps := rfl
@[simp] theorem State.setReg_crierSeq (o : Nat) (v : DWord) : (s.setReg o v).crierSeq = s.crierSeq := rfl
@[simp] theorem State.setReg_stirred (o : Nat) (v : DWord) : (s.setReg o v).stirred = s.stirred := rfl
@[simp] theorem State.setReg_reqs (o : Nat) (v : DWord) : (s.setReg o v).reqs = s.reqs := rfl
@[simp] theorem State.setReg_nextReq (o : Nat) (v : DWord) : (s.setReg o v).nextReq = s.nextReq := rfl
@[simp] theorem State.setReg_mem (o : Nat) (v : DWord) : (s.setReg o v).mem = s.mem := rfl
@[simp] theorem State.setReg_memInit (o : Nat) (v : DWord) : (s.setReg o v).memInit = s.memInit := rfl
@[simp] theorem State.setReg_memPoison (o : Nat) (v : DWord) : (s.setReg o v).memPoison = s.memPoison := rfl
@[simp] theorem State.setReg_memFills (o : Nat) (v : DWord) : (s.setReg o v).memFills = s.memFills := rfl
@[simp] theorem State.setReg_memUe (o : Nat) (v : DWord) : (s.setReg o v).memUe = s.memUe := rfl
@[simp] theorem State.setReg_memCe (o : Nat) (v : DWord) : (s.setReg o v).memCe = s.memCe := rfl
@[simp] theorem State.setReg_mcs (o : Nat) (v : DWord) : (s.setReg o v).mcs = s.mcs := rfl
@[simp] theorem State.setReg_clk (o : Nat) (v : DWord) : (s.setReg o v).clk = s.clk := rfl
@[simp] theorem State.setReg_ports (o : Nat) (v : DWord) : (s.setReg o v).ports = s.ports := rfl
@[simp] theorem State.setReg_routes (o : Nat) (v : DWord) : (s.setReg o v).routes = s.routes := rfl
@[simp] theorem State.setReg_reds (o : Nat) (v : DWord) : (s.setReg o v).reds = s.reds := rfl
@[simp] theorem State.setReg_rxs (o : Nat) (v : DWord) : (s.setReg o v).rxs = s.rxs := rfl
@[simp] theorem State.setReg_fabWait (o : Nat) (v : DWord) : (s.setReg o v).fabWait = s.fabWait := rfl
@[simp] theorem State.setReg_fabLocal (o : Nat) (v : DWord) : (s.setReg o v).fabLocal = s.fabLocal := rfl
@[simp] theorem State.setReg_crierHeld (o : Nat) (v : DWord) : (s.setReg o v).crierHeld = s.crierHeld := rfl
@[simp] theorem State.setReg_routeBusy (o : Nat) (v : DWord) : (s.setReg o v).routeBusy = s.routeBusy := rfl
@[simp] theorem State.setReg_ses (o : Nat) (v : DWord) : (s.setReg o v).ses = s.ses := rfl
@[simp] theorem State.setReg_qps (o : Nat) (v : DWord) : (s.setReg o v).qps = s.qps := rfl
@[simp] theorem State.setReg_ledger (o : Nat) (v : DWord) : (s.setReg o v).ledger = s.ledger := rfl
@[simp] theorem State.setReg_tod (o : Nat) (v : DWord) : (s.setReg o v).tod = s.tod := rfl
@[simp] theorem State.setReg_hps (o : Nat) (v : DWord) : (s.setReg o v).hps = s.hps := rfl
@[simp] theorem State.setReg_reeve (o : Nat) (v : DWord) : (s.setReg o v).reeve = s.reeve := rfl
@[simp] theorem State.setReg_guests (o : Nat) (v : DWord) : (s.setReg o v).guests = s.guests := rfl
@[simp] theorem State.setReg_guestReqs (o : Nat) (v : DWord) : (s.setReg o v).guestReqs = s.guestReqs := rfl
@[simp] theorem State.setReg_spdmVer (o : Nat) (v : DWord) : (s.setReg o v).spdmVer = s.spdmVer := rfl
@[simp] theorem State.setReg_spdmAlgo (o : Nat) (v : DWord) : (s.setReg o v).spdmAlgo = s.spdmAlgo := rfl
@[simp] theorem State.setReg_ras (o : Nat) (v : DWord) : (s.setReg o v).ras = s.ras := rfl
@[simp] theorem State.setReg_unreadBoard (o : Nat) (v : DWord) : (s.setReg o v).unreadBoard = s.unreadBoard := rfl
@[simp] theorem State.setReg_guards (o : Nat) (v : DWord) : (s.setReg o v).guards = s.guards := rfl
@[simp] theorem State.setReg_posted (o : Nat) (v : DWord) : (s.setReg o v).posted = s.posted := rfl
@[simp] theorem State.setReg_fresh (o : Nat) (v : DWord) : (s.setReg o v).fresh = s.fresh := rfl
@[simp] theorem State.setReg_events (o : Nat) (v : DWord) : (s.setReg o v).events = s.events := rfl
@[simp] theorem State.setReg_out (o : Nat) (v : DWord) : (s.setReg o v).out = s.out := rfl
@[simp] theorem State.setReg_pending (o : Nat) (v : DWord) : (s.setReg o v).pending = s.pending := rfl
@[simp] theorem State.bump_pins (o n : Nat) : (s.bump o n).pins = s.pins := rfl
@[simp] theorem State.bump_boot (o n : Nat) : (s.bump o n).boot = s.boot := rfl
@[simp] theorem State.bump_store (o n : Nat) : (s.bump o n).store = s.store := rfl
@[simp] theorem State.bump_failedRegs (o n : Nat) : (s.bump o n).failedRegs = s.failedRegs := rfl
@[simp] theorem State.bump_fuses (o n : Nat) : (s.bump o n).fuses = s.fuses := rfl
@[simp] theorem State.bump_cores (o n : Nat) : (s.bump o n).cores = s.cores := rfl
@[simp] theorem State.bump_xroads (o n : Nat) : (s.bump o n).xroads = s.xroads := rfl
@[simp] theorem State.bump_parishes (o n : Nat) : (s.bump o n).parishes = s.parishes := rfl
@[simp] theorem State.bump_allots (o n : Nat) : (s.bump o n).allots = s.allots := rfl
@[simp] theorem State.bump_bell (o n : Nat) : (s.bump o n).bell = s.bell := rfl
@[simp] theorem State.bump_hub (o n : Nat) : (s.bump o n).hub = s.hub := rfl
@[simp] theorem State.bump_hubWait (o n : Nat) : (s.bump o n).hubWait = s.hubWait := rfl
@[simp] theorem State.bump_tallyOps (o n : Nat) : (s.bump o n).tallyOps = s.tallyOps := rfl
@[simp] theorem State.bump_crierSeq (o n : Nat) : (s.bump o n).crierSeq = s.crierSeq := rfl
@[simp] theorem State.bump_stirred (o n : Nat) : (s.bump o n).stirred = s.stirred := rfl
@[simp] theorem State.bump_reqs (o n : Nat) : (s.bump o n).reqs = s.reqs := rfl
@[simp] theorem State.bump_nextReq (o n : Nat) : (s.bump o n).nextReq = s.nextReq := rfl
@[simp] theorem State.bump_mem (o n : Nat) : (s.bump o n).mem = s.mem := rfl
@[simp] theorem State.bump_memInit (o n : Nat) : (s.bump o n).memInit = s.memInit := rfl
@[simp] theorem State.bump_memPoison (o n : Nat) : (s.bump o n).memPoison = s.memPoison := rfl
@[simp] theorem State.bump_memFills (o n : Nat) : (s.bump o n).memFills = s.memFills := rfl
@[simp] theorem State.bump_memUe (o n : Nat) : (s.bump o n).memUe = s.memUe := rfl
@[simp] theorem State.bump_memCe (o n : Nat) : (s.bump o n).memCe = s.memCe := rfl
@[simp] theorem State.bump_mcs (o n : Nat) : (s.bump o n).mcs = s.mcs := rfl
@[simp] theorem State.bump_clk (o n : Nat) : (s.bump o n).clk = s.clk := rfl
@[simp] theorem State.bump_ports (o n : Nat) : (s.bump o n).ports = s.ports := rfl
@[simp] theorem State.bump_routes (o n : Nat) : (s.bump o n).routes = s.routes := rfl
@[simp] theorem State.bump_reds (o n : Nat) : (s.bump o n).reds = s.reds := rfl
@[simp] theorem State.bump_rxs (o n : Nat) : (s.bump o n).rxs = s.rxs := rfl
@[simp] theorem State.bump_fabWait (o n : Nat) : (s.bump o n).fabWait = s.fabWait := rfl
@[simp] theorem State.bump_fabLocal (o n : Nat) : (s.bump o n).fabLocal = s.fabLocal := rfl
@[simp] theorem State.bump_crierHeld (o n : Nat) : (s.bump o n).crierHeld = s.crierHeld := rfl
@[simp] theorem State.bump_routeBusy (o n : Nat) : (s.bump o n).routeBusy = s.routeBusy := rfl
@[simp] theorem State.bump_ses (o n : Nat) : (s.bump o n).ses = s.ses := rfl
@[simp] theorem State.bump_qps (o n : Nat) : (s.bump o n).qps = s.qps := rfl
@[simp] theorem State.bump_ledger (o n : Nat) : (s.bump o n).ledger = s.ledger := rfl
@[simp] theorem State.bump_tod (o n : Nat) : (s.bump o n).tod = s.tod := rfl
@[simp] theorem State.bump_hps (o n : Nat) : (s.bump o n).hps = s.hps := rfl
@[simp] theorem State.bump_reeve (o n : Nat) : (s.bump o n).reeve = s.reeve := rfl
@[simp] theorem State.bump_guests (o n : Nat) : (s.bump o n).guests = s.guests := rfl
@[simp] theorem State.bump_guestReqs (o n : Nat) : (s.bump o n).guestReqs = s.guestReqs := rfl
@[simp] theorem State.bump_spdmVer (o n : Nat) : (s.bump o n).spdmVer = s.spdmVer := rfl
@[simp] theorem State.bump_spdmAlgo (o n : Nat) : (s.bump o n).spdmAlgo = s.spdmAlgo := rfl
@[simp] theorem State.bump_ras (o n : Nat) : (s.bump o n).ras = s.ras := rfl
@[simp] theorem State.bump_unreadBoard (o n : Nat) : (s.bump o n).unreadBoard = s.unreadBoard := rfl
@[simp] theorem State.bump_guards (o n : Nat) : (s.bump o n).guards = s.guards := rfl
@[simp] theorem State.bump_posted (o n : Nat) : (s.bump o n).posted = s.posted := rfl
@[simp] theorem State.bump_fresh (o n : Nat) : (s.bump o n).fresh = s.fresh := rfl
@[simp] theorem State.bump_events (o n : Nat) : (s.bump o n).events = s.events := rfl
@[simp] theorem State.bump_out (o n : Nat) : (s.bump o n).out = s.out := rfl
@[simp] theorem State.bump_pending (o n : Nat) : (s.bump o n).pending = s.pending := rfl
@[simp] theorem State.orReg_pins (o : Nat) (v : DWord) : (s.orReg o v).pins = s.pins := rfl
@[simp] theorem State.orReg_boot (o : Nat) (v : DWord) : (s.orReg o v).boot = s.boot := rfl
@[simp] theorem State.orReg_store (o : Nat) (v : DWord) : (s.orReg o v).store = s.store := rfl
@[simp] theorem State.orReg_failedRegs (o : Nat) (v : DWord) : (s.orReg o v).failedRegs = s.failedRegs := rfl
@[simp] theorem State.orReg_fuses (o : Nat) (v : DWord) : (s.orReg o v).fuses = s.fuses := rfl
@[simp] theorem State.orReg_cores (o : Nat) (v : DWord) : (s.orReg o v).cores = s.cores := rfl
@[simp] theorem State.orReg_xroads (o : Nat) (v : DWord) : (s.orReg o v).xroads = s.xroads := rfl
@[simp] theorem State.orReg_parishes (o : Nat) (v : DWord) : (s.orReg o v).parishes = s.parishes := rfl
@[simp] theorem State.orReg_allots (o : Nat) (v : DWord) : (s.orReg o v).allots = s.allots := rfl
@[simp] theorem State.orReg_bell (o : Nat) (v : DWord) : (s.orReg o v).bell = s.bell := rfl
@[simp] theorem State.orReg_hub (o : Nat) (v : DWord) : (s.orReg o v).hub = s.hub := rfl
@[simp] theorem State.orReg_hubWait (o : Nat) (v : DWord) : (s.orReg o v).hubWait = s.hubWait := rfl
@[simp] theorem State.orReg_tallyOps (o : Nat) (v : DWord) : (s.orReg o v).tallyOps = s.tallyOps := rfl
@[simp] theorem State.orReg_crierSeq (o : Nat) (v : DWord) : (s.orReg o v).crierSeq = s.crierSeq := rfl
@[simp] theorem State.orReg_stirred (o : Nat) (v : DWord) : (s.orReg o v).stirred = s.stirred := rfl
@[simp] theorem State.orReg_reqs (o : Nat) (v : DWord) : (s.orReg o v).reqs = s.reqs := rfl
@[simp] theorem State.orReg_nextReq (o : Nat) (v : DWord) : (s.orReg o v).nextReq = s.nextReq := rfl
@[simp] theorem State.orReg_mem (o : Nat) (v : DWord) : (s.orReg o v).mem = s.mem := rfl
@[simp] theorem State.orReg_memInit (o : Nat) (v : DWord) : (s.orReg o v).memInit = s.memInit := rfl
@[simp] theorem State.orReg_memPoison (o : Nat) (v : DWord) : (s.orReg o v).memPoison = s.memPoison := rfl
@[simp] theorem State.orReg_memFills (o : Nat) (v : DWord) : (s.orReg o v).memFills = s.memFills := rfl
@[simp] theorem State.orReg_memUe (o : Nat) (v : DWord) : (s.orReg o v).memUe = s.memUe := rfl
@[simp] theorem State.orReg_memCe (o : Nat) (v : DWord) : (s.orReg o v).memCe = s.memCe := rfl
@[simp] theorem State.orReg_mcs (o : Nat) (v : DWord) : (s.orReg o v).mcs = s.mcs := rfl
@[simp] theorem State.orReg_clk (o : Nat) (v : DWord) : (s.orReg o v).clk = s.clk := rfl
@[simp] theorem State.orReg_ports (o : Nat) (v : DWord) : (s.orReg o v).ports = s.ports := rfl
@[simp] theorem State.orReg_routes (o : Nat) (v : DWord) : (s.orReg o v).routes = s.routes := rfl
@[simp] theorem State.orReg_reds (o : Nat) (v : DWord) : (s.orReg o v).reds = s.reds := rfl
@[simp] theorem State.orReg_rxs (o : Nat) (v : DWord) : (s.orReg o v).rxs = s.rxs := rfl
@[simp] theorem State.orReg_fabWait (o : Nat) (v : DWord) : (s.orReg o v).fabWait = s.fabWait := rfl
@[simp] theorem State.orReg_fabLocal (o : Nat) (v : DWord) : (s.orReg o v).fabLocal = s.fabLocal := rfl
@[simp] theorem State.orReg_crierHeld (o : Nat) (v : DWord) : (s.orReg o v).crierHeld = s.crierHeld := rfl
@[simp] theorem State.orReg_routeBusy (o : Nat) (v : DWord) : (s.orReg o v).routeBusy = s.routeBusy := rfl
@[simp] theorem State.orReg_ses (o : Nat) (v : DWord) : (s.orReg o v).ses = s.ses := rfl
@[simp] theorem State.orReg_qps (o : Nat) (v : DWord) : (s.orReg o v).qps = s.qps := rfl
@[simp] theorem State.orReg_ledger (o : Nat) (v : DWord) : (s.orReg o v).ledger = s.ledger := rfl
@[simp] theorem State.orReg_tod (o : Nat) (v : DWord) : (s.orReg o v).tod = s.tod := rfl
@[simp] theorem State.orReg_hps (o : Nat) (v : DWord) : (s.orReg o v).hps = s.hps := rfl
@[simp] theorem State.orReg_reeve (o : Nat) (v : DWord) : (s.orReg o v).reeve = s.reeve := rfl
@[simp] theorem State.orReg_guests (o : Nat) (v : DWord) : (s.orReg o v).guests = s.guests := rfl
@[simp] theorem State.orReg_guestReqs (o : Nat) (v : DWord) : (s.orReg o v).guestReqs = s.guestReqs := rfl
@[simp] theorem State.orReg_spdmVer (o : Nat) (v : DWord) : (s.orReg o v).spdmVer = s.spdmVer := rfl
@[simp] theorem State.orReg_spdmAlgo (o : Nat) (v : DWord) : (s.orReg o v).spdmAlgo = s.spdmAlgo := rfl
@[simp] theorem State.orReg_ras (o : Nat) (v : DWord) : (s.orReg o v).ras = s.ras := rfl
@[simp] theorem State.orReg_unreadBoard (o : Nat) (v : DWord) : (s.orReg o v).unreadBoard = s.unreadBoard := rfl
@[simp] theorem State.orReg_guards (o : Nat) (v : DWord) : (s.orReg o v).guards = s.guards := rfl
@[simp] theorem State.orReg_posted (o : Nat) (v : DWord) : (s.orReg o v).posted = s.posted := rfl
@[simp] theorem State.orReg_fresh (o : Nat) (v : DWord) : (s.orReg o v).fresh = s.fresh := rfl
@[simp] theorem State.orReg_events (o : Nat) (v : DWord) : (s.orReg o v).events = s.events := rfl
@[simp] theorem State.orReg_out (o : Nat) (v : DWord) : (s.orReg o v).out = s.out := rfl
@[simp] theorem State.orReg_pending (o : Nat) (v : DWord) : (s.orReg o v).pending = s.pending := rfl
@[simp] theorem State.send_pins (o : Out) : (s.send o).pins = s.pins := rfl
@[simp] theorem State.send_boot (o : Out) : (s.send o).boot = s.boot := rfl
@[simp] theorem State.send_store (o : Out) : (s.send o).store = s.store := rfl
@[simp] theorem State.send_failedRegs (o : Out) : (s.send o).failedRegs = s.failedRegs := rfl
@[simp] theorem State.send_fuses (o : Out) : (s.send o).fuses = s.fuses := rfl
@[simp] theorem State.send_cores (o : Out) : (s.send o).cores = s.cores := rfl
@[simp] theorem State.send_xroads (o : Out) : (s.send o).xroads = s.xroads := rfl
@[simp] theorem State.send_parishes (o : Out) : (s.send o).parishes = s.parishes := rfl
@[simp] theorem State.send_allots (o : Out) : (s.send o).allots = s.allots := rfl
@[simp] theorem State.send_bell (o : Out) : (s.send o).bell = s.bell := rfl
@[simp] theorem State.send_hub (o : Out) : (s.send o).hub = s.hub := rfl
@[simp] theorem State.send_hubWait (o : Out) : (s.send o).hubWait = s.hubWait := rfl
@[simp] theorem State.send_tallyOps (o : Out) : (s.send o).tallyOps = s.tallyOps := rfl
@[simp] theorem State.send_crierSeq (o : Out) : (s.send o).crierSeq = s.crierSeq := rfl
@[simp] theorem State.send_stirred (o : Out) : (s.send o).stirred = s.stirred := rfl
@[simp] theorem State.send_reqs (o : Out) : (s.send o).reqs = s.reqs := rfl
@[simp] theorem State.send_nextReq (o : Out) : (s.send o).nextReq = s.nextReq := rfl
@[simp] theorem State.send_mem (o : Out) : (s.send o).mem = s.mem := rfl
@[simp] theorem State.send_memInit (o : Out) : (s.send o).memInit = s.memInit := rfl
@[simp] theorem State.send_memPoison (o : Out) : (s.send o).memPoison = s.memPoison := rfl
@[simp] theorem State.send_memFills (o : Out) : (s.send o).memFills = s.memFills := rfl
@[simp] theorem State.send_memUe (o : Out) : (s.send o).memUe = s.memUe := rfl
@[simp] theorem State.send_memCe (o : Out) : (s.send o).memCe = s.memCe := rfl
@[simp] theorem State.send_mcs (o : Out) : (s.send o).mcs = s.mcs := rfl
@[simp] theorem State.send_clk (o : Out) : (s.send o).clk = s.clk := rfl
@[simp] theorem State.send_ports (o : Out) : (s.send o).ports = s.ports := rfl
@[simp] theorem State.send_routes (o : Out) : (s.send o).routes = s.routes := rfl
@[simp] theorem State.send_reds (o : Out) : (s.send o).reds = s.reds := rfl
@[simp] theorem State.send_rxs (o : Out) : (s.send o).rxs = s.rxs := rfl
@[simp] theorem State.send_fabWait (o : Out) : (s.send o).fabWait = s.fabWait := rfl
@[simp] theorem State.send_fabLocal (o : Out) : (s.send o).fabLocal = s.fabLocal := rfl
@[simp] theorem State.send_crierHeld (o : Out) : (s.send o).crierHeld = s.crierHeld := rfl
@[simp] theorem State.send_routeBusy (o : Out) : (s.send o).routeBusy = s.routeBusy := rfl
@[simp] theorem State.send_ses (o : Out) : (s.send o).ses = s.ses := rfl
@[simp] theorem State.send_qps (o : Out) : (s.send o).qps = s.qps := rfl
@[simp] theorem State.send_ledger (o : Out) : (s.send o).ledger = s.ledger := rfl
@[simp] theorem State.send_tod (o : Out) : (s.send o).tod = s.tod := rfl
@[simp] theorem State.send_hps (o : Out) : (s.send o).hps = s.hps := rfl
@[simp] theorem State.send_reeve (o : Out) : (s.send o).reeve = s.reeve := rfl
@[simp] theorem State.send_guests (o : Out) : (s.send o).guests = s.guests := rfl
@[simp] theorem State.send_guestReqs (o : Out) : (s.send o).guestReqs = s.guestReqs := rfl
@[simp] theorem State.send_spdmVer (o : Out) : (s.send o).spdmVer = s.spdmVer := rfl
@[simp] theorem State.send_spdmAlgo (o : Out) : (s.send o).spdmAlgo = s.spdmAlgo := rfl
@[simp] theorem State.send_ras (o : Out) : (s.send o).ras = s.ras := rfl
@[simp] theorem State.send_unreadBoard (o : Out) : (s.send o).unreadBoard = s.unreadBoard := rfl
@[simp] theorem State.send_regs (o : Out) : (s.send o).regs = s.regs := rfl
@[simp] theorem State.send_guards (o : Out) : (s.send o).guards = s.guards := rfl
@[simp] theorem State.send_posted (o : Out) : (s.send o).posted = s.posted := rfl
@[simp] theorem State.send_fresh (o : Out) : (s.send o).fresh = s.fresh := rfl
@[simp] theorem State.send_events (o : Out) : (s.send o).events = s.events := rfl
@[simp] theorem State.send_pending (o : Out) : (s.send o).pending = s.pending := rfl
@[simp] theorem State.drawn_pins : (s.drawn ).pins = s.pins := rfl
@[simp] theorem State.drawn_boot : (s.drawn ).boot = s.boot := rfl
@[simp] theorem State.drawn_store : (s.drawn ).store = s.store := rfl
@[simp] theorem State.drawn_failedRegs : (s.drawn ).failedRegs = s.failedRegs := rfl
@[simp] theorem State.drawn_fuses : (s.drawn ).fuses = s.fuses := rfl
@[simp] theorem State.drawn_cores : (s.drawn ).cores = s.cores := rfl
@[simp] theorem State.drawn_xroads : (s.drawn ).xroads = s.xroads := rfl
@[simp] theorem State.drawn_parishes : (s.drawn ).parishes = s.parishes := rfl
@[simp] theorem State.drawn_allots : (s.drawn ).allots = s.allots := rfl
@[simp] theorem State.drawn_bell : (s.drawn ).bell = s.bell := rfl
@[simp] theorem State.drawn_hub : (s.drawn ).hub = s.hub := rfl
@[simp] theorem State.drawn_hubWait : (s.drawn ).hubWait = s.hubWait := rfl
@[simp] theorem State.drawn_tallyOps : (s.drawn ).tallyOps = s.tallyOps := rfl
@[simp] theorem State.drawn_crierSeq : (s.drawn ).crierSeq = s.crierSeq := rfl
@[simp] theorem State.drawn_stirred : (s.drawn ).stirred = s.stirred := rfl
@[simp] theorem State.drawn_reqs : (s.drawn ).reqs = s.reqs := rfl
@[simp] theorem State.drawn_nextReq : (s.drawn ).nextReq = s.nextReq := rfl
@[simp] theorem State.drawn_mem : (s.drawn ).mem = s.mem := rfl
@[simp] theorem State.drawn_memInit : (s.drawn ).memInit = s.memInit := rfl
@[simp] theorem State.drawn_memPoison : (s.drawn ).memPoison = s.memPoison := rfl
@[simp] theorem State.drawn_memFills : (s.drawn ).memFills = s.memFills := rfl
@[simp] theorem State.drawn_memUe : (s.drawn ).memUe = s.memUe := rfl
@[simp] theorem State.drawn_memCe : (s.drawn ).memCe = s.memCe := rfl
@[simp] theorem State.drawn_mcs : (s.drawn ).mcs = s.mcs := rfl
@[simp] theorem State.drawn_clk : (s.drawn ).clk = s.clk := rfl
@[simp] theorem State.drawn_ports : (s.drawn ).ports = s.ports := rfl
@[simp] theorem State.drawn_routes : (s.drawn ).routes = s.routes := rfl
@[simp] theorem State.drawn_reds : (s.drawn ).reds = s.reds := rfl
@[simp] theorem State.drawn_rxs : (s.drawn ).rxs = s.rxs := rfl
@[simp] theorem State.drawn_fabWait : (s.drawn ).fabWait = s.fabWait := rfl
@[simp] theorem State.drawn_fabLocal : (s.drawn ).fabLocal = s.fabLocal := rfl
@[simp] theorem State.drawn_crierHeld : (s.drawn ).crierHeld = s.crierHeld := rfl
@[simp] theorem State.drawn_routeBusy : (s.drawn ).routeBusy = s.routeBusy := rfl
@[simp] theorem State.drawn_ses : (s.drawn ).ses = s.ses := rfl
@[simp] theorem State.drawn_qps : (s.drawn ).qps = s.qps := rfl
@[simp] theorem State.drawn_ledger : (s.drawn ).ledger = s.ledger := rfl
@[simp] theorem State.drawn_tod : (s.drawn ).tod = s.tod := rfl
@[simp] theorem State.drawn_hps : (s.drawn ).hps = s.hps := rfl
@[simp] theorem State.drawn_reeve : (s.drawn ).reeve = s.reeve := rfl
@[simp] theorem State.drawn_guests : (s.drawn ).guests = s.guests := rfl
@[simp] theorem State.drawn_guestReqs : (s.drawn ).guestReqs = s.guestReqs := rfl
@[simp] theorem State.drawn_spdmVer : (s.drawn ).spdmVer = s.spdmVer := rfl
@[simp] theorem State.drawn_spdmAlgo : (s.drawn ).spdmAlgo = s.spdmAlgo := rfl
@[simp] theorem State.drawn_ras : (s.drawn ).ras = s.ras := rfl
@[simp] theorem State.drawn_unreadBoard : (s.drawn ).unreadBoard = s.unreadBoard := rfl
@[simp] theorem State.drawn_regs : (s.drawn ).regs = s.regs := rfl
@[simp] theorem State.drawn_guards : (s.drawn ).guards = s.guards := rfl
@[simp] theorem State.drawn_posted : (s.drawn ).posted = s.posted := rfl
@[simp] theorem State.drawn_events : (s.drawn ).events = s.events := rfl
@[simp] theorem State.drawn_out : (s.drawn ).out = s.out := rfl
@[simp] theorem State.drawn_pending : (s.drawn ).pending = s.pending := rfl
@[simp] theorem State.setMc_pins (m : Nat) (x : Stack) : (s.setMc m x).pins = s.pins := rfl
@[simp] theorem State.setMc_boot (m : Nat) (x : Stack) : (s.setMc m x).boot = s.boot := rfl
@[simp] theorem State.setMc_store (m : Nat) (x : Stack) : (s.setMc m x).store = s.store := rfl
@[simp] theorem State.setMc_failedRegs (m : Nat) (x : Stack) : (s.setMc m x).failedRegs = s.failedRegs := rfl
@[simp] theorem State.setMc_fuses (m : Nat) (x : Stack) : (s.setMc m x).fuses = s.fuses := rfl
@[simp] theorem State.setMc_cores (m : Nat) (x : Stack) : (s.setMc m x).cores = s.cores := rfl
@[simp] theorem State.setMc_xroads (m : Nat) (x : Stack) : (s.setMc m x).xroads = s.xroads := rfl
@[simp] theorem State.setMc_parishes (m : Nat) (x : Stack) : (s.setMc m x).parishes = s.parishes := rfl
@[simp] theorem State.setMc_allots (m : Nat) (x : Stack) : (s.setMc m x).allots = s.allots := rfl
@[simp] theorem State.setMc_bell (m : Nat) (x : Stack) : (s.setMc m x).bell = s.bell := rfl
@[simp] theorem State.setMc_hub (m : Nat) (x : Stack) : (s.setMc m x).hub = s.hub := rfl
@[simp] theorem State.setMc_hubWait (m : Nat) (x : Stack) : (s.setMc m x).hubWait = s.hubWait := rfl
@[simp] theorem State.setMc_tallyOps (m : Nat) (x : Stack) : (s.setMc m x).tallyOps = s.tallyOps := rfl
@[simp] theorem State.setMc_crierSeq (m : Nat) (x : Stack) : (s.setMc m x).crierSeq = s.crierSeq := rfl
@[simp] theorem State.setMc_stirred (m : Nat) (x : Stack) : (s.setMc m x).stirred = s.stirred := rfl
@[simp] theorem State.setMc_reqs (m : Nat) (x : Stack) : (s.setMc m x).reqs = s.reqs := rfl
@[simp] theorem State.setMc_nextReq (m : Nat) (x : Stack) : (s.setMc m x).nextReq = s.nextReq := rfl
@[simp] theorem State.setMc_mem (m : Nat) (x : Stack) : (s.setMc m x).mem = s.mem := rfl
@[simp] theorem State.setMc_memInit (m : Nat) (x : Stack) : (s.setMc m x).memInit = s.memInit := rfl
@[simp] theorem State.setMc_memPoison (m : Nat) (x : Stack) : (s.setMc m x).memPoison = s.memPoison := rfl
@[simp] theorem State.setMc_memFills (m : Nat) (x : Stack) : (s.setMc m x).memFills = s.memFills := rfl
@[simp] theorem State.setMc_memUe (m : Nat) (x : Stack) : (s.setMc m x).memUe = s.memUe := rfl
@[simp] theorem State.setMc_memCe (m : Nat) (x : Stack) : (s.setMc m x).memCe = s.memCe := rfl
@[simp] theorem State.setMc_clk (m : Nat) (x : Stack) : (s.setMc m x).clk = s.clk := rfl
@[simp] theorem State.setMc_ports (m : Nat) (x : Stack) : (s.setMc m x).ports = s.ports := rfl
@[simp] theorem State.setMc_routes (m : Nat) (x : Stack) : (s.setMc m x).routes = s.routes := rfl
@[simp] theorem State.setMc_reds (m : Nat) (x : Stack) : (s.setMc m x).reds = s.reds := rfl
@[simp] theorem State.setMc_rxs (m : Nat) (x : Stack) : (s.setMc m x).rxs = s.rxs := rfl
@[simp] theorem State.setMc_fabWait (m : Nat) (x : Stack) : (s.setMc m x).fabWait = s.fabWait := rfl
@[simp] theorem State.setMc_fabLocal (m : Nat) (x : Stack) : (s.setMc m x).fabLocal = s.fabLocal := rfl
@[simp] theorem State.setMc_crierHeld (m : Nat) (x : Stack) : (s.setMc m x).crierHeld = s.crierHeld := rfl
@[simp] theorem State.setMc_routeBusy (m : Nat) (x : Stack) : (s.setMc m x).routeBusy = s.routeBusy := rfl
@[simp] theorem State.setMc_ses (m : Nat) (x : Stack) : (s.setMc m x).ses = s.ses := rfl
@[simp] theorem State.setMc_qps (m : Nat) (x : Stack) : (s.setMc m x).qps = s.qps := rfl
@[simp] theorem State.setMc_ledger (m : Nat) (x : Stack) : (s.setMc m x).ledger = s.ledger := rfl
@[simp] theorem State.setMc_tod (m : Nat) (x : Stack) : (s.setMc m x).tod = s.tod := rfl
@[simp] theorem State.setMc_hps (m : Nat) (x : Stack) : (s.setMc m x).hps = s.hps := rfl
@[simp] theorem State.setMc_reeve (m : Nat) (x : Stack) : (s.setMc m x).reeve = s.reeve := rfl
@[simp] theorem State.setMc_guests (m : Nat) (x : Stack) : (s.setMc m x).guests = s.guests := rfl
@[simp] theorem State.setMc_guestReqs (m : Nat) (x : Stack) : (s.setMc m x).guestReqs = s.guestReqs := rfl
@[simp] theorem State.setMc_spdmVer (m : Nat) (x : Stack) : (s.setMc m x).spdmVer = s.spdmVer := rfl
@[simp] theorem State.setMc_spdmAlgo (m : Nat) (x : Stack) : (s.setMc m x).spdmAlgo = s.spdmAlgo := rfl
@[simp] theorem State.setMc_ras (m : Nat) (x : Stack) : (s.setMc m x).ras = s.ras := rfl
@[simp] theorem State.setMc_unreadBoard (m : Nat) (x : Stack) : (s.setMc m x).unreadBoard = s.unreadBoard := rfl
@[simp] theorem State.setMc_regs (m : Nat) (x : Stack) : (s.setMc m x).regs = s.regs := rfl
@[simp] theorem State.setMc_guards (m : Nat) (x : Stack) : (s.setMc m x).guards = s.guards := rfl
@[simp] theorem State.setMc_posted (m : Nat) (x : Stack) : (s.setMc m x).posted = s.posted := rfl
@[simp] theorem State.setMc_fresh (m : Nat) (x : Stack) : (s.setMc m x).fresh = s.fresh := rfl
@[simp] theorem State.setMc_events (m : Nat) (x : Stack) : (s.setMc m x).events = s.events := rfl
@[simp] theorem State.setMc_out (m : Nat) (x : Stack) : (s.setMc m x).out = s.out := rfl
@[simp] theorem State.setMc_pending (m : Nat) (x : Stack) : (s.setMc m x).pending = s.pending := rfl
@[simp] theorem State.setMemPoison_pins (w : Nat) (b : Bool) : (s.setMemPoison w b).pins = s.pins := rfl
@[simp] theorem State.setMemPoison_boot (w : Nat) (b : Bool) : (s.setMemPoison w b).boot = s.boot := rfl
@[simp] theorem State.setMemPoison_store (w : Nat) (b : Bool) : (s.setMemPoison w b).store = s.store := rfl
@[simp] theorem State.setMemPoison_failedRegs (w : Nat) (b : Bool) : (s.setMemPoison w b).failedRegs = s.failedRegs := rfl
@[simp] theorem State.setMemPoison_fuses (w : Nat) (b : Bool) : (s.setMemPoison w b).fuses = s.fuses := rfl
@[simp] theorem State.setMemPoison_cores (w : Nat) (b : Bool) : (s.setMemPoison w b).cores = s.cores := rfl
@[simp] theorem State.setMemPoison_xroads (w : Nat) (b : Bool) : (s.setMemPoison w b).xroads = s.xroads := rfl
@[simp] theorem State.setMemPoison_parishes (w : Nat) (b : Bool) : (s.setMemPoison w b).parishes = s.parishes := rfl
@[simp] theorem State.setMemPoison_allots (w : Nat) (b : Bool) : (s.setMemPoison w b).allots = s.allots := rfl
@[simp] theorem State.setMemPoison_bell (w : Nat) (b : Bool) : (s.setMemPoison w b).bell = s.bell := rfl
@[simp] theorem State.setMemPoison_hub (w : Nat) (b : Bool) : (s.setMemPoison w b).hub = s.hub := rfl
@[simp] theorem State.setMemPoison_hubWait (w : Nat) (b : Bool) : (s.setMemPoison w b).hubWait = s.hubWait := rfl
@[simp] theorem State.setMemPoison_tallyOps (w : Nat) (b : Bool) : (s.setMemPoison w b).tallyOps = s.tallyOps := rfl
@[simp] theorem State.setMemPoison_crierSeq (w : Nat) (b : Bool) : (s.setMemPoison w b).crierSeq = s.crierSeq := rfl
@[simp] theorem State.setMemPoison_stirred (w : Nat) (b : Bool) : (s.setMemPoison w b).stirred = s.stirred := rfl
@[simp] theorem State.setMemPoison_reqs (w : Nat) (b : Bool) : (s.setMemPoison w b).reqs = s.reqs := rfl
@[simp] theorem State.setMemPoison_nextReq (w : Nat) (b : Bool) : (s.setMemPoison w b).nextReq = s.nextReq := rfl
@[simp] theorem State.setMemPoison_mem (w : Nat) (b : Bool) : (s.setMemPoison w b).mem = s.mem := rfl
@[simp] theorem State.setMemPoison_memInit (w : Nat) (b : Bool) : (s.setMemPoison w b).memInit = s.memInit := rfl
@[simp] theorem State.setMemPoison_memFills (w : Nat) (b : Bool) : (s.setMemPoison w b).memFills = s.memFills := rfl
@[simp] theorem State.setMemPoison_memUe (w : Nat) (b : Bool) : (s.setMemPoison w b).memUe = s.memUe := rfl
@[simp] theorem State.setMemPoison_memCe (w : Nat) (b : Bool) : (s.setMemPoison w b).memCe = s.memCe := rfl
@[simp] theorem State.setMemPoison_mcs (w : Nat) (b : Bool) : (s.setMemPoison w b).mcs = s.mcs := rfl
@[simp] theorem State.setMemPoison_clk (w : Nat) (b : Bool) : (s.setMemPoison w b).clk = s.clk := rfl
@[simp] theorem State.setMemPoison_ports (w : Nat) (b : Bool) : (s.setMemPoison w b).ports = s.ports := rfl
@[simp] theorem State.setMemPoison_routes (w : Nat) (b : Bool) : (s.setMemPoison w b).routes = s.routes := rfl
@[simp] theorem State.setMemPoison_reds (w : Nat) (b : Bool) : (s.setMemPoison w b).reds = s.reds := rfl
@[simp] theorem State.setMemPoison_rxs (w : Nat) (b : Bool) : (s.setMemPoison w b).rxs = s.rxs := rfl
@[simp] theorem State.setMemPoison_fabWait (w : Nat) (b : Bool) : (s.setMemPoison w b).fabWait = s.fabWait := rfl
@[simp] theorem State.setMemPoison_fabLocal (w : Nat) (b : Bool) : (s.setMemPoison w b).fabLocal = s.fabLocal := rfl
@[simp] theorem State.setMemPoison_crierHeld (w : Nat) (b : Bool) : (s.setMemPoison w b).crierHeld = s.crierHeld := rfl
@[simp] theorem State.setMemPoison_routeBusy (w : Nat) (b : Bool) : (s.setMemPoison w b).routeBusy = s.routeBusy := rfl
@[simp] theorem State.setMemPoison_ses (w : Nat) (b : Bool) : (s.setMemPoison w b).ses = s.ses := rfl
@[simp] theorem State.setMemPoison_qps (w : Nat) (b : Bool) : (s.setMemPoison w b).qps = s.qps := rfl
@[simp] theorem State.setMemPoison_ledger (w : Nat) (b : Bool) : (s.setMemPoison w b).ledger = s.ledger := rfl
@[simp] theorem State.setMemPoison_tod (w : Nat) (b : Bool) : (s.setMemPoison w b).tod = s.tod := rfl
@[simp] theorem State.setMemPoison_hps (w : Nat) (b : Bool) : (s.setMemPoison w b).hps = s.hps := rfl
@[simp] theorem State.setMemPoison_reeve (w : Nat) (b : Bool) : (s.setMemPoison w b).reeve = s.reeve := rfl
@[simp] theorem State.setMemPoison_guests (w : Nat) (b : Bool) : (s.setMemPoison w b).guests = s.guests := rfl
@[simp] theorem State.setMemPoison_guestReqs (w : Nat) (b : Bool) : (s.setMemPoison w b).guestReqs = s.guestReqs := rfl
@[simp] theorem State.setMemPoison_spdmVer (w : Nat) (b : Bool) : (s.setMemPoison w b).spdmVer = s.spdmVer := rfl
@[simp] theorem State.setMemPoison_spdmAlgo (w : Nat) (b : Bool) : (s.setMemPoison w b).spdmAlgo = s.spdmAlgo := rfl
@[simp] theorem State.setMemPoison_ras (w : Nat) (b : Bool) : (s.setMemPoison w b).ras = s.ras := rfl
@[simp] theorem State.setMemPoison_unreadBoard (w : Nat) (b : Bool) : (s.setMemPoison w b).unreadBoard = s.unreadBoard := rfl
@[simp] theorem State.setMemPoison_regs (w : Nat) (b : Bool) : (s.setMemPoison w b).regs = s.regs := rfl
@[simp] theorem State.setMemPoison_guards (w : Nat) (b : Bool) : (s.setMemPoison w b).guards = s.guards := rfl
@[simp] theorem State.setMemPoison_posted (w : Nat) (b : Bool) : (s.setMemPoison w b).posted = s.posted := rfl
@[simp] theorem State.setMemPoison_fresh (w : Nat) (b : Bool) : (s.setMemPoison w b).fresh = s.fresh := rfl
@[simp] theorem State.setMemPoison_events (w : Nat) (b : Bool) : (s.setMemPoison w b).events = s.events := rfl
@[simp] theorem State.setMemPoison_out (w : Nat) (b : Bool) : (s.setMemPoison w b).out = s.out := rfl
@[simp] theorem State.setMemPoison_pending (w : Nat) (b : Bool) : (s.setMemPoison w b).pending = s.pending := rfl
@[simp] theorem State.setPort_pins (p : Nat) (x : Port) : (s.setPort p x).pins = s.pins := rfl
@[simp] theorem State.setPort_boot (p : Nat) (x : Port) : (s.setPort p x).boot = s.boot := rfl
@[simp] theorem State.setPort_store (p : Nat) (x : Port) : (s.setPort p x).store = s.store := rfl
@[simp] theorem State.setPort_failedRegs (p : Nat) (x : Port) : (s.setPort p x).failedRegs = s.failedRegs := rfl
@[simp] theorem State.setPort_fuses (p : Nat) (x : Port) : (s.setPort p x).fuses = s.fuses := rfl
@[simp] theorem State.setPort_cores (p : Nat) (x : Port) : (s.setPort p x).cores = s.cores := rfl
@[simp] theorem State.setPort_xroads (p : Nat) (x : Port) : (s.setPort p x).xroads = s.xroads := rfl
@[simp] theorem State.setPort_parishes (p : Nat) (x : Port) : (s.setPort p x).parishes = s.parishes := rfl
@[simp] theorem State.setPort_allots (p : Nat) (x : Port) : (s.setPort p x).allots = s.allots := rfl
@[simp] theorem State.setPort_bell (p : Nat) (x : Port) : (s.setPort p x).bell = s.bell := rfl
@[simp] theorem State.setPort_hub (p : Nat) (x : Port) : (s.setPort p x).hub = s.hub := rfl
@[simp] theorem State.setPort_hubWait (p : Nat) (x : Port) : (s.setPort p x).hubWait = s.hubWait := rfl
@[simp] theorem State.setPort_tallyOps (p : Nat) (x : Port) : (s.setPort p x).tallyOps = s.tallyOps := rfl
@[simp] theorem State.setPort_crierSeq (p : Nat) (x : Port) : (s.setPort p x).crierSeq = s.crierSeq := rfl
@[simp] theorem State.setPort_stirred (p : Nat) (x : Port) : (s.setPort p x).stirred = s.stirred := rfl
@[simp] theorem State.setPort_reqs (p : Nat) (x : Port) : (s.setPort p x).reqs = s.reqs := rfl
@[simp] theorem State.setPort_nextReq (p : Nat) (x : Port) : (s.setPort p x).nextReq = s.nextReq := rfl
@[simp] theorem State.setPort_mem (p : Nat) (x : Port) : (s.setPort p x).mem = s.mem := rfl
@[simp] theorem State.setPort_memInit (p : Nat) (x : Port) : (s.setPort p x).memInit = s.memInit := rfl
@[simp] theorem State.setPort_memPoison (p : Nat) (x : Port) : (s.setPort p x).memPoison = s.memPoison := rfl
@[simp] theorem State.setPort_memFills (p : Nat) (x : Port) : (s.setPort p x).memFills = s.memFills := rfl
@[simp] theorem State.setPort_memUe (p : Nat) (x : Port) : (s.setPort p x).memUe = s.memUe := rfl
@[simp] theorem State.setPort_memCe (p : Nat) (x : Port) : (s.setPort p x).memCe = s.memCe := rfl
@[simp] theorem State.setPort_mcs (p : Nat) (x : Port) : (s.setPort p x).mcs = s.mcs := rfl
@[simp] theorem State.setPort_clk (p : Nat) (x : Port) : (s.setPort p x).clk = s.clk := rfl
@[simp] theorem State.setPort_routes (p : Nat) (x : Port) : (s.setPort p x).routes = s.routes := rfl
@[simp] theorem State.setPort_reds (p : Nat) (x : Port) : (s.setPort p x).reds = s.reds := rfl
@[simp] theorem State.setPort_rxs (p : Nat) (x : Port) : (s.setPort p x).rxs = s.rxs := rfl
@[simp] theorem State.setPort_fabWait (p : Nat) (x : Port) : (s.setPort p x).fabWait = s.fabWait := rfl
@[simp] theorem State.setPort_fabLocal (p : Nat) (x : Port) : (s.setPort p x).fabLocal = s.fabLocal := rfl
@[simp] theorem State.setPort_crierHeld (p : Nat) (x : Port) : (s.setPort p x).crierHeld = s.crierHeld := rfl
@[simp] theorem State.setPort_routeBusy (p : Nat) (x : Port) : (s.setPort p x).routeBusy = s.routeBusy := rfl
@[simp] theorem State.setPort_ses (p : Nat) (x : Port) : (s.setPort p x).ses = s.ses := rfl
@[simp] theorem State.setPort_qps (p : Nat) (x : Port) : (s.setPort p x).qps = s.qps := rfl
@[simp] theorem State.setPort_ledger (p : Nat) (x : Port) : (s.setPort p x).ledger = s.ledger := rfl
@[simp] theorem State.setPort_tod (p : Nat) (x : Port) : (s.setPort p x).tod = s.tod := rfl
@[simp] theorem State.setPort_hps (p : Nat) (x : Port) : (s.setPort p x).hps = s.hps := rfl
@[simp] theorem State.setPort_reeve (p : Nat) (x : Port) : (s.setPort p x).reeve = s.reeve := rfl
@[simp] theorem State.setPort_guests (p : Nat) (x : Port) : (s.setPort p x).guests = s.guests := rfl
@[simp] theorem State.setPort_guestReqs (p : Nat) (x : Port) : (s.setPort p x).guestReqs = s.guestReqs := rfl
@[simp] theorem State.setPort_spdmVer (p : Nat) (x : Port) : (s.setPort p x).spdmVer = s.spdmVer := rfl
@[simp] theorem State.setPort_spdmAlgo (p : Nat) (x : Port) : (s.setPort p x).spdmAlgo = s.spdmAlgo := rfl
@[simp] theorem State.setPort_ras (p : Nat) (x : Port) : (s.setPort p x).ras = s.ras := rfl
@[simp] theorem State.setPort_unreadBoard (p : Nat) (x : Port) : (s.setPort p x).unreadBoard = s.unreadBoard := rfl
@[simp] theorem State.setPort_regs (p : Nat) (x : Port) : (s.setPort p x).regs = s.regs := rfl
@[simp] theorem State.setPort_guards (p : Nat) (x : Port) : (s.setPort p x).guards = s.guards := rfl
@[simp] theorem State.setPort_posted (p : Nat) (x : Port) : (s.setPort p x).posted = s.posted := rfl
@[simp] theorem State.setPort_fresh (p : Nat) (x : Port) : (s.setPort p x).fresh = s.fresh := rfl
@[simp] theorem State.setPort_events (p : Nat) (x : Port) : (s.setPort p x).events = s.events := rfl
@[simp] theorem State.setPort_out (p : Nat) (x : Port) : (s.setPort p x).out = s.out := rfl
@[simp] theorem State.setPort_pending (p : Nat) (x : Port) : (s.setPort p x).pending = s.pending := rfl
@[simp] theorem State.updPort_pins (p : Nat) (f : Port → Port) : (s.updPort p f).pins = s.pins := rfl
@[simp] theorem State.updPort_boot (p : Nat) (f : Port → Port) : (s.updPort p f).boot = s.boot := rfl
@[simp] theorem State.updPort_store (p : Nat) (f : Port → Port) : (s.updPort p f).store = s.store := rfl
@[simp] theorem State.updPort_failedRegs (p : Nat) (f : Port → Port) : (s.updPort p f).failedRegs = s.failedRegs := rfl
@[simp] theorem State.updPort_fuses (p : Nat) (f : Port → Port) : (s.updPort p f).fuses = s.fuses := rfl
@[simp] theorem State.updPort_cores (p : Nat) (f : Port → Port) : (s.updPort p f).cores = s.cores := rfl
@[simp] theorem State.updPort_xroads (p : Nat) (f : Port → Port) : (s.updPort p f).xroads = s.xroads := rfl
@[simp] theorem State.updPort_parishes (p : Nat) (f : Port → Port) : (s.updPort p f).parishes = s.parishes := rfl
@[simp] theorem State.updPort_allots (p : Nat) (f : Port → Port) : (s.updPort p f).allots = s.allots := rfl
@[simp] theorem State.updPort_bell (p : Nat) (f : Port → Port) : (s.updPort p f).bell = s.bell := rfl
@[simp] theorem State.updPort_hub (p : Nat) (f : Port → Port) : (s.updPort p f).hub = s.hub := rfl
@[simp] theorem State.updPort_hubWait (p : Nat) (f : Port → Port) : (s.updPort p f).hubWait = s.hubWait := rfl
@[simp] theorem State.updPort_tallyOps (p : Nat) (f : Port → Port) : (s.updPort p f).tallyOps = s.tallyOps := rfl
@[simp] theorem State.updPort_crierSeq (p : Nat) (f : Port → Port) : (s.updPort p f).crierSeq = s.crierSeq := rfl
@[simp] theorem State.updPort_stirred (p : Nat) (f : Port → Port) : (s.updPort p f).stirred = s.stirred := rfl
@[simp] theorem State.updPort_reqs (p : Nat) (f : Port → Port) : (s.updPort p f).reqs = s.reqs := rfl
@[simp] theorem State.updPort_nextReq (p : Nat) (f : Port → Port) : (s.updPort p f).nextReq = s.nextReq := rfl
@[simp] theorem State.updPort_mem (p : Nat) (f : Port → Port) : (s.updPort p f).mem = s.mem := rfl
@[simp] theorem State.updPort_memInit (p : Nat) (f : Port → Port) : (s.updPort p f).memInit = s.memInit := rfl
@[simp] theorem State.updPort_memPoison (p : Nat) (f : Port → Port) : (s.updPort p f).memPoison = s.memPoison := rfl
@[simp] theorem State.updPort_memFills (p : Nat) (f : Port → Port) : (s.updPort p f).memFills = s.memFills := rfl
@[simp] theorem State.updPort_memUe (p : Nat) (f : Port → Port) : (s.updPort p f).memUe = s.memUe := rfl
@[simp] theorem State.updPort_memCe (p : Nat) (f : Port → Port) : (s.updPort p f).memCe = s.memCe := rfl
@[simp] theorem State.updPort_mcs (p : Nat) (f : Port → Port) : (s.updPort p f).mcs = s.mcs := rfl
@[simp] theorem State.updPort_clk (p : Nat) (f : Port → Port) : (s.updPort p f).clk = s.clk := rfl
@[simp] theorem State.updPort_routes (p : Nat) (f : Port → Port) : (s.updPort p f).routes = s.routes := rfl
@[simp] theorem State.updPort_reds (p : Nat) (f : Port → Port) : (s.updPort p f).reds = s.reds := rfl
@[simp] theorem State.updPort_rxs (p : Nat) (f : Port → Port) : (s.updPort p f).rxs = s.rxs := rfl
@[simp] theorem State.updPort_fabWait (p : Nat) (f : Port → Port) : (s.updPort p f).fabWait = s.fabWait := rfl
@[simp] theorem State.updPort_fabLocal (p : Nat) (f : Port → Port) : (s.updPort p f).fabLocal = s.fabLocal := rfl
@[simp] theorem State.updPort_crierHeld (p : Nat) (f : Port → Port) : (s.updPort p f).crierHeld = s.crierHeld := rfl
@[simp] theorem State.updPort_routeBusy (p : Nat) (f : Port → Port) : (s.updPort p f).routeBusy = s.routeBusy := rfl
@[simp] theorem State.updPort_ses (p : Nat) (f : Port → Port) : (s.updPort p f).ses = s.ses := rfl
@[simp] theorem State.updPort_qps (p : Nat) (f : Port → Port) : (s.updPort p f).qps = s.qps := rfl
@[simp] theorem State.updPort_ledger (p : Nat) (f : Port → Port) : (s.updPort p f).ledger = s.ledger := rfl
@[simp] theorem State.updPort_tod (p : Nat) (f : Port → Port) : (s.updPort p f).tod = s.tod := rfl
@[simp] theorem State.updPort_hps (p : Nat) (f : Port → Port) : (s.updPort p f).hps = s.hps := rfl
@[simp] theorem State.updPort_reeve (p : Nat) (f : Port → Port) : (s.updPort p f).reeve = s.reeve := rfl
@[simp] theorem State.updPort_guests (p : Nat) (f : Port → Port) : (s.updPort p f).guests = s.guests := rfl
@[simp] theorem State.updPort_guestReqs (p : Nat) (f : Port → Port) : (s.updPort p f).guestReqs = s.guestReqs := rfl
@[simp] theorem State.updPort_spdmVer (p : Nat) (f : Port → Port) : (s.updPort p f).spdmVer = s.spdmVer := rfl
@[simp] theorem State.updPort_spdmAlgo (p : Nat) (f : Port → Port) : (s.updPort p f).spdmAlgo = s.spdmAlgo := rfl
@[simp] theorem State.updPort_ras (p : Nat) (f : Port → Port) : (s.updPort p f).ras = s.ras := rfl
@[simp] theorem State.updPort_unreadBoard (p : Nat) (f : Port → Port) : (s.updPort p f).unreadBoard = s.unreadBoard := rfl
@[simp] theorem State.updPort_regs (p : Nat) (f : Port → Port) : (s.updPort p f).regs = s.regs := rfl
@[simp] theorem State.updPort_guards (p : Nat) (f : Port → Port) : (s.updPort p f).guards = s.guards := rfl
@[simp] theorem State.updPort_posted (p : Nat) (f : Port → Port) : (s.updPort p f).posted = s.posted := rfl
@[simp] theorem State.updPort_fresh (p : Nat) (f : Port → Port) : (s.updPort p f).fresh = s.fresh := rfl
@[simp] theorem State.updPort_events (p : Nat) (f : Port → Port) : (s.updPort p f).events = s.events := rfl
@[simp] theorem State.updPort_out (p : Nat) (f : Port → Port) : (s.updPort p f).out = s.out := rfl
@[simp] theorem State.updPort_pending (p : Nat) (f : Port → Port) : (s.updPort p f).pending = s.pending := rfl
@[simp] theorem State.setReeve_pins (r : Reeve) : (s.setReeve r).pins = s.pins := rfl
@[simp] theorem State.setReeve_boot (r : Reeve) : (s.setReeve r).boot = s.boot := rfl
@[simp] theorem State.setReeve_store (r : Reeve) : (s.setReeve r).store = s.store := rfl
@[simp] theorem State.setReeve_failedRegs (r : Reeve) : (s.setReeve r).failedRegs = s.failedRegs := rfl
@[simp] theorem State.setReeve_fuses (r : Reeve) : (s.setReeve r).fuses = s.fuses := rfl
@[simp] theorem State.setReeve_cores (r : Reeve) : (s.setReeve r).cores = s.cores := rfl
@[simp] theorem State.setReeve_xroads (r : Reeve) : (s.setReeve r).xroads = s.xroads := rfl
@[simp] theorem State.setReeve_parishes (r : Reeve) : (s.setReeve r).parishes = s.parishes := rfl
@[simp] theorem State.setReeve_allots (r : Reeve) : (s.setReeve r).allots = s.allots := rfl
@[simp] theorem State.setReeve_bell (r : Reeve) : (s.setReeve r).bell = s.bell := rfl
@[simp] theorem State.setReeve_hub (r : Reeve) : (s.setReeve r).hub = s.hub := rfl
@[simp] theorem State.setReeve_hubWait (r : Reeve) : (s.setReeve r).hubWait = s.hubWait := rfl
@[simp] theorem State.setReeve_tallyOps (r : Reeve) : (s.setReeve r).tallyOps = s.tallyOps := rfl
@[simp] theorem State.setReeve_crierSeq (r : Reeve) : (s.setReeve r).crierSeq = s.crierSeq := rfl
@[simp] theorem State.setReeve_stirred (r : Reeve) : (s.setReeve r).stirred = s.stirred := rfl
@[simp] theorem State.setReeve_reqs (r : Reeve) : (s.setReeve r).reqs = s.reqs := rfl
@[simp] theorem State.setReeve_nextReq (r : Reeve) : (s.setReeve r).nextReq = s.nextReq := rfl
@[simp] theorem State.setReeve_mem (r : Reeve) : (s.setReeve r).mem = s.mem := rfl
@[simp] theorem State.setReeve_memInit (r : Reeve) : (s.setReeve r).memInit = s.memInit := rfl
@[simp] theorem State.setReeve_memPoison (r : Reeve) : (s.setReeve r).memPoison = s.memPoison := rfl
@[simp] theorem State.setReeve_memFills (r : Reeve) : (s.setReeve r).memFills = s.memFills := rfl
@[simp] theorem State.setReeve_memUe (r : Reeve) : (s.setReeve r).memUe = s.memUe := rfl
@[simp] theorem State.setReeve_memCe (r : Reeve) : (s.setReeve r).memCe = s.memCe := rfl
@[simp] theorem State.setReeve_mcs (r : Reeve) : (s.setReeve r).mcs = s.mcs := rfl
@[simp] theorem State.setReeve_clk (r : Reeve) : (s.setReeve r).clk = s.clk := rfl
@[simp] theorem State.setReeve_ports (r : Reeve) : (s.setReeve r).ports = s.ports := rfl
@[simp] theorem State.setReeve_routes (r : Reeve) : (s.setReeve r).routes = s.routes := rfl
@[simp] theorem State.setReeve_reds (r : Reeve) : (s.setReeve r).reds = s.reds := rfl
@[simp] theorem State.setReeve_rxs (r : Reeve) : (s.setReeve r).rxs = s.rxs := rfl
@[simp] theorem State.setReeve_fabWait (r : Reeve) : (s.setReeve r).fabWait = s.fabWait := rfl
@[simp] theorem State.setReeve_fabLocal (r : Reeve) : (s.setReeve r).fabLocal = s.fabLocal := rfl
@[simp] theorem State.setReeve_crierHeld (r : Reeve) : (s.setReeve r).crierHeld = s.crierHeld := rfl
@[simp] theorem State.setReeve_routeBusy (r : Reeve) : (s.setReeve r).routeBusy = s.routeBusy := rfl
@[simp] theorem State.setReeve_ses (r : Reeve) : (s.setReeve r).ses = s.ses := rfl
@[simp] theorem State.setReeve_qps (r : Reeve) : (s.setReeve r).qps = s.qps := rfl
@[simp] theorem State.setReeve_ledger (r : Reeve) : (s.setReeve r).ledger = s.ledger := rfl
@[simp] theorem State.setReeve_tod (r : Reeve) : (s.setReeve r).tod = s.tod := rfl
@[simp] theorem State.setReeve_hps (r : Reeve) : (s.setReeve r).hps = s.hps := rfl
@[simp] theorem State.setReeve_guests (r : Reeve) : (s.setReeve r).guests = s.guests := rfl
@[simp] theorem State.setReeve_guestReqs (r : Reeve) : (s.setReeve r).guestReqs = s.guestReqs := rfl
@[simp] theorem State.setReeve_spdmVer (r : Reeve) : (s.setReeve r).spdmVer = s.spdmVer := rfl
@[simp] theorem State.setReeve_spdmAlgo (r : Reeve) : (s.setReeve r).spdmAlgo = s.spdmAlgo := rfl
@[simp] theorem State.setReeve_ras (r : Reeve) : (s.setReeve r).ras = s.ras := rfl
@[simp] theorem State.setReeve_unreadBoard (r : Reeve) : (s.setReeve r).unreadBoard = s.unreadBoard := rfl
@[simp] theorem State.setReeve_regs (r : Reeve) : (s.setReeve r).regs = s.regs := rfl
@[simp] theorem State.setReeve_guards (r : Reeve) : (s.setReeve r).guards = s.guards := rfl
@[simp] theorem State.setReeve_posted (r : Reeve) : (s.setReeve r).posted = s.posted := rfl
@[simp] theorem State.setReeve_fresh (r : Reeve) : (s.setReeve r).fresh = s.fresh := rfl
@[simp] theorem State.setReeve_events (r : Reeve) : (s.setReeve r).events = s.events := rfl
@[simp] theorem State.setReeve_out (r : Reeve) : (s.setReeve r).out = s.out := rfl
@[simp] theorem State.setReeve_pending (r : Reeve) : (s.setReeve r).pending = s.pending := rfl
@[simp] theorem State.setGuest_pins (i : Nat) (g : Guest) : (s.setGuest i g).pins = s.pins := rfl
@[simp] theorem State.setGuest_boot (i : Nat) (g : Guest) : (s.setGuest i g).boot = s.boot := rfl
@[simp] theorem State.setGuest_store (i : Nat) (g : Guest) : (s.setGuest i g).store = s.store := rfl
@[simp] theorem State.setGuest_failedRegs (i : Nat) (g : Guest) : (s.setGuest i g).failedRegs = s.failedRegs := rfl
@[simp] theorem State.setGuest_fuses (i : Nat) (g : Guest) : (s.setGuest i g).fuses = s.fuses := rfl
@[simp] theorem State.setGuest_cores (i : Nat) (g : Guest) : (s.setGuest i g).cores = s.cores := rfl
@[simp] theorem State.setGuest_xroads (i : Nat) (g : Guest) : (s.setGuest i g).xroads = s.xroads := rfl
@[simp] theorem State.setGuest_parishes (i : Nat) (g : Guest) : (s.setGuest i g).parishes = s.parishes := rfl
@[simp] theorem State.setGuest_allots (i : Nat) (g : Guest) : (s.setGuest i g).allots = s.allots := rfl
@[simp] theorem State.setGuest_bell (i : Nat) (g : Guest) : (s.setGuest i g).bell = s.bell := rfl
@[simp] theorem State.setGuest_hub (i : Nat) (g : Guest) : (s.setGuest i g).hub = s.hub := rfl
@[simp] theorem State.setGuest_hubWait (i : Nat) (g : Guest) : (s.setGuest i g).hubWait = s.hubWait := rfl
@[simp] theorem State.setGuest_tallyOps (i : Nat) (g : Guest) : (s.setGuest i g).tallyOps = s.tallyOps := rfl
@[simp] theorem State.setGuest_crierSeq (i : Nat) (g : Guest) : (s.setGuest i g).crierSeq = s.crierSeq := rfl
@[simp] theorem State.setGuest_stirred (i : Nat) (g : Guest) : (s.setGuest i g).stirred = s.stirred := rfl
@[simp] theorem State.setGuest_reqs (i : Nat) (g : Guest) : (s.setGuest i g).reqs = s.reqs := rfl
@[simp] theorem State.setGuest_nextReq (i : Nat) (g : Guest) : (s.setGuest i g).nextReq = s.nextReq := rfl
@[simp] theorem State.setGuest_mem (i : Nat) (g : Guest) : (s.setGuest i g).mem = s.mem := rfl
@[simp] theorem State.setGuest_memInit (i : Nat) (g : Guest) : (s.setGuest i g).memInit = s.memInit := rfl
@[simp] theorem State.setGuest_memPoison (i : Nat) (g : Guest) : (s.setGuest i g).memPoison = s.memPoison := rfl
@[simp] theorem State.setGuest_memFills (i : Nat) (g : Guest) : (s.setGuest i g).memFills = s.memFills := rfl
@[simp] theorem State.setGuest_memUe (i : Nat) (g : Guest) : (s.setGuest i g).memUe = s.memUe := rfl
@[simp] theorem State.setGuest_memCe (i : Nat) (g : Guest) : (s.setGuest i g).memCe = s.memCe := rfl
@[simp] theorem State.setGuest_mcs (i : Nat) (g : Guest) : (s.setGuest i g).mcs = s.mcs := rfl
@[simp] theorem State.setGuest_clk (i : Nat) (g : Guest) : (s.setGuest i g).clk = s.clk := rfl
@[simp] theorem State.setGuest_ports (i : Nat) (g : Guest) : (s.setGuest i g).ports = s.ports := rfl
@[simp] theorem State.setGuest_routes (i : Nat) (g : Guest) : (s.setGuest i g).routes = s.routes := rfl
@[simp] theorem State.setGuest_reds (i : Nat) (g : Guest) : (s.setGuest i g).reds = s.reds := rfl
@[simp] theorem State.setGuest_rxs (i : Nat) (g : Guest) : (s.setGuest i g).rxs = s.rxs := rfl
@[simp] theorem State.setGuest_fabWait (i : Nat) (g : Guest) : (s.setGuest i g).fabWait = s.fabWait := rfl
@[simp] theorem State.setGuest_fabLocal (i : Nat) (g : Guest) : (s.setGuest i g).fabLocal = s.fabLocal := rfl
@[simp] theorem State.setGuest_crierHeld (i : Nat) (g : Guest) : (s.setGuest i g).crierHeld = s.crierHeld := rfl
@[simp] theorem State.setGuest_routeBusy (i : Nat) (g : Guest) : (s.setGuest i g).routeBusy = s.routeBusy := rfl
@[simp] theorem State.setGuest_ses (i : Nat) (g : Guest) : (s.setGuest i g).ses = s.ses := rfl
@[simp] theorem State.setGuest_qps (i : Nat) (g : Guest) : (s.setGuest i g).qps = s.qps := rfl
@[simp] theorem State.setGuest_ledger (i : Nat) (g : Guest) : (s.setGuest i g).ledger = s.ledger := rfl
@[simp] theorem State.setGuest_tod (i : Nat) (g : Guest) : (s.setGuest i g).tod = s.tod := rfl
@[simp] theorem State.setGuest_hps (i : Nat) (g : Guest) : (s.setGuest i g).hps = s.hps := rfl
@[simp] theorem State.setGuest_reeve (i : Nat) (g : Guest) : (s.setGuest i g).reeve = s.reeve := rfl
@[simp] theorem State.setGuest_guestReqs (i : Nat) (g : Guest) : (s.setGuest i g).guestReqs = s.guestReqs := rfl
@[simp] theorem State.setGuest_spdmVer (i : Nat) (g : Guest) : (s.setGuest i g).spdmVer = s.spdmVer := rfl
@[simp] theorem State.setGuest_spdmAlgo (i : Nat) (g : Guest) : (s.setGuest i g).spdmAlgo = s.spdmAlgo := rfl
@[simp] theorem State.setGuest_ras (i : Nat) (g : Guest) : (s.setGuest i g).ras = s.ras := rfl
@[simp] theorem State.setGuest_unreadBoard (i : Nat) (g : Guest) : (s.setGuest i g).unreadBoard = s.unreadBoard := rfl
@[simp] theorem State.setGuest_regs (i : Nat) (g : Guest) : (s.setGuest i g).regs = s.regs := rfl
@[simp] theorem State.setGuest_guards (i : Nat) (g : Guest) : (s.setGuest i g).guards = s.guards := rfl
@[simp] theorem State.setGuest_posted (i : Nat) (g : Guest) : (s.setGuest i g).posted = s.posted := rfl
@[simp] theorem State.setGuest_fresh (i : Nat) (g : Guest) : (s.setGuest i g).fresh = s.fresh := rfl
@[simp] theorem State.setGuest_events (i : Nat) (g : Guest) : (s.setGuest i g).events = s.events := rfl
@[simp] theorem State.setGuest_out (i : Nat) (g : Guest) : (s.setGuest i g).out = s.out := rfl
@[simp] theorem State.setGuest_pending (i : Nat) (g : Guest) : (s.setGuest i g).pending = s.pending := rfl
@[simp] theorem State.setHp_pins (h : Nat) (x : HostPort) : (s.setHp h x).pins = s.pins := rfl
@[simp] theorem State.setHp_boot (h : Nat) (x : HostPort) : (s.setHp h x).boot = s.boot := rfl
@[simp] theorem State.setHp_store (h : Nat) (x : HostPort) : (s.setHp h x).store = s.store := rfl
@[simp] theorem State.setHp_failedRegs (h : Nat) (x : HostPort) : (s.setHp h x).failedRegs = s.failedRegs := rfl
@[simp] theorem State.setHp_fuses (h : Nat) (x : HostPort) : (s.setHp h x).fuses = s.fuses := rfl
@[simp] theorem State.setHp_cores (h : Nat) (x : HostPort) : (s.setHp h x).cores = s.cores := rfl
@[simp] theorem State.setHp_xroads (h : Nat) (x : HostPort) : (s.setHp h x).xroads = s.xroads := rfl
@[simp] theorem State.setHp_parishes (h : Nat) (x : HostPort) : (s.setHp h x).parishes = s.parishes := rfl
@[simp] theorem State.setHp_allots (h : Nat) (x : HostPort) : (s.setHp h x).allots = s.allots := rfl
@[simp] theorem State.setHp_bell (h : Nat) (x : HostPort) : (s.setHp h x).bell = s.bell := rfl
@[simp] theorem State.setHp_hub (h : Nat) (x : HostPort) : (s.setHp h x).hub = s.hub := rfl
@[simp] theorem State.setHp_hubWait (h : Nat) (x : HostPort) : (s.setHp h x).hubWait = s.hubWait := rfl
@[simp] theorem State.setHp_tallyOps (h : Nat) (x : HostPort) : (s.setHp h x).tallyOps = s.tallyOps := rfl
@[simp] theorem State.setHp_crierSeq (h : Nat) (x : HostPort) : (s.setHp h x).crierSeq = s.crierSeq := rfl
@[simp] theorem State.setHp_stirred (h : Nat) (x : HostPort) : (s.setHp h x).stirred = s.stirred := rfl
@[simp] theorem State.setHp_reqs (h : Nat) (x : HostPort) : (s.setHp h x).reqs = s.reqs := rfl
@[simp] theorem State.setHp_nextReq (h : Nat) (x : HostPort) : (s.setHp h x).nextReq = s.nextReq := rfl
@[simp] theorem State.setHp_mem (h : Nat) (x : HostPort) : (s.setHp h x).mem = s.mem := rfl
@[simp] theorem State.setHp_memInit (h : Nat) (x : HostPort) : (s.setHp h x).memInit = s.memInit := rfl
@[simp] theorem State.setHp_memPoison (h : Nat) (x : HostPort) : (s.setHp h x).memPoison = s.memPoison := rfl
@[simp] theorem State.setHp_memFills (h : Nat) (x : HostPort) : (s.setHp h x).memFills = s.memFills := rfl
@[simp] theorem State.setHp_memUe (h : Nat) (x : HostPort) : (s.setHp h x).memUe = s.memUe := rfl
@[simp] theorem State.setHp_memCe (h : Nat) (x : HostPort) : (s.setHp h x).memCe = s.memCe := rfl
@[simp] theorem State.setHp_mcs (h : Nat) (x : HostPort) : (s.setHp h x).mcs = s.mcs := rfl
@[simp] theorem State.setHp_clk (h : Nat) (x : HostPort) : (s.setHp h x).clk = s.clk := rfl
@[simp] theorem State.setHp_ports (h : Nat) (x : HostPort) : (s.setHp h x).ports = s.ports := rfl
@[simp] theorem State.setHp_routes (h : Nat) (x : HostPort) : (s.setHp h x).routes = s.routes := rfl
@[simp] theorem State.setHp_reds (h : Nat) (x : HostPort) : (s.setHp h x).reds = s.reds := rfl
@[simp] theorem State.setHp_rxs (h : Nat) (x : HostPort) : (s.setHp h x).rxs = s.rxs := rfl
@[simp] theorem State.setHp_fabWait (h : Nat) (x : HostPort) : (s.setHp h x).fabWait = s.fabWait := rfl
@[simp] theorem State.setHp_fabLocal (h : Nat) (x : HostPort) : (s.setHp h x).fabLocal = s.fabLocal := rfl
@[simp] theorem State.setHp_crierHeld (h : Nat) (x : HostPort) : (s.setHp h x).crierHeld = s.crierHeld := rfl
@[simp] theorem State.setHp_routeBusy (h : Nat) (x : HostPort) : (s.setHp h x).routeBusy = s.routeBusy := rfl
@[simp] theorem State.setHp_ses (h : Nat) (x : HostPort) : (s.setHp h x).ses = s.ses := rfl
@[simp] theorem State.setHp_qps (h : Nat) (x : HostPort) : (s.setHp h x).qps = s.qps := rfl
@[simp] theorem State.setHp_ledger (h : Nat) (x : HostPort) : (s.setHp h x).ledger = s.ledger := rfl
@[simp] theorem State.setHp_tod (h : Nat) (x : HostPort) : (s.setHp h x).tod = s.tod := rfl
@[simp] theorem State.setHp_reeve (h : Nat) (x : HostPort) : (s.setHp h x).reeve = s.reeve := rfl
@[simp] theorem State.setHp_guests (h : Nat) (x : HostPort) : (s.setHp h x).guests = s.guests := rfl
@[simp] theorem State.setHp_guestReqs (h : Nat) (x : HostPort) : (s.setHp h x).guestReqs = s.guestReqs := rfl
@[simp] theorem State.setHp_spdmVer (h : Nat) (x : HostPort) : (s.setHp h x).spdmVer = s.spdmVer := rfl
@[simp] theorem State.setHp_spdmAlgo (h : Nat) (x : HostPort) : (s.setHp h x).spdmAlgo = s.spdmAlgo := rfl
@[simp] theorem State.setHp_ras (h : Nat) (x : HostPort) : (s.setHp h x).ras = s.ras := rfl
@[simp] theorem State.setHp_unreadBoard (h : Nat) (x : HostPort) : (s.setHp h x).unreadBoard = s.unreadBoard := rfl
@[simp] theorem State.setHp_regs (h : Nat) (x : HostPort) : (s.setHp h x).regs = s.regs := rfl
@[simp] theorem State.setHp_guards (h : Nat) (x : HostPort) : (s.setHp h x).guards = s.guards := rfl
@[simp] theorem State.setHp_posted (h : Nat) (x : HostPort) : (s.setHp h x).posted = s.posted := rfl
@[simp] theorem State.setHp_fresh (h : Nat) (x : HostPort) : (s.setHp h x).fresh = s.fresh := rfl
@[simp] theorem State.setHp_events (h : Nat) (x : HostPort) : (s.setHp h x).events = s.events := rfl
@[simp] theorem State.setHp_out (h : Nat) (x : HostPort) : (s.setHp h x).out = s.out := rfl
@[simp] theorem State.setHp_pending (h : Nat) (x : HostPort) : (s.setHp h x).pending = s.pending := rfl
@[simp] theorem State.setBell_pins (b : Bell) : (s.setBell b).pins = s.pins := rfl
@[simp] theorem State.setBell_boot (b : Bell) : (s.setBell b).boot = s.boot := rfl
@[simp] theorem State.setBell_store (b : Bell) : (s.setBell b).store = s.store := rfl
@[simp] theorem State.setBell_failedRegs (b : Bell) : (s.setBell b).failedRegs = s.failedRegs := rfl
@[simp] theorem State.setBell_fuses (b : Bell) : (s.setBell b).fuses = s.fuses := rfl
@[simp] theorem State.setBell_cores (b : Bell) : (s.setBell b).cores = s.cores := rfl
@[simp] theorem State.setBell_xroads (b : Bell) : (s.setBell b).xroads = s.xroads := rfl
@[simp] theorem State.setBell_parishes (b : Bell) : (s.setBell b).parishes = s.parishes := rfl
@[simp] theorem State.setBell_allots (b : Bell) : (s.setBell b).allots = s.allots := rfl
@[simp] theorem State.setBell_hub (b : Bell) : (s.setBell b).hub = s.hub := rfl
@[simp] theorem State.setBell_hubWait (b : Bell) : (s.setBell b).hubWait = s.hubWait := rfl
@[simp] theorem State.setBell_tallyOps (b : Bell) : (s.setBell b).tallyOps = s.tallyOps := rfl
@[simp] theorem State.setBell_crierSeq (b : Bell) : (s.setBell b).crierSeq = s.crierSeq := rfl
@[simp] theorem State.setBell_stirred (b : Bell) : (s.setBell b).stirred = s.stirred := rfl
@[simp] theorem State.setBell_reqs (b : Bell) : (s.setBell b).reqs = s.reqs := rfl
@[simp] theorem State.setBell_nextReq (b : Bell) : (s.setBell b).nextReq = s.nextReq := rfl
@[simp] theorem State.setBell_mem (b : Bell) : (s.setBell b).mem = s.mem := rfl
@[simp] theorem State.setBell_memInit (b : Bell) : (s.setBell b).memInit = s.memInit := rfl
@[simp] theorem State.setBell_memPoison (b : Bell) : (s.setBell b).memPoison = s.memPoison := rfl
@[simp] theorem State.setBell_memFills (b : Bell) : (s.setBell b).memFills = s.memFills := rfl
@[simp] theorem State.setBell_memUe (b : Bell) : (s.setBell b).memUe = s.memUe := rfl
@[simp] theorem State.setBell_memCe (b : Bell) : (s.setBell b).memCe = s.memCe := rfl
@[simp] theorem State.setBell_mcs (b : Bell) : (s.setBell b).mcs = s.mcs := rfl
@[simp] theorem State.setBell_clk (b : Bell) : (s.setBell b).clk = s.clk := rfl
@[simp] theorem State.setBell_ports (b : Bell) : (s.setBell b).ports = s.ports := rfl
@[simp] theorem State.setBell_routes (b : Bell) : (s.setBell b).routes = s.routes := rfl
@[simp] theorem State.setBell_reds (b : Bell) : (s.setBell b).reds = s.reds := rfl
@[simp] theorem State.setBell_rxs (b : Bell) : (s.setBell b).rxs = s.rxs := rfl
@[simp] theorem State.setBell_fabWait (b : Bell) : (s.setBell b).fabWait = s.fabWait := rfl
@[simp] theorem State.setBell_fabLocal (b : Bell) : (s.setBell b).fabLocal = s.fabLocal := rfl
@[simp] theorem State.setBell_crierHeld (b : Bell) : (s.setBell b).crierHeld = s.crierHeld := rfl
@[simp] theorem State.setBell_routeBusy (b : Bell) : (s.setBell b).routeBusy = s.routeBusy := rfl
@[simp] theorem State.setBell_ses (b : Bell) : (s.setBell b).ses = s.ses := rfl
@[simp] theorem State.setBell_qps (b : Bell) : (s.setBell b).qps = s.qps := rfl
@[simp] theorem State.setBell_ledger (b : Bell) : (s.setBell b).ledger = s.ledger := rfl
@[simp] theorem State.setBell_tod (b : Bell) : (s.setBell b).tod = s.tod := rfl
@[simp] theorem State.setBell_hps (b : Bell) : (s.setBell b).hps = s.hps := rfl
@[simp] theorem State.setBell_reeve (b : Bell) : (s.setBell b).reeve = s.reeve := rfl
@[simp] theorem State.setBell_guests (b : Bell) : (s.setBell b).guests = s.guests := rfl
@[simp] theorem State.setBell_guestReqs (b : Bell) : (s.setBell b).guestReqs = s.guestReqs := rfl
@[simp] theorem State.setBell_spdmVer (b : Bell) : (s.setBell b).spdmVer = s.spdmVer := rfl
@[simp] theorem State.setBell_spdmAlgo (b : Bell) : (s.setBell b).spdmAlgo = s.spdmAlgo := rfl
@[simp] theorem State.setBell_ras (b : Bell) : (s.setBell b).ras = s.ras := rfl
@[simp] theorem State.setBell_unreadBoard (b : Bell) : (s.setBell b).unreadBoard = s.unreadBoard := rfl
@[simp] theorem State.setBell_regs (b : Bell) : (s.setBell b).regs = s.regs := rfl
@[simp] theorem State.setBell_guards (b : Bell) : (s.setBell b).guards = s.guards := rfl
@[simp] theorem State.setBell_posted (b : Bell) : (s.setBell b).posted = s.posted := rfl
@[simp] theorem State.setBell_fresh (b : Bell) : (s.setBell b).fresh = s.fresh := rfl
@[simp] theorem State.setBell_events (b : Bell) : (s.setBell b).events = s.events := rfl
@[simp] theorem State.setBell_out (b : Bell) : (s.setBell b).out = s.out := rfl
@[simp] theorem State.setBell_pending (b : Bell) : (s.setBell b).pending = s.pending := rfl
@[simp] theorem State.setGuard_pins (b : Nat) (g : Guard) : (s.setGuard b g).pins = s.pins := rfl
@[simp] theorem State.setGuard_boot (b : Nat) (g : Guard) : (s.setGuard b g).boot = s.boot := rfl
@[simp] theorem State.setGuard_store (b : Nat) (g : Guard) : (s.setGuard b g).store = s.store := rfl
@[simp] theorem State.setGuard_failedRegs (b : Nat) (g : Guard) : (s.setGuard b g).failedRegs = s.failedRegs := rfl
@[simp] theorem State.setGuard_fuses (b : Nat) (g : Guard) : (s.setGuard b g).fuses = s.fuses := rfl
@[simp] theorem State.setGuard_cores (b : Nat) (g : Guard) : (s.setGuard b g).cores = s.cores := rfl
@[simp] theorem State.setGuard_xroads (b : Nat) (g : Guard) : (s.setGuard b g).xroads = s.xroads := rfl
@[simp] theorem State.setGuard_parishes (b : Nat) (g : Guard) : (s.setGuard b g).parishes = s.parishes := rfl
@[simp] theorem State.setGuard_allots (b : Nat) (g : Guard) : (s.setGuard b g).allots = s.allots := rfl
@[simp] theorem State.setGuard_bell (b : Nat) (g : Guard) : (s.setGuard b g).bell = s.bell := rfl
@[simp] theorem State.setGuard_hub (b : Nat) (g : Guard) : (s.setGuard b g).hub = s.hub := rfl
@[simp] theorem State.setGuard_hubWait (b : Nat) (g : Guard) : (s.setGuard b g).hubWait = s.hubWait := rfl
@[simp] theorem State.setGuard_tallyOps (b : Nat) (g : Guard) : (s.setGuard b g).tallyOps = s.tallyOps := rfl
@[simp] theorem State.setGuard_crierSeq (b : Nat) (g : Guard) : (s.setGuard b g).crierSeq = s.crierSeq := rfl
@[simp] theorem State.setGuard_stirred (b : Nat) (g : Guard) : (s.setGuard b g).stirred = s.stirred := rfl
@[simp] theorem State.setGuard_reqs (b : Nat) (g : Guard) : (s.setGuard b g).reqs = s.reqs := rfl
@[simp] theorem State.setGuard_nextReq (b : Nat) (g : Guard) : (s.setGuard b g).nextReq = s.nextReq := rfl
@[simp] theorem State.setGuard_mem (b : Nat) (g : Guard) : (s.setGuard b g).mem = s.mem := rfl
@[simp] theorem State.setGuard_memInit (b : Nat) (g : Guard) : (s.setGuard b g).memInit = s.memInit := rfl
@[simp] theorem State.setGuard_memPoison (b : Nat) (g : Guard) : (s.setGuard b g).memPoison = s.memPoison := rfl
@[simp] theorem State.setGuard_memFills (b : Nat) (g : Guard) : (s.setGuard b g).memFills = s.memFills := rfl
@[simp] theorem State.setGuard_memUe (b : Nat) (g : Guard) : (s.setGuard b g).memUe = s.memUe := rfl
@[simp] theorem State.setGuard_memCe (b : Nat) (g : Guard) : (s.setGuard b g).memCe = s.memCe := rfl
@[simp] theorem State.setGuard_mcs (b : Nat) (g : Guard) : (s.setGuard b g).mcs = s.mcs := rfl
@[simp] theorem State.setGuard_clk (b : Nat) (g : Guard) : (s.setGuard b g).clk = s.clk := rfl
@[simp] theorem State.setGuard_ports (b : Nat) (g : Guard) : (s.setGuard b g).ports = s.ports := rfl
@[simp] theorem State.setGuard_routes (b : Nat) (g : Guard) : (s.setGuard b g).routes = s.routes := rfl
@[simp] theorem State.setGuard_reds (b : Nat) (g : Guard) : (s.setGuard b g).reds = s.reds := rfl
@[simp] theorem State.setGuard_rxs (b : Nat) (g : Guard) : (s.setGuard b g).rxs = s.rxs := rfl
@[simp] theorem State.setGuard_fabWait (b : Nat) (g : Guard) : (s.setGuard b g).fabWait = s.fabWait := rfl
@[simp] theorem State.setGuard_fabLocal (b : Nat) (g : Guard) : (s.setGuard b g).fabLocal = s.fabLocal := rfl
@[simp] theorem State.setGuard_crierHeld (b : Nat) (g : Guard) : (s.setGuard b g).crierHeld = s.crierHeld := rfl
@[simp] theorem State.setGuard_routeBusy (b : Nat) (g : Guard) : (s.setGuard b g).routeBusy = s.routeBusy := rfl
@[simp] theorem State.setGuard_ses (b : Nat) (g : Guard) : (s.setGuard b g).ses = s.ses := rfl
@[simp] theorem State.setGuard_qps (b : Nat) (g : Guard) : (s.setGuard b g).qps = s.qps := rfl
@[simp] theorem State.setGuard_ledger (b : Nat) (g : Guard) : (s.setGuard b g).ledger = s.ledger := rfl
@[simp] theorem State.setGuard_tod (b : Nat) (g : Guard) : (s.setGuard b g).tod = s.tod := rfl
@[simp] theorem State.setGuard_hps (b : Nat) (g : Guard) : (s.setGuard b g).hps = s.hps := rfl
@[simp] theorem State.setGuard_reeve (b : Nat) (g : Guard) : (s.setGuard b g).reeve = s.reeve := rfl
@[simp] theorem State.setGuard_guests (b : Nat) (g : Guard) : (s.setGuard b g).guests = s.guests := rfl
@[simp] theorem State.setGuard_guestReqs (b : Nat) (g : Guard) : (s.setGuard b g).guestReqs = s.guestReqs := rfl
@[simp] theorem State.setGuard_spdmVer (b : Nat) (g : Guard) : (s.setGuard b g).spdmVer = s.spdmVer := rfl
@[simp] theorem State.setGuard_spdmAlgo (b : Nat) (g : Guard) : (s.setGuard b g).spdmAlgo = s.spdmAlgo := rfl
@[simp] theorem State.setGuard_ras (b : Nat) (g : Guard) : (s.setGuard b g).ras = s.ras := rfl
@[simp] theorem State.setGuard_unreadBoard (b : Nat) (g : Guard) : (s.setGuard b g).unreadBoard = s.unreadBoard := rfl
@[simp] theorem State.setGuard_regs (b : Nat) (g : Guard) : (s.setGuard b g).regs = s.regs := rfl
@[simp] theorem State.setGuard_posted (b : Nat) (g : Guard) : (s.setGuard b g).posted = s.posted := rfl
@[simp] theorem State.setGuard_fresh (b : Nat) (g : Guard) : (s.setGuard b g).fresh = s.fresh := rfl
@[simp] theorem State.setGuard_events (b : Nat) (g : Guard) : (s.setGuard b g).events = s.events := rfl
@[simp] theorem State.setGuard_out (b : Nat) (g : Guard) : (s.setGuard b g).out = s.out := rfl
@[simp] theorem State.setGuard_pending (b : Nat) (g : Guard) : (s.setGuard b g).pending = s.pending := rfl
@[simp] theorem State.setRed_pins (i : Nat) (x : Red) : (s.setRed i x).pins = s.pins := rfl
@[simp] theorem State.setRed_boot (i : Nat) (x : Red) : (s.setRed i x).boot = s.boot := rfl
@[simp] theorem State.setRed_store (i : Nat) (x : Red) : (s.setRed i x).store = s.store := rfl
@[simp] theorem State.setRed_failedRegs (i : Nat) (x : Red) : (s.setRed i x).failedRegs = s.failedRegs := rfl
@[simp] theorem State.setRed_fuses (i : Nat) (x : Red) : (s.setRed i x).fuses = s.fuses := rfl
@[simp] theorem State.setRed_cores (i : Nat) (x : Red) : (s.setRed i x).cores = s.cores := rfl
@[simp] theorem State.setRed_xroads (i : Nat) (x : Red) : (s.setRed i x).xroads = s.xroads := rfl
@[simp] theorem State.setRed_parishes (i : Nat) (x : Red) : (s.setRed i x).parishes = s.parishes := rfl
@[simp] theorem State.setRed_allots (i : Nat) (x : Red) : (s.setRed i x).allots = s.allots := rfl
@[simp] theorem State.setRed_bell (i : Nat) (x : Red) : (s.setRed i x).bell = s.bell := rfl
@[simp] theorem State.setRed_hub (i : Nat) (x : Red) : (s.setRed i x).hub = s.hub := rfl
@[simp] theorem State.setRed_hubWait (i : Nat) (x : Red) : (s.setRed i x).hubWait = s.hubWait := rfl
@[simp] theorem State.setRed_tallyOps (i : Nat) (x : Red) : (s.setRed i x).tallyOps = s.tallyOps := rfl
@[simp] theorem State.setRed_crierSeq (i : Nat) (x : Red) : (s.setRed i x).crierSeq = s.crierSeq := rfl
@[simp] theorem State.setRed_stirred (i : Nat) (x : Red) : (s.setRed i x).stirred = s.stirred := rfl
@[simp] theorem State.setRed_reqs (i : Nat) (x : Red) : (s.setRed i x).reqs = s.reqs := rfl
@[simp] theorem State.setRed_nextReq (i : Nat) (x : Red) : (s.setRed i x).nextReq = s.nextReq := rfl
@[simp] theorem State.setRed_mem (i : Nat) (x : Red) : (s.setRed i x).mem = s.mem := rfl
@[simp] theorem State.setRed_memInit (i : Nat) (x : Red) : (s.setRed i x).memInit = s.memInit := rfl
@[simp] theorem State.setRed_memPoison (i : Nat) (x : Red) : (s.setRed i x).memPoison = s.memPoison := rfl
@[simp] theorem State.setRed_memFills (i : Nat) (x : Red) : (s.setRed i x).memFills = s.memFills := rfl
@[simp] theorem State.setRed_memUe (i : Nat) (x : Red) : (s.setRed i x).memUe = s.memUe := rfl
@[simp] theorem State.setRed_memCe (i : Nat) (x : Red) : (s.setRed i x).memCe = s.memCe := rfl
@[simp] theorem State.setRed_mcs (i : Nat) (x : Red) : (s.setRed i x).mcs = s.mcs := rfl
@[simp] theorem State.setRed_clk (i : Nat) (x : Red) : (s.setRed i x).clk = s.clk := rfl
@[simp] theorem State.setRed_ports (i : Nat) (x : Red) : (s.setRed i x).ports = s.ports := rfl
@[simp] theorem State.setRed_routes (i : Nat) (x : Red) : (s.setRed i x).routes = s.routes := rfl
@[simp] theorem State.setRed_rxs (i : Nat) (x : Red) : (s.setRed i x).rxs = s.rxs := rfl
@[simp] theorem State.setRed_fabWait (i : Nat) (x : Red) : (s.setRed i x).fabWait = s.fabWait := rfl
@[simp] theorem State.setRed_fabLocal (i : Nat) (x : Red) : (s.setRed i x).fabLocal = s.fabLocal := rfl
@[simp] theorem State.setRed_crierHeld (i : Nat) (x : Red) : (s.setRed i x).crierHeld = s.crierHeld := rfl
@[simp] theorem State.setRed_routeBusy (i : Nat) (x : Red) : (s.setRed i x).routeBusy = s.routeBusy := rfl
@[simp] theorem State.setRed_ses (i : Nat) (x : Red) : (s.setRed i x).ses = s.ses := rfl
@[simp] theorem State.setRed_qps (i : Nat) (x : Red) : (s.setRed i x).qps = s.qps := rfl
@[simp] theorem State.setRed_ledger (i : Nat) (x : Red) : (s.setRed i x).ledger = s.ledger := rfl
@[simp] theorem State.setRed_tod (i : Nat) (x : Red) : (s.setRed i x).tod = s.tod := rfl
@[simp] theorem State.setRed_hps (i : Nat) (x : Red) : (s.setRed i x).hps = s.hps := rfl
@[simp] theorem State.setRed_reeve (i : Nat) (x : Red) : (s.setRed i x).reeve = s.reeve := rfl
@[simp] theorem State.setRed_guests (i : Nat) (x : Red) : (s.setRed i x).guests = s.guests := rfl
@[simp] theorem State.setRed_guestReqs (i : Nat) (x : Red) : (s.setRed i x).guestReqs = s.guestReqs := rfl
@[simp] theorem State.setRed_spdmVer (i : Nat) (x : Red) : (s.setRed i x).spdmVer = s.spdmVer := rfl
@[simp] theorem State.setRed_spdmAlgo (i : Nat) (x : Red) : (s.setRed i x).spdmAlgo = s.spdmAlgo := rfl
@[simp] theorem State.setRed_ras (i : Nat) (x : Red) : (s.setRed i x).ras = s.ras := rfl
@[simp] theorem State.setRed_unreadBoard (i : Nat) (x : Red) : (s.setRed i x).unreadBoard = s.unreadBoard := rfl
@[simp] theorem State.setRed_regs (i : Nat) (x : Red) : (s.setRed i x).regs = s.regs := rfl
@[simp] theorem State.setRed_guards (i : Nat) (x : Red) : (s.setRed i x).guards = s.guards := rfl
@[simp] theorem State.setRed_posted (i : Nat) (x : Red) : (s.setRed i x).posted = s.posted := rfl
@[simp] theorem State.setRed_fresh (i : Nat) (x : Red) : (s.setRed i x).fresh = s.fresh := rfl
@[simp] theorem State.setRed_events (i : Nat) (x : Red) : (s.setRed i x).events = s.events := rfl
@[simp] theorem State.setRed_out (i : Nat) (x : Red) : (s.setRed i x).out = s.out := rfl
@[simp] theorem State.setRed_pending (i : Nat) (x : Red) : (s.setRed i x).pending = s.pending := rfl
@[simp] theorem State.setRx_pins (i : Nat) (x : Rx) : (s.setRx i x).pins = s.pins := rfl
@[simp] theorem State.setRx_boot (i : Nat) (x : Rx) : (s.setRx i x).boot = s.boot := rfl
@[simp] theorem State.setRx_store (i : Nat) (x : Rx) : (s.setRx i x).store = s.store := rfl
@[simp] theorem State.setRx_failedRegs (i : Nat) (x : Rx) : (s.setRx i x).failedRegs = s.failedRegs := rfl
@[simp] theorem State.setRx_fuses (i : Nat) (x : Rx) : (s.setRx i x).fuses = s.fuses := rfl
@[simp] theorem State.setRx_cores (i : Nat) (x : Rx) : (s.setRx i x).cores = s.cores := rfl
@[simp] theorem State.setRx_xroads (i : Nat) (x : Rx) : (s.setRx i x).xroads = s.xroads := rfl
@[simp] theorem State.setRx_parishes (i : Nat) (x : Rx) : (s.setRx i x).parishes = s.parishes := rfl
@[simp] theorem State.setRx_allots (i : Nat) (x : Rx) : (s.setRx i x).allots = s.allots := rfl
@[simp] theorem State.setRx_bell (i : Nat) (x : Rx) : (s.setRx i x).bell = s.bell := rfl
@[simp] theorem State.setRx_hub (i : Nat) (x : Rx) : (s.setRx i x).hub = s.hub := rfl
@[simp] theorem State.setRx_hubWait (i : Nat) (x : Rx) : (s.setRx i x).hubWait = s.hubWait := rfl
@[simp] theorem State.setRx_tallyOps (i : Nat) (x : Rx) : (s.setRx i x).tallyOps = s.tallyOps := rfl
@[simp] theorem State.setRx_crierSeq (i : Nat) (x : Rx) : (s.setRx i x).crierSeq = s.crierSeq := rfl
@[simp] theorem State.setRx_stirred (i : Nat) (x : Rx) : (s.setRx i x).stirred = s.stirred := rfl
@[simp] theorem State.setRx_reqs (i : Nat) (x : Rx) : (s.setRx i x).reqs = s.reqs := rfl
@[simp] theorem State.setRx_nextReq (i : Nat) (x : Rx) : (s.setRx i x).nextReq = s.nextReq := rfl
@[simp] theorem State.setRx_mem (i : Nat) (x : Rx) : (s.setRx i x).mem = s.mem := rfl
@[simp] theorem State.setRx_memInit (i : Nat) (x : Rx) : (s.setRx i x).memInit = s.memInit := rfl
@[simp] theorem State.setRx_memPoison (i : Nat) (x : Rx) : (s.setRx i x).memPoison = s.memPoison := rfl
@[simp] theorem State.setRx_memFills (i : Nat) (x : Rx) : (s.setRx i x).memFills = s.memFills := rfl
@[simp] theorem State.setRx_memUe (i : Nat) (x : Rx) : (s.setRx i x).memUe = s.memUe := rfl
@[simp] theorem State.setRx_memCe (i : Nat) (x : Rx) : (s.setRx i x).memCe = s.memCe := rfl
@[simp] theorem State.setRx_mcs (i : Nat) (x : Rx) : (s.setRx i x).mcs = s.mcs := rfl
@[simp] theorem State.setRx_clk (i : Nat) (x : Rx) : (s.setRx i x).clk = s.clk := rfl
@[simp] theorem State.setRx_ports (i : Nat) (x : Rx) : (s.setRx i x).ports = s.ports := rfl
@[simp] theorem State.setRx_routes (i : Nat) (x : Rx) : (s.setRx i x).routes = s.routes := rfl
@[simp] theorem State.setRx_reds (i : Nat) (x : Rx) : (s.setRx i x).reds = s.reds := rfl
@[simp] theorem State.setRx_fabWait (i : Nat) (x : Rx) : (s.setRx i x).fabWait = s.fabWait := rfl
@[simp] theorem State.setRx_fabLocal (i : Nat) (x : Rx) : (s.setRx i x).fabLocal = s.fabLocal := rfl
@[simp] theorem State.setRx_crierHeld (i : Nat) (x : Rx) : (s.setRx i x).crierHeld = s.crierHeld := rfl
@[simp] theorem State.setRx_routeBusy (i : Nat) (x : Rx) : (s.setRx i x).routeBusy = s.routeBusy := rfl
@[simp] theorem State.setRx_ses (i : Nat) (x : Rx) : (s.setRx i x).ses = s.ses := rfl
@[simp] theorem State.setRx_qps (i : Nat) (x : Rx) : (s.setRx i x).qps = s.qps := rfl
@[simp] theorem State.setRx_ledger (i : Nat) (x : Rx) : (s.setRx i x).ledger = s.ledger := rfl
@[simp] theorem State.setRx_tod (i : Nat) (x : Rx) : (s.setRx i x).tod = s.tod := rfl
@[simp] theorem State.setRx_hps (i : Nat) (x : Rx) : (s.setRx i x).hps = s.hps := rfl
@[simp] theorem State.setRx_reeve (i : Nat) (x : Rx) : (s.setRx i x).reeve = s.reeve := rfl
@[simp] theorem State.setRx_guests (i : Nat) (x : Rx) : (s.setRx i x).guests = s.guests := rfl
@[simp] theorem State.setRx_guestReqs (i : Nat) (x : Rx) : (s.setRx i x).guestReqs = s.guestReqs := rfl
@[simp] theorem State.setRx_spdmVer (i : Nat) (x : Rx) : (s.setRx i x).spdmVer = s.spdmVer := rfl
@[simp] theorem State.setRx_spdmAlgo (i : Nat) (x : Rx) : (s.setRx i x).spdmAlgo = s.spdmAlgo := rfl
@[simp] theorem State.setRx_ras (i : Nat) (x : Rx) : (s.setRx i x).ras = s.ras := rfl
@[simp] theorem State.setRx_unreadBoard (i : Nat) (x : Rx) : (s.setRx i x).unreadBoard = s.unreadBoard := rfl
@[simp] theorem State.setRx_regs (i : Nat) (x : Rx) : (s.setRx i x).regs = s.regs := rfl
@[simp] theorem State.setRx_guards (i : Nat) (x : Rx) : (s.setRx i x).guards = s.guards := rfl
@[simp] theorem State.setRx_posted (i : Nat) (x : Rx) : (s.setRx i x).posted = s.posted := rfl
@[simp] theorem State.setRx_fresh (i : Nat) (x : Rx) : (s.setRx i x).fresh = s.fresh := rfl
@[simp] theorem State.setRx_events (i : Nat) (x : Rx) : (s.setRx i x).events = s.events := rfl
@[simp] theorem State.setRx_out (i : Nat) (x : Rx) : (s.setRx i x).out = s.out := rfl
@[simp] theorem State.setRx_pending (i : Nat) (x : Rx) : (s.setRx i x).pending = s.pending := rfl
@[simp] theorem State.setSes_pins (i : Nat) (x : Session) : (s.setSes i x).pins = s.pins := rfl
@[simp] theorem State.setSes_boot (i : Nat) (x : Session) : (s.setSes i x).boot = s.boot := rfl
@[simp] theorem State.setSes_store (i : Nat) (x : Session) : (s.setSes i x).store = s.store := rfl
@[simp] theorem State.setSes_failedRegs (i : Nat) (x : Session) : (s.setSes i x).failedRegs = s.failedRegs := rfl
@[simp] theorem State.setSes_fuses (i : Nat) (x : Session) : (s.setSes i x).fuses = s.fuses := rfl
@[simp] theorem State.setSes_cores (i : Nat) (x : Session) : (s.setSes i x).cores = s.cores := rfl
@[simp] theorem State.setSes_xroads (i : Nat) (x : Session) : (s.setSes i x).xroads = s.xroads := rfl
@[simp] theorem State.setSes_parishes (i : Nat) (x : Session) : (s.setSes i x).parishes = s.parishes := rfl
@[simp] theorem State.setSes_allots (i : Nat) (x : Session) : (s.setSes i x).allots = s.allots := rfl
@[simp] theorem State.setSes_bell (i : Nat) (x : Session) : (s.setSes i x).bell = s.bell := rfl
@[simp] theorem State.setSes_hub (i : Nat) (x : Session) : (s.setSes i x).hub = s.hub := rfl
@[simp] theorem State.setSes_hubWait (i : Nat) (x : Session) : (s.setSes i x).hubWait = s.hubWait := rfl
@[simp] theorem State.setSes_tallyOps (i : Nat) (x : Session) : (s.setSes i x).tallyOps = s.tallyOps := rfl
@[simp] theorem State.setSes_crierSeq (i : Nat) (x : Session) : (s.setSes i x).crierSeq = s.crierSeq := rfl
@[simp] theorem State.setSes_stirred (i : Nat) (x : Session) : (s.setSes i x).stirred = s.stirred := rfl
@[simp] theorem State.setSes_reqs (i : Nat) (x : Session) : (s.setSes i x).reqs = s.reqs := rfl
@[simp] theorem State.setSes_nextReq (i : Nat) (x : Session) : (s.setSes i x).nextReq = s.nextReq := rfl
@[simp] theorem State.setSes_mem (i : Nat) (x : Session) : (s.setSes i x).mem = s.mem := rfl
@[simp] theorem State.setSes_memInit (i : Nat) (x : Session) : (s.setSes i x).memInit = s.memInit := rfl
@[simp] theorem State.setSes_memPoison (i : Nat) (x : Session) : (s.setSes i x).memPoison = s.memPoison := rfl
@[simp] theorem State.setSes_memFills (i : Nat) (x : Session) : (s.setSes i x).memFills = s.memFills := rfl
@[simp] theorem State.setSes_memUe (i : Nat) (x : Session) : (s.setSes i x).memUe = s.memUe := rfl
@[simp] theorem State.setSes_memCe (i : Nat) (x : Session) : (s.setSes i x).memCe = s.memCe := rfl
@[simp] theorem State.setSes_mcs (i : Nat) (x : Session) : (s.setSes i x).mcs = s.mcs := rfl
@[simp] theorem State.setSes_clk (i : Nat) (x : Session) : (s.setSes i x).clk = s.clk := rfl
@[simp] theorem State.setSes_ports (i : Nat) (x : Session) : (s.setSes i x).ports = s.ports := rfl
@[simp] theorem State.setSes_routes (i : Nat) (x : Session) : (s.setSes i x).routes = s.routes := rfl
@[simp] theorem State.setSes_reds (i : Nat) (x : Session) : (s.setSes i x).reds = s.reds := rfl
@[simp] theorem State.setSes_rxs (i : Nat) (x : Session) : (s.setSes i x).rxs = s.rxs := rfl
@[simp] theorem State.setSes_fabWait (i : Nat) (x : Session) : (s.setSes i x).fabWait = s.fabWait := rfl
@[simp] theorem State.setSes_fabLocal (i : Nat) (x : Session) : (s.setSes i x).fabLocal = s.fabLocal := rfl
@[simp] theorem State.setSes_crierHeld (i : Nat) (x : Session) : (s.setSes i x).crierHeld = s.crierHeld := rfl
@[simp] theorem State.setSes_routeBusy (i : Nat) (x : Session) : (s.setSes i x).routeBusy = s.routeBusy := rfl
@[simp] theorem State.setSes_qps (i : Nat) (x : Session) : (s.setSes i x).qps = s.qps := rfl
@[simp] theorem State.setSes_ledger (i : Nat) (x : Session) : (s.setSes i x).ledger = s.ledger := rfl
@[simp] theorem State.setSes_tod (i : Nat) (x : Session) : (s.setSes i x).tod = s.tod := rfl
@[simp] theorem State.setSes_hps (i : Nat) (x : Session) : (s.setSes i x).hps = s.hps := rfl
@[simp] theorem State.setSes_reeve (i : Nat) (x : Session) : (s.setSes i x).reeve = s.reeve := rfl
@[simp] theorem State.setSes_guests (i : Nat) (x : Session) : (s.setSes i x).guests = s.guests := rfl
@[simp] theorem State.setSes_guestReqs (i : Nat) (x : Session) : (s.setSes i x).guestReqs = s.guestReqs := rfl
@[simp] theorem State.setSes_spdmVer (i : Nat) (x : Session) : (s.setSes i x).spdmVer = s.spdmVer := rfl
@[simp] theorem State.setSes_spdmAlgo (i : Nat) (x : Session) : (s.setSes i x).spdmAlgo = s.spdmAlgo := rfl
@[simp] theorem State.setSes_ras (i : Nat) (x : Session) : (s.setSes i x).ras = s.ras := rfl
@[simp] theorem State.setSes_unreadBoard (i : Nat) (x : Session) : (s.setSes i x).unreadBoard = s.unreadBoard := rfl
@[simp] theorem State.setSes_regs (i : Nat) (x : Session) : (s.setSes i x).regs = s.regs := rfl
@[simp] theorem State.setSes_guards (i : Nat) (x : Session) : (s.setSes i x).guards = s.guards := rfl
@[simp] theorem State.setSes_posted (i : Nat) (x : Session) : (s.setSes i x).posted = s.posted := rfl
@[simp] theorem State.setSes_fresh (i : Nat) (x : Session) : (s.setSes i x).fresh = s.fresh := rfl
@[simp] theorem State.setSes_events (i : Nat) (x : Session) : (s.setSes i x).events = s.events := rfl
@[simp] theorem State.setSes_out (i : Nat) (x : Session) : (s.setSes i x).out = s.out := rfl
@[simp] theorem State.setSes_pending (i : Nat) (x : Session) : (s.setSes i x).pending = s.pending := rfl

end Sys2Proof.Machine
end

