-- ==== Sys2Proof/Laws/Keeps.lean ====
section
/-! SUPPORT. What the machine's operations and commands leave of the fuses and of the bell counter: one lemma for each, in the order
of the files under Machine/. X_keeps says that operation X keeps both, or that command X answers a next state that keeps both. At the
end, X_maySetBusy says it of register writes and fuse commands, which may also start a fuse command. The operations and commands that
write either (cold reset and the loss of power, programming done, the start of service, the bell tick, joining a domain) are not here. -/

set_option Elab.async false

namespace Sys2Proof.Machine

@[simp] theorem fuses_ite (c : Prop) [Decidable c] (A B : State) : (if c then A else B).fuses = if c then A.fuses else B.fuses :=
  apply_ite State.fuses c A B
@[simp] theorem bell_ite (c : Prop) [Decidable c] (A B : State) : (if c then A else B).bell = if c then A.bell else B.bell :=
  apply_ite State.bell c A B
@[simp] theorem bellCount_ite (c : Prop) [Decidable c] (A B : Bell) : (if c then A else B).count = if c then A.count else B.count :=
  apply_ite Bell.count c A B

@[simp] theorem foldl_keeps {β : Type} (l : List β) (f : State → β → State) (s : State)
    (h : ∀ (s : State) (x : β), (f s x).fuses = s.fuses ∧ (f s x).bell.count = s.bell.count) :
    (l.foldl f s).fuses = s.fuses ∧ (l.foldl f s).bell.count = s.bell.count := by
  induction l generalizing s with
  | nil => simp
  | cons x t ih => simp [ih, h]

theorem ite_keeps {c : Prop} [Decidable c] {A B s : State} (ha : A.fuses = s.fuses ∧ A.bell.count = s.bell.count)
    (hb : B.fuses = s.fuses ∧ B.bell.count = s.bell.count) :
    (if c then A else B).fuses = s.fuses ∧ (if c then A else B).bell.count = s.bell.count := by
  split <;> assumption

@[simp] theorem Bell.stepState_count (b : Bell) : b.stepState.count = b.count := rfl
@[simp] theorem Bell.record_count (b : Bell) (t : Nat) (q : StretchReq) : (b.record t q).count = b.count := by
  unfold Bell.record; split <;> rfl

/-! ### Events.lean -/

@[simp] theorem State.setReg_keeps (s : State) (o : Nat) (v : DWord) :
    (State.setReg s o v).fuses = s.fuses ∧ (State.setReg s o v).bell.count = s.bell.count := by
  simp [State.setReg]

@[simp] theorem State.bump_keeps (s : State) (o : Nat) (n : Nat) :
    (State.bump s o n).fuses = s.fuses ∧ (State.bump s o n).bell.count = s.bell.count := by
  simp [State.bump]

@[simp] theorem State.orReg_keeps (s : State) (o : Nat) (m : DWord) :
    (State.orReg s o m).fuses = s.fuses ∧ (State.orReg s o m).bell.count = s.bell.count := by
  simp [State.orReg]

@[simp] theorem State.drawn_keeps (s : State) :
    (State.drawn s).fuses = s.fuses ∧ (State.drawn s).bell.count = s.bell.count := by
  simp [State.drawn]

@[simp] theorem State.send_keeps (s : State) (o : Out) :
    (State.send s o).fuses = s.fuses ∧ (State.send s o).bell.count = s.bell.count := by
  simp [State.send]

@[simp] theorem State.txOn_keeps (s : State) (qp : Nat) (n : Nat) :
    (State.txOn s qp n).fuses = s.fuses ∧ (State.txOn s qp n).bell.count = s.bell.count := by
  simp [State.txOn]

@[simp] theorem State.hostFetch_keeps (s : State) (qp n : Nat) :
    (s.hostFetch qp n).fuses = s.fuses ∧ (s.hostFetch qp n).bell.count = s.bell.count := by
  unfold State.hostFetch
  generalize mtuFrames n = k
  exact ⟨rfl, rfl⟩

@[simp] theorem State.writeSlot_keeps (s : State) (qp : Nat) (r : Ring) (record : List Byte) :
    (State.writeSlot s qp r record).fuses = s.fuses ∧ (State.writeSlot s qp r record).bell.count = s.bell.count := by
  simp [State.writeSlot]

@[simp] theorem State.writeEvent_keeps (s : State) (id : Nat) (j : Nat) (x : Session) (r : Ring) (e : Event) :
    (State.writeEvent s id j x r e).fuses = s.fuses ∧ (State.writeEvent s id j x r e).bell.count = s.bell.count := by
  simp [State.writeEvent]

@[simp] theorem State.postEvent_keeps (s : State) (id : Nat) (j : Nat) (e : Event) :
    (State.postEvent s id j e).fuses = s.fuses ∧ (State.postEvent s id j e).bell.count = s.bell.count := by
  unfold State.postEvent; (try dsimp only); (repeat' split) <;> simp

@[simp] theorem State.deliver_keeps (s : State) (e : Event) (v2 : Dest) :
    (State.deliver s e v2).fuses = s.fuses ∧ (State.deliver s e v2).bell.count = s.bell.count := by
  unfold State.deliver; (try dsimp only); (repeat' split) <;> simp

@[simp] theorem State.raiseEvent_keeps (s : State) (e : Event) (dests : List Dest) :
    (State.raiseEvent s e dests).fuses = s.fuses ∧ (State.raiseEvent s e dests).bell.count = s.bell.count := by
  simp [State.raiseEvent]

@[simp] theorem State.raise_keeps (s : State) (code : Nat) (al : Option Nat) (payload : List (Nat × Nat)) (dests : List Dest) (count : Nat) :
    (State.raise s code al payload dests count).fuses = s.fuses ∧ (State.raise s code al payload dests count).bell.count = s.bell.count := by
  simp [State.raise]

@[simp] theorem State.raiseA_keeps (s : State) (code : Nat) (a : Nat) (payload : List (Nat × Nat)) :
    (State.raiseA s code a payload).fuses = s.fuses ∧ (State.raiseA s code a payload).bell.count = s.bell.count := by
  simp [State.raiseA]

/-! ### Ops.lean -/

@[simp] theorem State.setCore_keeps (s : State) (p : Pos) (c : Core) :
    (State.setCore s p c).fuses = s.fuses ∧ (State.setCore s p c).bell.count = s.bell.count := by
  simp [State.setCore]

@[simp] theorem State.updCore_keeps (s : State) (p : Pos) (f : Core → Core) :
    (State.updCore s p f).fuses = s.fuses ∧ (State.updCore s p f).bell.count = s.bell.count := by
  simp [State.updCore]

@[simp] theorem State.setXroad_keeps (s : State) (p : Pos) (x : Xroad) :
    (State.setXroad s p x).fuses = s.fuses ∧ (State.setXroad s p x).bell.count = s.bell.count := by
  simp [State.setXroad]

@[simp] theorem State.setParish_keeps (s : State) (p : Nat) (x : Parish) :
    (State.setParish s p x).fuses = s.fuses ∧ (State.setParish s p x).bell.count = s.bell.count := by
  simp [State.setParish]

@[simp] theorem State.updParish_keeps (s : State) (p : Nat) (f : Parish → Parish) :
    (State.updParish s p f).fuses = s.fuses ∧ (State.updParish s p f).bell.count = s.bell.count := by
  simp [State.updParish]

@[simp] theorem State.stir_keeps (s : State) (par : Nat) :
    (State.stir s par).fuses = s.fuses ∧ (State.stir s par).bell.count = s.bell.count := by
  simp [State.stir]

@[simp] theorem State.retire_keeps (s : State) (p : Pos) (c : Core) :
    (State.retire s p c).fuses = s.fuses ∧ (State.retire s p c).bell.count = s.bell.count := by
  simp [State.retire]

@[simp] theorem State.setAllot_keeps (s : State) (a : Nat) (x : Allot) :
    (State.setAllot s a x).fuses = s.fuses ∧ (State.setAllot s a x).bell.count = s.bell.count := by
  simp [State.setAllot]

@[simp] theorem State.updAllot_keeps (s : State) (a : Nat) (f : Allot → Allot) :
    (State.updAllot s a f).fuses = s.fuses ∧ (State.updAllot s a f).bell.count = s.bell.count := by
  simp [State.updAllot]

@[simp] theorem State.updExec_keeps (s : State) (a : Nat) (f : Exec → Exec) :
    (State.updExec s a f).fuses = s.fuses ∧ (State.updExec s a f).bell.count = s.bell.count := by
  simp [State.updExec]

@[simp] theorem State.chargeRun_keeps (s : State) (a : Nat) (r : Option RunId) :
    (State.chargeRun s a r).fuses = s.fuses ∧ (State.chargeRun s a r).bell.count = s.bell.count := by
  unfold State.chargeRun; (try dsimp only); (repeat' split) <;> simp

@[simp] theorem State.chargeCur_keeps (s : State) (a : Nat) :
    (State.chargeCur s a).fuses = s.fuses ∧ (State.chargeCur s a).bell.count = s.bell.count := by
  unfold State.chargeCur; (repeat' split) <;> simp

@[simp] theorem State.note_keeps (s : State) (a : Nat) (kind : Nat) (key : Nat) (r : Option RunId) :
    (State.note s a kind key r).fuses = s.fuses ∧ (State.note s a kind key r).bell.count = s.bell.count := by
  simp [State.note]

@[simp] theorem State.haltNext_keeps (s : State) (a : Nat) (why : HaltWhy) :
    (State.haltNext s a why).fuses = s.fuses ∧ (State.haltNext s a why).bell.count = s.bell.count := by
  simp [State.haltNext]

@[simp] theorem State.failRun_keeps (s : State) (a : Nat) (r : Option RunId) :
    (State.failRun s a r).fuses = s.fuses ∧ (State.failRun s a r).bell.count = s.bell.count := by
  simp [State.failRun]

@[simp] theorem State.degrade_keeps (s : State) (bitNo : Nat) :
    (State.degrade s bitNo).fuses = s.fuses ∧ (State.degrade s bitNo).bell.count = s.bell.count := by
  simp [State.degrade]

@[simp] theorem State.checkGrade_keeps (s : State) :
    (State.checkGrade s).fuses = s.fuses ∧ (State.checkGrade s).bell.count = s.bell.count := by
  unfold State.checkGrade; (try dsimp only); (repeat' split) <;> simp

@[simp] theorem State.failReg_keeps (s : State) (rail : Nat) (second : Bool) :
    (State.failReg s rail second).fuses = s.fuses ∧ (State.failReg s rail second).bell.count = s.bell.count := by
  simp [State.failReg]

@[simp] theorem State.raiseSuspect_keeps (s : State) (i : Nat) (action : Nat) :
    (State.raiseSuspect s i action).fuses = s.fuses ∧ (State.raiseSuspect s i action).bell.count = s.bell.count := by
  simp [State.raiseSuspect]

@[simp] theorem State.softDead_keeps (s : State) (par : Fin 78) (col : Fin 80) (phys : Nat) (i : Option Nat) :
    (State.softDead s par col phys i).fuses = s.fuses ∧ (State.softDead s par col phys i).bell.count = s.bell.count := by
  unfold State.softDead; (try dsimp only); (repeat' split) <;> simp

@[simp] theorem State.strikeSite_keeps (s : State) (p : Pos) (lost : Bool) :
    (State.strikeSite s p lost).fuses = s.fuses ∧ (State.strikeSite s p lost).bell.count = s.bell.count := by
  simp [State.strikeSite]

@[simp] theorem State.strikeParish_keeps (s : State) (par : Nat) :
    (State.strikeParish s par).fuses = s.fuses ∧ (State.strikeParish s par).bell.count = s.bell.count := by
  unfold State.strikeParish; (try dsimp only); (repeat' split) <;> simp

@[simp] theorem State.appendFails_keeps (s : State) (typ : Nat) (okA : Bool) (okB : Bool) :
    (State.appendFails s typ okA okB).fuses = s.fuses ∧ (State.appendFails s typ okA okB).bell.count = s.bell.count := by
  simp [State.appendFails]

@[simp] theorem State.appendPpr_keeps (s : State) (okA : Bool) (okB : Bool) :
    (State.appendPpr s okA okB).fuses = s.fuses ∧ (State.appendPpr s okA okB).bell.count = s.bell.count := by
  simp [State.appendPpr]

@[simp] theorem State.listRows_keeps (s : State) (l : List (Nat × Word)) :
    (State.listRows s l).fuses = s.fuses ∧ (State.listRows s l).bell.count = s.bell.count := by
  simp [State.listRows]

@[simp] theorem State.strikeRow_keeps (s : State) (stack : Nat) (row : Word) :
    (State.strikeRow s stack row).fuses = s.fuses ∧ (State.strikeRow s stack row).bell.count = s.bell.count := by
  simp [State.strikeRow]

@[simp] theorem State.observe_keeps (s : State) (a : Nat) (ends : Bool) (record : List (Nat × Nat)) (r : Option RunId) :
    (State.observe s a ends record r).fuses = s.fuses ∧ (State.observe s a ends record r).bell.count = s.bell.count := by
  simp [State.observe]

@[simp] theorem State.except_keeps (s : State) (p : Pos) (word : Word) (k : Cause) :
    (State.except s p word k).fuses = s.fuses ∧ (State.except s p word k).bell.count = s.bell.count := by
  unfold State.except; (try dsimp only); (repeat' split) <;> simp

/-! ### Reg.lean -/

@[simp] theorem State.setGuard_keeps (s : State) (b : Nat) (g : Guard) :
    (State.setGuard s b g).fuses = s.fuses ∧ (State.setGuard s b g).bell.count = s.bell.count := by
  simp [State.setGuard]

@[simp] theorem State.consumeArm_keeps (s : State) (path : RegPath) (b : Nat) :
    (State.consumeArm s path b).fuses = s.fuses ∧ (State.consumeArm s path b).bell.count = s.bell.count := by
  unfold State.consumeArm; (try dsimp only); (repeat' split) <;> simp

@[simp] theorem State.gate_keeps (s : State) (path : RegPath) (o : Nat) (rwk : Bool) :
    ((State.gate s path o rwk).1).fuses = s.fuses ∧ ((State.gate s path o rwk).1).bell.count = s.bell.count := by
  unfold State.gate; (try dsimp only); (repeat' split) <;> simp

@[simp] theorem State.writeNow_keeps (s : State) (path : RegPath) (o : Nat) (rwk : Bool) (eff : State → State) (heff : ∀ s : State, (eff s).fuses = s.fuses ∧ (eff s).bell.count = s.bell.count) :
    (State.writeNow s path o rwk eff).fuses = s.fuses ∧ (State.writeNow s path o rwk eff).bell.count = s.bell.count := by
  simp [State.writeNow, heff]

@[simp] theorem State.postWrite_keeps (s : State) (path : RegPath) (o : Nat) (value : DWord) (rwk : Bool) (done : State → State) (hdone : ∀ s : State, (done s).fuses = s.fuses ∧ (done s).bell.count = s.bell.count) :
    (State.postWrite s path o value rwk done).fuses = s.fuses ∧ (State.postWrite s path o value rwk done).bell.count = s.bell.count := by
  simp [State.postWrite, hdone]

@[simp] theorem State.countSuspect_keeps (s : State) (t : Nat) :
    (State.countSuspect s t).fuses = s.fuses ∧ (State.countSuspect s t).bell.count = s.bell.count := by
  simp [State.countSuspect]

@[simp] theorem State.forceSuspect_keeps (s : State) (t : Nat) :
    (State.forceSuspect s t).fuses = s.fuses ∧ (State.forceSuspect s t).bell.count = s.bell.count := by
  simp [State.forceSuspect]

@[simp] theorem State.w1c_keeps (s : State) (o : Nat) (m : DWord) (value : DWord) :
    (State.w1c s o m value).fuses = s.fuses ∧ (State.w1c s o m value).bell.count = s.bell.count := by
  simp [State.w1c]

@[simp] theorem State.unlockWrite_keeps (s : State) (path : RegPath) (b : Nat) (value : DWord) :
    (State.unlockWrite s path b value).fuses = s.fuses ∧ (State.unlockWrite s path b value).bell.count = s.bell.count := by
  unfold State.unlockWrite; (try dsimp only); (repeat' split) <;> simp

theorem execUnlock_keeps (path : RegPath) (block : BitVec 24) (value : DWord) (s : State) :
    ∃ t, execUnlock path block value s = .next t ∧ t.fuses = s.fuses ∧ t.bell.count = s.bell.count := by
  refine ⟨_, rfl, ?_⟩; simp

/-! ### Clocks.lean -/

@[simp] theorem State.clkFault_keeps (s : State) (b : Nat) :
    (State.clkFault s b).fuses = s.fuses ∧ (State.clkFault s b).bell.count = s.bell.count := by
  simp [State.clkFault]

@[simp] theorem State.shortPulse_keeps (s : State) :
    (State.shortPulse s).fuses = s.fuses ∧ (State.shortPulse s).bell.count = s.bell.count := by
  simp [State.shortPulse]

@[simp] theorem State.forceSwitch_keeps (s : State) (x : Src) (short : Bool) :
    (State.forceSwitch s x short).fuses = s.fuses ∧ (State.forceSwitch s x short).bell.count = s.bell.count := by
  simp [State.forceSwitch]

@[simp] theorem State.failover_keeps (s : State) (x : Src) (cause : Nat) (short : Bool) :
    (State.failover s x cause short).fuses = s.fuses ∧ (State.failover s x cause short).bell.count = s.bell.count := by
  simp [State.failover]

@[simp] theorem State.stopService_keeps (s : State) :
    (State.stopService s).fuses = s.fuses ∧ (State.stopService s).bell.count = s.bell.count := by
  simp [State.stopService]

@[simp] theorem State.refDown_keeps (s : State) (short : Bool) :
    (State.refDown s short).fuses = s.fuses ∧ (State.refDown s short).bell.count = s.bell.count := by
  unfold State.refDown; (try dsimp only); (repeat' split) <;> simp

@[simp] theorem State.refFault_keeps (s : State) (short : Bool) :
    (State.refFault s short).fuses = s.fuses ∧ (State.refFault s short).bell.count = s.bell.count := by
  unfold State.refFault; (try dsimp only); (repeat' split) <;> simp

@[simp] theorem State.monFault_keeps (s : State) (ratio : Nat) :
    (State.monFault s ratio).fuses = s.fuses ∧ (State.monFault s ratio).bell.count = s.bell.count := by
  simp [State.monFault]

@[simp] theorem State.judgeSelected_keeps (s : State) (cause : Nat) (short : Bool) :
    (State.judgeSelected s cause short).fuses = s.fuses ∧ (State.judgeSelected s cause short).bell.count = s.bell.count := by
  simp [State.judgeSelected]

@[simp] theorem State.judgeSource_keeps (s : State) (x : Src) (limit : Nat) (d : Option Int) (bitFreq : Nat) :
    (State.judgeSource s x limit d bitFreq).fuses = s.fuses ∧ (State.judgeSource s x limit d bitFreq).bell.count = s.bell.count := by
  simp [State.judgeSource]

theorem execMonitorWindow_keeps (o : MonObs) (s : State) :
    ∃ t, execMonitorWindow o s = .next t ∧ t.fuses = s.fuses ∧ t.bell.count = s.bell.count := by
  refine ⟨_, rfl, ?_⟩; simp

@[simp] theorem State.edgeGap_keeps (s : State) (src : Src) (shortPulse : Bool) :
    (State.edgeGap s src shortPulse).fuses = s.fuses ∧ (State.edgeGap s src shortPulse).bell.count = s.bell.count := by
  unfold State.edgeGap; (try dsimp only); (repeat' split) <;> simp

theorem execEdgeGap_keeps (src : Src) (shortPulse : Bool) (s : State) :
    ∃ t, execEdgeGap src shortPulse s = .next t ∧ t.fuses = s.fuses ∧ t.bell.count = s.bell.count := by
  refine ⟨_, rfl, ?_⟩; simp

@[simp] theorem State.timeLane_keeps (s : State) :
    (State.timeLane s).fuses = s.fuses ∧ (State.timeLane s).bell.count = s.bell.count := by
  simp [State.timeLane]

theorem execPrimarySwitch_keeps (s : State) :
    ∃ t, execPrimarySwitch s = .next t ∧ t.fuses = s.fuses ∧ t.bell.count = s.bell.count := by
  refine ⟨_, rfl, ?_⟩; simp

@[simp] theorem State.clkSelectWrite_keeps (s : State) (v : DWord) :
    (State.clkSelectWrite s v).fuses = s.fuses ∧ (State.clkSelectWrite s v).bell.count = s.bell.count := by
  unfold State.clkSelectWrite; (try dsimp only); (repeat' split) <;> simp

theorem execClkSelect_keeps (path : RegPath) (value : DWord) (s : State) :
    ∃ t, execClkSelect path value s = .next t ∧ t.fuses = s.fuses ∧ t.bell.count = s.bell.count := by
  refine ⟨_, rfl, ?_⟩; simp

@[simp] theorem State.refAfterSwitch_keeps (s : State) (short : Bool) :
    (State.refAfterSwitch s short).fuses = s.fuses ∧ (State.refAfterSwitch s short).bell.count = s.bell.count := by
  simp [State.refAfterSwitch]

@[simp] theorem State.fmeterWrite_keeps (s : State) (v : DWord) :
    (State.fmeterWrite s v).fuses = s.fuses ∧ (State.fmeterWrite s v).bell.count = s.bell.count := by
  simp [State.fmeterWrite]

theorem execFmeterStart_keeps (path : RegPath) (value : DWord) (s : State) :
    ∃ t, execFmeterStart path value s = .next t ∧ t.fuses = s.fuses ∧ t.bell.count = s.bell.count := by
  refine ⟨_, rfl, ?_⟩; simp

theorem execFmeterDone_keeps (count : BitVec 48) (s : State) :
    ∃ t, execFmeterDone count s = .next t ∧ t.fuses = s.fuses ∧ t.bell.count = s.bell.count := by
  refine ⟨_, rfl, ?_⟩; simp

theorem execFmeterTimeout_keeps (s : State) :
    ∃ t, execFmeterTimeout s = .next t ∧ t.fuses = s.fuses ∧ t.bell.count = s.bell.count := by
  refine ⟨_, rfl, ?_⟩; simp

/-! ### Operands.lean -/

@[simp] theorem State.runCore_keeps (s : State) (p : Pos) (w : Word) (pr : Pred) (k : Core → Check) (eff : Core → Core) (off : Core → Core) :
    (State.runCore s p w pr k eff off).fuses = s.fuses ∧ (State.runCore s p w pr k eff off).bell.count = s.bell.count := by
  unfold State.runCore; (try dsimp only); (repeat' split) <;> simp

@[simp] theorem State.runWide_keeps (s : State) (p : Pos) (w : Word) (pr : Pred) (k : Core → Check) (eff : State → State) (off : State → State) (heff : ∀ s : State, (eff s).fuses = s.fuses ∧ (eff s).bell.count = s.bell.count) (hoff : ∀ s : State, (off s).fuses = s.fuses ∧ (off s).bell.count = s.bell.count) :
    (State.runWide s p w pr k eff off).fuses = s.fuses ∧ (State.runWide s p w pr k eff off).bell.count = s.bell.count := by
  unfold State.runWide; (try dsimp only); (repeat' split) <;> simp [heff, hoff]

@[simp] theorem State.skipCore_keeps (s : State) (p : Pos) :
    (State.skipCore s p).fuses = s.fuses ∧ (State.skipCore s p).bell.count = s.bell.count := by
  simp [State.skipCore]

@[simp] theorem State.runHold_keeps (s : State) (p : Pos) (w : Word) (pr : Pred) (k : Core → Check) (eff : Core → Core) :
    (State.runHold s p w pr k eff).fuses = s.fuses ∧ (State.runHold s p w pr k eff).bell.count = s.bell.count := by
  simp [State.runHold]

/-! ### Sram.lean -/

@[simp] theorem State.checkCe_keeps (s : State) (p : Pos) :
    (State.checkCe s p).fuses = s.fuses ∧ (State.checkCe s p).bell.count = s.bell.count := by
  simp [State.checkCe]

@[simp] theorem State.raiseDataUe_keeps (s : State) (p : Pos) (word : Word) :
    (State.raiseDataUe s p word).fuses = s.fuses ∧ (State.raiseDataUe s p word).bell.count = s.bell.count := by
  simp [State.raiseDataUe]

@[simp] theorem State.touchSram_keeps (s : State) (p : Pos) (word : Word) (a : Nat) (n : Nat) :
    (State.touchSram s p word a n).fuses = s.fuses ∧ (State.touchSram s p word a n).bell.count = s.bell.count := by
  simp [State.touchSram]

@[simp] theorem State.touchBank_keeps (s : State) (p : Pos) (word : Word) (a : Nat) (n : Nat) :
    (State.touchBank s p word a n).fuses = s.fuses ∧ (State.touchBank s p word a n).bell.count = s.bell.count := by
  simp [State.touchBank]

@[simp] theorem State.touchLocal_keeps (s : State) (p : Pos) (word : Word) (a : Nat) (n : Nat) :
    (State.touchLocal s p word a n).fuses = s.fuses ∧ (State.touchLocal s p word a n).bell.count = s.bell.count := by
  unfold State.touchLocal; (repeat' split) <;> simp

/-! ### Scalar.lean -/

@[simp] theorem aluR_keeps (p : Pos) (func : BitVec 6) (f : FmtR) (op : Word → Word → Word) (s : State) :
    (aluR p func f op s).fuses = s.fuses ∧ (aluR p func f op s).bell.count = s.bell.count := by
  simp [aluR]

@[simp] theorem aluI_keeps (p : Pos) (f3 : BitVec 3) (f : FmtI) (op : Word → Word → Word) (v : Word) (s : State) :
    (aluI p f3 f op v s).fuses = s.fuses ∧ (aluI p f3 f op v s).bell.count = s.bell.count := by
  simp [aluI]

theorem execAdd_keeps (p : Pos) (f : FmtR) (s : State) :
    ∃ t, execAdd p f s = .next t ∧ t.fuses = s.fuses ∧ t.bell.count = s.bell.count := by
  refine ⟨_, rfl, ?_⟩; simp

theorem execSub_keeps (p : Pos) (f : FmtR) (s : State) :
    ∃ t, execSub p f s = .next t ∧ t.fuses = s.fuses ∧ t.bell.count = s.bell.count := by
  refine ⟨_, rfl, ?_⟩; simp

theorem execAnd_keeps (p : Pos) (f : FmtR) (s : State) :
    ∃ t, execAnd p f s = .next t ∧ t.fuses = s.fuses ∧ t.bell.count = s.bell.count := by
  refine ⟨_, rfl, ?_⟩; simp

theorem execOr_keeps (p : Pos) (f : FmtR) (s : State) :
    ∃ t, execOr p f s = .next t ∧ t.fuses = s.fuses ∧ t.bell.count = s.bell.count := by
  refine ⟨_, rfl, ?_⟩; simp

theorem execXor_keeps (p : Pos) (f : FmtR) (s : State) :
    ∃ t, execXor p f s = .next t ∧ t.fuses = s.fuses ∧ t.bell.count = s.bell.count := by
  refine ⟨_, rfl, ?_⟩; simp

theorem execSll_keeps (p : Pos) (f : FmtR) (s : State) :
    ∃ t, execSll p f s = .next t ∧ t.fuses = s.fuses ∧ t.bell.count = s.bell.count := by
  refine ⟨_, rfl, ?_⟩; simp

theorem execSrl_keeps (p : Pos) (f : FmtR) (s : State) :
    ∃ t, execSrl p f s = .next t ∧ t.fuses = s.fuses ∧ t.bell.count = s.bell.count := by
  refine ⟨_, rfl, ?_⟩; simp

theorem execSra_keeps (p : Pos) (f : FmtR) (s : State) :
    ∃ t, execSra p f s = .next t ∧ t.fuses = s.fuses ∧ t.bell.count = s.bell.count := by
  refine ⟨_, rfl, ?_⟩; simp

theorem execSlt_keeps (p : Pos) (f : FmtR) (s : State) :
    ∃ t, execSlt p f s = .next t ∧ t.fuses = s.fuses ∧ t.bell.count = s.bell.count := by
  refine ⟨_, rfl, ?_⟩; simp

theorem execSltu_keeps (p : Pos) (f : FmtR) (s : State) :
    ∃ t, execSltu p f s = .next t ∧ t.fuses = s.fuses ∧ t.bell.count = s.bell.count := by
  refine ⟨_, rfl, ?_⟩; simp

theorem execMin_keeps (p : Pos) (f : FmtR) (s : State) :
    ∃ t, execMin p f s = .next t ∧ t.fuses = s.fuses ∧ t.bell.count = s.bell.count := by
  refine ⟨_, rfl, ?_⟩; simp

theorem execMax_keeps (p : Pos) (f : FmtR) (s : State) :
    ∃ t, execMax p f s = .next t ∧ t.fuses = s.fuses ∧ t.bell.count = s.bell.count := by
  refine ⟨_, rfl, ?_⟩; simp

theorem execMul_keeps (p : Pos) (f : FmtR) (s : State) :
    ∃ t, execMul p f s = .next t ∧ t.fuses = s.fuses ∧ t.bell.count = s.bell.count := by
  refine ⟨_, rfl, ?_⟩; simp

theorem execMulh_keeps (p : Pos) (f : FmtR) (s : State) :
    ∃ t, execMulh p f s = .next t ∧ t.fuses = s.fuses ∧ t.bell.count = s.bell.count := by
  refine ⟨_, rfl, ?_⟩; simp

theorem execMulhu_keeps (p : Pos) (f : FmtR) (s : State) :
    ∃ t, execMulhu p f s = .next t ∧ t.fuses = s.fuses ∧ t.bell.count = s.bell.count := by
  refine ⟨_, rfl, ?_⟩; simp

theorem execDiv_keeps (p : Pos) (f : FmtR) (s : State) :
    ∃ t, execDiv p f s = .next t ∧ t.fuses = s.fuses ∧ t.bell.count = s.bell.count := by
  refine ⟨_, rfl, ?_⟩; simp

theorem execDivu_keeps (p : Pos) (f : FmtR) (s : State) :
    ∃ t, execDivu p f s = .next t ∧ t.fuses = s.fuses ∧ t.bell.count = s.bell.count := by
  refine ⟨_, rfl, ?_⟩; simp

theorem execRem_keeps (p : Pos) (f : FmtR) (s : State) :
    ∃ t, execRem p f s = .next t ∧ t.fuses = s.fuses ∧ t.bell.count = s.bell.count := by
  refine ⟨_, rfl, ?_⟩; simp

theorem execRemu_keeps (p : Pos) (f : FmtR) (s : State) :
    ∃ t, execRemu p f s = .next t ∧ t.fuses = s.fuses ∧ t.bell.count = s.bell.count := by
  refine ⟨_, rfl, ?_⟩; simp

theorem execAddi_keeps (p : Pos) (f : FmtI) (s : State) :
    ∃ t, execAddi p f s = .next t ∧ t.fuses = s.fuses ∧ t.bell.count = s.bell.count := by
  refine ⟨_, rfl, ?_⟩; simp

theorem execSlti_keeps (p : Pos) (f : FmtI) (s : State) :
    ∃ t, execSlti p f s = .next t ∧ t.fuses = s.fuses ∧ t.bell.count = s.bell.count := by
  refine ⟨_, rfl, ?_⟩; simp

theorem execAndi_keeps (p : Pos) (f : FmtI) (s : State) :
    ∃ t, execAndi p f s = .next t ∧ t.fuses = s.fuses ∧ t.bell.count = s.bell.count := by
  refine ⟨_, rfl, ?_⟩; simp

theorem execOri_keeps (p : Pos) (f : FmtI) (s : State) :
    ∃ t, execOri p f s = .next t ∧ t.fuses = s.fuses ∧ t.bell.count = s.bell.count := by
  refine ⟨_, rfl, ?_⟩; simp

theorem execXori_keeps (p : Pos) (f : FmtI) (s : State) :
    ∃ t, execXori p f s = .next t ∧ t.fuses = s.fuses ∧ t.bell.count = s.bell.count := by
  refine ⟨_, rfl, ?_⟩; simp

theorem execSlli_keeps (p : Pos) (f : FmtI) (s : State) :
    ∃ t, execSlli p f s = .next t ∧ t.fuses = s.fuses ∧ t.bell.count = s.bell.count := by
  refine ⟨_, rfl, ?_⟩; simp

theorem execSrli_keeps (p : Pos) (f : FmtI) (s : State) :
    ∃ t, execSrli p f s = .next t ∧ t.fuses = s.fuses ∧ t.bell.count = s.bell.count := by
  refine ⟨_, rfl, ?_⟩; simp

theorem execSrai_keeps (p : Pos) (f : FmtI) (s : State) :
    ∃ t, execSrai p f s = .next t ∧ t.fuses = s.fuses ∧ t.bell.count = s.bell.count := by
  refine ⟨_, rfl, ?_⟩; simp

theorem execLuh_keeps (p : Pos) (f : FmtU) (s : State) :
    ∃ t, execLuh p f s = .next t ∧ t.fuses = s.fuses ∧ t.bell.count = s.bell.count := by
  refine ⟨_, rfl, ?_⟩; simp

theorem execLlo_keeps (p : Pos) (f : FmtU) (s : State) :
    ∃ t, execLlo p f s = .next t ∧ t.fuses = s.fuses ∧ t.bell.count = s.bell.count := by
  refine ⟨_, rfl, ?_⟩; simp

@[simp] theorem scalarLoad_keeps (p : Pos) (f3 : BitVec 3) (f : FmtI) (n : Nat) (conv : Nat → Word) (s : State) :
    (scalarLoad p f3 f n conv s).fuses = s.fuses ∧ (scalarLoad p f3 f n conv s).bell.count = s.bell.count := by
  simp [scalarLoad]

@[simp] theorem scalarStore_keeps (p : Pos) (f3 : BitVec 3) (f : FmtI) (n : Nat) (s : State) :
    (scalarStore p f3 f n s).fuses = s.fuses ∧ (scalarStore p f3 f n s).bell.count = s.bell.count := by
  simp [scalarStore]

theorem execLw_keeps (p : Pos) (f : FmtI) (s : State) :
    ∃ t, execLw p f s = .next t ∧ t.fuses = s.fuses ∧ t.bell.count = s.bell.count := by
  refine ⟨_, rfl, ?_⟩; simp

theorem execSw_keeps (p : Pos) (f : FmtI) (s : State) :
    ∃ t, execSw p f s = .next t ∧ t.fuses = s.fuses ∧ t.bell.count = s.bell.count := by
  refine ⟨_, rfl, ?_⟩; simp

theorem execLh_keeps (p : Pos) (f : FmtI) (s : State) :
    ∃ t, execLh p f s = .next t ∧ t.fuses = s.fuses ∧ t.bell.count = s.bell.count := by
  refine ⟨_, rfl, ?_⟩; simp

theorem execLhu_keeps (p : Pos) (f : FmtI) (s : State) :
    ∃ t, execLhu p f s = .next t ∧ t.fuses = s.fuses ∧ t.bell.count = s.bell.count := by
  refine ⟨_, rfl, ?_⟩; simp

theorem execSh_keeps (p : Pos) (f : FmtI) (s : State) :
    ∃ t, execSh p f s = .next t ∧ t.fuses = s.fuses ∧ t.bell.count = s.bell.count := by
  refine ⟨_, rfl, ?_⟩; simp

@[simp] theorem branchOn_keeps (p : Pos) (cond : BitVec 3) (f : FmtB) (test : Word → Word → Bool) (s : State) :
    (branchOn p cond f test s).fuses = s.fuses ∧ (branchOn p cond f test s).bell.count = s.bell.count := by
  simp [branchOn]

theorem execBranchEq_keeps (p : Pos) (f : FmtB) (s : State) :
    ∃ t, execBranchEq p f s = .next t ∧ t.fuses = s.fuses ∧ t.bell.count = s.bell.count := by
  refine ⟨_, rfl, ?_⟩; simp

theorem execBranchNe_keeps (p : Pos) (f : FmtB) (s : State) :
    ∃ t, execBranchNe p f s = .next t ∧ t.fuses = s.fuses ∧ t.bell.count = s.bell.count := by
  refine ⟨_, rfl, ?_⟩; simp

theorem execBranchLt_keeps (p : Pos) (f : FmtB) (s : State) :
    ∃ t, execBranchLt p f s = .next t ∧ t.fuses = s.fuses ∧ t.bell.count = s.bell.count := by
  refine ⟨_, rfl, ?_⟩; simp

theorem execBranchGe_keeps (p : Pos) (f : FmtB) (s : State) :
    ∃ t, execBranchGe p f s = .next t ∧ t.fuses = s.fuses ∧ t.bell.count = s.bell.count := by
  refine ⟨_, rfl, ?_⟩; simp

theorem execBranchLtu_keeps (p : Pos) (f : FmtB) (s : State) :
    ∃ t, execBranchLtu p f s = .next t ∧ t.fuses = s.fuses ∧ t.bell.count = s.bell.count := by
  refine ⟨_, rfl, ?_⟩; simp

theorem execBranchGeu_keeps (p : Pos) (f : FmtB) (s : State) :
    ∃ t, execBranchGeu p f s = .next t ∧ t.fuses = s.fuses ∧ t.bell.count = s.bell.count := by
  refine ⟨_, rfl, ?_⟩; simp

theorem execLoop_keeps (p : Pos) (f : FmtB) (s : State) :
    ∃ t, execLoop p f s = .next t ∧ t.fuses = s.fuses ∧ t.bell.count = s.bell.count := by
  refine ⟨_, rfl, ?_⟩; simp

theorem execJal_keeps (p : Pos) (f : FmtU) (h : BitVec 1) (s : State) :
    ∃ t, execJal p f h s = .next t ∧ t.fuses = s.fuses ∧ t.bell.count = s.bell.count := by
  refine ⟨_, rfl, ?_⟩; simp

theorem execJalr_keeps (p : Pos) (f : FmtR) (s : State) :
    ∃ t, execJalr p f s = .next t ∧ t.fuses = s.fuses ∧ t.bell.count = s.bell.count := by
  refine ⟨_, rfl, ?_⟩; simp

/-! ### System.lean -/

theorem execNop_keeps (p : Pos) (f : FmtR) (s : State) :
    ∃ t, execNop p f s = .next t ∧ t.fuses = s.fuses ∧ t.bell.count = s.bell.count := by
  refine ⟨_, rfl, ?_⟩; simp

theorem execEndIssue_keeps (p : Pos) (f : FmtR) (s : State) :
    ∃ t, execEndIssue p f s = .next t ∧ t.fuses = s.fuses ∧ t.bell.count = s.bell.count := by
  refine ⟨_, rfl, ?_⟩; simp

theorem execFence_keeps (p : Pos) (f : FmtR) (s : State) :
    ∃ t, execFence p f s = .next t ∧ t.fuses = s.fuses ∧ t.bell.count = s.bell.count := by
  refine ⟨_, rfl, ?_⟩; simp

theorem execFenceDone_keeps (p : Pos) (s : State) :
    ∃ t, execFenceDone p s = .next t ∧ t.fuses = s.fuses ∧ t.bell.count = s.bell.count := by
  refine ⟨_, rfl, ?_⟩; simp

theorem execCsrr_keeps (p : Pos) (f : FmtR) (s : State) :
    ∃ t, execCsrr p f s = .next t ∧ t.fuses = s.fuses ∧ t.bell.count = s.bell.count := by
  refine ⟨_, rfl, ?_⟩; simp

theorem execCsrw_keeps (p : Pos) (f : FmtR) (s : State) :
    ∃ t, execCsrw p f s = .next t ∧ t.fuses = s.fuses ∧ t.bell.count = s.bell.count := by
  refine ⟨_, rfl, ?_⟩; simp

theorem execBellwait_keeps (p : Pos) (f : FmtR) (s : State) :
    ∃ t, execBellwait p f s = .next t ∧ t.fuses = s.fuses ∧ t.bell.count = s.bell.count := by
  refine ⟨_, rfl, ?_⟩; simp

/-! ### Matrix.lean -/

@[simp] theorem State.issueRows_keeps (s : State) (p : Pos) :
    (State.issueRows s p).fuses = s.fuses ∧ (State.issueRows s p).bell.count = s.bell.count := by
  unfold State.issueRows; (try dsimp only); (repeat' split) <;> simp

@[simp] theorem State.engineRuns_keeps (s : State) (p : Pos) :
    (State.engineRuns s p).fuses = s.fuses ∧ (State.engineRuns s p).bell.count = s.bell.count := by
  unfold State.engineRuns; (try dsimp only); (repeat' split) <;> simp

@[simp] theorem State.mqTake_keeps (s : State) (p : Pos) (rest : List MCmd) :
    (State.mqTake s p rest).fuses = s.fuses ∧ (State.mqTake s p rest).bell.count = s.bell.count := by
  unfold State.mqTake; (try dsimp only); (repeat' split) <;> simp

@[simp] theorem State.runMatrix_keeps (s : State) (p : Pos) (v2 : MCmd) :
    (State.runMatrix s p v2).fuses = s.fuses ∧ (State.runMatrix s p v2).bell.count = s.bell.count := by
  unfold State.runMatrix; (try dsimp only); (repeat' split) <;> simp

@[simp] theorem State.startMatrix_keeps (s : State) (p : Pos) (load : Bool) :
    (State.startMatrix s p load).fuses = s.fuses ∧ (State.startMatrix s p load).bell.count = s.bell.count := by
  unfold State.startMatrix; (try dsimp only); (repeat' split) <;> simp

theorem execMatrixCommandStart_keeps (p : Pos) (pipe : Pipe) (s : State) :
    ∃ t, execMatrixCommandStart p pipe s = .next t ∧ t.fuses = s.fuses ∧ t.bell.count = s.bell.count := by
  refine ⟨_, rfl, ?_⟩; (repeat' split) <;> simp

theorem execWld_keeps (p : Pos) (f : FmtM) (s : State) :
    ∃ t, execWld p f s = .next t ∧ t.fuses = s.fuses ∧ t.bell.count = s.bell.count := by
  refine ⟨_, rfl, ?_⟩; simp

theorem execMma_keeps (p : Pos) (f : FmtM) (s : State) :
    ∃ t, execMma p f s = .next t ∧ t.fuses = s.fuses ∧ t.bell.count = s.bell.count := by
  refine ⟨_, rfl, ?_⟩; simp

theorem execAccz_keeps (p : Pos) (f : FmtM) (s : State) :
    ∃ t, execAccz p f s = .next t ∧ t.fuses = s.fuses ∧ t.bell.count = s.bell.count := by
  refine ⟨_, rfl, ?_⟩; simp

theorem execAccrd_keeps (p : Pos) (f : FmtM) (s : State) :
    ∃ t, execAccrd p f s = .next t ∧ t.fuses = s.fuses ∧ t.bell.count = s.bell.count := by
  refine ⟨_, rfl, ?_⟩; simp

theorem execAccwr_keeps (p : Pos) (f : FmtM) (s : State) :
    ∃ t, execAccwr p f s = .next t ∧ t.fuses = s.fuses ∧ t.bell.count = s.bell.count := by
  refine ⟨_, rfl, ?_⟩; simp

theorem execMsync_keeps (p : Pos) (f : FmtM) (s : State) :
    ∃ t, execMsync p f s = .next t ∧ t.fuses = s.fuses ∧ t.bell.count = s.bell.count := by
  refine ⟨_, rfl, ?_⟩; simp

theorem execMsyncDone_keeps (p : Pos) (s : State) :
    ∃ t, execMsyncDone p s = .next t ∧ t.fuses = s.fuses ∧ t.bell.count = s.bell.count := by
  refine ⟨_, rfl, ?_⟩; simp

/-! ### Mesh.lean -/

@[simp] theorem State.discardToken_keeps (s : State) (p : Pos) (queue : Nat) (t : Token) :
    (State.discardToken s p queue t).fuses = s.fuses ∧ (State.discardToken s p queue t).bell.count = s.bell.count := by
  unfold State.discardToken; (try dsimp only); (repeat' split) <;> simp

@[simp] theorem State.stat_keeps (s : State) (p : Pos) (n : Nat) :
    (State.stat s p n).fuses = s.fuses ∧ (State.stat s p n).bell.count = s.bell.count := by
  simp [State.stat]

theorem State.acceptToken_keeps (s : State) (p : Pos) (q : Nat) (t : Token) :
    ∀ out, State.acceptToken s p q t = some out → out.fuses = s.fuses ∧ out.bell.count = s.bell.count := by
  intro r h
  unfold State.acceptToken at h
  simp only [Option.map_eq_some_iff] at h
  obtain ⟨a, _, rfl⟩ := h
  split <;> simp

@[simp] theorem State.enterHold_keeps (s : State) (p : Pos) :
    (State.enterHold s p).fuses = s.fuses ∧ (State.enterHold s p).bell.count = s.bell.count := by
  unfold State.enterHold
  dsimp only
  (repeat' split) <;> (try simp)
  rename_i h
  have := State.acceptToken_keeps _ _ _ _ _ h
  simp [this]

theorem State.offer_keeps (s : State) (p : Pos) (q : Nat) (t : Token) :
    ∀ out, State.offer s p q t = some out → out.fuses = s.fuses ∧ out.bell.count = s.bell.count := by
  intro r h
  unfold State.offer at h
  dsimp only at h
  (repeat' split at h)
  · simp at h
  · have := State.acceptToken_keeps _ _ _ _ _ h; simpa using this
  · cases h; simp
  · cases h; simp

theorem execRefill_keeps (p : Pos) (q : Fin 4) (s : State) :
    ∃ t, execRefill p q s = .next t ∧ t.fuses = s.fuses ∧ t.bell.count = s.bell.count := by
  refine ⟨_, rfl, ?_⟩; simp

@[simp] theorem State.inbound_keeps (s : State) (p : Pos) (e : Slot) (code : Nat) :
    ((State.inbound s p e code).1).fuses = s.fuses ∧ ((State.inbound s p e code).1).bell.count = s.bell.count := by
  unfold State.inbound; (try dsimp only); (repeat' split) <;> simp

@[simp] theorem State.takeFrom_keeps (s : State) (p : Pos) (e : Slot) (code : Nat) (taker : Nat) :
    (State.takeFrom s p e code taker).fuses = s.fuses ∧ (State.takeFrom s p e code taker).bell.count = s.bell.count := by
  simp [State.takeFrom]

@[simp] theorem State.linkError_keeps (s : State) (p : Pos) (q : Pos) (inPort : Nat) :
    (State.linkError s p q inPort).fuses = s.fuses ∧ (State.linkError s p q inPort).bell.count = s.bell.count := by
  unfold State.linkError; (try dsimp only); (repeat' split) <;> simp

theorem State.deliverToken_keeps (s : State) (p : Pos) (e : Slot) (o : Nat) (t : Token) (bad : Bool) :
    ∀ out, State.deliverToken s p e o t bad = some out → out.fuses = s.fuses ∧ out.bell.count = s.bell.count := by
  intro r h
  unfold State.deliverToken at h
  dsimp only at h
  (repeat' split at h)
  · exact State.offer_keeps _ _ _ _ _ h
  all_goals first
    | (simp at h; done)
    | (cases h; simp)

@[simp] theorem State.countMoved_keeps (s : State) (p : Pos) (o : Nat) (t : Token) :
    (State.countMoved s p o t).fuses = s.fuses ∧ (State.countMoved s p o t).bell.count = s.bell.count := by
  simp [State.countMoved]

theorem execTokenTransfer_keeps (p : Pos) (out : Dir) (bad : Bool) (s : State) :
    ∃ t, execTokenTransfer p out bad s = .next t ∧ t.fuses = s.fuses ∧ t.bell.count = s.bell.count := by
  refine ⟨_, rfl, ?_⟩
  try dsimp only
  (repeat' split)
  all_goals first
    | (simp; done)
    | (rename_i h _; have := State.deliverToken_keeps _ _ _ _ _ _ _ h; simp [this]; done)
    | (rename_i h; have := State.deliverToken_keeps _ _ _ _ _ _ _ h; simp [this]; done)

@[simp] theorem State.chargeColour_keeps (s : State) (a : Nat) (c : BitVec 2) :
    (State.chargeColour s a c).fuses = s.fuses ∧ (State.chargeColour s a c).bell.count = s.bell.count := by
  simp [State.chargeColour]

theorem execSum_keeps (p : Pos) (s : State) :
    ∃ t, execSum p s = .next t ∧ t.fuses = s.fuses ∧ t.bell.count = s.bell.count := by
  refine ⟨_, rfl, ?_⟩; (try dsimp only); (repeat' split) <;> simp

theorem execSlotAdvance_keeps (p : Pos) (s : State) :
    ∃ t, execSlotAdvance p s = .next t ∧ t.fuses = s.fuses ∧ t.bell.count = s.bell.count := by
  refine ⟨_, rfl, ?_⟩; simp

@[simp] theorem State.emptyMesh_keeps (s : State) (p : Pos) :
    (State.emptyMesh s p).fuses = s.fuses ∧ (State.emptyMesh s p).bell.count = s.bell.count := by
  simp [State.emptyMesh]

@[simp] theorem State.moved_keeps (s : State) (p : Pos) :
    (State.moved s p).fuses = s.fuses ∧ (State.moved s p).bell.count = s.bell.count := by
  simp [State.moved]

@[simp] theorem State.mapColumn_keeps (s : State) (par : Fin 78) (col : Fin 80) (f : State → State) (hf : ∀ s : State, (f s).fuses = s.fuses ∧ (f s).bell.count = s.bell.count) :
    (State.mapColumn s par col f).fuses = s.fuses ∧ (State.mapColumn s par col f).bell.count = s.bell.count := by
  simp [State.mapColumn, hf]

@[simp] theorem State.deadmapWrite_keeps (s : State) (par : Fin 78) (col : Fin 80) (hi : Bool) (v : DWord) :
    (State.deadmapWrite s par col hi v).fuses = s.fuses ∧ (State.deadmapWrite s par col hi v).bell.count = s.bell.count := by
  simp [State.deadmapWrite]

@[simp] theorem State.fallowWrite_keeps (s : State) (par : Fin 78) (hi : Bool) (v : DWord) :
    (State.fallowWrite s par hi v).fuses = s.fuses ∧ (State.fallowWrite s par hi v).bell.count = s.bell.count := by
  simp [State.fallowWrite]

@[simp] theorem State.clearStats_keeps (s : State) (par : Nat) :
    (State.clearStats s par).fuses = s.fuses ∧ (State.clearStats s par).bell.count = s.bell.count := by
  simp [State.clearStats]

/-! ### Tally.lean -/

@[simp] theorem State.stirTally_keeps (s : State) (h : THome) :
    (State.stirTally s h).fuses = s.fuses ∧ (State.stirTally s h).bell.count = s.bell.count := by
  unfold State.stirTally; (try dsimp only); (repeat' split) <;> simp

@[simp] theorem State.setTally_keeps (s : State) (h : THome) (v : Nat) :
    (State.setTally s h v).fuses = s.fuses ∧ (State.setTally s h v).bell.count = s.bell.count := by
  unfold State.setTally; (repeat' split) <;> simp

@[simp] theorem State.setWaiters_keeps (s : State) (h : THome) (l : List Waiter) :
    (State.setWaiters s h l).fuses = s.fuses ∧ (State.setWaiters s h l).bell.count = s.bell.count := by
  unfold State.setWaiters; (repeat' split) <;> simp

@[simp] theorem State.misuse_keeps (s : State) (code : Nat) (h : THome) (payload : List (Nat × Nat)) :
    (State.misuse s code h payload).fuses = s.fuses ∧ (State.misuse s code h payload).bell.count = s.bell.count := by
  unfold State.misuse; (try dsimp only); (repeat' split) <;> simp

@[simp] theorem State.release_keeps (s : State) (h : THome) :
    (State.release s h).fuses = s.fuses ∧ (State.release s h).bell.count = s.bell.count := by
  simp [State.release]

@[simp] theorem State.releaseCore_keeps (s : State) (h : THome) :
    (State.releaseCore s h).fuses = s.fuses ∧ (State.releaseCore s h).bell.count = s.bell.count := by
  unfold State.releaseCore; (try dsimp only); (repeat' split) <;> simp

@[simp] theorem State.tallyInc_keeps (s : State) (h : THome) (n : Nat) (src : Nat) :
    (State.tallyInc s h n src).fuses = s.fuses ∧ (State.tallyInc s h n src).bell.count = s.bell.count := by
  simp [State.tallyInc]

@[simp] theorem State.tallyDec_keeps (s : State) (h : THome) (n : Nat) (src : Nat) :
    (State.tallyDec s h n src).fuses = s.fuses ∧ (State.tallyDec s h n src).bell.count = s.bell.count := by
  simp [State.tallyDec]

@[simp] theorem State.tallyWait_keeps (s : State) (h : THome) (op : TallyOp) (n : Nat) :
    (State.tallyWait s h op n).fuses = s.fuses ∧ (State.tallyWait s h op n).bell.count = s.bell.count := by
  simp [State.tallyWait]

@[simp] theorem State.applyTally_keeps (s : State) (h : THome) (op : TallyOp) (n : Nat) :
    (State.applyTally s h op n).fuses = s.fuses ∧ (State.applyTally s h op n).bell.count = s.bell.count := by
  unfold State.applyTally; (repeat' split) <;> simp

@[simp] theorem State.sendTally_keeps (s : State) (m : TallyMsg) :
    (State.sendTally s m).fuses = s.fuses ∧ (State.sendTally s m).bell.count = s.bell.count := by
  simp [State.sendTally]

@[simp] theorem State.issueTally_keeps (s : State) (p : Pos) (f : FmtT) (op : TallyOp) (n : Nat) :
    (State.issueTally s p f op n).fuses = s.fuses ∧ (State.issueTally s p f op n).bell.count = s.bell.count := by
  simp [State.issueTally]

@[simp] theorem tallyPost_keeps (p : Pos) (top : BitVec 3) (op : TallyOp) (f : FmtT) (s : State) :
    (tallyPost p top op f s).fuses = s.fuses ∧ (tallyPost p top op f s).bell.count = s.bell.count := by
  simp [tallyPost]

@[simp] theorem tallyHold_keeps (p : Pos) (top : BitVec 3) (op : TallyOp) (f : FmtT) (s : State) :
    (tallyHold p top op f s).fuses = s.fuses ∧ (tallyHold p top op f s).bell.count = s.bell.count := by
  simp [tallyHold]

theorem execTinc_keeps (p : Pos) (f : FmtT) (s : State) :
    ∃ t, execTinc p f s = .next t ∧ t.fuses = s.fuses ∧ t.bell.count = s.bell.count := by
  refine ⟨_, rfl, ?_⟩; simp

theorem execTdec_keeps (p : Pos) (f : FmtT) (s : State) :
    ∃ t, execTdec p f s = .next t ∧ t.fuses = s.fuses ∧ t.bell.count = s.bell.count := by
  refine ⟨_, rfl, ?_⟩; simp

theorem execTwait_keeps (p : Pos) (f : FmtT) (s : State) :
    ∃ t, execTwait p f s = .next t ∧ t.fuses = s.fuses ∧ t.bell.count = s.bell.count := by
  refine ⟨_, rfl, ?_⟩; simp

theorem execTwaitd_keeps (p : Pos) (f : FmtT) (s : State) :
    ∃ t, execTwaitd p f s = .next t ∧ t.fuses = s.fuses ∧ t.bell.count = s.bell.count := by
  refine ⟨_, rfl, ?_⟩; simp

theorem execTread_keeps (p : Pos) (f : FmtT) (s : State) :
    ∃ t, execTread p f s = .next t ∧ t.fuses = s.fuses ∧ t.bell.count = s.bell.count := by
  refine ⟨_, rfl, ?_⟩; simp

@[simp] theorem State.crierErr_keeps (s : State) (par : Nat) :
    (State.crierErr s par).fuses = s.fuses ∧ (State.crierErr s par).bell.count = s.bell.count := by
  simp [State.crierErr]

theorem execTallyOperationArrival_keeps (p : Pos) (carter : Bool) (lvl : Copied (BitVec 2)) (s : State) :
    ∃ t, execTallyOperationArrival p carter lvl s = .next t ∧ t.fuses = s.fuses ∧ t.bell.count = s.bell.count := by
  refine ⟨_, rfl, ?_⟩; (repeat' split) <;> simp

theorem execTallyAnswer_keeps (p : Pos) (s : State) :
    ∃ t, execTallyAnswer p s = .next t ∧ t.fuses = s.fuses ∧ t.bell.count = s.bell.count := by
  refine ⟨_, rfl, ?_⟩; (try dsimp only); (repeat' split) <;> simp

@[simp] theorem State.hubTallyWrite_keeps (s : State) (i : Nat) (v : DWord) :
    (State.hubTallyWrite s i v).fuses = s.fuses ∧ (State.hubTallyWrite s i v).bell.count = s.bell.count := by
  simp [State.hubTallyWrite]

theorem execHubTally_keeps (path : RegPath) (idx : BitVec 12) (value : DWord) (s : State) :
    ∃ t, execHubTally path idx value s = .next t ∧ t.fuses = s.fuses ∧ t.bell.count = s.bell.count := by
  refine ⟨_, rfl, ?_⟩; simp

@[simp] theorem State.parishTallyWrite_keeps (s : State) (par : Fin 78) (i : Nat) (v : DWord) :
    (State.parishTallyWrite s par i v).fuses = s.fuses ∧ (State.parishTallyWrite s par i v).bell.count = s.bell.count := by
  simp [State.parishTallyWrite]

/-! ### Memory.lean -/

@[simp] theorem State.setMemByte_keeps (s : State) (k : Nat) (v : Byte) :
    (State.setMemByte s k v).fuses = s.fuses ∧ (State.setMemByte s k v).bell.count = s.bell.count := by
  simp [State.setMemByte]

@[simp] theorem State.setMemBytes_keeps (s : State) (k : Nat) (v2 : List Byte) :
    (State.setMemBytes s k v2).fuses = s.fuses ∧ (State.setMemBytes s k v2).bell.count = s.bell.count := by
  induction v2 generalizing s k with
  | nil => simp [State.setMemBytes]
  | cons b t ih => simp [State.setMemBytes, ih]

@[simp] theorem State.setMemPoison_keeps (s : State) (w : Nat) (b : Bool) :
    (State.setMemPoison s w b).fuses = s.fuses ∧ (State.setMemPoison s w b).bell.count = s.bell.count := by
  simp [State.setMemPoison]

@[simp] theorem State.setMc_keeps (s : State) (m : Nat) (x : Stack) :
    (State.setMc s m x).fuses = s.fuses ∧ (State.setMc s m x).bell.count = s.bell.count := by
  simp [State.setMc]

@[simp] theorem State.checkRows_keeps (s : State) (m : Nat) :
    (State.checkRows s m).fuses = s.fuses ∧ (State.checkRows s m).bell.count = s.bell.count := by
  simp [State.checkRows]

@[simp] theorem State.touchWord_keeps (s : State) (source : Nat) (core : Nat) (al : Option Nat) (w : Nat) :
    (State.touchWord s source core al w).fuses = s.fuses ∧ (State.touchWord s source core al w).bell.count = s.bell.count := by
  simp [State.touchWord]

@[simp] theorem State.touchMem_keeps (s : State) (source : Nat) (core : Nat) (al : Option Nat) (k : Nat) (n : Nat) :
    (State.touchMem s source core al k n).fuses = s.fuses ∧ (State.touchMem s source core al k n).bell.count = s.bell.count := by
  simp [State.touchMem]

@[simp] theorem State.countPoison_keeps (s : State) (al : Option Nat) (n : Nat) :
    (State.countPoison s al n).fuses = s.fuses ∧ (State.countPoison s al n).bell.count = s.bell.count := by
  unfold State.countPoison; (repeat' split) <;> simp

@[simp] theorem State.clearErrors_keeps (s : State) (w : Nat) :
    (State.clearErrors s w).fuses = s.fuses ∧ (State.clearErrors s w).bell.count = s.bell.count := by
  simp [State.clearErrors]

@[simp] theorem State.storeMem_keeps (s : State) (source : Nat) (core : Nat) (al : Option Nat) (k : Nat) (data : List Byte) (poison : List Bool) :
    (State.storeMem s source core al k data poison).fuses = s.fuses ∧ (State.storeMem s source core al k data poison).bell.count = s.bell.count := by
  simp [State.storeMem]

@[simp] theorem State.activate_keeps (s : State) (k : Nat) :
    (State.activate s k).fuses = s.fuses ∧ (State.activate s k).bell.count = s.bell.count := by
  simp [State.activate]

@[simp] theorem State.access_keeps (s : State) (k : Nat) :
    (State.access s k).fuses = s.fuses ∧ (State.access s k).bell.count = s.bell.count := by
  simp [State.access]

@[simp] theorem State.readRange_keeps (s : State) (source : Nat) (core : Nat) (al : Option Nat) (d : Nat) (n : Nat) :
    (State.readRange s source core al d n).fuses = s.fuses ∧ (State.readRange s source core al d n).bell.count = s.bell.count := by
  simp [State.readRange]

@[simp] theorem State.writeRange_keeps (s : State) (source : Nat) (al : Option Nat) (d : Nat) (l : List Byte) (bad : Nat → Bool) :
    (State.writeRange s source al d l bad).fuses = s.fuses ∧ (State.writeRange s source al d l bad).bell.count = s.bell.count := by
  simp [State.writeRange]

@[simp] theorem State.dpaWrite_keeps (s : State) (d : Nat) (l : List Byte) (al : Option Nat) :
    (State.dpaWrite s d l al).fuses = s.fuses ∧ (State.dpaWrite s d l al).bell.count = s.bell.count := by
  simp [State.dpaWrite]

@[simp] theorem State.noteLatency_keeps (s : State) (m : Nat) (al : Option Nat) (ns : Nat) (clean : Bool) :
    (State.noteLatency s m al ns clean).fuses = s.fuses ∧ (State.noteLatency s m al ns clean).bell.count = s.bell.count := by
  unfold State.noteLatency; (try dsimp only); (repeat' split) <;> simp

@[simp] theorem State.noteSlow_keeps (s t : State) (al : Option Nat) (l : List (Fin 64 × Nat)) :
    (s.noteSlow t al l).fuses = t.fuses ∧ (s.noteSlow t al l).bell.count = t.bell.count := by
  unfold State.noteSlow
  exact foldl_keeps _ _ _ fun u e => by split <;> simp

theorem execRefreshWindow_keeps (group : Fin 8) (second : Bool) (s : State) :
    ∃ t, execRefreshWindow group second s = .next t ∧ t.fuses = s.fuses ∧ t.bell.count = s.bell.count := by
  refine ⟨_, rfl, ?_⟩; simp

theorem execScrubRead_keeps (stack : Fin 64) (s : State) :
    ∃ t, execScrubRead stack s = .next t ∧ t.fuses = s.fuses ∧ t.bell.count = s.bell.count := by
  refine ⟨_, rfl, ?_⟩; (try dsimp only); (repeat' split) <;> simp

theorem execCeHourlyRoll_keeps (s : State) :
    ∃ t, execCeHourlyRoll s = .next t ∧ t.fuses = s.fuses ∧ t.bell.count = s.bell.count := by
  refine ⟨_, rfl, ?_⟩
  refine foldl_keeps _ _ _ fun s m => ?_
  try dsimp only
  split <;> simp

@[simp] theorem State.offline_keeps (s : State) (m : Nat) (cause : Nat) :
    (State.offline s m cause).fuses = s.fuses ∧ (State.offline s m cause).bell.count = s.bell.count := by
  simp [State.offline]

theorem execStackOffline_keeps (stack : Fin 64) (cause : Fin 3) (s : State) :
    ∃ t, execStackOffline stack cause s = .next t ∧ t.fuses = s.fuses ∧ t.bell.count = s.bell.count := by
  refine ⟨_, rfl, ?_⟩; simp

theorem execSramCeWriteback_keeps (p : Pos) (addr : BitVec 17) (s : State) :
    ∃ t, execSramCeWriteback p addr s = .next t ∧ t.fuses = s.fuses ∧ t.bell.count = s.bell.count := by
  refine ⟨_, rfl, ?_⟩; simp

/-! ### Carter.lean -/

@[simp] theorem State.updChan_keeps (s : State) (p : Pos) (ch : Chan) (f : Channel → Channel) :
    (State.updChan s p ch f).fuses = s.fuses ∧ (State.updChan s p ch f).bell.count = s.bell.count := by
  simp [State.updChan]

@[simp] theorem State.launch_keeps (s : State) (p : Pos) (dop : BitVec 2) (ch : Chan) (f : FmtD) :
    (State.launch s p dop ch f).fuses = s.fuses ∧ (State.launch s p dop ch f).bell.count = s.bell.count := by
  unfold State.launch; (try dsimp only); (repeat' split) <;> simp

theorem execDld_keeps (p : Pos) (f : FmtD) (s : State) :
    ∃ t, execDld p f s = .next t ∧ t.fuses = s.fuses ∧ t.bell.count = s.bell.count := by
  refine ⟨_, rfl, ?_⟩; simp

theorem execDst_keeps (p : Pos) (f : FmtD) (s : State) :
    ∃ t, execDst p f s = .next t ∧ t.fuses = s.fuses ∧ t.bell.count = s.bell.count := by
  refine ⟨_, rfl, ?_⟩; simp

theorem execDstat_keeps (p : Pos) (f : FmtD) (s : State) :
    ∃ t, execDstat p f s = .next t ∧ t.fuses = s.fuses ∧ t.bell.count = s.bell.count := by
  refine ⟨_, rfl, ?_⟩; simp

theorem execDescriptorStart_keeps (p : Pos) (ch : Chan) (s : State) :
    ∃ t, execDescriptorStart p ch s = .next t ∧ t.fuses = s.fuses ∧ t.bell.count = s.bell.count := by
  refine ⟨_, rfl, ?_⟩; (repeat' split) <;> simp

@[simp] theorem State.checkHalt_keeps (s : State) (p : Pos) (ch : Chan) :
    (State.checkHalt s p ch).fuses = s.fuses ∧ (State.checkHalt s p ch).bell.count = s.bell.count := by
  unfold State.checkHalt; (try dsimp only); (repeat' split) <;> simp

@[simp] theorem State.sendPiece_keeps (s : State) (p : Pos) (ch : Chan) (r : DescRun) (k : Piece) :
    (State.sendPiece s p ch r k).fuses = s.fuses ∧ (State.sendPiece s p ch r k).bell.count = s.bell.count := by
  simp [State.sendPiece]

theorem execCarterRequest_keeps (p : Pos) (ch : Chan) (s : State) :
    ∃ t, execCarterRequest p ch s = .next t ∧ t.fuses = s.fuses ∧ t.bell.count = s.bell.count := by
  refine ⟨_, rfl, ?_⟩; (try dsimp only); (repeat' split) <;> simp

@[simp] theorem State.carterWrite_keeps (s : State) (p : Pos) (l : List (Nat × Option Byte × Bool)) :
    (State.carterWrite s p l).fuses = s.fuses ∧ (State.carterWrite s p l).bell.count = s.bell.count := by
  simp [State.carterWrite]

@[simp] theorem State.deliverBytes_keeps (s : State) (p : Pos) (serial : Nat) (q : Nat) (l : List (Option Byte × Bool × Bool)) :
    (State.deliverBytes s p serial q l).fuses = s.fuses ∧ (State.deliverBytes s p serial q l).bell.count = s.bell.count := by
  unfold State.deliverBytes; (try dsimp only); (repeat' split) <;> simp

@[simp] theorem State.respond_keeps (s : State) (id : Nat) (r : Req) :
    (State.respond s id r).fuses = s.fuses ∧ (State.respond s id r).bell.count = s.bell.count := by
  unfold State.respond; (try dsimp only); (repeat' split) <;> simp

theorem execReadResp_keeps (id : Nat) (s : State) :
    ∃ t, execReadResp id s = .next t ∧ t.fuses = s.fuses ∧ t.bell.count = s.bell.count := by
  refine ⟨_, rfl, ?_⟩; (repeat' split) <;> simp

theorem execWriteAck_keeps (id : Nat) (s : State) :
    ∃ t, execWriteAck id s = .next t ∧ t.fuses = s.fuses ∧ t.bell.count = s.bell.count := by
  refine ⟨_, rfl, ?_⟩; (repeat' split) <;> simp

@[simp] theorem State.completeDesc_keeps (s : State) (p : Pos) (r : DescRun) :
    (State.completeDesc s p r).fuses = s.fuses ∧ (State.completeDesc s p r).bell.count = s.bell.count := by
  simp [State.completeDesc]

@[simp] theorem State.unstall_keeps (s : State) (p : Pos) (ch : Chan) :
    (State.unstall s p ch).fuses = s.fuses ∧ (State.unstall s p ch).bell.count = s.bell.count := by
  unfold State.unstall; (repeat' split) <;> simp

theorem execDescriptorComplete_keeps (p : Pos) (ch : Chan) (s : State) :
    ∃ t, execDescriptorComplete p ch s = .next t ∧ t.fuses = s.fuses ∧ t.bell.count = s.bell.count := by
  refine ⟨_, rfl, ?_⟩; (repeat' split) <;> simp

@[simp] theorem State.carterSkip_keeps (s : State) (p : Pos) (ch : Chan) (l : Latch) (fill : Nat) :
    (State.carterSkip s p ch l fill).fuses = s.fuses ∧ (State.carterSkip s p ch l fill).bell.count = s.bell.count := by
  unfold State.carterSkip; (try dsimp only); (repeat' split) <;> simp

@[simp] theorem State.carterCtl_keeps (s : State) (par : Fin 78) (v : DWord) :
    (State.carterCtl s par v).fuses = s.fuses ∧ (State.carterCtl s par v).bell.count = s.bell.count := by
  unfold State.carterCtl; (try dsimp only); (repeat' split) <;> simp

theorem execDmaDrainTimeout_keeps (p : Pos) (s : State) :
    ∃ t, execDmaDrainTimeout p s = .next t ∧ t.fuses = s.fuses ∧ t.bell.count = s.bell.count := by
  refine ⟨_, rfl, ?_⟩; (try dsimp only); (repeat' split) <;> simp

/-! ### Sessions.lean -/

@[simp] theorem State.setSes_keeps (s : State) (id : Nat) (x : Session) :
    (State.setSes s id x).fuses = s.fuses ∧ (State.setSes s id x).bell.count = s.bell.count := by
  simp [State.setSes]

@[simp] theorem State.updSes_keeps (s : State) (id : Nat) (f : Session → Session) :
    (State.updSes s id f).fuses = s.fuses ∧ (State.updSes s id f).bell.count = s.bell.count := by
  unfold State.updSes; (repeat' split) <;> simp

@[simp] theorem State.journal_keeps (s : State) (e : LEntry) :
    (State.journal s e).fuses = s.fuses ∧ (State.journal s e).bell.count = s.bell.count := by
  simp [State.journal]

@[simp] theorem State.updEntry_keeps (s : State) (lsn : Nat) (f : LEntry → LEntry) :
    (State.updEntry s lsn f).fuses = s.fuses ∧ (State.updEntry s lsn f).bell.count = s.bell.count := by
  unfold State.updEntry; (try dsimp only); (repeat' split) <;> simp

@[simp] theorem State.writeRecord_keeps (s : State) (id : Nat) (e : LEntry) (status : Byte) (reack : Bool) (journalled : Bool) :
    (State.writeRecord s id e status reack journalled).fuses = s.fuses ∧ (State.writeRecord s id e status reack journalled).bell.count = s.bell.count := by
  unfold State.writeRecord; (try dsimp only); (repeat' split) <;> simp

@[simp] theorem State.flushHeld_keeps (s : State) (id : Nat) (v2 : Nat) :
    (State.flushHeld s id v2).fuses = s.fuses ∧ (State.flushHeld s id v2).bell.count = s.bell.count := by
  induction v2 generalizing s with
  | zero => simp [State.flushHeld]
  | succ n ih =>
    unfold State.flushHeld
    (repeat' split) <;> simp [ih]

@[simp] theorem State.dropSession_keeps (s : State) (id : Nat) :
    (State.dropSession s id).fuses = s.fuses ∧ (State.dropSession s id).bell.count = s.bell.count := by
  unfold State.dropSession; (try dsimp only); (repeat' split) <;> simp

@[simp] theorem State.endIfDone_keeps (s : State) (id : Nat) :
    (State.endIfDone s id).fuses = s.fuses ∧ (State.endIfDone s id).bell.count = s.bell.count := by
  unfold State.endIfDone; (try dsimp only); (repeat' split) <;> simp

@[simp] theorem State.finishOne_keeps (s : State) (lsn : Nat) (status : Nat) (detail : Nat) (result : BitVec 192) :
    (State.finishOne s lsn status detail result).fuses = s.fuses ∧ (State.finishOne s lsn status detail result).bell.count = s.bell.count := by
  unfold State.finishOne; (try dsimp only); (repeat' split) <;> simp

@[simp] theorem State.takeUp_keeps (s : State) (id : Nat) (held : Bool) (lsn : Nat) :
    ((State.takeUp s id held lsn).1).fuses = s.fuses ∧ ((State.takeUp s id held lsn).1).bell.count = s.bell.count := by
  unfold State.takeUp; (repeat' split) <;> simp

@[simp] theorem State.dispatch_keeps (s : State) (id : Nat) :
    (State.dispatch s id).fuses = s.fuses ∧ (State.dispatch s id).bell.count = s.bell.count := by
  unfold State.dispatch
  split
  · simp
  · rename_i x _
    suffices h : ∀ (l : List Nat) (y : State × Bool),
        (l.foldl (fun (y : State × Bool) (l : Nat) => y.1.takeUp id y.2 l) y).1.fuses = y.1.fuses ∧
        (l.foldl (fun (y : State × Bool) (l : Nat) => y.1.takeUp id y.2 l) y).1.bell.count = y.1.bell.count from h _ (s, false)
    intro l
    induction l with
    | nil => intro y; simp
    | cons a t ih => intro y; rw [List.foldl_cons]; simp [ih]

@[simp] theorem State.dispatchAll_keeps (s : State) :
    (State.dispatchAll s).fuses = s.fuses ∧ (State.dispatchAll s).bell.count = s.bell.count := by
  simp [State.dispatchAll]

@[simp] theorem State.finish_keeps (s : State) (lsn : Nat) (status : Nat) (detail : Nat) (result : BitVec 192) :
    (State.finish s lsn status detail result).fuses = s.fuses ∧ (State.finish s lsn status detail result).bell.count = s.bell.count := by
  simp [State.finish]

@[simp] theorem State.refuse_keeps (s : State) (lsn : Nat) (detail : Nat) :
    (State.refuse s lsn detail).fuses = s.fuses ∧ (State.refuse s lsn detail).bell.count = s.bell.count := by
  simp [State.refuse]

@[simp] theorem State.looseRecord_keeps (s : State) (id : Nat) (e : LEntry) (status : Byte) (reack : Bool) :
    (State.looseRecord s id e status reack).fuses = s.fuses ∧ (State.looseRecord s id e status reack).bell.count = s.bell.count := by
  unfold State.looseRecord; (try dsimp only); (repeat' split) <;> simp

@[simp] theorem State.flushRing_keeps (s : State) (id : Nat) (j : Nat) (v3 : Nat) :
    (State.flushRing s id j v3).fuses = s.fuses ∧ (State.flushRing s id j v3).bell.count = s.bell.count := by
  induction v3 generalizing s with
  | zero => simp [State.flushRing]
  | succ n ih =>
    unfold State.flushRing
    (repeat' split) <;> (try dsimp only) <;> (repeat' split) <;> simp [ih]

@[simp] theorem State.ringRoom_keeps (s : State) (id : Nat) (j : Nat) :
    (State.ringRoom s id j).fuses = s.fuses ∧ (State.ringRoom s id j).bell.count = s.bell.count := by
  unfold State.ringRoom; (try dsimp only); (repeat' split) <;> simp

@[simp] theorem State.reportLimited_keeps (s : State) (id : Nat) :
    (State.reportLimited s id).fuses = s.fuses ∧ (State.reportLimited s id).bell.count = s.bell.count := by
  unfold State.reportLimited; (try dsimp only); (repeat' split) <;> simp

@[simp] theorem State.raiseLimited_keeps (s : State) (id : Nat) (code : Nat) (payload : List (Nat × Nat)) :
    (State.raiseLimited s id code payload).fuses = s.fuses ∧ (State.raiseLimited s id code payload).bell.count = s.bell.count := by
  unfold State.raiseLimited; (try dsimp only); (repeat' split) <;> simp

@[simp] theorem State.reportDenied_keeps (s : State) (site : Nat) :
    (State.reportDenied s site).fuses = s.fuses ∧ (State.reportDenied s site).bell.count = s.bell.count := by
  unfold State.reportDenied; (try dsimp only); (repeat' split) <;> simp

@[simp] theorem State.raiseHeldBack_keeps (s : State) :
    (State.raiseHeldBack s).fuses = s.fuses ∧ (State.raiseHeldBack s).bell.count = s.bell.count := by
  simp [State.raiseHeldBack]

/-! ### Loader.lean -/

@[simp] theorem State.fillFails_keeps (s : State) (a : Nat) (p : Pos) (i : Nat) (recordNo : Nat) (code : Nat) :
    (State.fillFails s a p i recordNo code).fuses = s.fuses ∧ (State.fillFails s a p i recordNo code).bell.count = s.bell.count := by
  simp [State.fillFails]

@[simp] theorem State.readRecords_keeps (s : State) (a : Nat) (p : Pos) (g : Prog) (r : RunId) :
    (State.readRecords s a p g r).fuses = s.fuses ∧ (State.readRecords s a p g r).bell.count = s.bell.count := by
  unfold State.readRecords; (try dsimp only); (repeat' split) <;> simp

@[simp] theorem State.readBody_keeps (s : State) (a : Nat) (p : Pos) (i d n : Nat) (l : List (Fin 64 × Nat)) :
    (s.readBody a p i d n l).fuses = s.fuses ∧ (s.readBody a p i d n l).bell.count = s.bell.count := by
  unfold State.readBody
  have h : (s.noteSlow (s.readRange 3 p.id (some a) d n) (some a) l).fuses = s.fuses ∧
      (s.noteSlow (s.readRange 3 p.id (some a) d n) (some a) l).bell.count = s.bell.count :=
    ⟨(State.noteSlow_keeps _ _ _ _).1.trans (State.readRange_keeps _ _ _ _ _ _).1,
      (State.noteSlow_keeps _ _ _ _).2.trans (State.readRange_keeps _ _ _ _ _ _).2⟩
  exact ite_keeps ⟨rfl, rfl⟩ h

@[simp] theorem State.loaderWrite_keeps (s : State) (p : Pos) (k : Nat) (slow : List (Fin 64 × Nat)) :
    (s.loaderWrite p k slow).fuses = s.fuses ∧ (s.loaderWrite p k slow).bell.count = s.bell.count := by
  have hb : ∀ (u : State) (a : Nat) (g : Prog) (r : RunId) (i d n : Nat) (l : List (Fin 64 × Nat)),
      ((if k = 0 then u.readRecords a p g r else u).readBody a p i d n l).fuses = u.fuses ∧
      ((if k = 0 then u.readRecords a p g r else u).readBody a p i d n l).bell.count = u.bell.count := by
    intro u a g r i d n l
    have h := State.readBody_keeps (if k = 0 then u.readRecords a p g r else u) a p i d n l
    have h' := ite_keeps (c := k = 0) (State.readRecords_keeps u a p g r) ⟨rfl, rfl⟩
    exact ⟨h.1.trans h'.1, h.2.trans h'.2⟩
  have hf : ∀ (u : State) (c : Core) (a i no code : Nat), ((u.setCore p c).fillFails a p i no code).fuses = u.fuses ∧
      ((u.setCore p c).fillFails a p i no code).bell.count = u.bell.count := fun u c a i no code => State.fillFails_keeps _ _ _ _ _ _
  unfold State.loaderWrite
  split
  · exact ⟨rfl, rfl⟩
  · extract_lets x c b
    split
    · split
      · exact ⟨rfl, rfl⟩
      · refine ite_keeps ⟨rfl, rfl⟩ ?_
        extract_lets rec' secseq no body ok words s1 s2 bad b1 data b2
        refine ite_keeps ⟨rfl, rfl⟩ ?_
        have h2 : s2.fuses = s.fuses ∧ s2.bell.count = s.bell.count := hb _ _ _ _ _ _ _ _
        clear_value s2 b2
        refine ite_keeps h2 ?_
        split
        · exact ⟨(hf _ _ _ _ _ _).1.trans h2.1, (hf _ _ _ _ _ _).2.trans h2.2⟩
        · exact h2
    · exact ⟨rfl, rfl⟩

@[simp] theorem State.judgeQueues_keeps (s : State) (p : Pos) :
    (State.judgeQueues s p).fuses = s.fuses ∧ (State.judgeQueues s p).bell.count = s.bell.count := by
  simp [State.judgeQueues]

@[simp] theorem State.judgeSpill_keeps (s : State) (p : Pos) (old : Vector (BitVec 128) 8) :
    (State.judgeSpill s p old).fuses = s.fuses ∧ (State.judgeSpill s p old).bell.count = s.bell.count := by
  simp [State.judgeSpill]

theorem execBankSwap_keeps (p : Pos) (s : State) :
    ∃ t, execBankSwap p s = .next t ∧ t.fuses = s.fuses ∧ t.bell.count = s.bell.count := by
  refine ⟨_, rfl, ?_⟩; (try dsimp only); (repeat' split) <;> simp

/-! ### Budget.lean -/

@[simp] theorem State.giveGrant_keeps (s : State) (l : List Share) (x : Share) :
    (State.giveGrant s l x).fuses = s.fuses ∧ (State.giveGrant s l x).bell.count = s.bell.count := by
  simp [State.giveGrant]

@[simp] theorem State.firstGrant_keeps (s : State) (a : Nat) :
    (State.firstGrant s a).fuses = s.fuses ∧ (State.firstGrant s a).bell.count = s.bell.count := by
  unfold State.firstGrant; (try dsimp only); (repeat' split) <;> simp

/-! ### Runs.lean -/

@[simp] theorem State.finishHalts_keeps (s : State) (a : Nat) (effect : Bool) :
    (State.finishHalts s a effect).fuses = s.fuses ∧ (State.finishHalts s a effect).bell.count = s.bell.count := by
  simp [State.finishHalts]

@[simp] theorem State.leaveRunning_keeps (s : State) :
    (State.leaveRunning s).fuses = s.fuses ∧ (State.leaveRunning s).bell.count = s.bell.count := by
  simp [State.leaveRunning]

@[simp] theorem State.reportLate_keeps (s : State) (a : Nat) (i : Nat) :
    (State.reportLate s a i).fuses = s.fuses ∧ (State.reportLate s a i).bell.count = s.bell.count := by
  unfold State.reportLate; (try dsimp only); (repeat' split) <;> simp

@[simp] theorem State.reportLive_keeps (s : State) (a : Nat) :
    (State.reportLive s a).fuses = s.fuses ∧ (State.reportLive s a).bell.count = s.bell.count := by
  unfold State.reportLive; (try dsimp only); (repeat' split) <;> simp

@[simp] theorem State.deferEnds_keeps (s : State) (a : Nat) :
    (State.deferEnds s a).fuses = s.fuses ∧ (State.deferEnds s a).bell.count = s.bell.count := by
  simp [State.deferEnds]

@[simp] theorem State.completeRun_keeps (s : State) (a : Nat) (status : Nat) (detail : Nat) (halted : Bool) (first : Option Nat) :
    (State.completeRun s a status detail halted first).fuses = s.fuses ∧ (State.completeRun s a status detail halted first).bell.count = s.bell.count := by
  unfold State.completeRun; (try dsimp only); (repeat' split) <;> simp

@[simp] theorem State.doHalt_keeps (s : State) (a : Nat) (why : HaltWhy) :
    (State.doHalt s a why).fuses = s.fuses ∧ (State.doHalt s a why).bell.count = s.bell.count := by
  unfold State.doHalt; (try dsimp only); (repeat' split) <;> simp

@[simp] theorem State.haltParish_keeps (s : State) (par : Nat) :
    (State.haltParish s par).fuses = s.fuses ∧ (State.haltParish s par).bell.count = s.bell.count := by
  unfold State.haltParish; (try dsimp only); (repeat' split) <;> simp

@[simp] theorem State.launchRun_keeps (s : State) (a : Nat) :
    (State.launchRun s a).fuses = s.fuses ∧ (State.launchRun s a).bell.count = s.bell.count := by
  unfold State.launchRun; (try dsimp only); (repeat' split) <;> simp

@[simp] theorem State.launchDue_keeps (s : State) (a : Nat) (t : Nat) (v3 : Nat) :
    (State.launchDue s a t v3).fuses = s.fuses ∧ (State.launchDue s a t v3).bell.count = s.bell.count := by
  induction v3 generalizing s with
  | zero => simp [State.launchDue]
  | succ n ih =>
    unfold State.launchDue
    dsimp only
    (repeat' split) <;> simp [ih]

@[simp] theorem State.fillNext_keeps (s : State) (a : Nat) :
    (State.fillNext s a).fuses = s.fuses ∧ (State.fillNext s a).bell.count = s.bell.count := by
  unfold State.fillNext; (try dsimp only); (repeat' split) <;> simp

@[simp] theorem State.imbalance_keeps (s : State) (a : Nat) (i : Nat) (r : RunId) (lvl : Nat) (idx : Nat) (start : Nat) (now : Nat) :
    (State.imbalance s a i r lvl idx start now).fuses = s.fuses ∧ (State.imbalance s a i r lvl idx start now).bell.count = s.bell.count := by
  unfold State.imbalance; (try dsimp only); (repeat' split) <;> simp

@[simp] theorem State.balance_keeps (s : State) (a : Nat) (i : Nat) (r : RunId) (k : RunBook) :
    (State.balance s a i r k).fuses = s.fuses ∧ (State.balance s a i r k).bell.count = s.bell.count := by
  simp [State.balance]

@[simp] theorem State.settleRx_keeps (s : State) (a : Nat) (r : RunId) :
    (State.settleRx s a r).fuses = s.fuses ∧ (State.settleRx s a r).bell.count = s.bell.count := by
  unfold State.settleRx
  try dsimp only
  split
  · simp
  · refine foldl_keeps _ _ _ fun s m => ?_
    try dsimp only
    split <;> simp

@[simp] theorem State.endRun_keeps (s : State) (a : Nat) (i : Nat) (r : RunId) :
    (State.endRun s a i r).fuses = s.fuses ∧ (State.endRun s a i r).bell.count = s.bell.count := by
  unfold State.endRun; (try dsimp only); (repeat' split) <;> simp

@[simp] theorem State.endDue_keeps (s : State) (a : Nat) (v2 : Nat) :
    (State.endDue s a v2).fuses = s.fuses ∧ (State.endDue s a v2).bell.count = s.bell.count := by
  induction v2 generalizing s with
  | zero => simp [State.endDue]
  | succ n ih =>
    unfold State.endDue
    (repeat' split) <;> simp [ih]

theorem execEndRetire_keeps (p : Pos) (s : State) :
    ∃ t, execEndRetire p s = .next t ∧ t.fuses = s.fuses ∧ t.bell.count = s.bell.count := by
  refine ⟨_, rfl, ?_⟩; (try dsimp only); (repeat' split) <;> simp

@[simp] theorem State.overrunAt_keeps (s : State) (a : Nat) (i : Nat) (t : Nat) (r : RunId) :
    (State.overrunAt s a i t r).fuses = s.fuses ∧ (State.overrunAt s a i t r).bell.count = s.bell.count := by
  unfold State.overrunAt; (try dsimp only); (repeat' split) <;> simp

@[simp] theorem State.deadlineCheck_keeps (s : State) (a : Nat) (i : Nat) (t : Nat) (r : RunId) :
    (State.deadlineCheck s a i t r).fuses = s.fuses ∧ (State.deadlineCheck s a i t r).bell.count = s.bell.count := by
  unfold State.deadlineCheck; (try dsimp only); (repeat' split) <;> simp

@[simp] theorem State.deadlineChecks_keeps (s : State) (a : Nat) (t : Nat) :
    (State.deadlineChecks s a t).fuses = s.fuses ∧ (State.deadlineChecks s a t).bell.count = s.bell.count := by
  unfold State.deadlineChecks; (try dsimp only); (repeat' split) <;> simp

theorem execSectionOverrun_keeps (a : Fin 16) (s : State) :
    ∃ t, execSectionOverrun a s = .next t ∧ t.fuses = s.fuses ∧ t.bell.count = s.bell.count := by
  refine ⟨_, rfl, ?_⟩; (try dsimp only); (repeat' split) <;> simp

theorem execGraceExpiry_keeps (a : Fin 16) (s : State) :
    ∃ t, execGraceExpiry a s = .next t ∧ t.fuses = s.fuses ∧ t.bell.count = s.bell.count := by
  refine ⟨_, rfl, ?_⟩; simp

theorem execCoreLost_keeps (p : Pos) (s : State) :
    ∃ t, execCoreLost p s = .next t ∧ t.fuses = s.fuses ∧ t.bell.count = s.bell.count := by
  refine ⟨_, rfl, ?_⟩; (try dsimp only); (repeat' split) <;> simp

@[simp] theorem State.stretchRun_keeps (s : State) (a : Nat) (td : Nat) (k : Nat) (counted : Nat) (live : List Nat) :
    (State.stretchRun s a td k counted live).fuses = s.fuses ∧ (State.stretchRun s a td k counted live).bell.count = s.bell.count := by
  simp [State.stretchRun]

@[simp] theorem State.applyStretch_keeps (s : State) (a : Nat) (t : Nat) :
    (State.applyStretch s a t).fuses = s.fuses ∧ (State.applyStretch s a t).bell.count = s.bell.count := by
  unfold State.applyStretch; (try dsimp only); (repeat' split) <;> simp

@[simp] theorem State.suspectFor_keeps (s : State) (a : Nat) (t : Nat) (cause : Nat) (par : Nat) :
    (State.suspectFor s a t cause par).fuses = s.fuses ∧ (State.suspectFor s a t cause par).bell.count = s.bell.count := by
  simp [State.suspectFor]

@[simp] theorem State.viewWrite_keeps (s : State) (dpa : Nat) (l : List Byte) (al : Option Nat) :
    (State.viewWrite s dpa l al).fuses = s.fuses ∧ (State.viewWrite s dpa l al).bell.count = s.bell.count := by
  unfold State.viewWrite; (try dsimp only); (repeat' split) <;> simp

@[simp] theorem State.deadlock_keeps (s : State) (a : Nat) :
    (State.deadlock s a).fuses = s.fuses ∧ (State.deadlock s a).bell.count = s.bell.count := by
  unfold State.deadlock; (try dsimp only); (repeat' split) <;> simp

@[simp] theorem State.accrue_keeps (s : State) (a : Nat) (t : Nat) :
    (State.accrue s a t).fuses = s.fuses ∧ (State.accrue s a t).bell.count = s.bell.count := by
  unfold State.accrue; (try dsimp only); (repeat' split) <;> simp

@[simp] theorem State.allotTick_keeps (s : State) (a : Nat) (t : Nat) :
    (State.allotTick s a t).fuses = s.fuses ∧ (State.allotTick s a t).bell.count = s.bell.count := by
  unfold State.allotTick; (try dsimp only); (repeat' split) <;> simp

@[simp] theorem State.releaseBellwaits_keeps (s : State) (par : Fin 78) :
    (State.releaseBellwaits s par).fuses = s.fuses ∧ (State.releaseBellwaits s par).bell.count = s.bell.count := by
  simp [State.releaseBellwaits]

@[simp] theorem State.judgeQuiet_keeps (s : State) (l : List (Fin 78)) :
    (State.judgeQuiet s l).fuses = s.fuses ∧ (State.judgeQuiet s l).bell.count = s.bell.count := by
  simp [State.judgeQuiet]

@[simp] theorem State.allotActs_keeps (s : State) (a : Nat) (t : Nat) :
    (State.allotActs s a t).fuses = s.fuses ∧ (State.allotActs s a t).bell.count = s.bell.count := by
  simp [State.allotActs]

@[simp] theorem State.newAllowance_keeps (s : State) (par : Fin 78) :
    (State.newAllowance s par).fuses = s.fuses ∧ (State.newAllowance s par).bell.count = s.bell.count := by
  simp [State.newAllowance]

@[simp] theorem State.bellWave_keeps (s : State) (par : Fin 78) (low : BitVec 8) :
    (State.bellWave s par low).fuses = s.fuses ∧ (State.bellWave s par low).bell.count = s.bell.count := by
  unfold State.bellWave; (try dsimp only); (repeat' split) <;> simp

@[simp] theorem State.mirror_keeps (s : State) :
    (State.mirror s).fuses = s.fuses ∧ (State.mirror s).bell.count = s.bell.count := by
  unfold State.mirror
  split
  · simp
  · try dsimp only
    refine foldl_keeps _ _ _ fun s m => ?_
    simp

@[simp] theorem State.quietPosition_keeps (s : State) (c : BitVec 2) (p : Pos) :
    (State.quietPosition s c p).fuses = s.fuses ∧ (State.quietPosition s c p).bell.count = s.bell.count := by
  simp [State.quietPosition]

@[simp] theorem State.quiesce_keeps (s : State) (a : Nat) :
    (State.quiesce s a).fuses = s.fuses ∧ (State.quiesce s a).bell.count = s.bell.count := by
  simp [State.quiesce]

@[simp] theorem State.mismatch_keeps (s : State) (a : Nat) (r : RunId) (sigs : List DWord) (decision : Nat) :
    (State.mismatch s a r sigs decision).fuses = s.fuses ∧ (State.mismatch s a r sigs decision).bell.count = s.bell.count := by
  simp [State.mismatch]

@[simp] theorem State.chargeSection_keeps (s : State) (a : Nat) (sect : Nat) :
    (State.chargeSection s a sect).fuses = s.fuses ∧ (State.chargeSection s a sect).bell.count = s.bell.count := by
  simp [State.chargeSection]

@[simp] theorem State.settleSig_keeps (s : State) (a : Nat) (r : RunId) (third : Bool) (g : DWord) :
    (State.settleSig s a r third g).fuses = s.fuses ∧ (State.settleSig s a r third g).bell.count = s.bell.count := by
  unfold State.settleSig; (try dsimp only); (repeat' split) <;> simp

@[simp] theorem State.regionReads_keeps (s : State) (a : Nat) (regions : List (Nat × Nat)) (slow : List (Fin 64 × Nat)) :
    (s.regionReads a regions slow).fuses = s.fuses ∧ (s.regionReads a regions slow).bell.count = s.bell.count := by
  unfold State.regionReads
  refine foldl_keeps _ _ _ fun s g => ?_
  split
  · exact ⟨(State.noteSlow_keeps _ _ _ _).1.trans (State.readRange_keeps _ _ _ _ _ _).1,
      (State.noteSlow_keeps _ _ _ _).2.trans (State.readRange_keeps _ _ _ _ _ _).2⟩
  · exact ⟨rfl, rfl⟩

theorem execSignatureCompare_keeps (a : Slowed (Fin 16)) (s : State) :
    ∃ t, execSignatureCompare a s = .next t ∧ t.fuses = s.fuses ∧ t.bell.count = s.bell.count := by
  refine ⟨_, rfl, ?_⟩; (try dsimp only); (repeat' split) <;> simp

theorem execRiserCalibration_keeps (par : Fin 78) (dA : Half) (dB : Half) (skew : Half) (s : State) :
    ∃ t, execRiserCalibration par dA dB skew s = .next t ∧ t.fuses = s.fuses ∧ t.bell.count = s.bell.count := by
  refine ⟨_, rfl, ?_⟩; simp

@[simp] theorem State.losePlane_keeps (s : State) (par : Nat) (plane : BitVec 1) :
    (State.losePlane s par plane).fuses = s.fuses ∧ (State.losePlane s par plane).bell.count = s.bell.count := by
  simp [State.losePlane]

@[simp] theorem State.loseRisers_keeps (s : State) (lost : Nat → Bool) :
    (State.loseRisers s lost).fuses = s.fuses ∧ (State.loseRisers s lost).bell.count = s.bell.count := by
  unfold State.loseRisers; (try dsimp only); (repeat' split) <;> simp

theorem execCrierPlaneDown_keeps (plane : BitVec 1) (sector : Bool) (unit : Fin 78) (link : Half) (s : State) :
    ∃ t, execCrierPlaneDown plane sector unit link s = .next t ∧ t.fuses = s.fuses ∧ t.bell.count = s.bell.count := by
  refine ⟨_, rfl, ?_⟩; simp

theorem execDeadlock_keeps (a : Fin 16) (s : State) :
    ∃ t, execDeadlock a s = .next t ∧ t.fuses = s.fuses ∧ t.bell.count = s.bell.count := by
  refine ⟨_, rfl, ?_⟩; simp

theorem execWatchSnapshotDone_keeps (a : Fin 16) (s : State) :
    ∃ t, execWatchSnapshotDone a s = .next t ∧ t.fuses = s.fuses ∧ t.bell.count = s.bell.count := by
  refine ⟨_, rfl, ?_⟩
  try dsimp only
  split
  · simp
  · simp

/-! ### Link.lean -/

@[simp] theorem State.setPort_keeps (s : State) (p : Nat) (x : Port) :
    (State.setPort s p x).fuses = s.fuses ∧ (State.setPort s p x).bell.count = s.bell.count := by
  simp [State.setPort]

@[simp] theorem State.updPort_keeps (s : State) (p : Nat) (f : Port → Port) :
    (State.updPort s p f).fuses = s.fuses ∧ (State.updPort s p f).bell.count = s.bell.count := by
  simp [State.updPort]

@[simp] theorem State.sendItem_keeps (s : State) (p : Nat) (i : LinkItem) :
    (State.sendItem s p i).fuses = s.fuses ∧ (State.sendItem s p i).bell.count = s.bell.count := by
  simp [State.sendItem]

@[simp] theorem State.retryPeak_keeps (s : State) (p : Nat) (y : Group) :
    (State.retryPeak s p y).fuses = s.fuses ∧ (State.retryPeak s p y).bell.count = s.bell.count := by
  simp [State.retryPeak]

@[simp] theorem State.resend_keeps (s : State) (p : Nat) (l : List Codeword) :
    (State.resend s p l).fuses = s.fuses ∧ (State.resend s p l).bell.count = s.bell.count := by
  simp [State.resend]

theorem State.formCodeword_keeps (s : State) (p : Nat) :
    ∀ out, State.formCodeword s p = some out → out.fuses = s.fuses ∧ out.bell.count = s.bell.count := by
  intro out h
  unfold State.formCodeword at h
  dsimp only at h
  split at h
  · simp at h
  · split at h
    · simp at h
    · cases h
      exact ⟨(foldl_keeps _ _ _ fun s i => State.sendItem_keeps s p i).1.trans (by simp),
        (foldl_keeps _ _ _ fun s i => State.sendItem_keeps s p i).2.trans (by simp)⟩

@[simp] theorem State.pumpLoop_keeps (s : State) (p : Nat) (v2 : Nat) :
    (State.pumpLoop s p v2).fuses = s.fuses ∧ (State.pumpLoop s p v2).bell.count = s.bell.count := by
  induction v2 generalizing s with
  | zero => simp [State.pumpLoop]
  | succ n ih =>
    unfold State.pumpLoop
    split
    · simp
    · rename_i t ht
      have := State.formCodeword_keeps s p _ ht
      simp [ih, this]

@[simp] theorem State.pump_keeps (s : State) (p : Nat) :
    (State.pump s p).fuses = s.fuses ∧ (State.pump s p).bell.count = s.bell.count := by
  simp [State.pump]

@[simp] theorem State.enqueue_keeps (s : State) (p : Nat) (ch : Nat) (k : FabPkt) :
    (State.enqueue s p ch k).fuses = s.fuses ∧ (State.enqueue s p ch k).bell.count = s.bell.count := by
  simp [State.enqueue]

@[simp] theorem State.enqueueRed_keeps (s : State) (p : Nat) (k : FabPkt) :
    (State.enqueueRed s p k).fuses = s.fuses ∧ (State.enqueueRed s p k).bell.count = s.bell.count := by
  unfold State.enqueueRed; (try dsimp only); (repeat' split) <;> simp

@[simp] theorem State.abortReq_keeps (s : State) (id : Nat) (r : Req) :
    (State.abortReq s id r).fuses = s.fuses ∧ (State.abortReq s id r).bell.count = s.bell.count := by
  unfold State.abortReq; (try dsimp only); (repeat' split) <;> simp

@[simp] theorem State.guestAnswer_keeps (s : State) (site : Nat) (rtag : Nat) (typ : Nat) (status : Nat) (data : List (BitVec 512)) (bytes : Nat) (poison : Nat) :
    (State.guestAnswer s site rtag typ status data bytes poison).fuses = s.fuses ∧ (State.guestAnswer s site rtag typ status data bytes poison).bell.count = s.bell.count := by
  simp [State.guestAnswer]

@[simp] theorem State.unroutable_keeps (s : State) (feid : Nat) (typ : Nat) (cause : Nat) (arr : Option Nat) (tag : Nat) :
    (State.unroutable s feid typ cause arr tag).fuses = s.fuses ∧ (State.unroutable s feid typ cause arr tag).bell.count = s.bell.count := by
  simp [State.unroutable]

@[simp] theorem State.noticeHere_keeps (s : State) (rtag : Nat) (typ : Nat) :
    (State.noticeHere s rtag typ).fuses = s.fuses ∧ (State.noticeHere s rtag typ).bell.count = s.bell.count := by
  unfold State.noticeHere; (try dsimp only); (repeat' split) <;> simp

@[simp] theorem State.noticeLost_keeps (s : State) (rtag : Nat) (reason : Nat) (typ : Nat) (tag : Nat) :
    (State.noticeLost s rtag reason typ tag).fuses = s.fuses ∧ (State.noticeLost s rtag reason typ tag).bell.count = s.bell.count := by
  simp [State.noticeLost]

@[simp] theorem State.notify_keeps (s : State) (k : FabPkt) (reason : Nat) :
    (State.notify s k reason).fuses = s.fuses ∧ (State.notify s k reason).bell.count = s.bell.count := by
  unfold State.notify; (try dsimp only); (repeat' split) <;> simp

@[simp] theorem State.dropLost_keeps (s : State) (k : FabPkt) (arr : Option Nat) (ttl : Bool) :
    (State.dropLost s k arr ttl).fuses = s.fuses ∧ (State.dropLost s k arr ttl).bell.count = s.bell.count := by
  simp [State.dropLost]

@[simp] theorem State.forward_keeps (s : State) (k : FabPkt) (arr : Option Nat) :
    (State.forward s k arr).fuses = s.fuses ∧ (State.forward s k arr).bell.count = s.bell.count := by
  unfold State.forward; (repeat' split) <;> simp

@[simp] theorem State.retryWaiting_keeps (s : State) :
    (State.retryWaiting s).fuses = s.fuses ∧ (State.retryWaiting s).bell.count = s.bell.count := by
  simp [State.retryWaiting]

@[simp] theorem State.linkOut_keeps (s : State) (p : Nat) (kind : Byte) (args : List Nat) :
    (State.linkOut s p kind args).fuses = s.fuses ∧ (State.linkOut s p kind args).bell.count = s.bell.count := by
  simp [State.linkOut]

@[simp] theorem State.sendAck_keeps (s : State) (p : Nat) (g : Nat) :
    (State.sendAck s p g).fuses = s.fuses ∧ (State.sendAck s p g).bell.count = s.bell.count := by
  simp [State.sendAck]

theorem execCodeword_keeps (port : Fin 64) (group : BitVec 1) (lseq : BitVec 10) (symErr : List (Fin 8 × Nat)) (ctrl : Nat) (flits : Nat) (s : State) :
    ∃ t, execCodeword port group lseq symErr ctrl flits s = .next t ∧ t.fuses = s.fuses ∧ t.bell.count = s.bell.count := by
  refine ⟨_, rfl, ?_⟩; simp

theorem execAckIntervalExpiry_keeps (port : Fin 64) (group : BitVec 1) (s : State) :
    ∃ t, execAckIntervalExpiry port group s = .next t ∧ t.fuses = s.fuses ∧ t.bell.count = s.bell.count := by
  refine ⟨_, rfl, ?_⟩; simp

theorem execAck_keeps (port : Fin 64) (group : BitVec 1) (lseq : BitVec 10) (s : State) :
    ∃ t, execAck port group lseq s = .next t ∧ t.fuses = s.fuses ∧ t.bell.count = s.bell.count := by
  refine ⟨_, rfl, ?_⟩; simp

theorem execCredit_keeps (port : Fin 64) (vc : Fin 25) (n : Nat) (s : State) :
    ∃ t, execCredit port vc n s = .next t ∧ t.fuses = s.fuses ∧ t.bell.count = s.bell.count := by
  refine ⟨_, rfl, ?_⟩; simp

@[simp] theorem State.returnCredit_keeps (s : State) (p : Nat) (k : FabPkt) :
    (State.returnCredit s p k).fuses = s.fuses ∧ (State.returnCredit s p k).bell.count = s.bell.count := by
  simp [State.returnCredit]

@[simp] theorem State.chargeTags_keeps (s : State) (l : List FabPkt) :
    (State.chargeTags s l).fuses = s.fuses ∧ (State.chargeTags s l).bell.count = s.bell.count := by
  unfold State.chargeTags
  exact foldl_keeps _ _ _ fun s t => by split <;> simp

@[simp] theorem State.discardOwed_keeps (s : State) (p : Nat) (reason : Nat) :
    (State.discardOwed s p reason).fuses = s.fuses ∧ (State.discardOwed s p reason).bell.count = s.bell.count := by
  simp [State.discardOwed]

@[simp] theorem State.portDegrade_keeps (s : State) (p : Nat) :
    (State.portDegrade s p).fuses = s.fuses ∧ (State.portDegrade s p).bell.count = s.bell.count := by
  simp [State.portDegrade]

@[simp] theorem State.tellTags_keeps (s : State) (tags : List Nat) (record : Nat → List (Nat × Nat)) :
    (State.tellTags s tags record).fuses = s.fuses ∧ (State.tellTags s tags record).bell.count = s.bell.count := by
  unfold State.tellTags
  exact foldl_keeps _ _ _ fun s e => by split <;> simp

@[simp] theorem State.portDown_keeps (s : State) (p : Nat) (cause : Nat) :
    (State.portDown s p cause).fuses = s.fuses ∧ (State.portDown s p cause).bell.count = s.bell.count := by
  simp [State.portDown]

@[simp] theorem State.loseGroup_keeps (s : State) (p : Nat) (g : Nat) (cause : Nat) :
    (State.loseGroup s p g cause).fuses = s.fuses ∧ (State.loseGroup s p g cause).bell.count = s.bell.count := by
  simp [State.loseGroup]

theorem execGroupLost_keeps (port : Fin 64) (group : BitVec 1) (cause : BitVec 4) (s : State) :
    ∃ t, execGroupLost port group cause s = .next t ∧ t.fuses = s.fuses ∧ t.bell.count = s.bell.count := by
  refine ⟨_, rfl, ?_⟩; simp

theorem execNak_keeps (port : Fin 64) (group : BitVec 1) (lseq : BitVec 10) (s : State) :
    ∃ t, execNak port group lseq s = .next t ∧ t.fuses = s.fuses ∧ t.bell.count = s.bell.count := by
  refine ⟨_, rfl, ?_⟩; simp

theorem execGfail_keeps (port : Fin 64) (lost : BitVec 1) (lseq : BitVec 10) (s : State) :
    ∃ t, execGfail port lost lseq s = .next t ∧ t.fuses = s.fuses ∧ t.bell.count = s.bell.count := by
  refine ⟨_, rfl, ?_⟩; simp

@[simp] theorem State.startTraining_keeps (s : State) (p : Nat) :
    (State.startTraining s p).fuses = s.fuses ∧ (State.startTraining s p).bell.count = s.bell.count := by
  simp [State.startTraining]

theorem execPortTraining_keeps (port : Fin 64) (s : State) :
    ∃ t, execPortTraining port s = .next t ∧ t.fuses = s.fuses ∧ t.bell.count = s.bell.count := by
  refine ⟨_, rfl, ?_⟩; simp

theorem execTrain_keeps (port : Fin 64) (o : TrainObs) (s : State) :
    ∃ t, execTrain port o s = .next t ∧ t.fuses = s.fuses ∧ t.bell.count = s.bell.count := by
  refine ⟨_, rfl, ?_⟩; simp

@[simp] theorem State.greetChild_keeps (s : State) (p : Nat) :
    (State.greetChild s p).fuses = s.fuses ∧ (State.greetChild s p).bell.count = s.bell.count := by
  simp [State.greetChild]

@[simp] theorem State.finishTraining_keeps (s : State) (p : Nat) (o : TrainObs) :
    (State.finishTraining s p o).fuses = s.fuses ∧ (State.finishTraining s p o).bell.count = s.bell.count := by
  unfold State.finishTraining; (try dsimp only); (repeat' split) <;> simp

theorem execTrainingComplete_keeps (port : Fin 64) (o : TrainObs) (s : State) :
    ∃ t, execTrainingComplete port o s = .next t ∧ t.fuses = s.fuses ∧ t.bell.count = s.bell.count := by
  refine ⟨_, rfl, ?_⟩; (try dsimp only); (repeat' split) <;> simp

theorem execRetrainTimer_keeps (port : Fin 64) (s : State) :
    ∃ t, execRetrainTimer port s = .next t ∧ t.fuses = s.fuses ∧ t.bell.count = s.bell.count := by
  refine ⟨_, rfl, ?_⟩; simp

@[simp] theorem State.portCtlWrite_keeps (s : State) (p : Nat) (en : Bool) :
    (State.portCtlWrite s p en).fuses = s.fuses ∧ (State.portCtlWrite s p en).bell.count = s.bell.count := by
  unfold State.portCtlWrite; (try dsimp only); (repeat' split) <;> simp

theorem execPortCtl_keeps (path : RegPath) (port : Fin 64) (value : DWord) (s : State) :
    ∃ t, execPortCtl path port value s = .next t ∧ t.fuses = s.fuses ∧ t.bell.count = s.bell.count := by
  refine ⟨_, rfl, ?_⟩; simp

theorem execPortDrainTimeout_keeps (port : Fin 64) (s : State) :
    ∃ t, execPortDrainTimeout port s = .next t ∧ t.fuses = s.fuses ∧ t.bell.count = s.bell.count := by
  refine ⟨_, rfl, ?_⟩; simp

/-! ### Fabric.lean -/

@[simp] theorem State.fabricDrop_keeps (s : State) (cause : Nat) (port : Nat) (k : FabPkt) (dests : List Dest) (al : Option Nat) :
    (State.fabricDrop s cause port k dests al).fuses = s.fuses ∧ (State.fabricDrop s cause port k dests al).bell.count = s.bell.count := by
  simp [State.fabricDrop]

@[simp] theorem State.arrive_keeps (s : State) (p : Nat) (k : FabPkt) (typ : Nat) (here : State → State) (hhere : ∀ s : State, (here s).fuses = s.fuses ∧ (here s).bell.count = s.bell.count) :
    (State.arrive s p k typ here).fuses = s.fuses ∧ (State.arrive s p k typ here).bell.count = s.bell.count := by
  unfold State.arrive; (try dsimp only); (repeat' split) <;> simp [hhere]

@[simp] theorem State.inject_keeps (s : State) (k : FabPkt) (here : State → State) (hhere : ∀ s : State, (here s).fuses = s.fuses ∧ (here s).bell.count = s.bell.count) :
    (State.inject s k here).fuses = s.fuses ∧ (State.inject s k here).bell.count = s.bell.count := by
  unfold State.inject; (repeat' split) <;> simp [hhere]

@[simp] theorem State.setRx_keeps (s : State) (i : Nat) (x : Rx) :
    (State.setRx s i x).fuses = s.fuses ∧ (State.setRx s i x).bell.count = s.bell.count := by
  simp [State.setRx]

@[simp] theorem State.countRx_keeps (s : State) (a : Nat) (tag : Nat) (tid : Nat) (src : Nat) :
    (State.countRx s a tag tid src).fuses = s.fuses ∧ (State.countRx s a tag tid src).bell.count = s.bell.count := by
  unfold State.countRx; (try dsimp only); (repeat' split) <;> simp

@[simp] theorem State.serveRead_keeps (s : State) (k : FabPkt) (source : Nat) (core : Nat) :
    ((State.serveRead s k source core).1).fuses = s.fuses ∧ ((State.serveRead s k source core).1).bell.count = s.bell.count := by
  unfold State.serveRead
  try dsimp only
  split <;> simp

@[simp] theorem State.serveWrite_keeps (s : State) (k : FabPkt) (source : Nat) (core : Nat) :
    ((State.serveWrite s k source core).1).fuses = s.fuses ∧ ((State.serveWrite s k source core).1).bell.count = s.bell.count := by
  unfold State.serveWrite; (try dsimp only); (repeat' split) <;> simp

@[simp] theorem State.respHere_keeps (s : State) (k : FabPkt) :
    (State.respHere s k).fuses = s.fuses ∧ (State.respHere s k).bell.count = s.bell.count := by
  unfold State.respHere; (try dsimp only); (repeat' split) <;> simp

@[simp] theorem State.served_keeps (s : State) (k : FabPkt) (source : Nat) (core : Nat) :
    ((State.served s k source core).1).fuses = s.fuses ∧ ((State.served s k source core).1).bell.count = s.bell.count := by
  unfold State.served; (repeat' split) <;> simp

@[simp] theorem State.serveHere_keeps (s : State) (k : FabPkt) (ns : Nat) :
    (State.serveHere s k ns).fuses = s.fuses ∧ (State.serveHere s k ns).bell.count = s.bell.count := by
  simp [State.serveHere]

theorem execFabricRead_keeps (port : Fin 64) (pkt : Timed) (s : State) :
    ∃ t, execFabricRead port pkt s = .next t ∧ t.fuses = s.fuses ∧ t.bell.count = s.bell.count := by
  refine ⟨_, rfl, ?_⟩; simp

theorem execFabricWrite_keeps (port : Fin 64) (pkt : Timed) (s : State) :
    ∃ t, execFabricWrite port pkt s = .next t ∧ t.fuses = s.fuses ∧ t.bell.count = s.bell.count := by
  refine ⟨_, rfl, ?_⟩; simp

theorem execFabricReadResp_keeps (port : Fin 64) (pkt : FabPkt) (s : State) :
    ∃ t, execFabricReadResp port pkt s = .next t ∧ t.fuses = s.fuses ∧ t.bell.count = s.bell.count := by
  refine ⟨_, rfl, ?_⟩; simp

theorem execFabricWriteAck_keeps (port : Fin 64) (pkt : FabPkt) (s : State) :
    ∃ t, execFabricWriteAck port pkt s = .next t ∧ t.fuses = s.fuses ∧ t.bell.count = s.bell.count := by
  refine ⟨_, rfl, ?_⟩; simp

theorem execNotice_keeps (port : Fin 64) (pkt : FabPkt) (s : State) :
    ∃ t, execNotice port pkt s = .next t ∧ t.fuses = s.fuses ∧ t.bell.count = s.bell.count := by
  refine ⟨_, rfl, ?_⟩; simp

theorem execTransferTimeout_keeps (id : Nat) (s : State) :
    ∃ t, execTransferTimeout id s = .next t ∧ t.fuses = s.fuses ∧ t.bell.count = s.bell.count := by
  refine ⟨_, rfl, ?_⟩; (try dsimp only); (repeat' split) <;> simp

@[simp] theorem State.tallyIncHere_keeps (s : State) (k : FabPkt) :
    (State.tallyIncHere s k).fuses = s.fuses ∧ (State.tallyIncHere s k).bell.count = s.bell.count := by
  simp [State.tallyIncHere]

@[simp] theorem State.tallyIncFrom_keeps (s : State) (p : Nat) (k : FabPkt) :
    (State.tallyIncFrom s p k).fuses = s.fuses ∧ (State.tallyIncFrom s p k).bell.count = s.bell.count := by
  simp [State.tallyIncFrom]

theorem execTallyInc_keeps (port : Option (Fin 64)) (pkt : FabPkt) (s : State) :
    ∃ t, execTallyInc port pkt s = .next t ∧ t.fuses = s.fuses ∧ t.bell.count = s.bell.count := by
  refine ⟨_, rfl, ?_⟩; (repeat' split) <;> simp

@[simp] theorem State.setRed_keeps (s : State) (i : Nat) (x : Red) :
    (State.setRed s i x).fuses = s.fuses ∧ (State.setRed s i x).bell.count = s.bell.count := by
  simp [State.setRed]

theorem State.localIn_keeps (s : State) (x : Red) (q : Nat) :
    ∀ out, State.localIn s x q = some out → out.1.fuses = s.fuses ∧ out.1.bell.count = s.bell.count := by
  intro out h
  unfold State.localIn at h
  split at h
  · simp at h
  · dsimp only at h
    split at h
    · simp at h
    · split at h
      · simp at h
      · cases h
        simp [foldl_keeps]

@[simp] theorem State.deliver64_keeps (s : State) (a : Nat) (dpa : Nat) (n : Nat) (l : List (BitVec 512 × Bool)) :
    (State.deliver64 s a dpa n l).fuses = s.fuses ∧ (State.deliver64 s a dpa n l).bell.count = s.bell.count := by
  simp [State.deliver64]

@[simp] theorem State.emitRed_keeps (s : State) (x : Red) (seq : Nat) (l : List (BitVec 512 × Bool)) (bytes : Nat) :
    (State.emitRed s x seq l bytes).fuses = s.fuses ∧ (State.emitRed s x seq l bytes).bell.count = s.bell.count := by
  unfold State.emitRed; (try dsimp only); (repeat' split) <;> simp

@[simp] theorem State.outputRed_keeps (s : State) (x : Red) (q : Nat) (l : List (BitVec 512 × Bool)) :
    (State.outputRed s x q l).fuses = s.fuses ∧ (State.outputRed s x q l).bell.count = s.bell.count := by
  simp [State.outputRed]

@[simp] theorem State.notifyUse_keeps (s : State) (x : Red) :
    (State.notifyUse s x).fuses = s.fuses ∧ (State.notifyUse s x).bell.count = s.bell.count := by
  simp [State.notifyUse]

@[simp] theorem State.completeSeq_keeps (s : State) (i : Nat) (ins : List Staged) :
    (State.completeSeq s i ins).fuses = s.fuses ∧ (State.completeSeq s i ins).bell.count = s.bell.count := by
  simp [State.completeSeq]

theorem State.redReady_keeps (s : State) (i : Nat) :
    ∀ out, State.redReady s i = some out → out.1.fuses = s.fuses ∧ out.1.bell.count = s.bell.count := by
  intro out h
  unfold State.redReady at h
  dsimp only at h
  split at h
  · simp at h
  · split at h
    · simp only [Option.map_eq_some_iff] at h
      obtain ⟨r, hr, rfl⟩ := h
      exact State.localIn_keeps _ _ _ _ hr
    · cases h
      simp

@[simp] theorem State.runRed_keeps (s : State) (i : Nat) (v2 : Nat) :
    (State.runRed s i v2).fuses = s.fuses ∧ (State.runRed s i v2).bell.count = s.bell.count := by
  induction v2 generalizing s with
  | zero => simp [State.runRed]
  | succ n ih =>
    unfold State.runRed
    split
    · simp
    · rename_i r hr
      have := State.redReady_keeps _ _ _ hr
      try dsimp only
      split <;> simp [this, ih]

@[simp] theorem State.drainRed_keeps (s : State) (p : Nat) (v2 : Nat) :
    (State.drainRed s p v2).fuses = s.fuses ∧ (State.drainRed s p v2).bell.count = s.bell.count := by
  induction v2 generalizing s with
  | zero => simp [State.drainRed]
  | succ n ih =>
    unfold State.drainRed
    split
    · simp
    · split
      · simp
      · try dsimp only
        generalize 65536 = z
        split
        · rw [(ih _).1, (ih _).2]; simp
        · split
          · rw [(ih _).1, (ih _).2]; simp
          · simp

@[simp] theorem State.drainLoop_keeps (n : Nat) : ∀ s : State,
    (s.drainLoop n).fuses = s.fuses ∧ (s.drainLoop n).bell.count = s.bell.count := by
  induction n with
  | zero => exact fun s => ⟨rfl, rfl⟩
  | succ n ih =>
    intro s
    unfold State.drainLoop
    have h : ((List.range 64).foldl (fun s p => s.drainRed p ((s.port p).redQ.length)) s).fuses = s.fuses ∧
        ((List.range 64).foldl (fun s p => s.drainRed p ((s.port p).redQ.length)) s).bell.count = s.bell.count :=
      foldl_keeps _ _ _ fun s p => State.drainRed_keeps _ _ _
    dsimp only
    split
    · exact h
    · exact ⟨(ih _).1.trans h.1, (ih _).2.trans h.2⟩

@[simp] theorem State.drainAll_keeps (s : State) :
    (State.drainAll s).fuses = s.fuses ∧ (State.drainAll s).bell.count = s.bell.count := by
  simp [State.drainAll]

@[simp] theorem State.noteRed_keeps (s t : State) (i : Option Nat) (l : List (Fin 64 × Nat)) :
    (s.noteRed t i l).fuses = t.fuses ∧ (s.noteRed t i l).bell.count = t.bell.count := by
  unfold State.noteRed
  split
  · exact ite_keeps ⟨rfl, rfl⟩ (State.noteSlow_keeps _ _ _ _)
  · exact ⟨rfl, rfl⟩

theorem execReduce_keeps (port : Fin 64) (pkt : Slowed FabPkt) (s : State) :
    ∃ t, execReduce port pkt s = .next t ∧ t.fuses = s.fuses ∧ t.bell.count = s.bell.count := by
  refine ⟨_, rfl, ?_⟩; simp

theorem execReductionTrigger_keeps (entry : Slowed (BitVec 12)) (s : State) :
    ∃ t, execReductionTrigger entry s = .next t ∧ t.fuses = s.fuses ∧ t.bell.count = s.bell.count := by
  refine ⟨_, rfl, ?_⟩; simp

@[simp] theorem State.stallEvent_keeps (s : State) (i : Nat) (stage : Nat) :
    (State.stallEvent s i stage).fuses = s.fuses ∧ (State.stallEvent s i stage).bell.count = s.bell.count := by
  simp [State.stallEvent]

theorem execReductionStall_keeps (entry : BitVec 12) (s : State) :
    ∃ t, execReductionStall entry s = .next t ∧ t.fuses = s.fuses ∧ t.bell.count = s.bell.count := by
  refine ⟨_, rfl, ?_⟩; simp

theorem execReductionPoisonFill_keeps (entry : Slowed (BitVec 12)) (s : State) :
    ∃ t, execReductionPoisonFill entry s = .next t ∧ t.fuses = s.fuses ∧ t.bell.count = s.bell.count := by
  refine ⟨_, rfl, ?_⟩
  have hl := State.localIn_keeps (s.stallEvent entry.val.toNat 1) (s.red entry.val.toNat) (s.red entry.val.toNat).seq
  have h0 := State.stallEvent_keeps s entry.val.toNat 1
  dsimp only
  generalize 65536 = z
  revert hl h0
  generalize State.localIn (s.stallEvent entry.val.toNat 1) (s.red entry.val.toNat) (s.red entry.val.toNat).seq = o
  generalize s.stallEvent entry.val.toNat 1 = u
  intro hl h0
  split
  · exact ⟨rfl, rfl⟩
  · refine ⟨(State.noteRed_keeps _ _ _ _).1.trans ((State.drainAll_keeps _).1.trans ((State.runRed_keeps _ _ _).1.trans ((State.completeSeq_keeps _ _ _).1.trans
        ((State.setRed_keeps _ _ _).1.trans ?_)))),
      (State.noteRed_keeps _ _ _ _).2.trans ((State.drainAll_keeps _).2.trans ((State.runRed_keeps _ _ _).2.trans ((State.completeSeq_keeps _ _ _).2.trans
        ((State.setRed_keeps _ _ _).2.trans ?_))))⟩
    · cases o with
      | none => exact h0.1
      | some x => exact (hl x rfl).1.trans h0.1
    · cases o with
      | none => exact h0.2
      | some x => exact (hl x rfl).2.trans h0.2

theorem execNoEntryTimeout_keeps (port : Slowed (Fin 64)) (s : State) :
    ∃ t, execNoEntryTimeout port s = .next t ∧ t.fuses = s.fuses ∧ t.bell.count = s.bell.count := by
  refine ⟨_, rfl, ?_⟩
  dsimp only
  split
  · exact ⟨rfl, rfl⟩
  · refine ite_keeps ⟨rfl, rfl⟩ ?_
    refine ⟨(State.noteSlow_keeps _ _ _ _).1.trans ((State.drainAll_keeps _).1.trans ?_), (State.noteSlow_keeps _ _ _ _).2.trans ((State.drainAll_keeps _).2.trans ?_)⟩
    all_goals (split <;> simp)

theorem execReduceOutPortTimeout_keeps (port : Fin 64) (s : State) :
    ∃ t, execReduceOutPortTimeout port s = .next t ∧ t.fuses = s.fuses ∧ t.bell.count = s.bell.count := by
  refine ⟨_, rfl, ?_⟩
  try dsimp only
  split
  · simp
  · refine ⟨(foldl_keeps _ _ _ fun s m => ?_).1.trans ((foldl_keeps _ _ _ fun s m => ?_).1.trans ?_), (foldl_keeps _ _ _ fun s m => ?_).2.trans ((foldl_keeps _ _ _ fun s m => ?_).2.trans ?_)⟩
    all_goals first
      | (simp; done)
      | (split <;> simp)

theorem State.amendRoute_keeps (s : State) (feid : Nat) (e : BitVec 128) :
    ∀ out, State.amendRoute s feid e = some out → out.fuses = s.fuses ∧ out.bell.count = s.bell.count := by
  intro out h; unfold State.amendRoute at h; simp at h; (try (obtain ⟨_, rfl⟩ := h)); simp

theorem State.amendRed_keeps (s : State) (a : Nat) (i : Nat) (w : BitVec 512) :
    ∀ out, State.amendRed s a i w = some out → out.fuses = s.fuses ∧ out.bell.count = s.bell.count := by
  intro out h; unfold State.amendRed at h; simp at h; (try (obtain ⟨_, rfl⟩ := h)); simp

@[simp] theorem State.routeCmd_keeps (s : State) (f : State → State) (hf : ∀ s : State, (f s).fuses = s.fuses ∧ (f s).bell.count = s.bell.count) :
    (State.routeCmd s f).fuses = s.fuses ∧ (State.routeCmd s f).bell.count = s.bell.count := by
  simp [State.routeCmd, hf]

theorem execRouteCmdRead_keeps (path : RegPath) (s : State) :
    ∃ t, execRouteCmdRead path s = .next t ∧ t.fuses = s.fuses ∧ t.bell.count = s.bell.count := by
  refine ⟨_, rfl, ?_⟩; simp

theorem execRouteCmdWrite_keeps (path : RegPath) (s : State) :
    ∃ t, execRouteCmdWrite path s = .next t ∧ t.fuses = s.fuses ∧ t.bell.count = s.bell.count := by
  refine ⟨_, rfl, ?_⟩
  refine State.writeNow_keeps _ _ _ _ _ fun s => State.routeCmd_keeps _ _ fun s => ?_
  dsimp only
  split
  · rename_i h
    have := State.amendRoute_keeps _ _ _ _ h
    simpa using this
  · simp

/-! ### Domain.lean -/

@[simp] theorem State.setBell_keeps (s : State) (b : Bell) : (s.setBell b).fuses = s.fuses ∧ (s.setBell b).bell = b :=
  ⟨rfl, rfl⟩

@[simp] theorem State.phaseError_keeps (s : State) (cause : Nat) :
    (State.phaseError s cause).fuses = s.fuses ∧ (State.phaseError s cause).bell.count = s.bell.count := by
  simp [State.phaseError]

@[simp] theorem State.judgePhase_keeps (s : State) (err : Word) :
    (State.judgePhase s err).fuses = s.fuses ∧ (State.judgePhase s err).bell.count = s.bell.count := by
  simp [State.judgePhase]

@[simp] theorem State.refuseDomain_keeps (s : State) (r : Refused) :
    (State.refuseDomain s r).fuses = s.fuses ∧ (State.refuseDomain s r).bell.count = s.bell.count := by
  simp [State.refuseDomain]

@[simp] theorem State.refusePort_keeps (s : State) :
    (State.refusePort s).fuses = s.fuses ∧ (State.refusePort s).bell.count = s.bell.count := by
  simp [State.refusePort]

theorem execMarkerLost_keeps (s : State) :
    ∃ t, execMarkerLost s = .next t ∧ t.fuses = s.fuses ∧ t.bell.count = s.bell.count := by
  refine ⟨_, rfl, ?_⟩; simp

theorem execMarkerSend_keeps (s : State) :
    ∃ t, execMarkerSend s = .next t ∧ t.fuses = s.fuses ∧ t.bell.count = s.bell.count := by
  refine ⟨_, rfl, ?_⟩; simp

@[simp] theorem State.spread_keeps (s : State) (up : Bool) (q : StretchReq) :
    (State.spread s up q).fuses = s.fuses ∧ (State.spread s up q).bell.count = s.bell.count := by
  simp [State.spread]

@[simp] theorem State.stretchHere_keeps (s : State) (p : Nat) (k : FabPkt) :
    (State.stretchHere s p k).fuses = s.fuses ∧ (State.stretchHere s p k).bell.count = s.bell.count := by
  simp [State.stretchHere]

theorem execStretch_keeps (port : Fin 64) (pkt : FabPkt) (s : State) :
    ∃ t, execStretch port pkt s = .next t ∧ t.fuses = s.fuses ∧ t.bell.count = s.bell.count := by
  refine ⟨_, rfl, ?_⟩; simp

theorem execDomain_keeps (port : Fin 64) (pkt : FabPkt) (s : State) :
    ∃ t, execDomain port pkt s = .next t ∧ t.fuses = s.fuses ∧ t.bell.count = s.bell.count := by
  refine ⟨_, rfl, ?_⟩; simp

/-! ### Power.lean -/

@[simp] theorem State.setReeve_keeps (s : State) (r : Reeve) :
    (State.setReeve s r).fuses = s.fuses ∧ (State.setReeve s r).bell.count = s.bell.count := by
  simp [State.setReeve]

@[simp] theorem State.levelBreak_keeps (s : State) (cause : Nat) (w : Nat) (us : Nat) :
    (State.levelBreak s cause w us).fuses = s.fuses ∧ (State.levelBreak s cause w us).bell.count = s.bell.count := by
  simp [State.levelBreak]

@[simp] theorem State.powerStep_keeps (s : State) (always : Bool) (w : Nat) :
    (State.powerStep s always w).fuses = s.fuses ∧ (State.powerStep s always w).bell.count = s.bell.count := by
  simp [State.powerStep]

@[simp] theorem State.capEvent_keeps (s : State) (a : Nat) (kind : Nat) (limitW : Nat) (floorW : Nat) :
    (State.capEvent s a kind limitW floorW).fuses = s.fuses ∧ (State.capEvent s a kind limitW floorW).bell.count = s.bell.count := by
  simp [State.capEvent]

@[simp] theorem State.deferRun_keeps (s : State) (a : Nat) (kind : Nat) (limitW : Nat) (floorW : Nat) :
    (State.deferRun s a kind limitW floorW).fuses = s.fuses ∧ (State.deferRun s a kind limitW floorW).bell.count = s.bell.count := by
  simp [State.deferRun]

@[simp] theorem State.deferral_keeps (s : State) (l : List Share) (x : Share) :
    (State.deferral s l x).fuses = s.fuses ∧ (State.deferral s l x).bell.count = s.bell.count := by
  simp [State.deferral]

@[simp] theorem State.deferCap_keeps (s : State) (x : Share) :
    (State.deferCap s x).fuses = s.fuses ∧ (State.deferCap s x).bell.count = s.bell.count := by
  unfold State.deferCap; (try dsimp only); (repeat' split) <;> simp

@[simp] theorem State.rampLimit_keeps (s : State) (l : List Share) (x : Share) :
    (State.rampLimit s l x).fuses = s.fuses ∧ (State.rampLimit s l x).bell.count = s.bell.count := by
  simp [State.rampLimit]

@[simp] theorem State.stretchFor_keeps (s : State) (a : Nat) (i : Nat) :
    (State.stretchFor s a i).fuses = s.fuses ∧ (State.stretchFor s a i).bell.count = s.bell.count := by
  unfold State.stretchFor; (try dsimp only); (repeat' split) <;> simp

@[simp] theorem State.requestStretch_keeps (s : State) (a : Nat) :
    (State.requestStretch s a).fuses = s.fuses ∧ (State.requestStretch s a).bell.count = s.bell.count := by
  unfold State.requestStretch; (try dsimp only); (repeat' split) <;> simp

@[simp] theorem State.launchAsk_keeps (s : State) (was : State) (a : Nat) :
    (State.launchAsk s was a).fuses = s.fuses ∧ (State.launchAsk s was a).bell.count = s.bell.count := by
  unfold State.launchAsk; (try dsimp only); (repeat' split) <;> simp

theorem execSectionLoaderFill_keeps (a : Fin 16) (s : State) :
    ∃ t, execSectionLoaderFill a s = .next t ∧ t.fuses = s.fuses ∧ t.bell.count = s.bell.count := by
  refine ⟨_, rfl, ?_⟩; (try dsimp only); (repeat' split) <;> simp

@[simp] theorem State.askLoan_keeps (s : State) (l : List Share) (x : Share) :
    (State.askLoan s l x).fuses = s.fuses ∧ (State.askLoan s l x).bell.count = s.bell.count := by
  unfold State.askLoan; (try dsimp only); (repeat' split) <;> simp

@[simp] theorem State.moveEnvelope_keeps (s : State) (l : List Share) :
    (State.moveEnvelope s l).fuses = s.fuses ∧ (State.moveEnvelope s l).bell.count = s.bell.count := by
  simp [State.moveEnvelope]

@[simp] theorem State.fieldFall_keeps (s : State) :
    (State.fieldFall s).fuses = s.fuses ∧ (State.fieldFall s).bell.count = s.bell.count := by
  unfold State.fieldFall; (try dsimp only); (repeat' split) <;> simp

@[simp] theorem State.setBallast_keeps (s : State) :
    (State.setBallast s).fuses = s.fuses ∧ (State.setBallast s).bell.count = s.bell.count := by
  unfold State.setBallast
  try dsimp only
  simp only [State.setReeve_keeps]
  refine foldl_keeps _ _ _ fun s m => ?_
  try dsimp only
  split <;> simp

@[simp] theorem State.meter_keeps (s : State) (o : Telemetry) :
    (State.meter s o).fuses = s.fuses ∧ (State.meter s o).bell.count = s.bell.count := by
  simp [State.meter]

theorem execEnergyRescale_keeps (s : State) :
    ∃ t, execEnergyRescale s = .next t ∧ t.fuses = s.fuses ∧ t.bell.count = s.bell.count := by
  refine ⟨_, rfl, ?_⟩; simp

@[simp] theorem State.readParish_keeps (s : State) (o : ParishTel) :
    (State.readParish s o).fuses = s.fuses ∧ (State.readParish s o).bell.count = s.bell.count := by
  simp [State.readParish]

@[simp] theorem State.sentinel_keeps (s : State) (o : ParishTel) :
    (State.sentinel s o).fuses = s.fuses ∧ (State.sentinel s o).bell.count = s.bell.count := by
  simp [State.sentinel]

@[simp] theorem State.steer_keeps (s : State) :
    (State.steer s).fuses = s.fuses ∧ (State.steer s).bell.count = s.bell.count := by
  simp [State.steer]

theorem execReeveTelemetry_keeps (o : Telemetry) (s : State) :
    ∃ t, execReeveTelemetry o s = .next t ∧ t.fuses = s.fuses ∧ t.bell.count = s.bell.count := by
  refine ⟨_, rfl, ?_⟩; simp

theorem execDeferMaxExpiry_keeps (a : Fin 16) (s : State) :
    ∃ t, execDeferMaxExpiry a s = .next t ∧ t.fuses = s.fuses ∧ t.bell.count = s.bell.count := by
  refine ⟨_, rfl, ?_⟩; simp

theorem execFloorHoldExpiry_keeps (s : State) :
    ∃ t, execFloorHoldExpiry s = .next t ∧ t.fuses = s.fuses ∧ t.bell.count = s.bell.count := by
  refine ⟨_, rfl, ?_⟩; simp

theorem execDroop_keeps (par : Fin 78) (ns : Nat) (s : State) :
    ∃ t, execDroop par ns s = .next t ∧ t.fuses = s.fuses ∧ t.bell.count = s.bell.count := by
  refine ⟨_, rfl, ?_⟩; simp

theorem execDroopEnd_keeps (par : Fin 78) (s : State) :
    ∃ t, execDroopEnd par s = .next t ∧ t.fuses = s.fuses ∧ t.bell.count = s.bell.count := by
  refine ⟨_, rfl, ?_⟩; simp

@[simp] theorem State.throttleEvent_keeps (s : State) (par : Nat) (deciC : Nat) (begins : Bool) :
    (State.throttleEvent s par deciC begins).fuses = s.fuses ∧ (State.throttleEvent s par deciC begins).bell.count = s.bell.count := by
  unfold State.throttleEvent; (try dsimp only); (repeat' split) <;> simp

theorem execParishThrottle_keeps (par : Fin 78) (deciC : Half) (s : State) :
    ∃ t, execParishThrottle par deciC s = .next t ∧ t.fuses = s.fuses ∧ t.bell.count = s.bell.count := by
  refine ⟨_, rfl, ?_⟩; simp

theorem execThrottleStep_keeps (par : Fin 78) (hot : Bool) (s : State) :
    ∃ t, execThrottleStep par hot s = .next t ∧ t.fuses = s.fuses ∧ t.bell.count = s.bell.count := by
  refine ⟨_, rfl, ?_⟩; simp

theorem execStackThrottle_keeps (stack : Fin 64) (deciC : Half) (s : State) :
    ∃ t, execStackThrottle stack deciC s = .next t ∧ t.fuses = s.fuses ∧ t.bell.count = s.bell.count := by
  refine ⟨_, rfl, ?_⟩; (try dsimp only); (repeat' split) <;> simp

@[simp] theorem State.reeveFailover_keeps (s : State) :
    (State.reeveFailover s).fuses = s.fuses ∧ (State.reeveFailover s).bell.count = s.bell.count := by
  simp [State.reeveFailover]

theorem execReeveFailover_keeps (s : State) :
    ∃ t, execReeveFailover s = .next t ∧ t.fuses = s.fuses ∧ t.bell.count = s.bell.count := by
  refine ⟨_, rfl, ?_⟩; simp

@[simp] theorem State.loanArrive_keeps (s : State) (p : Nat) (k : FabPkt) (kind : Nat) (f : State → State) (hf : ∀ s : State, (f s).fuses = s.fuses ∧ (f s).bell.count = s.bell.count) :
    (State.loanArrive s p k kind f).fuses = s.fuses ∧ (State.loanArrive s p k kind f).bell.count = s.bell.count := by
  simp [State.loanArrive, hf]

theorem execLoanRequest_keeps (port : Fin 64) (pkt : FabPkt) (s : State) :
    ∃ t, execLoanRequest port pkt s = .next t ∧ t.fuses = s.fuses ∧ t.bell.count = s.bell.count := by
  refine ⟨_, rfl, ?_⟩; simp

@[simp] theorem State.serveLoan_keeps (s : State) (q : BitVec 24 × Nat × Int × Word) :
    (State.serveLoan s q).fuses = s.fuses ∧ (State.serveLoan s q).bell.count = s.bell.count := by
  unfold State.serveLoan; (try dsimp only); (repeat' split) <;> simp

theorem execLoanCollection_keeps (s : State) :
    ∃ t, execLoanCollection s = .next t ∧ t.fuses = s.fuses ∧ t.bell.count = s.bell.count := by
  refine ⟨_, rfl, ?_⟩; simp

theorem execLoanGrant_keeps (port : Fin 64) (pkt : FabPkt) (s : State) :
    ∃ t, execLoanGrant port pkt s = .next t ∧ t.fuses = s.fuses ∧ t.bell.count = s.bell.count := by
  refine ⟨_, rfl, ?_⟩
  refine State.loanArrive_keeps _ _ _ _ _ fun s => ?_
  dsimp only
  split
  · refine ite_keeps ⟨(State.setReeve_keeps _ _).1.trans (State.setReeve_keeps _ _).1, (State.setReeve_keeps _ _).2.trans (State.setReeve_keeps _ _).2⟩ (State.setReeve_keeps _ _)
  · exact State.setReeve_keeps _ _

theorem execLoanDecline_keeps (port : Fin 64) (pkt : FabPkt) (s : State) :
    ∃ t, execLoanDecline port pkt s = .next t ∧ t.fuses = s.fuses ∧ t.bell.count = s.bell.count := by
  refine ⟨_, rfl, ?_⟩; simp

theorem execLoanExpiry_keeps (k : Fin 16) (s : State) :
    ∃ t, execLoanExpiry k s = .next t ∧ t.fuses = s.fuses ∧ t.bell.count = s.bell.count := by
  refine ⟨_, rfl, ?_⟩
  try dsimp only
  split
  · simp
  · split <;> simp

theorem execCap_keeps (path : RegPath) (value : DWord) (s : State) :
    ∃ t, execCap path value s = .next t ∧ t.fuses = s.fuses ∧ t.bell.count = s.bell.count := by
  refine ⟨_, rfl, ?_⟩; simp

theorem execCapMax_keeps (path : RegPath) (value : DWord) (s : State) :
    ∃ t, execCapMax path value s = .next t ∧ t.fuses = s.fuses ∧ t.bell.count = s.bell.count := by
  refine ⟨_, rfl, ?_⟩; simp

/-! ### Guests.lean -/

@[simp] theorem State.setGuest_keeps (s : State) (site : Nat) (g : Guest) :
    (State.setGuest s site g).fuses = s.fuses ∧ (State.setGuest s site g).bell.count = s.bell.count := by
  simp [State.setGuest]

@[simp] theorem State.clearRules_keeps (s : State) (a : Nat) :
    (State.clearRules s a).fuses = s.fuses ∧ (State.clearRules s a).bell.count = s.bell.count := by
  simp [State.clearRules]

theorem execRuleCmdRead_keeps (path : RegPath) (site : Fin 4) (s : State) :
    ∃ t, execRuleCmdRead path site s = .next t ∧ t.fuses = s.fuses ∧ t.bell.count = s.bell.count := by
  refine ⟨_, rfl, ?_⟩; simp

theorem execRuleCmdWrite_keeps (path : RegPath) (site : Fin 4) (s : State) :
    ∃ t, execRuleCmdWrite path site s = .next t ∧ t.fuses = s.fuses ∧ t.bell.count = s.bell.count := by
  refine ⟨_, rfl, ?_⟩; simp

@[simp] theorem State.deny_keeps (s : State) (site : Nat) (dir : Nat) (why : Deny) (typ : Nat) (dst : Nat) (addr : Nat) (a : Option Nat) :
    (State.deny s site dir why typ dst addr a).fuses = s.fuses ∧ (State.deny s site dir why typ dst addr a).bell.count = s.bell.count := by
  unfold State.deny; (try dsimp only); (repeat' split) <;> simp

@[simp] theorem State.countHeld_keeps (s : State) (site : Nat) (on : Bool) :
    (State.countHeld s site on).fuses = s.fuses ∧ (State.countHeld s site on).bell.count = s.bell.count := by
  unfold State.countHeld; (try dsimp only); (repeat' split) <;> simp

@[simp] theorem State.denyGuest_keeps (s : State) (site : Nat) (k : FabPkt) (why : Deny) :
    (State.denyGuest s site k why).fuses = s.fuses ∧ (State.denyGuest s site k why).bell.count = s.bell.count := by
  simp [State.denyGuest]

@[simp] theorem State.passGuest_keeps (s : State) (site : Nat) (k : FabPkt) (slow : List (Fin 64 × Nat)) :
    (State.passGuest s site k slow).fuses = s.fuses ∧ (State.passGuest s site k slow).bell.count = s.bell.count := by
  unfold State.passGuest
  have hs := State.served_keeps s k 8 0xFFFFFFFF
  refine ite_keeps (State.fabricDrop_keeps _ _ _ _ _ _) (ite_keeps (ite_keeps (State.tallyIncHere_keeps _ _) (State.forward_keeps _ _ _)) (ite_keeps
    ⟨(State.guestAnswer_keeps _ _ _ _ _ _ _ _).1.trans (Eq.trans ?_ hs.1), (State.guestAnswer_keeps _ _ _ _ _ _ _ _).2.trans (Eq.trans ?_ hs.2)⟩
    ⟨(State.forward_keeps _ _ _).1, (State.forward_keeps _ _ _).2⟩))
  · split
    · exact (State.noteSlow_keeps _ _ _ _).1
    · rfl
  · split
    · exact (State.noteSlow_keeps _ _ _ _).2
    · rfl

@[simp] theorem State.admitGuest_keeps (s : State) (site : Nat) (k : FabPkt) (r : BitVec 256) (slow : List (Fin 64 × Nat)) :
    (State.admitGuest s site k r slow).fuses = s.fuses ∧ (State.admitGuest s site k r slow).bell.count = s.bell.count := by
  unfold State.admitGuest
  exact State.passGuest_keeps _ _ _ _

@[simp] theorem State.answerFromGuest_keeps (s : State) (site : Nat) (k : FabPkt) :
    (State.answerFromGuest s site k).fuses = s.fuses ∧ (State.answerFromGuest s site k).bell.count = s.bell.count := by
  unfold State.answerFromGuest; (try dsimp only); (repeat' split) <;> simp

@[simp] theorem State.judgeGuest_keeps (s : State) (site : Nat) (k : FabPkt) (slow : List (Fin 64 × Nat)) :
    (State.judgeGuest s site k slow).fuses = s.fuses ∧ (State.judgeGuest s site k slow).bell.count = s.bell.count := by
  unfold State.judgeGuest; (repeat' split) <;> simp

theorem execGuestPacket_keeps (site : Fin 4) (pkt : Slowed FabPkt) (s : State) :
    ∃ t, execGuestPacket site pkt s = .next t ∧ t.fuses = s.fuses ∧ t.bell.count = s.bell.count := by
  refine ⟨_, rfl, ?_⟩; (try dsimp only); (repeat' split) <;> simp

theorem execGuestNoResponse_keeps (id : Nat) (s : State) :
    ∃ t, execGuestNoResponse id s = .next t ∧ t.fuses = s.fuses ∧ t.bell.count = s.bell.count := by
  refine ⟨_, rfl, ?_⟩; (try dsimp only); (repeat' split) <;> simp

@[simp] theorem State.askGuest_keeps (s : State) (site : Nat) (step : Nat) :
    (State.askGuest s site step).fuses = s.fuses ∧ (State.askGuest s site step).bell.count = s.bell.count := by
  simp [State.askGuest]

@[simp] theorem State.fence_keeps (s : State) (site : Nat) (cause : Nat) :
    (State.fence s site cause).fuses = s.fuses ∧ (State.fence s site cause).bell.count = s.bell.count := by
  simp [State.fence]

@[simp] theorem State.takeAnswer_keeps (s : State) (i : Nat) (ans : GuestAnswer) :
    (State.takeAnswer s i ans).fuses = s.fuses ∧ (State.takeAnswer s i ans).bell.count = s.bell.count := by
  unfold State.takeAnswer; (try dsimp only); (repeat' split) <;> simp

theorem execGuestSpdmResponse_keeps (site : Fin 4) (ans : GuestAnswer) (s : State) :
    ∃ t, execGuestSpdmResponse site ans s = .next t ∧ t.fuses = s.fuses ∧ t.bell.count = s.bell.count := by
  refine ⟨_, rfl, ?_⟩; (repeat' split) <;> simp

theorem execGuestAttestTimeout_keeps (site : Fin 4) (s : State) :
    ∃ t, execGuestAttestTimeout site s = .next t ∧ t.fuses = s.fuses ∧ t.bell.count = s.bell.count := by
  refine ⟨_, rfl, ?_⟩; simp

theorem execReattestPeriodExpiry_keeps (site : Fin 4) (s : State) :
    ∃ t, execReattestPeriodExpiry site s = .next t ∧ t.fuses = s.fuses ∧ t.bell.count = s.bell.count := by
  refine ⟨_, rfl, ?_⟩; simp

theorem execGsCtlFence_keeps (path : RegPath) (site : Fin 4) (s : State) :
    ∃ t, execGsCtlFence path site s = .next t ∧ t.fuses = s.fuses ∧ t.bell.count = s.bell.count := by
  refine ⟨_, rfl, ?_⟩; simp

theorem execGsCtlReattest_keeps (path : RegPath) (site : Fin 4) (s : State) :
    ∃ t, execGsCtlReattest path site s = .next t ∧ t.fuses = s.fuses ∧ t.bell.count = s.bell.count := by
  refine ⟨_, rfl, ?_⟩; simp

theorem execFenceDrainTimeout_keeps (site : Fin 4) (s : State) :
    ∃ t, execFenceDrainTimeout site s = .next t ∧ t.fuses = s.fuses ∧ t.bell.count = s.bell.count := by
  refine ⟨_, rfl, ?_⟩; simp

@[simp] theorem State.loseGuest_keeps (s : State) (site : Nat) (cause : Nat) :
    (State.loseGuest s site cause).fuses = s.fuses ∧ (State.loseGuest s site cause).bell.count = s.bell.count := by
  simp [State.loseGuest]

theorem execGuestTraining_keeps (site : Fin 4) (mods : BitVec 4) (s : State) :
    ∃ t, execGuestTraining site mods s = .next t ∧ t.fuses = s.fuses ∧ t.bell.count = s.bell.count := by
  refine ⟨_, rfl, ?_⟩; simp

theorem execGuestTrainingTimeout_keeps (site : Fin 4) (s : State) :
    ∃ t, execGuestTrainingTimeout site s = .next t ∧ t.fuses = s.fuses ∧ t.bell.count = s.bell.count := by
  refine ⟨_, rfl, ?_⟩; simp

theorem execGuestLost_keeps (site : Fin 4) (cause : BitVec 2) (s : State) :
    ∃ t, execGuestLost site cause s = .next t ∧ t.fuses = s.fuses ∧ t.bell.count = s.bell.count := by
  refine ⟨_, rfl, ?_⟩; simp

/-! ### HostLink.lean -/

@[simp] theorem State.setHp_keeps (s : State) (h : Nat) (x : HostPort) :
    (State.setHp s h x).fuses = s.fuses ∧ (State.setHp s h x).bell.count = s.bell.count := by
  simp [State.setHp]

@[simp] theorem State.rxFrame_keeps (s : State) (h : Nat) (n : Nat) :
    (State.rxFrame s h n).fuses = s.fuses ∧ (State.rxFrame s h n).bell.count = s.bell.count := by
  simp [State.rxFrame]

@[simp] theorem State.txFrame_keeps (s : State) (h : Nat) (n : Nat) :
    (State.txFrame s h n).fuses = s.fuses ∧ (State.txFrame s h n).bell.count = s.bell.count := by
  simp [State.txFrame]

@[simp] theorem State.frameIn_keeps (s : State) (h : Nat) (f : Frame) (n : Nat) (k : State → State) (hk : ∀ s : State, (k s).fuses = s.fuses ∧ (k s).bell.count = s.bell.count) :
    (State.frameIn s h f n k).fuses = s.fuses ∧ (State.frameIn s h f n k).bell.count = s.bell.count := by
  simp [State.frameIn, hk]

@[simp] theorem State.ceMark_keeps (s : State) (qp : Nat) (q : Qp) :
    (State.ceMark s qp q).fuses = s.fuses ∧ (State.ceMark s qp q).bell.count = s.bell.count := by
  simp [State.ceMark]

@[simp] theorem State.qpFrame_keeps (s : State) (qp : Nat) (f : Frame) (n : Nat) (k : Qp → State → State)
    (hk : ∀ (q : Qp) (s : State), (k q s).fuses = s.fuses ∧ (k q s).bell.count = s.bell.count) :
    (s.qpFrame qp f n k).fuses = s.fuses ∧ (s.qpFrame qp f n k).bell.count = s.bell.count := by
  unfold State.qpFrame
  split
  · exact ⟨rfl, rfl⟩
  · refine State.frameIn_keeps _ _ _ _ _ fun s => ?_
    split
    · exact ⟨rfl, rfl⟩
    · split <;> simp [hk]

@[simp] theorem State.detach_keeps (s : State) (id : Nat) :
    (State.detach s id).fuses = s.fuses ∧ (State.detach s id).bell.count = s.bell.count := by
  simp [State.detach]

@[simp] theorem State.qpDown_keeps (s : State) (qp : Nat) :
    (State.qpDown s qp).fuses = s.fuses ∧ (State.qpDown s qp).bell.count = s.bell.count := by
  unfold State.qpDown; (try dsimp only); (repeat' split) <;> simp

@[simp] theorem State.disconnect_keeps (s : State) (qp : Nat) :
    (State.disconnect s qp).fuses = s.fuses ∧ (State.disconnect s qp).bell.count = s.bell.count := by
  simp [State.disconnect]

@[simp] theorem State.qpsDown_keeps (s : State) :
    (State.qpsDown s).fuses = s.fuses ∧ (State.qpsDown s).bell.count = s.bell.count := by
  simp [State.qpsDown]

theorem execQpError_keeps (qp : Nat) (s : State) :
    ∃ t, execQpError qp s = .next t ∧ t.fuses = s.fuses ∧ t.bell.count = s.bell.count := by
  refine ⟨_, rfl, ?_⟩; simp

@[simp] theorem State.linkDown_keeps (s : State) (h : Nat) :
    (State.linkDown s h).fuses = s.fuses ∧ (State.linkDown s h).bell.count = s.bell.count := by
  simp [State.linkDown]

theorem execHostPortDown_keeps (port : Fin 4) (s : State) :
    ∃ t, execHostPortDown port s = .next t ∧ t.fuses = s.fuses ∧ t.bell.count = s.bell.count := by
  refine ⟨_, rfl, ?_⟩; simp

theorem execHostLinkUp_keeps (port : Fin 4) (s : State) :
    ∃ t, execHostLinkUp port s = .next t ∧ t.fuses = s.fuses ∧ t.bell.count = s.bell.count := by
  refine ⟨_, rfl, ?_⟩; simp

theorem execHpCtl_keeps (path : RegPath) (port : Fin 4) (value : DWord) (s : State) :
    ∃ t, execHpCtl path port value s = .next t ∧ t.fuses = s.fuses ∧ t.bell.count = s.bell.count := by
  refine ⟨_, rfl, ?_⟩; simp

theorem execCmReq_keeps (port : Framed (Fin 4)) (qp : Nat) (mtu : Nat) (ip : Addrs) (s : State) :
    ∃ t, execCmReq port qp mtu ip s = .next t ∧ t.fuses = s.fuses ∧ t.bell.count = s.bell.count := by
  refine ⟨_, rfl, ?_⟩; simp

theorem execCnp_keeps (qp : Framed Nat) (s : State) :
    ∃ t, execCnp qp s = .next t ∧ t.fuses = s.fuses ∧ t.bell.count = s.bell.count := by
  refine ⟨_, rfl, ?_⟩; (try dsimp only); (repeat' split) <;> simp

@[simp] theorem State.answer_keeps (s : State) (h : Nat) (kind : Nat) (data : List Byte) :
    (State.answer s h kind data).fuses = s.fuses ∧ (State.answer s h kind data).bell.count = s.bell.count := by
  simp [State.answer]

theorem execArp_keeps (port : Framed (Fin 4)) (target : Word) (s : State) :
    ∃ t, execArp port target s = .next t ∧ t.fuses = s.fuses ∧ t.bell.count = s.bell.count := by
  refine ⟨_, rfl, ?_⟩; simp

theorem execNeighbourDiscovery_keeps (port : Framed (Fin 4)) (target : BitVec 128) (s : State) :
    ∃ t, execNeighbourDiscovery port target s = .next t ∧ t.fuses = s.fuses ∧ t.bell.count = s.bell.count := by
  refine ⟨_, rfl, ?_⟩; simp

theorem execIcmpEcho_keeps (port : Framed (Fin 4)) (echo : Echo) (s : State) :
    ∃ t, execIcmpEcho port echo s = .next t ∧ t.fuses = s.fuses ∧ t.bell.count = s.bell.count := by
  refine ⟨_, rfl, ?_⟩; simp

theorem execPfcPause_keeps (port : Framed (Fin 4)) (prio : BitVec 3) (s : State) :
    ∃ t, execPfcPause port prio s = .next t ∧ t.fuses = s.fuses ∧ t.bell.count = s.bell.count := by
  refine ⟨_, rfl, State.frameIn_keeps _ _ _ _ _ fun s => ?_⟩
  dsimp only
  split <;> simp

theorem execPtp_keeps (port : Framed (Fin 4)) (time : PtpTime) (ns : BitVec 30) (offset : Word) (s : State) :
    ∃ t, execPtp port time ns offset s = .next t ∧ t.fuses = s.fuses ∧ t.bell.count = s.bell.count := by
  refine ⟨_, rfl, ?_⟩; simp

theorem execHostTodLost_keeps (s : State) :
    ∃ t, execHostTodLost s = .next t ∧ t.fuses = s.fuses ∧ t.bell.count = s.bell.count := by
  refine ⟨_, rfl, ?_⟩; simp

theorem execTaiSecond_keeps (s : State) :
    ∃ t, execTaiSecond s = .next t ∧ t.fuses = s.fuses ∧ t.bell.count = s.bell.count := by
  refine ⟨_, rfl, ?_⟩; simp

@[simp] theorem State.latchTod_keeps (s : State) :
    (State.latchTod s).fuses = s.fuses ∧ (State.latchTod s).bell.count = s.bell.count := by
  simp [State.latchTod]

theorem execTodSec_keeps (path : RegPath) (s : State) :
    ∃ t, execTodSec path s = .next t ∧ t.fuses = s.fuses ∧ t.bell.count = s.bell.count := by
  refine ⟨_, rfl, ?_⟩; simp

/-! ### Steward.lean -/

@[simp] theorem State.parishRailLost_keeps (s : State) (par : Nat) (cause : Nat) :
    (State.parishRailLost s par cause).fuses = s.fuses ∧ (State.parishRailLost s par cause).bell.count = s.bell.count := by
  simp [State.parishRailLost]

@[simp] theorem State.failRegs_keeps (s : State) (rail : Nat) :
    (State.failRegs s rail).fuses = s.fuses ∧ (State.failRegs s rail).bell.count = s.bell.count := by
  simp [State.failRegs]

@[simp] theorem State.haltAllot_keeps (s : State) (a : Nat) :
    (State.haltAllot s a).fuses = s.fuses ∧ (State.haltAllot s a).bell.count = s.bell.count := by
  simp [State.haltAllot]

@[simp] theorem State.loseTimeLane_keeps (s : State) (h : Nat) :
    (State.loseTimeLane s h).fuses = s.fuses ∧ (State.loseTimeLane s h).bell.count = s.bell.count := by
  simp [State.loseTimeLane]

@[simp] theorem State.loseSector_keeps (s : State) (h : Nat) (cause : Nat) :
    (State.loseSector s h cause).fuses = s.fuses ∧ (State.loseSector s h cause).bell.count = s.bell.count := by
  simp [State.loseSector]

theorem execEscapeTableLoad_keeps (s : State) :
    ∃ t, execEscapeTableLoad s = .next t ∧ t.fuses = s.fuses ∧ t.bell.count = s.bell.count := by
  refine ⟨_, rfl, ?_⟩; simp

@[simp] theorem State.groupRailLost_keeps (s : State) (g : Nat) :
    (State.groupRailLost s g).fuses = s.fuses ∧ (State.groupRailLost s g).bell.count = s.bell.count := by
  simp [State.groupRailLost]

@[simp] theorem State.otherRailFault_keeps (s : State) (rail : Nat) (cause : Nat) :
    (State.otherRailFault s rail cause).fuses = s.fuses ∧ (State.otherRailFault s rail cause).bell.count = s.bell.count := by
  simp [State.otherRailFault]

theorem execThermalTrip_keeps (stack : Bool) (unit : Fin 78) (deciC : BitVec 16) (s : State) :
    ∃ t, execThermalTrip stack unit deciC s = .next t ∧ t.fuses = s.fuses ∧ t.bell.count = s.bell.count := by
  refine ⟨_, rfl, ?_⟩; simp

@[simp] theorem State.applyRepair_keeps (s : State) (r : Repair) :
    (State.applyRepair s r).fuses = s.fuses ∧ (State.applyRepair s r).bell.count = s.bell.count := by
  simp [State.applyRepair]

@[simp] theorem State.repairAllot_keeps (s : State) (a : Nat) :
    (State.repairAllot s a).fuses = s.fuses ∧ (State.repairAllot s a).bell.count = s.bell.count := by
  simp [State.repairAllot]

theorem execSoftRepair_keeps (k : Nat) (s : State) :
    ∃ t, execSoftRepair k s = .next t ∧ t.fuses = s.fuses ∧ t.bell.count = s.bell.count := by
  refine ⟨_, rfl, ?_⟩; (repeat' split) <;> simp

@[simp] theorem State.suspectCtl_keeps (s : State) (v : DWord) :
    (State.suspectCtl s v).fuses = s.fuses ∧ (State.suspectCtl s v).bell.count = s.bell.count := by
  simp [State.suspectCtl]

theorem execSuspectHold_keeps (path : RegPath) (hold : Bool) (s : State) :
    ∃ t, execSuspectHold path hold s = .next t ∧ t.fuses = s.fuses ∧ t.bell.count = s.bell.count := by
  refine ⟨_, rfl, ?_⟩; simp

theorem execSuspectClear_keeps (path : RegPath) (s : State) :
    ∃ t, execSuspectClear path s = .next t ∧ t.fuses = s.fuses ∧ t.bell.count = s.bell.count := by
  refine ⟨_, rfl, ?_⟩; simp

theorem execMctpEventRead_keeps (s : State) :
    ∃ t, execMctpEventRead s = .next t ∧ t.fuses = s.fuses ∧ t.bell.count = s.bell.count := by
  refine ⟨_, rfl, ?_⟩; (try dsimp only); (repeat' split) <;> simp

/-! ### Allots.lean -/

@[simp] theorem State.emptyAllot_keeps (s : State) (a : Nat) :
    (State.emptyAllot s a).fuses = s.fuses ∧ (State.emptyAllot s a).bell.count = s.bell.count := by
  simp [State.emptyAllot]

@[simp] theorem State.zeroTallies_keeps (s : State) (a : Nat) :
    (State.zeroTallies s a).fuses = s.fuses ∧ (State.zeroTallies s a).bell.count = s.bell.count := by
  simp [State.zeroTallies]

@[simp] theorem State.idleCore_keeps (s : State) (p : Pos) :
    (State.idleCore s p).fuses = s.fuses ∧ (State.idleCore s p).bell.count = s.bell.count := by
  simp [State.idleCore]

@[simp] theorem State.imbalanced_keeps (s : State) (book : Nat) (a : Nat) (diff : Nat) :
    (State.imbalanced s book a diff).fuses = s.fuses ∧ (State.imbalanced s book a diff).bell.count = s.bell.count := by
  simp [State.imbalanced]

@[simp] theorem State.auditCore_keeps (s : State) (a : Nat) (p : Pos) :
    (State.auditCore s a p).fuses = s.fuses ∧ (State.auditCore s a p).bell.count = s.bell.count := by
  simp [State.auditCore]

@[simp] theorem State.auditReds_keeps (s : State) (a : Nat) (tag : Nat) :
    (State.auditReds s a tag).fuses = s.fuses ∧ (State.auditReds s a tag).bell.count = s.bell.count := by
  simp [State.auditReds]

@[simp] theorem State.audit_keeps (s : State) (a : Nat) :
    (State.audit s a).fuses = s.fuses ∧ (State.audit s a).bell.count = s.bell.count := by
  simp [State.audit]

@[simp] theorem State.clearAllot_keeps (s : State) (a : Nat) :
    (State.clearAllot s a).fuses = s.fuses ∧ (State.clearAllot s a).bell.count = s.bell.count := by
  simp [State.clearAllot]

@[simp] theorem State.resetAllot_keeps (s : State) (a : Nat) :
    (State.resetAllot s a).fuses = s.fuses ∧ (State.resetAllot s a).bell.count = s.bell.count := by
  simp [State.resetAllot]

@[simp] theorem State.releaseAllot_keeps (s : State) (a : Nat) :
    (State.releaseAllot s a).fuses = s.fuses ∧ (State.releaseAllot s a).bell.count = s.bell.count := by
  simp [State.releaseAllot]

@[simp] theorem State.makeAllot_keeps (s : State) (a : Nat) (owner : Nat) (m : List Byte) (wintab : HostData) :
    (State.makeAllot s a owner m wintab).fuses = s.fuses ∧ (State.makeAllot s a owner m wintab).bell.count = s.bell.count := by
  simp [State.makeAllot]

@[simp] theorem State.readImage_keeps (s : State) (a : Nat) (dpa : Nat) :
    (State.readImage s a dpa).fuses = s.fuses ∧ (State.readImage s a dpa).bell.count = s.bell.count := by
  unfold State.readImage; (try dsimp only); (repeat' split) <;> simp

@[simp] theorem State.reserveRx_keeps (s : State) (tag : Nat) (tids : List Nat) :
    (State.reserveRx s tag tids).fuses = s.fuses ∧ (State.reserveRx s tag tids).bell.count = s.bell.count := by
  simp [State.reserveRx]

@[simp] theorem State.loadProgram_keeps (s : State) (a : Nat) (lsn : Nat) (dpa : Nat) :
    (State.loadProgram s a lsn dpa).fuses = s.fuses ∧ (State.loadProgram s a lsn dpa).bell.count = s.bell.count := by
  unfold State.loadProgram
  try dsimp only
  split <;> simp

@[simp] theorem State.startRun_keeps (s : State) (a : Nat) (lsn : Nat) (start : Nat) :
    (State.startRun s a lsn start).fuses = s.fuses ∧ (State.startRun s a lsn start).bell.count = s.bell.count := by
  simp [State.startRun]

@[simp] theorem State.saveSram_keeps (s : State) (p : Pos) (dpa : Nat) :
    (State.saveSram s p dpa).fuses = s.fuses ∧ (State.saveSram s p dpa).bell.count = s.bell.count := by
  simp [State.saveSram]

@[simp] theorem State.saveContext_keeps (s : State) (a : Nat) (d : Nat) (sram : Bool) :
    (State.saveContext s a d sram).fuses = s.fuses ∧ (State.saveContext s a d sram).bell.count = s.bell.count := by
  simp [State.saveContext]

@[simp] theorem State.contextSave_keeps (s : State) (a : Nat) (lsn : Nat) (m : List Byte) :
    (State.contextSave s a lsn m).fuses = s.fuses ∧ (State.contextSave s a lsn m).bell.count = s.bell.count := by
  unfold State.contextSave
  try dsimp only
  split
  · simp
  · split
    · simp
    · split
      · simp
      · split <;> simp

@[simp] theorem State.restoreSram_keeps (s : State) (p : Pos) (dpa : Nat) :
    (State.restoreSram s p dpa).fuses = s.fuses ∧ (State.restoreSram s p dpa).bell.count = s.bell.count := by
  simp [State.restoreSram]

@[simp] theorem State.restoreParish_keeps (s : State) (p : Fin 78) (dpa : Nat) :
    (State.restoreParish s p dpa).fuses = s.fuses ∧ (State.restoreParish s p dpa).bell.count = s.bell.count := by
  simp [State.restoreParish]

@[simp] theorem State.unbank_keeps (s : State) (p : Pos) :
    (State.unbank s p).fuses = s.fuses ∧ (State.unbank s p).bell.count = s.bell.count := by
  simp [State.unbank]

@[simp] theorem State.restoreContext_keeps (s : State) (a : Nat) (d : Nat) (h : Nat) (sram : Bool) :
    (State.restoreContext s a d h sram).fuses = s.fuses ∧ (State.restoreContext s a d h sram).bell.count = s.bell.count := by
  have k5 : ∀ (l : List (Fin 78 × Nat)) (s : State),
      (l.foldl (fun (s : State) e => s.restoreParish e.1 (d + ctxBlocks h + 247232 * e.2)) s).fuses = s.fuses ∧
      (l.foldl (fun (s : State) e => s.restoreParish e.1 (d + ctxBlocks h + 247232 * e.2)) s).bell.count = s.bell.count := by
    have h0 : ∀ (s : State) (e : Fin 78 × Nat) (k : Nat), (s.restoreParish e.1 k).fuses = s.fuses ∧
        (s.restoreParish e.1 k).bell.count = s.bell.count := fun s e k => State.restoreParish_keeps s e.1 k
    intro l
    induction l with
    | nil => intro s; exact ⟨rfl, rfl⟩
    | cons a l ih => intro s; rw [List.foldl_cons, (ih _).1, (ih _).2, (h0 _ _ _).1, (h0 _ _ _).2]; exact ⟨rfl, rfl⟩
  have k6 : ∀ (l : List (Pos × Nat)) (b : Nat) (s : State),
      (l.foldl (fun s e => if s.fallow e.1.parish e.1.col then s else s.restoreSram e.1 (b + 98304 * e.2)) s).fuses = s.fuses ∧
      (l.foldl (fun s e => if s.fallow e.1.parish e.1.col then s else s.restoreSram e.1 (b + 98304 * e.2)) s).bell.count =
        s.bell.count :=
    fun l b s => foldl_keeps l _ s fun s e => ite_keeps ⟨rfl, rfl⟩ (State.restoreSram_keeps s e.1 _)
  unfold State.restoreContext
  extract_lets x hub s1 s2 s3 s4 s5 base
  have h1 : s1.fuses = s.fuses ∧ s1.bell.count = s.bell.count :=
    ⟨(State.readRange_keeps _ _ _ _ _ _).1.trans (State.emptyAllot_keeps _ _).1,
      (State.readRange_keeps _ _ _ _ _ _).2.trans (State.emptyAllot_keeps _ _).2⟩
  have h2 : s2.fuses = s1.fuses ∧ s2.bell.count = s1.bell.count := foldl_keeps _ _ _ fun s p => State.unbank_keeps _ _
  have h3 : s3.fuses = s2.fuses ∧ s3.bell.count = s2.bell.count := State.updAllot_keeps _ _ _
  clear_value s1 s2 hub s3
  have h4 : s4.fuses = s3.fuses ∧ s4.bell.count = s3.bell.count := ⟨rfl, rfl⟩
  clear_value s4
  have h5 : s5.fuses = s4.fuses ∧ s5.bell.count = s4.bell.count := k5 _ s4
  clear_value s5 base
  have hf : s5.fuses = s.fuses := by rw [h5.1, h4.1, h3.1, h2.1, h1.1]
  have hb : s5.bell.count = s.bell.count := by rw [h5.2, h4.2, h3.2, h2.2, h1.2]
  exact ite_keeps ⟨(k6 _ _ s5).1.trans hf, (k6 _ _ s5).2.trans hb⟩ ⟨hf, hb⟩

@[simp] theorem State.contextRestore_keeps (s : State) (a : Nat) (lsn : Nat) (m : List Byte) :
    (State.contextRestore s a lsn m).fuses = s.fuses ∧ (State.contextRestore s a lsn m).bell.count = s.bell.count := by
  unfold State.contextRestore
  try dsimp only
  split
  · simp
  · split
    · simp
    · split
      · simp
      · split <;> simp

@[simp] theorem State.abortQueue_keeps (s : State) (a : Nat) (detail : Nat) :
    (State.abortQueue s a detail).fuses = s.fuses ∧ (State.abortQueue s a detail).bell.count = s.bell.count := by
  simp [State.abortQueue]

@[simp] theorem State.abortActive_keeps (s : State) (a : Nat) (detail : Nat) :
    (State.abortActive s a detail).fuses = s.fuses ∧ (State.abortActive s a detail).bell.count = s.bell.count := by
  unfold State.abortActive; (repeat' split) <;> simp

@[simp] theorem State.endSession_keeps (s : State) (id : Nat) (lsn : Nat) :
    (State.endSession s id lsn).fuses = s.fuses ∧ (State.endSession s id lsn).bell.count = s.bell.count := by
  unfold State.endSession; (try dsimp only); (repeat' split) <;> simp

@[simp] theorem State.closeOn_keeps (s : State) (id : Nat) :
    (State.closeOn s id).fuses = s.fuses ∧ (State.closeOn s id).bell.count = s.bell.count := by
  unfold State.closeOn; (try dsimp only); (repeat' split) <;> simp

@[simp] theorem State.closeAll_keeps (s : State) :
    (State.closeAll s).fuses = s.fuses ∧ (State.closeAll s).bell.count = s.bell.count := by
  simp [State.closeAll]

/-! ### Commands.lean -/

@[simp] theorem State.refuseOpen_keeps (s : State) (qp : Nat) (m : List Byte) (d : Nat) :
    (State.refuseOpen s qp m d).fuses = s.fuses ∧ (State.refuseOpen s qp m d).bell.count = s.bell.count := by
  simp [State.refuseOpen]

@[simp] theorem State.newKeys_keeps (s : State) (id : Nat) :
    (State.newKeys s id).fuses = s.fuses ∧ (State.newKeys s id).bell.count = s.bell.count := by
  simp [State.newKeys]

@[simp] theorem State.bindSession_keeps (s : State) (qp : Nat) (m : List Byte) :
    ((State.bindSession s qp m).1).fuses = s.fuses ∧ ((State.bindSession s qp m).1).bell.count = s.bell.count := by
  unfold State.bindSession; (try dsimp only); (repeat' split) <;> simp

@[simp] theorem State.openOn_keeps (s : State) (qp : Nat) :
    (State.openOn s qp).fuses = s.fuses ∧ (State.openOn s qp).bell.count = s.bell.count := by
  unfold State.openOn; (try dsimp only); (repeat' split) <;> simp

theorem execOpenSession_keeps (qp : Nat) (s : State) :
    ∃ t, execOpenSession qp s = .next t ∧ t.fuses = s.fuses ∧ t.bell.count = s.bell.count := by
  refine ⟨_, rfl, ?_⟩; simp

@[simp] theorem State.accept_keeps (s : State) (id : Nat) (x : Session) (m : List Byte) :
    (State.accept s id x m).fuses = s.fuses ∧ (State.accept s id x m).bell.count = s.bell.count := by
  simp [State.accept]

@[simp] theorem State.sayNo_keeps (s : State) (id : Nat) (e : LEntry) (status : Byte) (code : Nat) (payload : List (Nat × Nat)) :
    (State.sayNo s id e status code payload).fuses = s.fuses ∧ (State.sayNo s id e status code payload).bell.count = s.bell.count := by
  simp [State.sayNo]

@[simp] theorem State.judgeSend_keeps (s : State) (id : Nat) (x : Session) (m : List Byte) :
    (State.judgeSend s id x m).fuses = s.fuses ∧ (State.judgeSend s id x m).bell.count = s.bell.count := by
  unfold State.judgeSend; (try dsimp only); (repeat' split) <;> simp

@[simp] theorem State.sendOn_keeps (s : State) (qp : Nat) (m : List Byte) :
    (State.sendOn s qp m).fuses = s.fuses ∧ (State.sendOn s qp m).bell.count = s.bell.count := by
  unfold State.sendOn; (try dsimp only); (repeat' split) <;> simp

theorem execSend_keeps (qp : Framed Nat) (msg : List Byte) (s : State) :
    ∃ t, execSend qp msg s = .next t ∧ t.fuses = s.fuses ∧ t.bell.count = s.bell.count := by
  refine ⟨_, rfl, ?_⟩; (repeat' split) <;> simp

@[simp] theorem State.executing_keeps (s : State) (lsn : Nat) :
    (State.executing s lsn).fuses = s.fuses ∧ (State.executing s lsn).bell.count = s.bell.count := by
  simp [State.executing]

theorem execClose_keeps (ses : BitVec 12) (s : State) :
    ∃ t, execClose ses s = .next t ∧ t.fuses = s.fuses ∧ t.bell.count = s.bell.count := by
  refine ⟨_, rfl, ?_⟩; (repeat' split) <;> simp

theorem execSessionExpired_keeps (ses : BitVec 12) (s : State) :
    ∃ t, execSessionExpired ses s = .next t ∧ t.fuses = s.fuses ∧ t.bell.count = s.bell.count := by
  refine ⟨_, rfl, ?_⟩; simp

@[simp] theorem State.fetchWindows_keeps (s : State) (qp n d : Nat) :
    (s.fetchWindows qp n d).fuses = s.fuses ∧ (s.fetchWindows qp n d).bell.count = s.bell.count := by
  unfold State.fetchWindows
  exact ite_keeps ⟨rfl, rfl⟩ (ite_keeps (State.hostFetch_keeps _ _ _) (ite_keeps ⟨rfl, rfl⟩ ⟨rfl, rfl⟩))

theorem execAllot_keeps (ses : BitVec 12) (wintab : HostData) (s : State) :
    ∃ t, execAllot ses wintab s = .next t ∧ t.fuses = s.fuses ∧ t.bell.count = s.bell.count := by
  refine ⟨_, rfl, ?_⟩; (try dsimp only); (repeat' split) <;> simp

theorem execHalt_keeps (ses : BitVec 12) (s : State) :
    ∃ t, execHalt ses s = .next t ∧ t.fuses = s.fuses ∧ t.bell.count = s.bell.count := by
  refine ⟨_, rfl, ?_⟩; (try dsimp only); (repeat' split) <;> simp

theorem execSetOp_keeps (ses : BitVec 12) (s : State) :
    ∃ t, execSetOp ses s = .next t ∧ t.fuses = s.fuses ∧ t.bell.count = s.bell.count := by
  refine ⟨_, rfl, ?_⟩; (try dsimp only); (repeat' split) <;> simp

theorem execQueuedCommandStart_keeps (a : Fin 16) (s : State) :
    ∃ t, execQueuedCommandStart a s = .next t ∧ t.fuses = s.fuses ∧ t.bell.count = s.bell.count := by
  refine ⟨_, rfl, ?_⟩; (try dsimp only); (repeat' split) <;> simp

theorem execRelease_keeps (a : Fin 16) (s : State) :
    ∃ t, execRelease a s = .next t ∧ t.fuses = s.fuses ∧ t.bell.count = s.bell.count := by
  refine ⟨_, rfl, ?_⟩; (repeat' split) <;> simp

theorem execLoad_keeps (a : Fin 16) (s : State) :
    ∃ t, execLoad a s = .next t ∧ t.fuses = s.fuses ∧ t.bell.count = s.bell.count := by
  refine ⟨_, rfl, ?_⟩; (repeat' split) <;> simp

theorem execRun_keeps (a : Fin 16) (s : State) :
    ∃ t, execRun a s = .next t ∧ t.fuses = s.fuses ∧ t.bell.count = s.bell.count := by
  refine ⟨_, rfl, ?_⟩; (repeat' split) <;> simp

theorem execContextSave_keeps (a : Fin 16) (s : State) :
    ∃ t, execContextSave a s = .next t ∧ t.fuses = s.fuses ∧ t.bell.count = s.bell.count := by
  refine ⟨_, rfl, ?_⟩; (repeat' split) <;> simp

theorem execContextRestore_keeps (a : Fin 16) (s : State) :
    ∃ t, execContextRestore a s = .next t ∧ t.fuses = s.fuses ∧ t.bell.count = s.bell.count := by
  refine ⟨_, rfl, ?_⟩; (repeat' split) <;> simp

theorem execResetFunction_keeps (a : Fin 16) (s : State) :
    ∃ t, execResetFunction a s = .next t ∧ t.fuses = s.fuses ∧ t.bell.count = s.bell.count := by
  refine ⟨_, rfl, ?_⟩; (repeat' split) <;> simp

theorem State.amend_keeps (s : State) (a : Option (Fin 16)) (m : List Byte) :
    ∀ out, State.amend s a m = some out → out.1.fuses = s.fuses ∧ out.1.bell.count = s.bell.count := by
  intro out h
  unfold State.amend at h
  dsimp only at h
  split at h
  · split at h
    · simp only [Option.map_eq_some_iff] at h
      obtain ⟨r, hr, rfl⟩ := h
      exact State.amendRoute_keeps _ _ _ _ hr
    · simp at h
  · split at h
    · split at h
      · simp at h
      · cases h
        simp
    · simp only [Option.map_eq_some_iff] at h
      obtain ⟨r, hr, rfl⟩ := h
      exact State.amendRed_keeps _ _ _ _ _ hr

theorem execRouteAmend_keeps (ses : Slowed (BitVec 12)) (a : Option (Fin 16)) (s : State) :
    ∃ t, execRouteAmend ses a s = .next t ∧ t.fuses = s.fuses ∧ t.bell.count = s.bell.count := by
  refine ⟨_, rfl, ?_⟩
  split
  · split
    · simp
    · split
      · simp
      · split
        · simp
        · split
          · simp
          · rename_i h
            have := State.amend_keeps _ _ _ _ h
            simp [this]
  · split
    · simp
    · split
      · simp
      · rename_i h
        have := State.amend_keeps _ _ _ _ h
        refine ⟨(State.finish_keeps _ _ _ _ _).1.trans ((State.noteSlow_keeps _ _ _ _).1.trans this.1), (State.finish_keeps _ _ _ _ _).2.trans ((State.noteSlow_keeps _ _ _ _).2.trans this.2)⟩

@[simp] theorem State.wavesAsk_keeps (s : State) (was : State) (par : Fin 78) :
    (State.wavesAsk s was par).fuses = s.fuses ∧ (State.wavesAsk s was par).bell.count = s.bell.count := by
  unfold State.wavesAsk; (try dsimp only); (repeat' split) <;> simp

theorem execBellWave_keeps (par : Fin 78) (low : Copied (BitVec 8)) (s : State) :
    ∃ t, execBellWave par low s = .next t ∧ t.fuses = s.fuses ∧ t.bell.count = s.bell.count := by
  refine ⟨_, rfl, ?_⟩; simp

theorem execQuiescenceCheck_keeps (a : Fin 16) (s : State) :
    ∃ t, execQuiescenceCheck a s = .next t ∧ t.fuses = s.fuses ∧ t.bell.count = s.bell.count := by
  refine ⟨_, rfl, ?_⟩; simp

/-! ### Images.lean -/

@[simp] theorem State.rejectImage_keeps (s : State) (image : Nat) (f : Nat × Nat) :
    (State.rejectImage s image f).fuses = s.fuses ∧ (State.rejectImage s image f).bell.count = s.bell.count := by
  simp [State.rejectImage]

@[simp] theorem State.writeImage_keeps (s : State) (b : Bool) (x : StoreImage) :
    (State.writeImage s b x).fuses = s.fuses ∧ (State.writeImage s b x).bell.count = s.bell.count := by
  simp [State.writeImage]

theorem execFwStage_keeps (ses : BitVec 12) (img : Option StoreImage) (s : State) :
    ∃ t, execFwStage ses img s = .next t ∧ t.fuses = s.fuses ∧ t.bell.count = s.bell.count := by
  refine ⟨_, rfl, ?_⟩
  split
  · exact ⟨rfl, rfl⟩
  · refine ite_keeps (State.refuse_keeps _ _ _) (ite_keeps (State.refuse_keeps _ _ _) ?_)
    dsimp only
    split
    · refine ⟨(State.refuse_keeps _ _ _).1.trans ?_, (State.refuse_keeps _ _ _).2.trans ?_⟩ <;> rfl
    · rename_i x e _ _ i
      have hf := State.hostFetch_keeps s x.qp (leAt e.body 44 4)
      revert hf
      generalize s.hostFetch x.qp (leAt e.body 44 4) = t
      intro hf
      split
      · exact ⟨(State.refuse_keeps _ _ _).1.trans ((State.rejectImage_keeps _ _ _).1.trans hf.1),
          (State.refuse_keeps _ _ _).2.trans ((State.rejectImage_keeps _ _ _).2.trans hf.2)⟩
      · have hw := State.writeImage_keeps t t.spareImage i
        refine ⟨(State.finish_keeps _ _ _ _ _).1.trans (Eq.trans ?_ (hw.1.trans hf.1)), (State.finish_keeps _ _ _ _ _).2.trans (Eq.trans ?_ (hw.2.trans hf.2))⟩
        · split
          · exact (State.setReg_keeps _ _ _).1
          · rfl
        · split
          · exact (State.setReg_keeps _ _ _).2
          · rfl

/-! ### GeomRecord.lean -/

@[simp] theorem State.geomWritten_keeps (s : State) :
    (State.geomWritten s).fuses = s.fuses ∧ (State.geomWritten s).bell.count = s.bell.count := by
  simp [State.geomWritten]

@[simp] theorem State.geomNoted_keeps (s : State) :
    (State.geomNoted s).fuses = s.fuses ∧ (State.geomNoted s).bell.count = s.bell.count := by
  exact ⟨rfl, rfl⟩

@[simp] theorem State.buildGeometry_keeps (s : State) :
    (State.buildGeometry s).fuses = s.fuses ∧ (State.buildGeometry s).bell.count = s.bell.count := by
  exact ⟨(State.setReg_keeps _ _ _).1.trans ((State.setReg_keeps _ _ _).1.trans ((State.geomNoted_keeps _).1.trans (State.geomWritten_keeps _).1)),
    (State.setReg_keeps _ _ _).2.trans ((State.setReg_keeps _ _ _).2.trans ((State.geomNoted_keeps _).2.trans (State.geomWritten_keeps _).2))⟩

/-! ### Boot.lean -/

@[simp] theorem State.markDead_keeps (s : State) (par : Nat) (col : Nat) (row : Nat) :
    (State.markDead s par col row).fuses = s.fuses ∧ (State.markDead s par col row).bell.count = s.bell.count := by
  simp [State.markDead]

@[simp] theorem State.dropParishRegs_keeps (s : State) :
    (State.dropParishRegs s).fuses = s.fuses ∧ (State.dropParishRegs s).bell.count = s.bell.count := by
  simp [State.dropParishRegs]

@[simp] theorem State.loadMaps_keeps (s : State) (o : StartObs) :
    (State.loadMaps s o).fuses = s.fuses ∧ (State.loadMaps s o).bell.count = s.bell.count := by
  simp [State.loadMaps]

@[simp] theorem State.loadCfg_keeps (s : State) (x : StoreImage) :
    (State.loadCfg s x).fuses = s.fuses ∧ (State.loadCfg s x).bell.count = s.bell.count := by
  simp [State.loadCfg]

@[simp] theorem State.verify_keeps (s : State) (bad : List (Bool × Bool)) (b : Bool) :
    ((State.verify s bad b).1).fuses = s.fuses ∧ ((State.verify s bad b).1).bell.count = s.bell.count := by
  unfold State.verify; (try dsimp only); (repeat' split) <;> simp

@[simp] theorem State.recover_keeps (s : State) :
    (State.recover s).fuses = s.fuses ∧ (State.recover s).bell.count = s.bell.count := by
  simp [State.recover]

@[simp] theorem State.measure_keeps (s : State) : s.measure.fuses = s.fuses ∧ s.measure.bell.count = s.bell.count := by
  unfold State.measure
  split <;> exact ⟨rfl, rfl⟩

@[simp] theorem State.bootImage_keeps (s : State) (b : Bool) (fallback : Bool) :
    (State.bootImage s b fallback).fuses = s.fuses ∧ (State.bootImage s b fallback).bell.count = s.bell.count := by
  unfold State.bootImage; (try dsimp only); (repeat' split) <;> simp

@[simp] theorem State.pickImage_keeps (s : State) (o : StartObs) (prefB : Bool) :
    (State.pickImage s o prefB).fuses = s.fuses ∧ (State.pickImage s o prefB).bell.count = s.bell.count := by
  simp [State.pickImage]

@[simp] theorem State.applyClockPlan_keeps (s : State) :
    (State.applyClockPlan s).fuses = s.fuses ∧ (State.applyClockPlan s).bell.count = s.bell.count := by
  simp [State.applyClockPlan]

@[simp] theorem State.reachPrimary_keeps (s : State) (o : StartObs) :
    (State.reachPrimary s o).fuses = s.fuses ∧ (State.reachPrimary s o).bell.count = s.bell.count := by
  simp [State.reachPrimary]

@[simp] theorem State.endPlan_keeps (s : State) :
    (State.endPlan s).fuses = s.fuses ∧ (State.endPlan s).bell.count = s.bell.count := by
  simp [State.endPlan]

@[simp] theorem State.startSectors_keeps (s : State) (o : StartObs) :
    (State.startSectors s o).fuses = s.fuses ∧ (State.startSectors s o).bell.count = s.bell.count := by
  simp [State.startSectors]

@[simp] theorem State.startHostPorts_keeps (s : State) (o : StartObs) :
    (State.startHostPorts s o).fuses = s.fuses ∧ (State.startHostPorts s o).bell.count = s.bell.count := by
  simp [State.startHostPorts]

@[simp] theorem State.startPort_keeps (s : State) (o : StartObs) (p : Fin 64) :
    (State.startPort s o p).fuses = s.fuses ∧ (State.startPort s o p).bell.count = s.bell.count := by
  unfold State.startPort; (try dsimp only); (repeat' split) <;> simp

@[simp] theorem State.startPorts_keeps (s : State) (o : StartObs) :
    (State.startPorts s o).fuses = s.fuses ∧ (State.startPorts s o).bell.count = s.bell.count := by
  simp [State.startPorts]

@[simp] theorem State.guestRegs_keeps (s : State) (i : Nat) :
    (State.guestRegs s i).fuses = s.fuses ∧ (State.guestRegs s i).bell.count = s.bell.count := by
  simp [State.guestRegs]

@[simp] theorem State.startGuest_keeps (s : State) (o : StartObs) (warm : Bool) (g : Fin 4) :
    (State.startGuest s o warm g).fuses = s.fuses ∧ (State.startGuest s o warm g).bell.count = s.bell.count := by
  unfold State.startGuest; (try dsimp only); (repeat' split) <;> simp

@[simp] theorem State.startGuests_keeps (s : State) (o : StartObs) (warm : Bool) :
    (State.startGuests s o warm).fuses = s.fuses ∧ (State.startGuests s o warm).bell.count = s.bell.count := by
  simp [State.startGuests]

@[simp] theorem State.stackFails_keeps (s : State) (m : Nat) (cause : Nat) :
    (State.stackFails s m cause).fuses = s.fuses ∧ (State.stackFails s m cause).bell.count = s.bell.count := by
  simp [State.stackFails]

@[simp] theorem State.fixSet_keeps (s : State) (good : List Nat) :
    (State.fixSet s good).fuses = s.fuses ∧ (State.fixSet s good).bell.count = s.bell.count := by
  simp [State.fixSet]

@[simp] theorem State.mcRegs_keeps (s : State) (m : Nat) :
    (State.mcRegs s m).fuses = s.fuses ∧ (State.mcRegs s m).bell.count = s.bell.count := by
  simp [State.mcRegs]

@[simp] theorem State.pprChanged_keeps (s : State) (l : List (Nat × Word)) (ok : Bool × Bool) :
    (State.pprChanged s l ok).fuses = s.fuses ∧ (State.pprChanged s l ok).bell.count = s.bell.count := by
  unfold State.pprChanged; (try dsimp only); (repeat' split) <;> simp

@[simp] theorem State.trainStacks_keeps (s : State) (o : StartObs) :
    (State.trainStacks s o).fuses = s.fuses ∧ (State.trainStacks s o).bell.count = s.bell.count := by
  unfold State.trainStacks; (try dsimp only); (repeat' split) <;> simp

@[simp] theorem State.coldStacks_keeps (s : State) (o : StartObs) :
    (State.coldStacks s o).fuses = s.fuses ∧ (State.coldStacks s o).bell.count = s.bell.count := by
  simp [State.coldStacks]

@[simp] theorem State.fillStack_keeps (s : State) (m : Nat) :
    (State.fillStack s m).fuses = s.fuses ∧ (State.fillStack s m).bell.count = s.bell.count := by
  simp [State.fillStack]

@[simp] theorem State.loseMemory_keeps (s : State) :
    (State.loseMemory s).fuses = s.fuses ∧ (State.loseMemory s).bell.count = s.bell.count := by
  simp [State.loseMemory]

@[simp] theorem State.quickRead_keeps (s : State) (m : Nat) :
    (State.quickRead s m).fuses = s.fuses ∧ (State.quickRead s m).bell.count = s.bell.count := by
  simp [State.quickRead]

@[simp] theorem State.warmStacks_keeps (s : State) (o : StartObs) :
    (State.warmStacks s o).fuses = s.fuses ∧ (State.warmStacks s o).bell.count = s.bell.count := by
  simp [State.warmStacks]

@[simp] theorem State.startParish_keeps (s : State) (o : StartObs) (p : Fin 78) :
    (State.startParish s o p).fuses = s.fuses ∧ (State.startParish s o p).bell.count = s.bell.count := by
  simp [State.startParish]

@[simp] theorem State.startField_keeps (s : State) (o : StartObs) :
    (State.startField s o).fuses = s.fuses ∧ (State.startField s o).bell.count = s.bell.count := by
  simp [State.startField]

@[simp] theorem State.failSite_keeps (s : State) (e : Fin 78 × Fin 80 × Fin 100) :
    (State.failSite s e).fuses = s.fuses ∧ (State.failSite s e).bell.count = s.bell.count := by
  simp [State.failSite]

@[simp] theorem State.katParish_keeps (s : State) (o : StartObs) (p : Fin 78) :
    (State.katParish s o p).fuses = s.fuses ∧ (State.katParish s o p).bell.count = s.bell.count := by
  unfold State.katParish; (try dsimp only); (repeat' split) <;> simp

@[simp] theorem State.knownAnswer_keeps (s : State) (o : StartObs) :
    (State.knownAnswer s o).fuses = s.fuses ∧ (State.knownAnswer s o).bell.count = s.bell.count := by
  simp [State.knownAnswer]

@[simp] theorem State.appendWear_keeps (s : State) (trims : List (Nat × Int)) (slack : List (Nat × Nat)) (okA : Bool) (okB : Bool) :
    (State.appendWear s trims slack okA okB).fuses = s.fuses ∧ (State.appendWear s trims slack okA okB).bell.count = s.bell.count := by
  simp [State.appendWear]

@[simp] theorem State.appendOwed_keeps (s : State) (ok : Bool × Bool) :
    (State.appendOwed s ok).fuses = s.fuses ∧ (State.appendOwed s ok).bell.count = s.bell.count := by
  unfold State.appendOwed; (try dsimp only); (repeat' split) <;> simp

@[simp] theorem State.countCores_keeps (s : State) :
    (State.countCores s).fuses = s.fuses ∧ (State.countCores s).bell.count = s.bell.count := by
  simp [State.countCores]

@[simp] theorem State.reportUvlo_keeps (s : State) :
    (State.reportUvlo s).fuses = s.fuses ∧ (State.reportUvlo s).bell.count = s.bell.count := by
  simp [State.reportUvlo]

@[simp] theorem State.abortAll_keeps (s : State) :
    (State.abortAll s).fuses = s.fuses ∧ (State.abortAll s).bell.count = s.bell.count := by
  simp [State.abortAll]

@[simp] theorem State.keepSessions_keeps (s : State) :
    (State.keepSessions s).fuses = s.fuses ∧ (State.keepSessions s).bell.count = s.bell.count := by
  simp [State.keepSessions]

@[simp] theorem State.applyRestart_keeps (s : State) :
    (State.applyRestart s).fuses = s.fuses ∧ (State.applyRestart s).bell.count = s.bell.count := by
  simp [State.applyRestart]

@[simp] theorem State.fieldOff_keeps (s : State) :
    (State.fieldOff s).fuses = s.fuses ∧ (State.fieldOff s).bell.count = s.bell.count := by
  simp [State.fieldOff]

@[simp] theorem State.quiesceParts_keeps (s : State) :
    (State.quiesceParts s).fuses = s.fuses ∧ (State.quiesceParts s).bell.count = s.bell.count := by
  simp [State.quiesceParts]

@[simp] theorem State.beginRestart_keeps (s : State) :
    (State.beginRestart s).fuses = s.fuses ∧ (State.beginRestart s).bell.count = s.bell.count := by
  simp [State.beginRestart]

@[simp] theorem State.requestWarm_keeps (s : State) :
    (State.requestWarm s).fuses = s.fuses ∧ (State.requestWarm s).bell.count = s.bell.count := by
  simp [State.requestWarm]

@[simp] theorem State.clearForRestart_keeps (s : State) :
    (State.clearForRestart s).fuses = s.fuses ∧ (State.clearForRestart s).bell.count = s.bell.count := by
  simp [State.clearForRestart]

@[simp] theorem State.warmPorts_keeps (s : State) (old : Cfg) (o : StartObs) :
    (State.warmPorts s old o).fuses = s.fuses ∧ (State.warmPorts s old o).bell.count = s.bell.count := by
  simp [State.warmPorts]

@[simp] theorem State.warmHostPorts_keeps (s : State) (o : StartObs) :
    (State.warmHostPorts s o).fuses = s.fuses ∧ (State.warmHostPorts s o).bell.count = s.bell.count := by
  simp [State.warmHostPorts]

@[simp] theorem State.checkEntry_keeps (s : State) (i : Nat) :
    (State.checkEntry s i).fuses = s.fuses ∧ (State.checkEntry s i).bell.count = s.bell.count := by
  unfold State.checkEntry; (try dsimp only); (repeat' split) <;> simp

/-! ### Start.lean -/

theorem execPowerEnRise_keeps (s : State) :
    ∃ t, execPowerEnRise s = .next t ∧ t.fuses = s.fuses ∧ t.bell.count = s.bell.count := by
  refine ⟨_, rfl, ?_⟩; simp

theorem execWarmN_keeps (s : State) :
    ∃ t, execWarmN s = .next t ∧ t.fuses = s.fuses ∧ t.bell.count = s.bell.count := by
  refine ⟨_, rfl, ?_⟩; simp

@[simp] theorem State.afterSwitch_keeps (s : State) (short : Bool) :
    (State.afterSwitch s short).fuses = s.fuses ∧ (State.afterSwitch s short).bell.count = s.bell.count := by
  simp [State.afterSwitch]

theorem execMuxSwitchComplete_keeps (s : State) :
    ∃ t, execMuxSwitchComplete s = .next t ∧ t.fuses = s.fuses ∧ t.bell.count = s.bell.count := by
  refine ⟨_, rfl, ?_⟩; (try dsimp only); (repeat' split) <;> simp

theorem execMuxStuck_keeps (shortPulse : Bool) (s : State) :
    ∃ t, execMuxStuck shortPulse s = .next t ∧ t.fuses = s.fuses ∧ t.bell.count = s.bell.count := by
  refine ⟨_, rfl, ?_⟩; (try dsimp only); (repeat' split) <;> simp

theorem execWarmReq_keeps (path : RegPath) (s : State) :
    ∃ t, execWarmReq path s = .next t ∧ t.fuses = s.fuses ∧ t.bell.count = s.bell.count := by
  refine ⟨_, rfl, ?_⟩; simp

@[simp] theorem State.bootSelectWrite_keeps (s : State) (v : DWord) :
    (State.bootSelectWrite s v).fuses = s.fuses ∧ (State.bootSelectWrite s v).bell.count = s.bell.count := by
  simp [State.bootSelectWrite]

theorem execBootSelect_keeps (path : RegPath) (value : DWord) (s : State) :
    ∃ t, execBootSelect path value s = .next t ∧ t.fuses = s.fuses ∧ t.bell.count = s.bell.count := by
  refine ⟨_, rfl, ?_⟩; simp

theorem execWearAppend_keeps (slack : List (Fin 78 × Nat)) (okA : Bool) (okB : Bool) (s : State) :
    ∃ t, execWearAppend slack okA okB s = .next t ∧ t.fuses = s.fuses ∧ t.bell.count = s.bell.count := by
  refine ⟨_, rfl, ?_⟩; simp

@[simp] theorem State.shutDown_keeps (s : State) (slack : List (Fin 78 × Nat)) (appendOk : Bool × Bool) :
    (State.shutDown s slack appendOk).fuses = s.fuses ∧ (State.shutDown s slack appendOk).bell.count = s.bell.count := by
  unfold State.shutDown; (try dsimp only); (repeat' split) <;> simp

theorem execShutdown_keeps (path : RegPath) (slack : List (Fin 78 × Nat)) (appendOk : Bool × Bool) (s : State) :
    ∃ t, execShutdown path slack appendOk s = .next t ∧ t.fuses = s.fuses ∧ t.bell.count = s.bell.count := by
  refine ⟨_, rfl, ?_⟩; simp

theorem execStewardRestart_keeps (k : Fin 8) (inTenMinutes : Nat) (s : State) :
    ∃ t, execStewardRestart k inTenMinutes s = .next t ∧ t.fuses = s.fuses ∧ t.bell.count = s.bell.count := by
  refine ⟨_, rfl, ?_⟩; simp

/-! ### RegRead.lean -/

@[simp] theorem State.readLatch_keeps (s : State) (o : Nat) :
    (State.readLatch s o).fuses = s.fuses ∧ (State.readLatch s o).bell.count = s.bell.count := by
  simp [State.readLatch]

/-! ### RegWrite.lean -/

theorem State.after_keeps (s : State) {o : Host.Outcome State Fault Refusal}
    (h : ∃ t, o = .next t ∧ t.fuses = s.fuses ∧ t.bell.count = s.bell.count) :
    (s.after o).fuses = s.fuses ∧ (s.after o).bell.count = s.bell.count := by
  obtain ⟨t, rfl, h⟩ := h
  exact h

@[simp] theorem State.loseField_keeps (s : State) (par : Fin 78) :
    (State.loseField s par).fuses = s.fuses ∧ (State.loseField s par).bell.count = s.bell.count := by
  unfold State.loseField
  try dsimp only
  simp only [State.drawn_keeps]
  refine foldl_keeps _ _ _ fun s m => ?_
  simp

@[simp] theorem State.railCtlWrite_keeps (s : State) (par : Fin 78) (v : DWord) :
    (State.railCtlWrite s par v).fuses = s.fuses ∧ (State.railCtlWrite s par v).bell.count = s.bell.count := by
  simp [State.railCtlWrite]

@[simp] theorem State.selectWrite_keeps (s : State) (o : Nat) (bitsUsed : Nat) (rows : Nat) (v : DWord) :
    (State.selectWrite s o bitsUsed rows v).fuses = s.fuses ∧ (State.selectWrite s o bitsUsed rows v).bell.count = s.bell.count := by
  simp [State.selectWrite]

@[simp] theorem State.applyParish_keeps (s : State) (par : Fin 78) (r : Nat) (v : DWord) :
    (State.applyParish s par r v).fuses = s.fuses ∧ (State.applyParish s par r v).bell.count = s.bell.count := by
  unfold State.applyParish
  refine ite_keeps ?_ (ite_keeps ?_ (ite_keeps ?_ (ite_keeps ?_ (ite_keeps ?_ (ite_keeps ?_ (ite_keeps ?_ (ite_keeps ?_ (ite_keeps ?_ (ite_keeps ?_ (ite_keeps ?_ (ite_keeps ?_ ⟨rfl, rfl⟩)))))))))))
  · split
    · exact State.deadmapWrite_keeps _ _ _ _ _
    · exact ⟨rfl, rfl⟩
  · exact State.fallowWrite_keeps _ _ _ _
  · exact State.w1c_keeps _ _ _ _
  · exact State.selectWrite_keeps _ _ _ _ _
  · exact ite_keeps (State.clearStats_keeps _ _) ⟨rfl, rfl⟩
  · exact State.selectWrite_keeps _ _ _ _ _
  · exact State.carterCtl_keeps _ _ _
  · exact State.w1c_keeps _ _ _ _
  · exact State.parishTallyWrite_keeps _ _ _ _
  · exact State.w1c_keeps _ _ _ _
  · exact State.railCtlWrite_keeps _ _ _
  · exact State.w1c_keeps _ _ _ _

@[simp] theorem State.applyMc_keeps (s : State) (m : Nat) (r : Nat) (v : DWord) :
    (State.applyMc s m r v).fuses = s.fuses ∧ (State.applyMc s m r v).bell.count = s.bell.count := by
  simp [State.applyMc]

@[simp] theorem State.applyPosted_keeps (s : State) (o : Nat) (v : DWord) :
    (State.applyPosted s o v).fuses = s.fuses ∧ (State.applyPosted s o v).bell.count = s.bell.count := by
  unfold State.applyPosted; (repeat' split) <;> simp

@[simp] theorem State.postedDone_keeps (s : State) (b : Nat) :
    (State.postedDone s b).fuses = s.fuses ∧ (State.postedDone s b).bell.count = s.bell.count := by
  unfold State.postedDone; (repeat' split) <;> simp

@[simp] theorem State.post_keeps (s : State) (path : RegPath) (o : Nat) (v : DWord) (rwk : Bool) :
    (State.post s path o v rwk).fuses = s.fuses ∧ (State.post s path o v rwk).bell.count = s.bell.count := by
  simp [State.post]

theorem execPostedWriteDone_keeps (block : BitVec 24) (s : State) :
    ∃ t, execPostedWriteDone block s = .next t ∧ t.fuses = s.fuses ∧ t.bell.count = s.bell.count := by
  refine ⟨_, rfl, ?_⟩; simp

theorem execDeadmap_keeps (path : RegPath) (par : Fin 78) (col : Fin 80) (hi : Bool) (value : DWord) (s : State) :
    ∃ t, execDeadmap path par col hi value s = .next t ∧ t.fuses = s.fuses ∧ t.bell.count = s.bell.count := by
  refine ⟨_, rfl, ?_⟩; simp

theorem execFallow_keeps (path : RegPath) (par : Fin 78) (hi : Bool) (value : DWord) (s : State) :
    ∃ t, execFallow path par hi value s = .next t ∧ t.fuses = s.fuses ∧ t.bell.count = s.bell.count := by
  refine ⟨_, rfl, ?_⟩; simp

theorem execCtrclr_keeps (path : RegPath) (offset : BitVec 24) (value : DWord) (s : State) :
    ∃ t, execCtrclr path offset value s = .next t ∧ t.fuses = s.fuses ∧ t.bell.count = s.bell.count := by
  refine ⟨_, rfl, ?_⟩; simp

theorem execParishTally_keeps (path : RegPath) (par : Fin 78) (idx : Byte) (value : DWord) (s : State) :
    ∃ t, execParishTally path par idx value s = .next t ∧ t.fuses = s.fuses ∧ t.bell.count = s.bell.count := by
  refine ⟨_, rfl, ?_⟩; simp

theorem execResume_keeps (path : RegPath) (par : Fin 78) (s : State) :
    ∃ t, execResume path par s = .next t ∧ t.fuses = s.fuses ∧ t.bell.count = s.bell.count := by
  refine ⟨_, rfl, ?_⟩; simp

theorem execSkip_keeps (path : RegPath) (par : Fin 78) (fill : BitVec 2) (s : State) :
    ∃ t, execSkip path par fill s = .next t ∧ t.fuses = s.fuses ∧ t.bell.count = s.bell.count := by
  refine ⟨_, rfl, ?_⟩; simp

theorem execAbort_keeps (path : RegPath) (par : Fin 78) (all : Bool) (s : State) :
    ∃ t, execAbort path par all s = .next t ∧ t.fuses = s.fuses ∧ t.bell.count = s.bell.count := by
  refine ⟨_, rfl, ?_⟩; simp

theorem execRailCtl_keeps (path : RegPath) (par : Fin 78) (value : DWord) (s : State) :
    ∃ t, execRailCtl path par value s = .next t ∧ t.fuses = s.fuses ∧ t.bell.count = s.bell.count := by
  refine ⟨_, rfl, ?_⟩; simp

@[simp] theorem State.ranged_keeps (s : State) (o : Nat) (width : Nat) (lo : Nat) (hi : Nat) (v : DWord) :
    (State.ranged s o width lo hi v).fuses = s.fuses ∧ (State.ranged s o width lo hi v).bell.count = s.bell.count := by
  simp [State.ranged]

@[simp] theorem State.low_keeps (s : State) (o : Nat) (width : Nat) (v : DWord) :
    (State.low s o width v).fuses = s.fuses ∧ (State.low s o width v).bell.count = s.bell.count := by
  simp [State.low]

@[simp] theorem State.gsRateWrite_keeps (s : State) (o : Nat) (v : DWord) :
    (State.gsRateWrite s o v).fuses = s.fuses ∧ (State.gsRateWrite s o v).bell.count = s.bell.count := by
  simp [State.gsRateWrite]

@[simp] theorem State.writeGate_keeps (s : State) (path : RegPath) (i : Fin 4) (r : Nat) (v : DWord) :
    (State.writeGate s path i r v).fuses = s.fuses ∧ (State.writeGate s path i r v).bell.count = s.bell.count := by
  unfold State.writeGate
  refine ite_keeps (ite_keeps (State.consumeArm_keeps _ _ _) ⟨rfl, rfl⟩) (ite_keeps ?_ (ite_keeps ?_ (ite_keeps ?_ (ite_keeps ?_ (ite_keeps ?_ (ite_keeps ?_ (ite_keeps ?_ (ite_keeps ?_ (ite_keeps ?_ ?_)))))))))
  · refine ite_keeps (State.after_keeps _ (execGsCtlFence_keeps _ _ _)) (ite_keeps (State.after_keeps _ (execGsCtlReattest_keeps _ _ _)) ?_)
    exact State.writeNow_keeps _ _ _ _ _ fun s => ⟨rfl, rfl⟩
  all_goals first
    | exact State.writeNow_keeps _ _ _ _ _ fun s => by simp
    | (refine ite_keeps (State.after_keeps _ (execRuleCmdWrite_keeps _ _ _)) (ite_keeps (State.after_keeps _ (execRuleCmdRead_keeps _ _ _)) ?_)
       exact State.writeNow_keeps _ _ _ _ _ fun s => State.setReg_keeps _ _ _)

@[simp] theorem State.writeHost_keeps (s : State) (path : RegPath) (r : Nat) (v : DWord) :
    (State.writeHost s path r v).fuses = s.fuses ∧ (State.writeHost s path r v).bell.count = s.bell.count := by
  unfold State.writeHost
  dsimp only
  (repeat' split)
  all_goals first
    | (simp; done)
    | exact State.after_keeps _ (execHpCtl_keeps _ _ _ _)
    | (refine State.writeNow_keeps _ _ _ _ _ fun s => ?_; (repeat' split) <;> simp; done)

@[simp] theorem State.writeFabric_keeps (s : State) (path : RegPath) (r : Nat) (v : DWord) :
    (State.writeFabric s path r v).fuses = s.fuses ∧ (State.writeFabric s path r v).bell.count = s.bell.count := by
  simp [State.writeFabric]

@[simp] theorem State.writeRoute_keeps (s : State) (path : RegPath) (r : Nat) (v : DWord) :
    (State.writeRoute s path r v).fuses = s.fuses ∧ (State.writeRoute s path r v).bell.count = s.bell.count := by
  unfold State.writeRoute
  dsimp only
  (repeat' split)
  all_goals first
    | (simp; done)
    | exact State.after_keeps _ (execRouteCmdWrite_keeps _ _)
    | exact State.after_keeps _ (execRouteCmdRead_keeps _ _)
    | (refine State.writeNow_keeps _ _ _ _ _ fun s => ?_; (repeat' split) <;> simp; done)

@[simp] theorem State.writePort_keeps (s : State) (path : RegPath) (p : Fin 64) (r : Nat) (v : DWord) :
    (State.writePort s path p r v).fuses = s.fuses ∧ (State.writePort s path p r v).bell.count = s.bell.count := by
  unfold State.writePort
  dsimp only
  (repeat' split)
  all_goals first
    | (simp; done)
    | exact State.after_keeps _ (execPortCtl_keeps _ _ _ _)
    | (refine State.writeNow_keeps _ _ _ _ _ fun s => ?_; (repeat' split) <;> simp; done)

@[simp] theorem State.writeHub_keeps (s : State) (path : RegPath) (o : Nat) (v : DWord) :
    (State.writeHub s path o v).fuses = s.fuses ∧ (State.writeHub s path o v).bell.count = s.bell.count := by
  unfold State.writeHub
  refine ite_keeps (State.after_keeps _ (execClkSelect_keeps _ _ _)) (ite_keeps ?_ (ite_keeps (State.after_keeps _ (execFmeterStart_keeps _ _ _)) (ite_keeps ?_ (ite_keeps ?_ (ite_keeps ?_ (ite_keeps (State.after_keeps _ (execHubTally_keeps _ _ _ _)) (ite_keeps (State.after_keeps _ (execCap_keeps _ _ _)) (ite_keeps (State.after_keeps _ (execCapMax_keeps _ _ _)) (ite_keeps ?_ (ite_keeps ?_ (ite_keeps ?_ ?_)))))))))))
  all_goals exact State.writeNow_keeps _ _ _ _ _ fun s => by simp

@[simp] theorem State.writeFlags_keeps (s : State) (path : RegPath) (o : Nat) (v : DWord) :
    (State.writeFlags s path o v).fuses = s.fuses ∧ (State.writeFlags s path o v).bell.count = s.bell.count := by
  simp [State.writeFlags]

/-! ### HostMem.lean -/

@[simp] theorem State.nak_keeps (s : State) (qp : Nat) (port : Nat) :
    (State.nak s qp port).fuses = s.fuses ∧ (State.nak s qp port).bell.count = s.bell.count := by
  simp [State.nak]

@[simp] theorem State.hostWrite_keeps (s : State) (al : Option Nat) (d : Nat) (l : List Byte) :
    (State.hostWrite s al d l).fuses = s.fuses ∧ (State.hostWrite s al d l).bell.count = s.bell.count := by
  simp [State.hostWrite]

@[simp] theorem State.hostTouch_keeps (s : State) (al : Option Nat) (d : Nat) (n : Nat) :
    (State.hostTouch s al d n).fuses = s.fuses ∧ (State.hostTouch s al d n).bell.count = s.bell.count := by
  simp [State.hostTouch]

@[simp] theorem State.hostPoison_keeps (s : State) (id : Nat) (a : Option Nat) (l : List Nat) :
    (State.hostPoison s id a l).fuses = s.fuses ∧ (State.hostPoison s id a l).bell.count = s.bell.count := by
  unfold State.hostPoison; (try dsimp only); (repeat' split) <;> simp

theorem execRdmaRead_keeps (qp : Framed Nat) (rkey : Word) (va : Nat) (len : Nat) (s : State) :
    ∃ t, execRdmaRead qp rkey va len s = .next t ∧ t.fuses = s.fuses ∧ t.bell.count = s.bell.count := by
  refine ⟨_, rfl, State.qpFrame_keeps _ _ _ _ _ fun q s => ?_⟩
  dsimp only
  (repeat' split) <;> simp

theorem execRingConsumerPoll_keeps (ses : BitVec 12) (ring : Fin 18) (s : State) :
    ∃ t, execRingConsumerPoll ses ring s = .next t ∧ t.fuses = s.fuses ∧ t.bell.count = s.bell.count := by
  refine ⟨_, rfl, ?_⟩; (try dsimp only); (repeat' split) <;> simp

theorem execRdmaReadResponse_keeps (ses : Framed (BitVec 12)) (ring : Fin 18) (consumer : DWord) (s : State) :
    ∃ t, execRdmaReadResponse ses ring consumer s = .next t ∧ t.fuses = s.fuses ∧ t.bell.count = s.bell.count := by
  refine ⟨_, rfl, ?_⟩; (try dsimp only); (repeat' split) <;> simp

@[simp] theorem State.output_keeps (s : State) (lsn : Nat) (x : Session) (addr : Nat) (rkey : Word) (data : List Byte) (result : BitVec 192) :
    (State.output s lsn x addr rkey data result).fuses = s.fuses ∧ (State.output s lsn x addr rkey data result).bell.count = s.bell.count := by
  simp [State.output]

theorem execStatus_keeps (ses : BitVec 12) (s : State) :
    ∃ t, execStatus ses s = .next t ∧ t.fuses = s.fuses ∧ t.bell.count = s.bell.count := by
  refine ⟨_, rfl, ?_⟩; (repeat' split) <;> simp

theorem execStats_keeps (ses : BitVec 12) (s : State) :
    ∃ t, execStats ses s = .next t ∧ t.fuses = s.fuses ∧ t.bell.count = s.bell.count := by
  refine ⟨_, rfl, ?_⟩; (try dsimp only); (repeat' split) <;> simp

theorem execLedgerRead_keeps (ses : BitVec 12) (s : State) :
    ∃ t, execLedgerRead ses s = .next t ∧ t.fuses = s.fuses ∧ t.bell.count = s.bell.count := by
  refine ⟨_, rfl, ?_⟩; (try dsimp only); (repeat' split) <;> simp

/-! ### Predicate.lean -/

@[simp] theorem pcmp_keeps (p : Pos) (func : BitVec 6) (f : FmtR) (test : Word → Word → Bool) (s : State) :
    (pcmp p func f test s).fuses = s.fuses ∧ (pcmp p func f test s).bell.count = s.bell.count := by
  simp [pcmp]

@[simp] theorem predOp_keeps (p : Pos) (func : BitVec 6) (f : FmtR) (op : Bool → Bool → Bool) (s : State) :
    (predOp p func f op s).fuses = s.fuses ∧ (predOp p func f op s).bell.count = s.bell.count := by
  simp [predOp]

theorem execPcmpEq_keeps (p : Pos) (f : FmtR) (s : State) :
    ∃ t, execPcmpEq p f s = .next t ∧ t.fuses = s.fuses ∧ t.bell.count = s.bell.count := by
  refine ⟨_, rfl, ?_⟩; simp

theorem execPcmpNe_keeps (p : Pos) (f : FmtR) (s : State) :
    ∃ t, execPcmpNe p f s = .next t ∧ t.fuses = s.fuses ∧ t.bell.count = s.bell.count := by
  refine ⟨_, rfl, ?_⟩; simp

theorem execPcmpLt_keeps (p : Pos) (f : FmtR) (s : State) :
    ∃ t, execPcmpLt p f s = .next t ∧ t.fuses = s.fuses ∧ t.bell.count = s.bell.count := by
  refine ⟨_, rfl, ?_⟩; simp

theorem execPcmpGe_keeps (p : Pos) (f : FmtR) (s : State) :
    ∃ t, execPcmpGe p f s = .next t ∧ t.fuses = s.fuses ∧ t.bell.count = s.bell.count := by
  refine ⟨_, rfl, ?_⟩; simp

theorem execPcmpLtu_keeps (p : Pos) (f : FmtR) (s : State) :
    ∃ t, execPcmpLtu p f s = .next t ∧ t.fuses = s.fuses ∧ t.bell.count = s.bell.count := by
  refine ⟨_, rfl, ?_⟩; simp

theorem execPcmpGeu_keeps (p : Pos) (f : FmtR) (s : State) :
    ∃ t, execPcmpGeu p f s = .next t ∧ t.fuses = s.fuses ∧ t.bell.count = s.bell.count := by
  refine ⟨_, rfl, ?_⟩; simp

theorem execPset_keeps (p : Pos) (f : FmtR) (s : State) :
    ∃ t, execPset p f s = .next t ∧ t.fuses = s.fuses ∧ t.bell.count = s.bell.count := by
  refine ⟨_, rfl, ?_⟩; simp

theorem execPand_keeps (p : Pos) (f : FmtR) (s : State) :
    ∃ t, execPand p f s = .next t ∧ t.fuses = s.fuses ∧ t.bell.count = s.bell.count := by
  refine ⟨_, rfl, ?_⟩; simp

theorem execPor_keeps (p : Pos) (f : FmtR) (s : State) :
    ∃ t, execPor p f s = .next t ∧ t.fuses = s.fuses ∧ t.bell.count = s.bell.count := by
  refine ⟨_, rfl, ?_⟩; simp

theorem execPxor_keeps (p : Pos) (f : FmtR) (s : State) :
    ∃ t, execPxor p f s = .next t ∧ t.fuses = s.fuses ∧ t.bell.count = s.bell.count := by
  refine ⟨_, rfl, ?_⟩; simp

theorem execPnot_keeps (p : Pos) (f : FmtR) (s : State) :
    ∃ t, execPnot p f s = .next t ∧ t.fuses = s.fuses ∧ t.bell.count = s.bell.count := by
  refine ⟨_, rfl, ?_⟩; simp

/-! ### Queue.lean -/

theorem execQpopV_keeps (p : Pos) (f : FmtQ) (s : State) :
    ∃ t, execQpopV p f s = .next t ∧ t.fuses = s.fuses ∧ t.bell.count = s.bell.count := by
  refine ⟨_, rfl, ?_⟩; simp

@[simp] theorem pushInstr_keeps (p : Pos) (qop : BitVec 4) (op : PushOp) (f : FmtQ) (used : Bool) (reads : List (BitVec 4)) (s : State) :
    (pushInstr p qop op f used reads s).fuses = s.fuses ∧ (pushInstr p qop op f used reads s).bell.count = s.bell.count := by
  simp [pushInstr]

theorem execQpushV_keeps (p : Pos) (f : FmtQ) (s : State) :
    ∃ t, execQpushV p f s = .next t ∧ t.fuses = s.fuses ∧ t.bell.count = s.bell.count := by
  refine ⟨_, rfl, ?_⟩; simp

theorem execQpopS_keeps (p : Pos) (f : FmtQ) (s : State) :
    ∃ t, execQpopS p f s = .next t ∧ t.fuses = s.fuses ∧ t.bell.count = s.bell.count := by
  refine ⟨_, rfl, ?_⟩; simp

theorem execQpushS_keeps (p : Pos) (f : FmtQ) (s : State) :
    ∃ t, execQpushS p f s = .next t ∧ t.fuses = s.fuses ∧ t.bell.count = s.bell.count := by
  refine ⟨_, rfl, ?_⟩; simp

theorem execQvoid_keeps (p : Pos) (f : FmtQ) (s : State) :
    ∃ t, execQvoid p f s = .next t ∧ t.fuses = s.fuses ∧ t.bell.count = s.bell.count := by
  refine ⟨_, rfl, ?_⟩; simp

theorem execQlast_keeps (p : Pos) (f : FmtQ) (s : State) :
    ∃ t, execQlast p f s = .next t ∧ t.fuses = s.fuses ∧ t.bell.count = s.bell.count := by
  refine ⟨_, rfl, ?_⟩; simp

theorem execQstat_keeps (p : Pos) (f : FmtQ) (s : State) :
    ∃ t, execQstat p f s = .next t ∧ t.fuses = s.fuses ∧ t.bell.count = s.bell.count := by
  refine ⟨_, rfl, ?_⟩; simp

theorem execQueueWaitEnd_keeps (p : Pos) (s : State) :
    ∃ t, execQueueWaitEnd p s = .next t ∧ t.fuses = s.fuses ∧ t.bell.count = s.bell.count := by
  refine ⟨_, rfl, ?_⟩; simp

/-! ### Spdm.lean -/

@[simp] theorem State.spdm_keeps (s : State) (code : Byte) (data : List Nat) :
    (State.spdm s code data).fuses = s.fuses ∧ (State.spdm s code data).bell.count = s.bell.count := by
  simp [State.spdm]

@[simp] theorem State.spdmError_keeps (s : State) (code : Nat) :
    (State.spdmError s code).fuses = s.fuses ∧ (State.spdmError s code).bell.count = s.bell.count := by
  simp [State.spdmError]

@[simp] theorem State.spdmServe_keeps (s : State) (f : State → State) (hf : ∀ s : State, (f s).fuses = s.fuses ∧ (f s).bell.count = s.bell.count) :
    (State.spdmServe s f).fuses = s.fuses ∧ (State.spdmServe s f).bell.count = s.bell.count := by
  simp [State.spdmServe, hf]

theorem execGetVersion_keeps (s : State) :
    ∃ t, execGetVersion s = .next t ∧ t.fuses = s.fuses ∧ t.bell.count = s.bell.count := by
  refine ⟨_, rfl, ?_⟩; simp

theorem execGetCapabilities_keeps (version : Byte) (s : State) :
    ∃ t, execGetCapabilities version s = .next t ∧ t.fuses = s.fuses ∧ t.bell.count = s.bell.count := by
  refine ⟨_, rfl, ?_⟩; simp

theorem execNegotiateAlgorithms_keeps (asym : Word) (hash : Word) (meas : Word) (s : State) :
    ∃ t, execNegotiateAlgorithms asym hash meas s = .next t ∧ t.fuses = s.fuses ∧ t.bell.count = s.bell.count := by
  refine ⟨_, rfl, ?_⟩; simp

@[simp] theorem State.spdmReady_keeps (s : State) (f : State → State) (hf : ∀ s : State, (f s).fuses = s.fuses ∧ (f s).bell.count = s.bell.count) :
    (State.spdmReady s f).fuses = s.fuses ∧ (State.spdmReady s f).bell.count = s.bell.count := by
  simp [State.spdmReady, hf]

theorem execGetDigests_keeps (s : State) :
    ∃ t, execGetDigests s = .next t ∧ t.fuses = s.fuses ∧ t.bell.count = s.bell.count := by
  refine ⟨_, rfl, ?_⟩; simp

theorem execGetCertificate_keeps (slot : BitVec 4) (off : Half) (len : Half) (s : State) :
    ∃ t, execGetCertificate slot off len s = .next t ∧ t.fuses = s.fuses ∧ t.bell.count = s.bell.count := by
  refine ⟨_, rfl, ?_⟩; simp

theorem execChallenge_keeps (slot : BitVec 4) (nonce : BitVec 256) (s : State) :
    ∃ t, execChallenge slot nonce s = .next t ∧ t.fuses = s.fuses ∧ t.bell.count = s.bell.count := by
  refine ⟨_, rfl, ?_⟩; simp

theorem execGetMeasurements_keeps (index : Byte) (nonce : BitVec 256) (s : State) :
    ∃ t, execGetMeasurements index nonce s = .next t ∧ t.fuses = s.fuses ∧ t.bell.count = s.bell.count := by
  refine ⟨_, rfl, ?_⟩; simp

@[simp] theorem State.pldm_keeps (s : State) (code : Byte) (data : List Nat) :
    (State.pldm s code data).fuses = s.fuses ∧ (State.pldm s code data).bell.count = s.bell.count := by
  simp [State.pldm]

theorem execGetTid_keeps (s : State) :
    ∃ t, execGetTid s = .next t ∧ t.fuses = s.fuses ∧ t.bell.count = s.bell.count := by
  refine ⟨_, rfl, ?_⟩; simp

theorem execGetPldmVersion_keeps (typ : Byte) (s : State) :
    ∃ t, execGetPldmVersion typ s = .next t ∧ t.fuses = s.fuses ∧ t.bell.count = s.bell.count := by
  refine ⟨_, rfl, ?_⟩; simp

theorem execGetPldmTypes_keeps (s : State) :
    ∃ t, execGetPldmTypes s = .next t ∧ t.fuses = s.fuses ∧ t.bell.count = s.bell.count := by
  refine ⟨_, rfl, ?_⟩; simp

theorem execGetPldmCommands_keeps (typ : Byte) (s : State) :
    ∃ t, execGetPldmCommands typ s = .next t ∧ t.fuses = s.fuses ∧ t.bell.count = s.bell.count := by
  refine ⟨_, rfl, ?_⟩; simp

theorem execPldmSensorRead_keeps (id : Half) (s : State) :
    ∃ t, execPldmSensorRead id s = .next t ∧ t.fuses = s.fuses ∧ t.bell.count = s.bell.count := by
  refine ⟨_, rfl, ?_⟩; (repeat' split) <;> simp

@[simp] theorem State.pldmImage_keeps (s : State) (img : StoreImage) :
    (State.pldmImage s img).fuses = s.fuses ∧ (State.pldmImage s img).bell.count = s.bell.count := by
  unfold State.pldmImage; (try dsimp only); (repeat' split) <;> simp

theorem execPldmFirmwareUpdate_keeps (u : PldmUpdate) (s : State) :
    ∃ t, execPldmFirmwareUpdate u s = .next t ∧ t.fuses = s.fuses ∧ t.bell.count = s.bell.count := by
  refine ⟨_, rfl, ?_⟩; (try dsimp only); (repeat' split) <;> simp

theorem execPldmShutdown_keeps (slack : List (Fin 78 × Nat)) (appendOk : Bool × Bool) (s : State) :
    ∃ t, execPldmShutdown slack appendOk s = .next t ∧ t.fuses = s.fuses ∧ t.bell.count = s.bell.count := by
  refine ⟨_, rfl, ?_⟩; simp

/-! ### Vector.lean -/

@[simp] theorem vec2_keeps (p : Pos) (vf : BitVec 5) (f : FmtV) (m : BitVec 3) (op : Word → Word → Word × Flg) (s : State) :
    (vec2 p vf f m op s).fuses = s.fuses ∧ (vec2 p vf f m op s).bell.count = s.bell.count := by
  simp [vec2]

@[simp] theorem vec1_keeps (p : Pos) (vf : BitVec 5) (f : FmtV) (m : BitVec 3) (op : Word → Word × Flg) (s : State) :
    (vec1 p vf f m op s).fuses = s.fuses ∧ (vec1 p vf f m op s).bell.count = s.bell.count := by
  simp [vec1]

@[simp] theorem vecBits_keeps (p : Pos) (vf : BitVec 5) (f : FmtV) (op : Word → Word → Word) (s : State) :
    (vecBits p vf f op s).fuses = s.fuses ∧ (vecBits p vf f op s).bell.count = s.bell.count := by
  simp [vecBits]

@[simp] theorem vecReduce_keeps (p : Pos) (vf : BitVec 5) (f : FmtV) (m : BitVec 3) (op : Word → Word → Word × Flg) (s : State) :
    (vecReduce p vf f m op s).fuses = s.fuses ∧ (vecReduce p vf f m op s).bell.count = s.bell.count := by
  simp [vecReduce]

theorem execVadd_keeps (p : Pos) (f : FmtV) (s : State) :
    ∃ t, execVadd p f s = .next t ∧ t.fuses = s.fuses ∧ t.bell.count = s.bell.count := by
  refine ⟨_, rfl, ?_⟩; simp

theorem execVsub_keeps (p : Pos) (f : FmtV) (s : State) :
    ∃ t, execVsub p f s = .next t ∧ t.fuses = s.fuses ∧ t.bell.count = s.bell.count := by
  refine ⟨_, rfl, ?_⟩; simp

theorem execVmul_keeps (p : Pos) (f : FmtV) (s : State) :
    ∃ t, execVmul p f s = .next t ∧ t.fuses = s.fuses ∧ t.bell.count = s.bell.count := by
  refine ⟨_, rfl, ?_⟩; simp

theorem execVfma_keeps (p : Pos) (f : FmtV) (s : State) :
    ∃ t, execVfma p f s = .next t ∧ t.fuses = s.fuses ∧ t.bell.count = s.bell.count := by
  refine ⟨_, rfl, ?_⟩; simp

theorem execVmax_keeps (p : Pos) (f : FmtV) (s : State) :
    ∃ t, execVmax p f s = .next t ∧ t.fuses = s.fuses ∧ t.bell.count = s.bell.count := by
  refine ⟨_, rfl, ?_⟩; simp

theorem execVmin_keeps (p : Pos) (f : FmtV) (s : State) :
    ∃ t, execVmin p f s = .next t ∧ t.fuses = s.fuses ∧ t.bell.count = s.bell.count := by
  refine ⟨_, rfl, ?_⟩; simp

theorem execVabs_keeps (p : Pos) (f : FmtV) (s : State) :
    ∃ t, execVabs p f s = .next t ∧ t.fuses = s.fuses ∧ t.bell.count = s.bell.count := by
  refine ⟨_, rfl, ?_⟩; simp

theorem execVexp2_keeps (p : Pos) (f : FmtV) (s : State) :
    ∃ t, execVexp2 p f s = .next t ∧ t.fuses = s.fuses ∧ t.bell.count = s.bell.count := by
  refine ⟨_, rfl, ?_⟩; simp

theorem execVrcp_keeps (p : Pos) (f : FmtV) (s : State) :
    ∃ t, execVrcp p f s = .next t ∧ t.fuses = s.fuses ∧ t.bell.count = s.bell.count := by
  refine ⟨_, rfl, ?_⟩; simp

theorem execVrsqrt_keeps (p : Pos) (f : FmtV) (s : State) :
    ∃ t, execVrsqrt p f s = .next t ∧ t.fuses = s.fuses ∧ t.bell.count = s.bell.count := by
  refine ⟨_, rfl, ?_⟩; simp

theorem execVredsum_keeps (p : Pos) (f : FmtV) (s : State) :
    ∃ t, execVredsum p f s = .next t ∧ t.fuses = s.fuses ∧ t.bell.count = s.bell.count := by
  refine ⟨_, rfl, ?_⟩; simp

theorem execVredmax_keeps (p : Pos) (f : FmtV) (s : State) :
    ∃ t, execVredmax p f s = .next t ∧ t.fuses = s.fuses ∧ t.bell.count = s.bell.count := by
  refine ⟨_, rfl, ?_⟩; simp

theorem execVcmp_keeps (p : Pos) (f : FmtV) (s : State) :
    ∃ t, execVcmp p f s = .next t ∧ t.fuses = s.fuses ∧ t.bell.count = s.bell.count := by
  refine ⟨_, rfl, ?_⟩; simp

theorem execVsel_keeps (p : Pos) (f : FmtV) (s : State) :
    ∃ t, execVsel p f s = .next t ∧ t.fuses = s.fuses ∧ t.bell.count = s.bell.count := by
  refine ⟨_, rfl, ?_⟩; simp

theorem execVcvt_keeps (p : Pos) (f : FmtV) (s : State) :
    ∃ t, execVcvt p f s = .next t ∧ t.fuses = s.fuses ∧ t.bell.count = s.bell.count := by
  refine ⟨_, rfl, ?_⟩; simp

theorem execViadd_keeps (p : Pos) (f : FmtV) (s : State) :
    ∃ t, execViadd p f s = .next t ∧ t.fuses = s.fuses ∧ t.bell.count = s.bell.count := by
  refine ⟨_, rfl, ?_⟩; simp

theorem execVand_keeps (p : Pos) (f : FmtV) (s : State) :
    ∃ t, execVand p f s = .next t ∧ t.fuses = s.fuses ∧ t.bell.count = s.bell.count := by
  refine ⟨_, rfl, ?_⟩; simp

theorem execVor_keeps (p : Pos) (f : FmtV) (s : State) :
    ∃ t, execVor p f s = .next t ∧ t.fuses = s.fuses ∧ t.bell.count = s.bell.count := by
  refine ⟨_, rfl, ?_⟩; simp

theorem execVxor_keeps (p : Pos) (f : FmtV) (s : State) :
    ∃ t, execVxor p f s = .next t ∧ t.fuses = s.fuses ∧ t.bell.count = s.bell.count := by
  refine ⟨_, rfl, ?_⟩; simp

theorem execVsrl_keeps (p : Pos) (f : FmtV) (s : State) :
    ∃ t, execVsrl p f s = .next t ∧ t.fuses = s.fuses ∧ t.bell.count = s.bell.count := by
  refine ⟨_, rfl, ?_⟩; simp

theorem execVld_keeps (p : Pos) (f : FmtVM) (s : State) :
    ∃ t, execVld p f s = .next t ∧ t.fuses = s.fuses ∧ t.bell.count = s.bell.count := by
  refine ⟨_, rfl, ?_⟩; simp

theorem execVst_keeps (p : Pos) (f : FmtVM) (s : State) :
    ∃ t, execVst p f s = .next t ∧ t.fuses = s.fuses ∧ t.bell.count = s.bell.count := by
  refine ⟨_, rfl, ?_⟩; simp

theorem execVbcast_keeps (p : Pos) (f : FmtVM) (s : State) :
    ∃ t, execVbcast p f s = .next t ∧ t.fuses = s.fuses ∧ t.bell.count = s.bell.count := by
  refine ⟨_, rfl, ?_⟩; simp

theorem execVins_keeps (p : Pos) (f : FmtVM) (s : State) :
    ∃ t, execVins p f s = .next t ∧ t.fuses = s.fuses ∧ t.bell.count = s.bell.count := by
  refine ⟨_, rfl, ?_⟩; simp

theorem execVext_keeps (p : Pos) (f : FmtVM) (s : State) :
    ∃ t, execVext p f s = .next t ∧ t.fuses = s.fuses ∧ t.bell.count = s.bell.count := by
  refine ⟨_, rfl, ?_⟩; simp

/-! ### Topk.lean -/

theorem execTkinit_keeps (p : Pos) (f : FmtV) (s : State) :
    ∃ t, execTkinit p f s = .next t ∧ t.fuses = s.fuses ∧ t.bell.count = s.bell.count := by
  refine ⟨_, rfl, ?_⟩; simp

theorem execTkpush_keeps (p : Pos) (f : FmtV) (s : State) :
    ∃ t, execTkpush p f s = .next t ∧ t.fuses = s.fuses ∧ t.bell.count = s.bell.count := by
  refine ⟨_, rfl, ?_⟩; simp

theorem execTkrd_keeps (p : Pos) (f : FmtV) (s : State) :
    ∃ t, execTkrd p f s = .next t ∧ t.fuses = s.fuses ∧ t.bell.count = s.bell.count := by
  refine ⟨_, rfl, ?_⟩; simp

theorem execTkrdi_keeps (p : Pos) (f : FmtV) (s : State) :
    ∃ t, execTkrdi p f s = .next t ∧ t.fuses = s.fuses ∧ t.bell.count = s.bell.count := by
  refine ⟨_, rfl, ?_⟩; simp

theorem execRand_keeps (p : Pos) (f : FmtV) (s : State) :
    ∃ t, execRand p f s = .next t ∧ t.fuses = s.fuses ∧ t.bell.count = s.bell.count := by
  refine ⟨_, rfl, ?_⟩; simp

theorem execSample_keeps (p : Pos) (f : FmtV) (s : State) :
    ∃ t, execSample p f s = .next t ∧ t.fuses = s.fuses ∧ t.bell.count = s.bell.count := by
  refine ⟨_, rfl, ?_⟩; simp

/-! ### Well.lean -/

@[simp] theorem State.wellAnswer_keeps (s : State) (id : Nat) (r : Req) (status : BitVec 4) (data : List Byte) (poison : List Bool) :
    (State.wellAnswer s id r status data poison).fuses = s.fuses ∧ (State.wellAnswer s id r status data poison).bell.count = s.bell.count := by
  simp [State.wellAnswer]

@[simp] theorem State.wellRefuse_keeps (s : State) (id : Nat) (r : Req) (status : BitVec 4) :
    (State.wellRefuse s id r status).fuses = s.fuses ∧ (State.wellRefuse s id r status).bell.count = s.bell.count := by
  simp [State.wellRefuse]

@[simp] theorem State.windowFault_keeps (s : State) (id : Nat) (r : Req) :
    (State.windowFault s id r).fuses = s.fuses ∧ (State.windowFault s id r).bell.count = s.bell.count := by
  unfold State.windowFault; (try dsimp only); (repeat' split) <;> simp

@[simp] theorem State.wellMem_keeps (s : State) (id : Nat) (r : Req) :
    (State.wellMem s id r).fuses = s.fuses ∧ (State.wellMem s id r).bell.count = s.bell.count := by
  unfold State.wellMem
  split
  · simp
  · split
    · simp
    · split
      · exact ⟨rfl, rfl⟩
      · simp

@[simp] theorem State.wellCommons_keeps (s : State) (id : Nat) (r : Req) (slow : List (Fin 64 × Nat)) :
    (State.wellCommons s id r slow).fuses = s.fuses ∧ (State.wellCommons s id r slow).bell.count = s.bell.count := by
  unfold State.wellCommons
  have sv : ∀ (u : State) (k : FabPkt) (i n : Nat), (u.served k i n).1.fuses = u.fuses ∧ (u.served k i n).1.bell.count = u.bell.count :=
    fun u k i n => State.served_keeps u k i n
  have ns : ∀ (u v : State) (al : Option Nat) (l : List (Fin 64 × Nat)),
      (u.noteSlow v al l).fuses = v.fuses ∧ (u.noteSlow v al l).bell.count = v.bell.count := fun u v al l => State.noteSlow_keeps u v al l
  dsimp only
  split
  · exact State.windowFault_keeps _ _ _
  · refine ite_keeps (State.windowFault_keeps _ _ _) (ite_keeps ?_ ?_)
    · refine ⟨(State.respHere_keeps _ _).1.trans ?_, (State.respHere_keeps _ _).2.trans ?_⟩
      all_goals (repeat' split) <;> simp [sv, ns]
    · refine ⟨(State.forward_keeps _ _ _).1.trans ?_, (State.forward_keeps _ _ _).2.trans ?_⟩
      all_goals (split <;> simp)

@[simp] theorem State.wellDirectAt_keeps (s : State) (id : Nat) (r : Req) (q : Option Pos) (a : Option Nat) :
    (State.wellDirectAt s id r q a).fuses = s.fuses ∧ (State.wellDirectAt s id r q a).bell.count = s.bell.count := by
  unfold State.wellDirectAt; (try dsimp only); (repeat' split) <;> simp

@[simp] theorem State.wellDirect_keeps (s : State) (id : Nat) (r : Req) :
    (State.wellDirect s id r).fuses = s.fuses ∧ (State.wellDirect s id r).bell.count = s.bell.count := by
  unfold State.wellDirect
  exact State.wellDirectAt_keeps _ _ _ _ _

@[simp] theorem State.wellGuest_keeps (s : State) (id : Nat) (r : Req) :
    (State.wellGuest s id r).fuses = s.fuses ∧ (State.wellGuest s id r).bell.count = s.bell.count := by
  unfold State.wellGuest; (try dsimp only); (repeat' split) <;> simp

@[simp] theorem State.serveMem_keeps (s : State) (id : Nat) (r : Req) (key : Nat) :
    (State.serveMem s id r key).fuses = s.fuses ∧ (State.serveMem s id r key).bell.count = s.bell.count := by
  simp [State.serveMem]

theorem execMemoryAccess_keeps (id : Nat) (time : Latency) (s : State) :
    ∃ t, execMemoryAccess id time s = .next t ∧ t.fuses = s.fuses ∧ t.bell.count = s.bell.count := by
  refine ⟨_, rfl, ?_⟩
  split
  · simp
  · split
    · simp
    · split
      · simp
      · try dsimp only
        split <;> simp

@[simp] theorem State.fieldAnswer_keeps (s : State) (q : Pos) (id : Nat) (r : Req) (status : BitVec 4) (data : List Byte) (poison : List Bool) :
    (State.fieldAnswer s q id r status data poison).fuses = s.fuses ∧ (State.fieldAnswer s q id r status data poison).bell.count = s.bell.count := by
  simp [State.fieldAnswer]

theorem execSramRead_keeps (id : Nat) (s : State) :
    ∃ t, execSramRead id s = .next t ∧ t.fuses = s.fuses ∧ t.bell.count = s.bell.count := by
  refine ⟨_, rfl, ?_⟩; (try dsimp only); (repeat' split) <;> simp

@[simp] theorem State.sramWriteAt_keeps (s : State) (q : Pos) (id : Nat) :
    (State.sramWriteAt s q id).fuses = s.fuses ∧ (State.sramWriteAt s q id).bell.count = s.bell.count := by
  unfold State.sramWriteAt; (try dsimp only); (repeat' split) <;> simp

theorem execSramWrite_keeps (p : Pos) (loader : Bool) (k : Slowed Nat) (s : State) :
    ∃ t, execSramWrite p loader k s = .next t ∧ t.fuses = s.fuses ∧ t.bell.count = s.bell.count := by
  refine ⟨_, rfl, ?_⟩; simp

@[simp] theorem State.fieldReturn_keeps (s : State) (id : Nat) (ch : Chan) :
    (State.fieldReturn s id ch).fuses = s.fuses ∧ (State.fieldReturn s id ch).bell.count = s.bell.count := by
  unfold State.fieldReturn; (repeat' split) <;> simp

theorem execSramReadResp_keeps (id : Nat) (s : State) :
    ∃ t, execSramReadResp id s = .next t ∧ t.fuses = s.fuses ∧ t.bell.count = s.bell.count := by
  refine ⟨_, rfl, ?_⟩; simp

theorem execSramWriteAck_keeps (id : Nat) (s : State) :
    ∃ t, execSramWriteAck id s = .next t ∧ t.fuses = s.fuses ∧ t.bell.count = s.bell.count := by
  refine ⟨_, rfl, ?_⟩; simp

/-! ### Step.lean -/

@[simp] theorem State.withFetchWord_keeps (s : State) (nbits : Nat) (w : Nat) :
    (State.withFetchWord s nbits w).fuses = s.fuses ∧ (State.withFetchWord s nbits w).bell.count = s.bell.count := by
  unfold State.withFetchWord; (repeat' split) <;> simp

/-! ### Register writes, which may start a fuse command -/

/-- The bell counter stays, and the fuses stay but for the command now waiting for its programming pulse; an owner slot to be
programmed is one not programmed. -/
def State.maySetBusy (s t : State) : Prop :=
  t.bell.count = s.bell.count ∧ (t.fuses = s.fuses ∨ ∃ op, t.fuses = { s.fuses with busy := some op } ∧
    ∀ k h, op = .programOwner k h → (s.fuses.owner k).programmed = false)

theorem State.maySetBusy_of_keeps {s t : State} (h : t.fuses = s.fuses ∧ t.bell.count = s.bell.count) : s.maySetBusy t :=
  ⟨h.2, .inl h.1⟩

theorem State.maySetBusy_trans {s t u : State} (h : t.fuses = s.fuses ∧ t.bell.count = s.bell.count) (g : t.maySetBusy u) :
    s.maySetBusy u := by
  unfold State.maySetBusy at g ⊢
  rwa [h.1, h.2] at g

theorem ite_maySetBusy {c : Prop} [Decidable c] {A B s : State} (ha : s.maySetBusy A) (hb : s.maySetBusy B) :
    s.maySetBusy (if c then A else B) := by
  split <;> assumption

theorem State.fuseCmd_maySetBusy (s : State) (path : RegPath) (word : Nat) (refused : State → Bool) (op : State → FuseOp)
    (h : ∀ (s t : State) k x, t.fuses = s.fuses → refused t = false → op t = .programOwner k x →
      (s.fuses.owner k).programmed = false) : s.maySetBusy (s.fuseCmd path word refused op) := by
  have hg := State.gate_keeps s path (configBase + 0x68) true
  unfold State.fuseCmd State.writeNow
  refine ite_maySetBusy (State.maySetBusy_trans hg ?_) (State.maySetBusy_of_keeps hg)
  refine ite_maySetBusy (State.maySetBusy_of_keeps (State.orReg_keeps _ _ _)) ?_
  refine State.maySetBusy_trans (State.setReg_keeps _ (configBase + 0x68) (BitVec.ofNat 64 word)) ?_
  generalize ((s.gate path (configBase + 0x68) true).1.setReg (configBase + 0x68) (BitVec.ofNat 64 word)) = t
  by_cases hr : refused t = true
  · simpa [hr] using State.maySetBusy_of_keeps (State.orReg_keeps t cfgStatus cfgRefused)
  · rw [Bool.not_eq_true] at hr
    simp only [hr, Bool.false_eq_true, if_false]
    exact ⟨rfl, .inr ⟨op t, rfl, fun k x hx => h t t k x rfl hr hx⟩⟩

theorem execAppendSite_maySetBusy (path : RegPath) (s : State) : ∃ t, execAppendSite path s = .next t ∧ s.maySetBusy t :=
  ⟨_, rfl, State.fuseCmd_maySetBusy _ _ _ _ _ (by simp)⟩
theorem execRevokeFwKey_maySetBusy (path : RegPath) (key : BitVec 4) (s : State) :
    ∃ t, execRevokeFwKey path key s = .next t ∧ s.maySetBusy t :=
  ⟨_, rfl, State.fuseCmd_maySetBusy _ _ _ _ _ (by simp)⟩
theorem execRevokeOwner_maySetBusy (path : RegPath) (slot : BitVec 4) (s : State) :
    ∃ t, execRevokeOwner path slot s = .next t ∧ s.maySetBusy t :=
  ⟨_, rfl, State.fuseCmd_maySetBusy _ _ _ _ _ (by simp)⟩
theorem execProgramOwner_maySetBusy (path : RegPath) (slot : BitVec 4) (s : State) :
    ∃ t, execProgramOwner path slot s = .next t ∧ s.maySetBusy t := by
  refine ⟨_, rfl, State.fuseCmd_maySetBusy _ _ _ _ _ fun s t k x ht hr hx => ?_⟩
  simp only [Bool.or_eq_false_iff] at hr
  cases hx
  rw [← ht]
  exact hr.2

theorem State.after_maySetBusy (s : State) {o : Host.Outcome State Fault Refusal} (h : ∃ t, o = .next t ∧ s.maySetBusy t) :
    s.maySetBusy (s.after o) := by
  obtain ⟨t, rfl, h⟩ := h
  exact h

theorem State.writeFuseCmd_maySetBusy (s : State) (path : RegPath) (v : DWord) : s.maySetBusy (s.writeFuseCmd path v) := by
  unfold State.writeFuseCmd
  dsimp only
  split
  · exact State.after_maySetBusy _ (execAppendSite_maySetBusy _ _)
  · exact State.after_maySetBusy _ (execRevokeFwKey_maySetBusy _ _ _)
  · exact State.after_maySetBusy _ (execProgramOwner_maySetBusy _ _ _)
  · exact State.after_maySetBusy _ (execRevokeOwner_maySetBusy _ _ _)
  · exact State.maySetBusy_of_keeps (State.writeNow_keeps _ _ _ _ _ fun s => ⟨rfl, rfl⟩)

theorem State.writeConfig_maySetBusy (s : State) (path : RegPath) (r : Nat) (v : DWord) : s.maySetBusy (s.writeConfig path r v) := by
  have hw (o : Nat) (k : Bool) (f : State → State) (h : ∀ s : State, (f s).fuses = s.fuses ∧ (f s).bell.count = s.bell.count) :
      s.maySetBusy (s.writeNow path o k f) := State.maySetBusy_of_keeps (State.writeNow_keeps _ _ _ _ _ h)
  unfold State.writeConfig
  refine ite_maySetBusy (hw _ _ _ fun s => by simp) (ite_maySetBusy (hw _ _ _ fun s => by simp) (ite_maySetBusy
    (hw _ _ _ fun s => by simp) (ite_maySetBusy (State.writeFuseCmd_maySetBusy _ _ _) (ite_maySetBusy
    (hw _ _ _ fun s => by simp) (ite_maySetBusy (ite_maySetBusy ?_ (hw _ _ _ fun s => by simp)) (ite_maySetBusy
    (ite_maySetBusy ?_ (hw _ _ _ fun s => by simp)) (hw _ _ _ fun s => ⟨rfl, rfl⟩)))))))
  · exact State.maySetBusy_of_keeps (State.after_keeps _ (execWarmReq_keeps _ _))
  · exact State.maySetBusy_of_keeps (State.after_keeps _ (execShutdown_keeps _ _ _ _))

theorem State.regWrite_maySetBusy (s : State) (path : RegPath) (o : Nat) (v : DWord) : s.maySetBusy (s.regWrite path o v) := by
  have hk {t : State} : (t.fuses = s.fuses ∧ t.bell.count = s.bell.count) → s.maySetBusy t := State.maySetBusy_of_keeps
  have hs : s.maySetBusy s := hk ⟨rfl, rfl⟩
  unfold State.regWrite
  split
  · exact hs
  · refine ite_maySetBusy hs (ite_maySetBusy (hk (State.after_keeps _ (execUnlock_keeps _ _ _ _))) (ite_maySetBusy
      (hk (State.writeFlags_keeps _ _ _ _)) (ite_maySetBusy (hk (State.post_keeps _ _ _ _ _)) ?_)))
    split
    · split
      · exact hk (State.writePort_keeps _ _ _ _ _)
      · exact hs
    · refine ite_maySetBusy (hk (State.writeHost_keeps _ _ _ _)) (ite_maySetBusy ?_ (ite_maySetBusy
        (hk (State.writeFabric_keeps _ _ _ _)) (ite_maySetBusy (hk (State.writeRoute_keeps _ _ _ _)) (ite_maySetBusy
        (State.writeConfig_maySetBusy _ _ _ _) (hk (State.writeHub_keeps _ _ _ _))))))
      split
      · exact hk (State.writeGate_keeps _ _ _ _ _)
      · exact hk (State.writeNow_keeps _ _ _ _ _ fun s => ⟨rfl, rfl⟩)

theorem execRegisterWrite_maySetBusy (path : RegPath) (offset : BitVec 24) (value : DWord) (s : State) :
    ∃ t, execRegisterWrite path offset value s = .next t ∧ s.maySetBusy t := ⟨_, rfl, State.regWrite_maySetBusy _ _ _ _⟩

theorem State.qpFrame_maySetBusy (s : State) (qp : Nat) (f : Frame) (n : Nat) (k : Qp → State → State)
    (hk : ∀ (q : Qp) (s : State), s.maySetBusy (k q s)) : s.maySetBusy (s.qpFrame qp f n k) := by
  have hi {s t : State} : (t.fuses = s.fuses ∧ t.bell.count = s.bell.count) → s.maySetBusy t := State.maySetBusy_of_keeps
  unfold State.qpFrame State.frameIn
  split
  · exact hi ⟨rfl, rfl⟩
  · rename_i q _
    refine ite_maySetBusy (hi ⟨rfl, rfl⟩) (ite_maySetBusy (hi (State.bump_keeps _ _ _)) (ite_maySetBusy (hi ⟨rfl, rfl⟩)
      (State.maySetBusy_trans (State.rxFrame_keeps s q.port n) (ite_maySetBusy (hi ⟨rfl, rfl⟩) ?_))))
    split
    · exact State.maySetBusy_trans (State.ceMark_keeps _ _ _) (hk _ _)
    · exact hk _ _

theorem execRdmaWrite_maySetBusy (qp : Framed Nat) (rkey : Word) (va : Nat) (data : List Byte) (s : State) :
    ∃ t, execRdmaWrite qp rkey va data s = .next t ∧ s.maySetBusy t := by
  have hk {s t : State} : (t.fuses = s.fuses ∧ t.bell.count = s.bell.count) → s.maySetBusy t := State.maySetBusy_of_keeps
  refine ⟨_, rfl, State.qpFrame_maySetBusy _ _ _ _ _ fun q s => ?_⟩
  dsimp only
  split
  · exact hk (State.nak_keeps _ _ _)
  · split
    · exact hk (State.nak_keeps _ _ _)
    · exact ite_maySetBusy (hk (State.nak_keeps _ _ _)) (hk (State.hostWrite_keeps _ _ _ _))
    · exact ite_maySetBusy (hk (State.nak_keeps _ _ _)) (hk (State.hostWrite_keeps _ _ _ _))
    · exact ite_maySetBusy (hk (State.nak_keeps _ _ _)) (State.regWrite_maySetBusy _ _ _ _)

theorem State.wellRegister_maySetBusy (s : State) (id : Nat) (r : Req) : s.maySetBusy (s.wellRegister id r) := by
  have hk {t : State} : (t.fuses = s.fuses ∧ t.bell.count = s.bell.count) → s.maySetBusy t := State.maySetBusy_of_keeps
  unfold State.wellRegister
  refine ite_maySetBusy (hk (State.windowFault_keeps _ _ _)) (ite_maySetBusy (hk (State.wellRefuse_keeps _ _ _ _)) (ite_maySetBusy
    (hk (State.wellAnswer_keeps _ _ _ _ _ _)) ?_))
  have h := State.regWrite_maySetBusy s (.core r.core) (r.addr - registerBase) (BitVec.ofNat 64 (leNat r.data))
  unfold State.maySetBusy at h ⊢
  rwa [(State.wellRefuse_keeps _ _ _ _).1, (State.wellRefuse_keeps _ _ _ _).2]

theorem State.wellCheck_maySetBusy (s : State) (id : Nat) (r : Req) (l : List (Fin 64 × Nat)) :
    s.maySetBusy (s.wellCheck id r l) := by
  have hk {t : State} : (t.fuses = s.fuses ∧ t.bell.count = s.bell.count) → s.maySetBusy t := State.maySetBusy_of_keeps
  unfold State.wellCheck
  refine ite_maySetBusy (hk ⟨rfl, rfl⟩) ?_
  refine ite_maySetBusy (hk (State.wellRefuse_keeps s id r 2)) ?_
  split
  · exact hk (State.wellMem_keeps s id r)
  split
  · exact hk (State.wellCommons_keeps s id r l)
  split
  · exact hk (State.wellDirect_keeps s id r)
  split
  · exact State.wellRegister_maySetBusy s id r
  · exact ite_maySetBusy (hk (State.wellGuest_keeps s id r)) (hk (State.wellRefuse_keeps s id r _))

theorem State.atWell_maySetBusy (s : State) (id : Slowed Nat) (ch : Chan) : s.maySetBusy (s.atWell id ch) := by
  have hs : s.maySetBusy s := State.maySetBusy_of_keeps ⟨rfl, rfl⟩
  unfold State.atWell
  split
  · exact ite_maySetBusy (State.wellCheck_maySetBusy _ _ _ _) hs
  · exact hs

theorem execRead_maySetBusy (id : Slowed Nat) (s : State) : ∃ t, execRead id s = .next t ∧ s.maySetBusy t :=
  ⟨_, rfl, State.atWell_maySetBusy _ _ _⟩
theorem execWrite_maySetBusy (id : Slowed Nat) (s : State) : ∃ t, execWrite id s = .next t ∧ s.maySetBusy t :=
  ⟨_, rfl, State.atWell_maySetBusy _ _ _⟩


end Sys2Proof.Machine
end

