-- ==== Sys2Proof/Laws/Memory.lean ====
section
/-! SUPPORT. Device memory and data SRAM as sparse bytes: every operation that writes or loses bytes of device memory keeps the
canonical form, and what a run of bytes written leaves. -/

namespace Sys2Proof.Machine

/-- The canonical form, spelled out: keys rising, and no entry equal to what an unlisted byte reads as. -/
theorem State.memWf_iff (s : State) : s.memWf = true ↔ s.mem.wf = true ∧ ∀ e ∈ s.mem, e.2 ≠ s.memDefault e.1 := by
  simp [State.memWf]

/-- The form depends on the bytes listed and on what the unlisted read as, and on nothing else. -/
theorem State.memWf_congr {s t : State} (hm : t.mem = s.mem) (hf : t.memFills = s.memFills) (hi : t.memInit = s.memInit) :
    t.memWf = s.memWf := by
  simp only [State.memWf, State.memDefault, hm, hf, hi]
  rfl

/-! ### What an unlisted byte reads as is no business of a write -/

@[simp] theorem State.setMemByte_memFills (s : State) (k : Nat) (v : Byte) : (s.setMemByte k v).memFills = s.memFills := by
  unfold State.setMemByte; split <;> rfl
@[simp] theorem State.setMemByte_memInit (s : State) (k : Nat) (v : Byte) : (s.setMemByte k v).memInit = s.memInit := by
  unfold State.setMemByte; split <;> rfl
@[simp] theorem State.setMemByte_memDefault (s : State) (k : Nat) (v : Byte) : (s.setMemByte k v).memDefault = s.memDefault := by
  funext j; simp [State.memDefault]

/-- Writing a byte that an unlisted one would read as takes its entry out; any other byte is listed. -/
theorem State.setMemByte_mem (s : State) (k : Nat) (v : Byte) :
    (s.setMemByte k v).mem = if v = s.memDefault k then s.mem.del k else s.mem.put k v := by
  unfold State.setMemByte; split <;> rfl

/-! ### Every memory operation keeps the form -/

theorem State.setMemByte_memWf {s : State} (h : s.memWf = true) (k : Nat) (v : Byte) : (s.setMemByte k v).memWf = true := by
  obtain ⟨hw, hd⟩ := s.memWf_iff.1 h
  refine (State.memWf_iff _).2 ?_
  rw [State.setMemByte_mem, State.setMemByte_memDefault]
  split
  · exact ⟨Tab.wf_del hw k, fun e he => hd e (List.mem_filter.1 he).1⟩
  · rename_i hv
    refine ⟨Tab.wf_put hw k v, fun e he => ?_⟩
    rcases Tab.mem_put he with rfl | he
    · exact hv
    · exact hd e he

theorem State.setMemBytes_memWf (l : List Byte) :
    ∀ {s : State} (_ : s.memWf = true) (k : Nat), (s.setMemBytes k l).memWf = true := by
  induction l with
  | nil => exact fun h _ => h
  | cons b t ih => exact fun h k => ih (State.setMemByte_memWf h k b) (k + 1)

@[simp] theorem State.setMemPoison_memWf (s : State) (w : Nat) (b : Bool) : (s.setMemPoison w b).memWf = s.memWf := rfl

/-- A fold keeps the form when each of its steps does. -/
theorem State.foldl_memWf {α : Type} (f : State → α → State) (hf : ∀ s a, s.memWf = true → (f s a).memWf = true)
    (l : List α) : ∀ {s : State} (_ : s.memWf = true), (l.foldl f s).memWf = true := by
  induction l with
  | nil => exact fun h => h
  | cons a t ih => exact fun h => ih (hf _ a h)

/-- Device memory is the same in both states: the bytes listed, and what an unlisted one reads as. -/
def State.sameMem (s t : State) : Prop := t.mem = s.mem ∧ t.memFills = s.memFills ∧ t.memInit = s.memInit

theorem State.sameMem.trans {s t u : State} (h : s.sameMem t) (g : t.sameMem u) : s.sameMem u :=
  ⟨g.1.trans h.1, g.2.1.trans h.2.1, g.2.2.trans h.2.2⟩

theorem State.sameMem.wf {s t : State} (h : s.sameMem t) (w : s.memWf = true) : t.memWf = true :=
  (State.memWf_congr h.1 h.2.1 h.2.2).trans w

theorem State.sameMem_foldl {α : Type} (f : State → α → State) (hf : ∀ (s : State) (a : α), s.sameMem (f s a)) (l : List α) :
    ∀ s : State, s.sameMem (l.foldl f s) := by
  induction l with
  | nil => exact fun _ => ⟨rfl, rfl, rfl⟩
  | cons a t ih => exact fun s => (hf s a).trans (ih _)

theorem State.bump_sameMem (s : State) (o n : Nat) : s.sameMem (s.bump o n) := ⟨rfl, rfl, rfl⟩

theorem State.writeEvent_sameMem (s : State) (id j : Nat) (x : Session) (r : Ring) (e : Event) : s.sameMem (s.writeEvent id j x r e) := by
  unfold State.writeEvent State.writeSlot State.txOn
  refine State.sameMem.trans ?_ (State.bump_sameMem _ _ _)
  exact ⟨rfl, rfl, rfl⟩

theorem State.postEvent_sameMem (s : State) (id j : Nat) (e : Event) : s.sameMem (s.postEvent id j e) := by
  unfold State.postEvent
  split
  · exact ⟨rfl, rfl, rfl⟩
  · dsimp only
    split
    · exact State.sameMem.trans ⟨rfl, rfl, rfl⟩ (State.writeEvent_sameMem _ _ _ _ _ _)
    · exact ⟨rfl, rfl, rfl⟩

theorem State.deliver_sameMem (s : State) (e : Event) (d : Dest) : s.sameMem (s.deliver e d) := by
  have h0 : s.sameMem s := ⟨rfl, rfl, rfl⟩
  unfold State.deliver
  split
  · dsimp only
    split
    · exact h0
    · exact s.postEvent_sameMem _ _ _
  · split
    · exact h0
    · split
      · exact h0
      · exact s.postEvent_sameMem _ _ _
  · refine State.sameMem_foldl (fun t (x : Nat × Session) => if x.2.ending ∨ masked x.2.mask e.code then t else t.postEvent x.1 0 e)
      (fun t x => ?_) _ _
    split
    · exact ⟨rfl, rfl, rfl⟩
    · exact t.postEvent_sameMem _ _ _

theorem State.raiseEvent_sameMem (s : State) (e : Event) (l : List Dest) : s.sameMem (s.raiseEvent e l) := by
  unfold State.raiseEvent
  dsimp only
  refine State.sameMem.trans ?_ (State.sameMem_foldl _ (fun t d => t.deliver_sameMem e d) l _)
  split <;> exact ⟨rfl, rfl, rfl⟩

theorem State.appendFails_sameMem (s : State) (k : Nat) (a b : Bool) : s.sameMem (s.appendFails k a b) := by
  have h : ∀ (t : State) (d : Nat), t.sameMem (t.raise evRecordAppendFail none [(k, 2), (d, 1)] []) := fun t d => t.raiseEvent_sameMem _ _
  have h0 : s.sameMem s := ⟨rfl, rfl, rfl⟩
  cases a <;> cases b
  · exact (h s 0).trans (h _ 1)
  · exact h s 0
  · exact h s 1
  · exact h0

theorem State.listRows_sameMem (s : State) (l : List (Nat × Word)) : s.sameMem (s.listRows l) := by
  unfold State.listRows State.appendPpr
  dsimp only
  split
  · exact ⟨rfl, rfl, rfl⟩
  · refine State.sameMem.trans ?_ (State.appendFails_sameMem _ _ _ _)
    exact ⟨rfl, rfl, rfl⟩

theorem State.strikeRow_sameMem (s : State) (m : Nat) (r : Word) : s.sameMem (s.strikeRow m r) := by
  unfold State.strikeRow
  dsimp only
  split
  · exact ⟨rfl, rfl, rfl⟩
  · refine State.sameMem.trans ?_ (State.listRows_sameMem _ _)
    exact ⟨rfl, rfl, rfl⟩

theorem State.checkRows_sameMem (s : State) (m : Nat) : s.sameMem (s.checkRows m) := by
  unfold State.checkRows
  dsimp only
  refine State.sameMem.trans ?_ (State.sameMem_foldl _ (fun t r => ?_) _ _)
  · exact ⟨rfl, rfl, rfl⟩
  · exact State.sameMem.trans (State.raiseEvent_sameMem t _ _) (State.strikeRow_sameMem _ _ _)

theorem State.touchWord_sameMem (s : State) (source core : Nat) (al : Option Nat) (w : Nat) :
    s.sameMem (s.touchWord source core al w) := by
  unfold State.touchWord
  dsimp only
  split
  · exact State.sameMem.trans ⟨rfl, rfl, rfl⟩ (State.raiseEvent_sameMem _ _ _)
  · split
    · exact State.sameMem.trans ⟨rfl, rfl, rfl⟩ (State.checkRows_sameMem _ _)
    · exact ⟨rfl, rfl, rfl⟩

theorem State.countPoison_sameMem (s : State) (al : Option Nat) (n : Nat) : s.sameMem (s.countPoison al n) := by
  unfold State.countPoison
  split
  · split
    · exact ⟨rfl, rfl, rfl⟩
    · exact s.bump_sameMem _ _
  · exact ⟨rfl, rfl, rfl⟩

theorem State.activate_sameMem (s : State) (k : Nat) : s.sameMem (s.activate k) := by
  have hb := s.bump_sameMem (mcBase (k / 2 ^ 36) + 0x78) 1
  unfold State.activate
  dsimp only
  split
  · exact (hb.trans ⟨rfl, rfl, rfl⟩).trans (State.bump_sameMem _ _ _)
  · exact hb.trans ⟨rfl, rfl, rfl⟩

theorem State.access_sameMem (s : State) (k : Nat) : s.sameMem (s.access k) := by
  unfold State.access
  refine (s.activate_sameMem k).trans ?_
  generalize s.activate k = t
  exact ⟨rfl, rfl, rfl⟩

/-- A write keeps the form, whatever errors its partial words meet and whichever rows it marks. -/
theorem State.storeMem_memWf {s : State} (h : s.memWf = true) (source core : Nat) (al : Option Nat) (k : Nat) (l : List Byte)
    (poison : List Bool) : (s.storeMem source core al k l poison).memWf = true := by
  unfold State.storeMem
  dsimp only
  refine (State.countPoison_sameMem _ _ _).wf (State.foldl_memWf _ (fun t r ht => ?_) _ (State.foldl_memWf _ (fun t w ht => ?_) _
    (State.setMemBytes_memWf l (State.foldl_memWf _ (fun t w ht => ?_) _ h) k)))
  · exact ht
  · exact ht
  · exact (t.touchWord_sameMem _ _ _ _).wf ht

theorem State.writeRange_memWf {s : State} (h : s.memWf = true) (source : Nat) (al : Option Nat) (d : Nat) (l : List Byte)
    (bad : Nat → Bool) : (s.writeRange source al d l bad).memWf = true := by
  refine State.foldl_memWf _ (fun t p ht => ?_) _ h
  dsimp only
  split
  · exact (State.bump_sameMem _ _ _).wf (State.storeMem_memWf ((t.access_sameMem _).wf ht) _ _ _ _ _ _)
  · exact ht

theorem State.dpaWrite_memWf {s : State} (h : s.memWf = true) (d : Nat) (l : List Byte) (al : Option Nat) :
    (s.dpaWrite d l al).memWf = true := State.writeRange_memWf h _ _ _ _ _

/-- A stack trained afresh loses its entries, and the others read as before. -/
theorem State.fillStack_memWf {s : State} (h : s.memWf = true) (m : Nat) : (s.fillStack m).memWf = true := by
  obtain ⟨hw, hd⟩ := s.memWf_iff.1 h
  refine (State.memWf_iff _).2 ⟨?_, fun e he => ?_⟩
  · simp only [Tab.wf, decide_eq_true_eq] at hw ⊢
    exact List.Pairwise.filter _ hw
  · have hf : e ∈ s.mem ∧ e.1 / 2 ^ 36 ≠ m := by
      simpa [State.fillStack, State.drawn] using he
    have hk : (s.memFills.put m (s.fresh + 1)).find? (e.1 / 2 ^ 36) = s.memFills.find? (e.1 / 2 ^ 36) :=
      Tab.find?_put_ne _ _ hf.2
    have := hd e hf.1
    simp only [State.memDefault, State.fillStack, State.drawn] at this ⊢
    rw [hk]
    exact this

/-- A change of the set lists no byte. -/
theorem State.loseMemory_memWf (s : State) : s.loseMemory.memWf = true := rfl

/-- At reset no byte is listed. -/
theorem State.reset_memWf : State.reset.memWf = true := rfl

/-! ### Data SRAM -/

@[simp] theorem Core.sramDefault_setByte (c : Core) (a : Nat) (v : Byte) : (c.setByte a v).sramDefault = c.sramDefault := by
  funext j; unfold Core.setByte; split <;> rfl

/-- A byte of data SRAM written is read back. -/
@[simp] theorem Core.byte_setByte (c : Core) (a : Nat) (v : Byte) : (c.setByte a v).byte a = v := by
  rw [Core.byte, Core.sramDefault_setByte]
  unfold Core.setByte
  split
  · rename_i h
    simp [h]
  · simp

/-- A byte of data SRAM written leaves the others. -/
theorem Core.byte_setByte_ne (c : Core) {a j : Nat} (v : Byte) (h : j ≠ a) : (c.setByte a v).byte j = c.byte j := by
  rw [Core.byte, Core.sramDefault_setByte]
  unfold Core.setByte
  split
  · simp [Core.byte, Tab.find?_del_ne _ h]
  · simp [Core.byte, Tab.find?_put_ne _ _ h]

/-- Bytes written leave every byte outside their range. -/
theorem Core.byte_setBytes_out (l : List Byte) :
    ∀ (c : Core) (a j : Nat), (j < a ∨ a + l.length ≤ j) → (c.setBytes a l).byte j = c.byte j := by
  induction l with
  | nil => intros; rfl
  | cons b t ih =>
    intro c a j h
    simp only [List.length_cons] at h
    rw [Core.setBytes, ih _ _ _ (by omega), Core.byte_setByte_ne _ _ (by omega)]

/-- Bytes written are read back in order. -/
theorem Core.byte_setBytes_in (l : List Byte) :
    ∀ (c : Core) (a i : Nat), i < l.length → (c.setBytes a l).byte (a + i) = (l[i]?).getD 0 := by
  induction l with
  | nil => intro c a i h; simp at h
  | cons b t ih =>
    intro c a i h
    rw [Core.setBytes]
    cases i with
    | zero => rw [Core.byte_setBytes_out _ _ _ _ (by omega)]; simp
    | succ i =>
      rw [show a + (i + 1) = a + 1 + i by omega, ih _ _ _ (by simpa using h)]
      simp

/-! ### The length of a context image (R357) -/

theorem leBytes_length (n v : Nat) : (leBytes n v).length = n := by
  induction n generalizing v with
  | zero => rfl
  | succ n ih => simp [leBytes, ih]

theorem rowMajor_length (p : Fin 78) : (rowMajor p).length = 7680 := by
  simp [rowMajor, List.length_flatMap]

theorem State.ctxParish_length (s : State) (p : Fin 78) : (s.ctxParish p).length = 247232 := by
  have h (q : Pos) : (if s.hasBank q then (s.core q).t.toList.flatMap fun t => leBytes 2 t.toNat else leBytes 32 0).length = 32 := by
    split <;> simp [List.length_flatMap, leBytes_length]
  simp only [State.ctxParish, bitmap, List.length_append, List.length_map, List.length_range, List.length_flatMap, h, leBytes_length,
    rowMajor_length, List.map_const', List.sum_replicate_nat]

/-- An image without its SRAM part is as long as its header says. -/
theorem State.ctxImage_length (s : State) (a : Nat) (sram : Bool) :
    (s.ctxImage a sram).length = ctxSize (s.allot a).hubCount (s.allot a).parishList.length false := by
  simp [State.ctxImage, ctxSize, ctxBlocks, List.length_flatMap, leBytes_length, State.ctxParish_length]
  omega
end Sys2Proof.Machine
end

