-- ==== Sys2Proof/Tests/Slice0.lean ====
section
/-! SUPPORT. Tests: small steps with results taken from the spec's rules, witnesses that the statements' hypotheses can be met, and
an ill-formed command for each check of WellFormed. A `test_witness_<Statement>` theorem meets the hypotheses of that statement. -/

set_option Elab.async false

namespace Sys2Proof.Machine

/-! ### Helpers -/

def tP : Pos := ⟨0, 0, 0⟩
def tYes : Pred := ⟨0, 0⟩
/-- p1, which reads 0 -/
def tNo : Pred := ⟨0, 1⟩

/-- A module that is READY: one allotment of parish 0, one management session on QP 2, host port 0, fabric ports 0 and 1 and two
stacks up. -/
def tUp : State :=
  { pins := { powerEn := true, resetN := true, pwrGood := true }
    boot := { st := .ready, sectors := 0xFFFF, set := [0, 1] }
    parishes := [(0, { railOn := true })]
    mcs := [(0, { online := true, inSet := true }), (1, { online := true, inSet := true })]
    allots := [(0, { st := .running, owner := 1, parishes := 1, stripeCount := 4, hubCount := 16, rkey := 5 })]
    ses := [(1, { qp := 2, mgmt := true, grant := 8, regsKey := 7, devall := 9 })]
    qps := [(2, { ses := some 1, rate := 100 })]
    hps := [(0, { up := true })]
    ports := [(0, { st := .up, g0 := { ok := true }, g1 := { ok := true } }),
      (1, { st := .up, g0 := { ok := true }, g1 := { ok := true } })] }

/-- That module with core 0 running, s1 = 5 and s2 = 3. -/
def tCore (c : Core) : State :=
  tUp.setCore tP { c with mode := .running, bankA := { c.bankA with st := .active }, s := (c.s.set 1 5).set 2 3 }

def tRun (c : Instr) (s : State) : State :=
  match exec c s with
  | .next t => t
  | _ => s

/-- Scalar register 3 after an instruction of that core. -/
def tS (c : Instr) : Word := ((tRun c (tCore {})).core tP).sreg 3

def tR : FmtR := ⟨tYes, 3, 1, 2, 0⟩
def tI : FmtI := ⟨tYes, 3, 1, 4⟩
def tU : FmtU := ⟨tYes, 3, 7⟩
def tB : FmtB := ⟨tYes, 1, 2, 0x7FC⟩
def tV : FmtV := ⟨tYes, 1, 2, 3, 0, 0⟩
def tVM : FmtVM := ⟨tYes, 1, 2, 0⟩

/-! ### The core -/

theorem test_witness_ready (pr : Pred) (h : pr = tYes) : (tCore {}).ready tP pr := by
  subst h
  constructor <;> decide +kernel

theorem test_witness_readyOff : (tCore {}).readyOff tP tNo := by constructor <;> decide +kernel

theorem test_witness_StepRunsFrontCommand : State.reset.pending = [] := rfl

theorem test_witness_ScalarAluResults : (tCore {}).ready tP tR.pr ∧ tR.rsv = 0 ∧ (tCore {}).ready tP tI.pr ∧
    (tCore {}).ready tP tU.pr :=
  ⟨test_witness_ready _ rfl, rfl, test_witness_ready _ rfl, test_witness_ready _ rfl⟩

theorem test_scalar_alu : [tS (.add tP tR), tS (.sub tP tR), tS (.and tP tR), tS (.or tP tR), tS (.xor tP tR), tS (.sll tP tR),
    tS (.srl tP tR), tS (.sra tP tR), tS (.slt tP tR), tS (.sltu tP tR), tS (.min tP tR), tS (.max tP tR), tS (.mul tP tR),
    tS (.mulh tP tR), tS (.mulhu tP tR), tS (.div tP tR), tS (.divu tP tR), tS (.rem tP tR), tS (.remu tP tR)] =
    [8, 2, 1, 7, 6, 40, 0, 0, 0, 0, 3, 5, 15, 0, 0, 1, 1, 2, 2] := by decide +kernel

theorem test_scalar_immediate : [tS (.addi tP { tI with imm := 0x7FF }), tS (.slti tP { tI with imm := 0x7FF }),
    tS (.andi tP { tI with imm := 0x7FF }), tS (.ori tP { tI with imm := 0x400 }), tS (.xori tP tI), tS (.slli tP tI),
    tS (.srli tP { tI with imm := 2 }), tS (.srai tP { tI with imm := 2 })] = [4, 0, 5, 0x405, 1, 80, 1, 1] := by decide +kernel

theorem test_constants : [tS (.luh tP tU), tS (.llo tP tU), tS (.jal tP tU 0)] = [7 <<< 14, 7, 0x20004] := by decide +kernel

/-- Division by zero and overflow (R47). -/
theorem test_division_corners : [tS (.div tP { tR with rb := 0 }), tS (.remu tP { tR with rb := 0 })] = [0xFFFFFFFF, 5] := by
  decide +kernel

theorem test_witness_RegisterWrites : (1 : BitVec 5) ≠ 0 ∧ (2 : BitVec 5) ≠ 1 ∧ (7 : BitVec 3) ≠ 0 ∧ (0 : BitVec 3) ≠ 7 ∧
    (15 : BitVec 4) ≠ 0 := by decide

/-- Loads and stores at the last word of data SRAM (R39): 3 + 0x3FC plus a base of 0x17C00 held in s1. -/
def tMem : State := tUp.setCore tP
  { mode := .running, bankA := { st := .active }, s := ((Vector.replicate 32 0).set 1 0x17C00).set 3 0x12345678 }

theorem test_witness_ScalarMemory : tMem.frozen tP = false ∧ (tMem.core tP).canIssue = true ∧ (tMem.core tP).takes tYes = true ∧
    (tMem.core tP).spois 1 = false ∧ ((tMem.core tP).sreg 1).toNat < 2 ^ 18 ∧ 0x17FFC % 4 = 0 ∧ 0x17FFE % 2 = 0 ∧
    regionOf 0x17FFC 4 ≠ .nowhere ∧ regionOf 0x17FFE 2 ≠ .nowhere ∧ regionOf 0x21FFC 4 ≠ .nowhere := by decide +kernel

theorem test_scalar_store : ((tRun (.sw tP ⟨tYes, 3, 1, 0x3FC⟩) tMem).core tP).bytes 0x17FFC 4 = [0x78, 0x56, 0x34, 0x12] ∧
    ((tRun (.sh tP ⟨tYes, 3, 1, 0x3FE⟩) tMem).core tP).bytes 0x17FFC 4 = [0, 0, 0x78, 0x56] := by decide +kernel

theorem test_scalar_load : ((tRun (.lh tP ⟨tYes, 4, 1, 2⟩) (tCore { sram := [(6, 0x80), (7, 0x90)] })).core tP).sreg 4 = 0 ∧
    ((tRun (.lh tP ⟨tYes, 4, 2, 3⟩) (tCore { sram := [(6, 0x80), (7, 0x90)] })).core tP).sreg 4 = 0xFFFF9080 ∧
    ((tRun (.lhu tP ⟨tYes, 4, 2, 3⟩) (tCore { sram := [(6, 0x80), (7, 0x90)] })).core tP).sreg 4 = 0x9080 := by decide +kernel

theorem test_witness_Branches : ((tCore {}).core tP).spois 1 = false ∧ ((tCore {}).core tP).spois 2 = false ∧ tB.pr = tYes ∧
    ({ tB with rb := 0 } : FmtB).rb = 0 ∧ tU.pr = tYes ∧ tR.rsv = 0 := by decide +kernel

/-- 5 against 3, four words back from PC 8 (R45, R47); LOOP goes on while the count is not zero. -/
theorem test_branches : let pc (c : Instr) : Nat := ((tRun c (tCore { pc := 8 })).core tP).pc
    [pc (.branchEq tP tB), pc (.branchNe tP tB), pc (.branchLt tP tB), pc (.branchGe tP tB), pc (.branchLtu tP tB),
      pc (.branchGeu tP tB), pc (.loop tP { tB with rb := 0 }), pc (.jal tP tU 0), pc (.nop tP { tR with rd := 0, ra := 0, rb := 0 })] =
    [9, 4, 9, 4, 9, 4, 4, 15, 9] := by decide +kernel

theorem test_witness_SystemClass : tR.rsv = 0 ∧ (0 : Nat) * 32 + 8 = 8 ∧ 13 ≤ (0 : Nat) * 32 + 13 ∧ (0 : Nat) * 32 + 5 < 6 ∧ (1 : Nat) * 32 + 2 ≠ 4 ∧ (0 : Nat) * 32 + 4 = 4 ∧ (0 : Nat) * 32 + 6 = 6 ∧
    (0 : Nat) * 32 + 7 = 7 ∧ ((tCore {}).core tP).spois 3 = false ∧ ((tCore {}).core tP).spois 1 = false ∧
    ((tCore { wait := .fence }).core tP).wait = .fence ∧ ((tCore { wait := .fence }).core tP).mq = [] ∧
    ((tCore { wait := .fence }).core tP).mrun = none := by decide +kernel

theorem test_system : ((tRun (.endIssue tP { tR with rd := 0, ra := 0, rb := 0 }) (tCore {})).core tP).mode = .ended ∧
    ((tRun (.bellwait tP { tR with rd := 0, rb := 0 }) (tCore {})).core tP).wait = .bell 5 ∧
    ((tRun (.csrw tP { tR with ra := 0, rb := 6, rd := 1 }) (tCore {})).core tP).rngctr = 5 := by decide +kernel

theorem test_witness_PredicateResults : tR.rsv = 0 ∧ 1 ≤ tR.rd.toNat ∧ tR.rd.toNat < 8 ∧ 1 ≤ ({ tR with rd := 7 } : FmtR).rd.toNat ∧
    ((tCore {}).core tP).spois 1 = false ∧ ((tCore {}).core tP).spois 2 = false ∧ ({ tR with rb := 0 } : FmtR).rb = 0 ∧
    tR.ra.toNat < 8 ∧ tR.rb.toNat < 8 := by decide +kernel

theorem test_predicates : let pd (c : Instr) : Bool := ((tRun c (tCore { p := 3 })).core tP).pred 3
    [pd (.pcmpEq tP tR), pd (.pcmpNe tP tR), pd (.pcmpLt tP tR), pd (.pcmpGe tP tR), pd (.pcmpLtu tP tR), pd (.pcmpGeu tP tR),
      pd (.pset tP { tR with rb := 0 }), pd (.pand tP tR), pd (.por tP tR), pd (.pxor tP tR), pd (.pnot tP { tR with rb := 0 })] =
    [false, true, false, true, false, true, true, false, true, true, false] := by decide +kernel

/-! ### Vectors, the matrix engine, queues, tallies -/

/-- v2 = 1.0 in every lane, v3 = 2.0 in every lane. -/
def tVec : State :=
  let ones := ofLanes (List.replicate 16 0x3F800000)
  let twos := ofLanes (List.replicate 16 0x40000000)
  tCore { v := ((Vector.replicate 16 0).set 2 ones).set 3 twos }

theorem test_witness_VectorLanes : tVec.frozen tP = false ∧ (tVec.core tP).canIssue = true ∧ (tVec.core tP).takes tV.pr = true ∧
    (tVec.core tP).accrdPending 2 = false ∧ (tVec.core tP).accrdPending 3 = false ∧ (tVec.core tP).accrdPending 0 = false ∧
    tV.vc = 0 ∧ tV.mode = 0 ∧ tV.mode.toNat < 4 ∧ ({ tV with mode := 4 } : FmtV).mode = 4 ∧
    ({ tV with vb := 0 } : FmtV).vb = 0 := by
  decide +kernel

theorem test_vector_lanes : let x (c : Instr) : Word := lane (((tRun c tVec).core tP).vreg 1) 15
    [x (.vadd tP tV), x (.vsub tP tV), x (.vmul tP tV), x (.vfma tP { tV with vc := 2 }), x (.vmax tP tV), x (.vmin tP tV),
      x (.vabs tP { tV with vb := 0 }), x (.vcmp tP tV), x (.viadd tP tV), x (.vand tP tV), x (.vor tP tV), x (.vxor tP tV),
      x (.vsrl tP tV), x (.vsel tP tV)] =
    [0x40400000, 0xBF800000, 0x40000000, 0x40400000, 0x40000000, 0x3F800000, 0x3F800000, 0, 0x7F800000, 0, 0x7F800000, 0x7F800000,
      0x3F800000, 0x40000000] := by decide +kernel

/-- 2 to the power 1, 1 / 1 and the inverse square root of 1 (R56); 16 ones sum to 16 (R54). -/
theorem test_vector_functions : let x (c : Instr) : Word := lane (((tRun c tVec).core tP).vreg 1) 0
    [x (.vexp2 tP { tV with vb := 0 }), x (.vrcp tP { tV with vb := 0 }), x (.vrsqrt tP { tV with vb := 0 }),
      x (.vredsum tP { tV with vb := 0 }), x (.vredmax tP { tV with vb := 0 })] =
    [0x40000000, 0x3F800000, 0x3F800000, 0x41800000, 0x3F800000] := by decide +kernel

theorem test_witness_VectorMoves : (tVec.core tP).accrdPending 2 = false ∧ (cvtElem 0).isSome = true ∧
    bit ({ tV with vb := 0 } : FmtV).mode 0 = false ∧ bit ({ tV with vb := 0, mode := 1 } : FmtV).mode 0 = true ∧ 0 < cvtGroups 8 ∧ (tVec.core tP).spois 2 = false ∧ ((tVec.core tP).sreg 2).toNat < 2 ^ 18 ∧
    regionOf 0 64 ≠ .nowhere ∧ 0 % 16 = 0 ∧ regionOf 0x21FC0 64 ≠ .nowhere ∧ 0x17FC0 + 64 ≤ 0x18000 ∧
    ({ tVM with off := 15 } : FmtVM).off.toNat < 16 ∧ tVM.off = 0 := by decide +kernel

theorem test_vector_moves : let f : FmtVM := { tVM with off := 15 }
    lane (((tRun (.vins tP { f with vd := 1 }) tVec).core tP).vreg 1) 15 = 3 ∧
    lane (((tRun (.vbcast tP tVM) tVec).core tP).vreg 1) 15 = 3 ∧
    ((tRun (.vext tP { f with vd := 3 }) tVec).core tP).sreg 2 = 0x40000000 ∧
    ((tRun (.vst tP ⟨tYes, 2, 0, 1⟩) tVec).core tP).bytes 16 4 = [0, 0, 0x80, 0x3F] ∧
    lane (((tRun (.vld tP ⟨tYes, 1, 0, 1⟩) (tCore { sram := [(16, 9)] })).core tP).vreg 1) 0 = 9 := by decide +kernel

/-- A WLD of FP8 weights into buffer 0, from s1. -/
def tWld : FmtM := ⟨tYes, 0, 0, 0x6, 0, 1, 0, 0⟩
/-- An MMA of one row with buffer 0, from s1, the pitch in s2. -/
def tMma : FmtM := ⟨tYes, 0, 0, 0, 0, 1, 2, 0⟩
def tMx : State :=
  let zero : List Byte := List.replicate 64 0
  tUp.setCore tP
    { mode := .running, bankA := { st := .active }, s := ((Vector.replicate 32 0).set 1 0x40).set 2 0x400
      w := (Vector.replicate 2 none).set 0 (some ⟨0x6, false, zero, false⟩) }

theorem test_witness_MatrixEngine_issue : tMx.frozen tP = false ∧ (tMx.core tP).canIssue = true ∧ (tMx.core tP).mq.length < 4 ∧
    tWld.rsv = 0 ∧ (mfmt tWld.a.toNat).isSome = true ∧ tWld.acc = 0 ∧ tWld.b.toNat % 4 = 0 ∧ tWld.sb = 0 ∧ bit tWld.b 2 = false ∧
    (tMx.core tP).spois 1 = false ∧ ((tMx.core tP).sreg 1).toNat < 2 ^ 18 ∧
    (∀ m, mfmt tWld.a.toNat = some m → regionOf 0x40 (m.blockBytes false) ≠ .nowhere) ∧
    tMma.b = 0 ∧ (tMx.core tP).bufFmt tMma.w = some (0x6, false) ∧ (tMx.core tP).spois 2 = false ∧
    ((tMx.core tP).sreg 2).toNat % 16 = 0 ∧
    (∀ m, mfmt 0x6 = some m → actBytes m false ≤ 0x400 ∧ regionOf 0x40 (tileSpan m false 1 0x400) ≠ .nowhere) ∧
    (tMx.core tP).accrdPending 0 = false := by decide +kernel

theorem test_witness_MatrixEngine_commands : let c : FmtM := ⟨tYes, 3, 0, 0, 0, 0, 0, 0⟩
    c.rsv = 0 ∧ c.w = 0 ∧ c.a = 0 ∧ c.b = 0 ∧ c.sa = 0 ∧ c.sb = 0 ∧ ((tCore { wait := .msync }).core tP).wait = .msync ∧
    ((tCore { wait := .msync }).core tP).mq = [] ∧ ((tCore { wait := .msync }).core tP).mrun = none := by decide +kernel

theorem test_matrix_queue : let pushed (i : Instr) : List MCmd := ((tRun i tMx).core tP).mq
    pushed (.wld tP tWld) = [.wld 0 0x6 false 0x40] ∧ pushed (.mma tP tMma) = [.mma 0 0 1 0 0x40 0x400 false] ∧
    pushed (.accz tP ⟨tYes, 3, 0, 0, 0, 0, 0, 0⟩) = [.accz 3] ∧
    pushed (.accrd tP ⟨tYes, 3, 0, 2, 1, 0, 0, 0⟩) = [.accrd 3 1 2] ∧
    pushed (.accwr tP ⟨tYes, 3, 0, 2, 1, 0, 0, 0⟩) = [.accwr 3 1 0 0] := by decide +kernel

/-- An ACCZ behind a WLD: the row pipe may start it, and the load pipe its WLD. -/
def tMq : State := tCore { mq := [.wld 0 0x6 false 0x40, .accz 3], acc := (Vector.replicate 4 (Vector.replicate 128 1)) }

theorem test_witness_MatrixEngine_pipes : (tMq.core tP).mq = [.wld 0 0x6 false 0x40] ++ .accz 3 :: [] ∧
    (∀ x ∈ [MCmd.wld 0 0x6 false 0x40], x.isLoad ≠ decide (Pipe.row = .load)) ∧ (MCmd.accz 3).isLoad = decide (Pipe.row = .load) ∧
    (tMq.core tP).mayStart [.wld 0 0x6 false 0x40] (.accz 3) = true ∧
    (tMq.core tP).mq = [] ++ .wld 0 0x6 false 0x40 :: [.accz 3] ∧ (MCmd.wld 0 0x6 false 0x40).isLoad = decide (Pipe.load = .load) ∧
    (tMq.core tP).mayStart [] (.wld 0 0x6 false 0x40) = true := by decide +kernel

theorem test_matrix_start : ((tRun (.matrixCommandStart tP .row) tMq).core tP).mq = [.wld 0 0x6 false 0x40] ∧
    ((tRun (.matrixCommandStart tP .row) tMq).core tP).acc[3][127] = 0 ∧
    ((tRun (.matrixCommandStart tP .load) tMq).core tP).mq = [.accz 3] ∧
    ((tRun (.matrixCommandStart tP .load) tMq).core tP).bufFmt 0 = some (0x6, false) := by decide +kernel

theorem test_msync : ((tRun (.msync tP ⟨tYes, 0, 0, 0, 0, 0, 0, 0⟩) tMq).core tP).wait = .msync ∧
    ((tRun (.msyncDone tP) (tCore { wait := .msync, pc := 8 })).core tP).pc = 9 := by decide +kernel

def tTok (n : Nat) (void : Bool) : Token := ⟨BitVec.ofNat 128 n, 0, void, false, false⟩
/-- Input 0 and output 0 are enabled; input 0 holds two tokens. -/
def tQueue : State := tCore { qcfg := ((Vector.replicate 8 0).set 0 1).set 4 1, inq := (Vector.replicate 4 []).set 0 [tTok 9 false, tTok 0 true] }
def tIn : FmtQ := ⟨tYes, 0, 1, 1, 1, 0, 0⟩
def tOut : FmtQ := ⟨tYes, 4, 0, 3, 0, 0, 0⟩

theorem test_witness_readyOff_queue : tQueue.readyOff tP tNo := by constructor <;> decide +kernel

/-- An MMA of two rows from input 0 has begun, with what it needs; the parish has quota 256, or none. -/
def tRows (grant : Nat) : State :=
  let r : MRun := ⟨.mma 0 0 2 4 0 0 false, 2, [tTok 9 false, tTok 8 false], 0⟩
  let s := tMx.updCore tP fun c => { c with mrun := some r, qcfg := (Vector.replicate 8 0).set 0 1 }
  s.setParish 0 { s.parish 0 with grant := grant }

theorem test_witness_MatrixEngine_rows : ((tRows 256).core tP).mrun.map (fun r => (r.need ≤ r.got.length : Bool)) = some true ∧
    ((tRows 256).core tP).w[0] = some ⟨0x6, false, List.replicate 64 0, false⟩ ∧ (mfmt 0x6).isSome = true ∧ 0 < 2 ∧
    0 < (tRows 256).rowsNow tP 2 2 ∧ 0 + 2 ≤ 16 ∧ (3 : BitVec 2) ≠ 0 ∧ 4 ≤ (4 : BitVec 3).toNat ∧
    (tRows 0).allowance 0 = 0 := by decide +kernel

/-- An MMA from input 0 at the head of the queue, at quota 0. -/
def tHold : State := (tRows 0).updCore tP fun c => { c with mrun := none, mq := [.mma 0 0 2 4 0 0 false] }

theorem test_witness_MatrixEngine_held : (tHold.core tP).mq = [] ++ .mma 0 0 2 4 0 0 false :: [] ∧ (tHold.core tP).mrun = none ∧
    (tHold.parish 0).droop = false ∧ min (tHold.parish 0).grant (tHold.parish 0).throttle = 0 ∧ bit ((tRows 0).core tP).qcfg[0] 0 = true ∧
    ({ tMma with b := 4 } : FmtM).b.toNat ≥ 4 ∧ (tHold.core tP).bufFmt 0 = some (0x6, false) ∧ (tHold.core tP).mq.length < 4 := by
  decide +kernel

theorem test_witness_readyOff_mma : tHold.readyOff tP tNo := by constructor <;> decide +kernel

/-- Both rows issue at quota 256 and the MMA is over; none issues at quota 0 (R374). Predicated off, it joins the queue to drop
its entries (R53). -/
theorem test_matrix_rows : (((tRows 256).issueRows tP).core tP).mrun = none ∧
    (((tRows 0).issueRows tP).core tP).mrun.map (·.done) = some 0 ∧
    ((tRun (.matrixCommandStart tP .row) tHold).core tP).mq.length = 1 ∧
    ((tRun (.mma tP { tMma with b := 4, pr := tNo }) tHold).core tP).mq.length = 2 := by decide +kernel

/-- A push predicated off emits void entries, and a pop drops its own (R53). -/
theorem test_queue_off : ((tRun (.qpushV tP { tOut with pr := tNo }) tQueue).core tP).outQ 0 = List.replicate 4 (tTok 0 true) ∧
    ((tRun (.qpopS tP ⟨tNo, 0, 0, 0, 1, 4, 0⟩) tQueue).core tP).inQ 0 = [tTok 0 true] := by decide +kernel

theorem test_witness_QueueInstructions_issue : tQueue.frozen tP = false ∧ (tQueue.core tP).canIssue = true ∧ tIn.rsv = 0 ∧
    (tQueue.core tP).qEnabled tIn.q = true ∧ (tQueue.core tP).qEnabled tOut.q = true ∧ tOut.q.toNat ≥ 4 ∧ tOut.pd = 0 ∧
    tOut.rs = 0 ∧
    (tQueue.core tP).accrdPending 0 = false ∧ ((tQueue.core tP).outQ 0).length + 3 + 1 ≤ 16 ∧ tOut.vr = 0 ∧
    ({ tOut with n1 := 0 } : FmtQ).n1 = 0 ∧ tIn.q.toNat < 4 ∧ tIn.rs = 0 ∧ tIn.n1.toNat < ((tQueue.core tP).inQ 0).length ∧
    (tQueue.core tP).inQ 0 = tTok 9 false :: [tTok 0 true] := by decide +kernel

theorem test_witness_QueueInstructions_waits :
    ((tQueue.setCore tP { tQueue.core tP with wait := .pop true false tIn }).core tP).wait = .pop true false tIn ∧
    ({ (tQueue.core tP) with wait := .none } : Core).pop true false tIn ≠ none ∧
    ({ (tQueue.core tP) with wait := .none } : Core).push .void false tOut ≠ none := by decide +kernel

/-- A VOID in the batch clears the predicate; the popped words land in their quarters (R63, R64). -/
theorem test_queue_pop : let t := (tRun (.qpopV tP tIn) tQueue).core tP
    t.pred 1 = false ∧ t.inQ 0 = [] ∧ bits (t.vreg 1) 0 128 = 9 ∧ bits (t.vreg 1) 128 128 = 0 := by decide +kernel

theorem test_queue_scalar : let f : FmtQ := ⟨tYes, 0, 0, 0, 1, 4, 0⟩
    let t := (tRun (.qpopS tP f) tQueue).core tP
    t.sreg 4 = 9 ∧ t.pred 1 = true ∧ t.inQ 0 = [tTok 0 true] ∧
    ((tRun (.qpushS tP ⟨tYes, 4, 0, 0, 0, 1, 0⟩) tQueue).core tP).outQ 0 = [tTok 5 false] ∧
    ((tRun (.qstat tP ⟨tYes, 0, 0, 0, 0, 4, 0⟩) tQueue).core tP).sreg 4 ≠ 0 := by decide +kernel

theorem test_queue_push : ((tRun (.qvoid tP tOut) tQueue).core tP).outQ 0 = List.replicate 4 (tTok 0 true) ∧
    ((tRun (.qlast tP tOut) tQueue).core tP).outQ 0 = List.replicate 3 (tTok 0 false) ++ [{ tTok 0 false with last := true }] ∧
    ((tRun (.qpushV tP tOut) tQueue).core tP).outQ 0 = List.replicate 4 (tTok 0 false) := by decide +kernel

theorem test_queue_wait : ((tRun (.qpopV tP { tIn with n1 := 2 }) tQueue).core tP).wait = .pop true false { tIn with n1 := 2 } ∧
    ((tRun (.queueWaitEnd tP) (tQueue.setCore tP { tQueue.core tP with wait := .pop true false tIn })).core tP).inQ 0 = [] := by
  decide +kernel

def tT (lvl : BitVec 2) (idx : BitVec 12) : FmtT := ⟨tYes, lvl, idx, 1, 0, 0⟩

theorem test_witness_TallyInstructions_issue : (tT 0 15).rsv = 0 ∧ (tT 0 15).one = 0 ∧ (tT 0 15).idx.toNat < tallyRange 0 ∧
    (tT 1 255).idx.toNat < tallyRange 1 ∧ (tT 2 15).idx.toNat < tallyRange 2 ∧ (tCore {}).hubOwner 15 = (tCore {}).allotOf 0 ∧
    ((tCore {}).core tP).spois 1 = false ∧ ({ tT 0 15 with one := 1, rs := 0 } : FmtT).rs = 0 := by decide +kernel

def tTally : State := tRun (.tinc tP (tT 1 255)) (tCore {})

theorem test_witness_TallyInstructions_travel : tTally.tallyOps.find? (fun m => decide (m.src = tP ∧ m.carter = false ∧
    m.lvl = 1)) =
      some ⟨tP, false, 1, 255, .inc, 5, 0⟩ ∧ tTally.crierReaches ⟨tP, false, 1, 255, .inc, 5, 0⟩ = true ∧
    (tCore { wait := .answer .readVal (tT 2 0) 7 }).answerReaches tP 2 = true ∧
    (tTally.core tP).pc = 1 ∧
    ((tCore { wait := .answer .readVal (tT 2 0) 7 }).core tP).wait = .answer .readVal (tT 2 0) 7 ∧
    tTally.waitersAt { lvl := 1, core := tP, idx := 255 } = [] ∧ tTally.waitersAt { lvl := 2, core := tP, idx := 4095 } = [] := by
  decide +kernel

/-- INC to 5 at once on the core's own tally, on its way to the parish's; DEC of 5 from 5 and from less (R260). -/
theorem test_tallies : ((tRun (.tinc tP (tT 0 15)) (tCore {})).core tP).t[15] = 5 ∧
    ((tRun (.tallyOperationArrival tP false ⟨1, false⟩) tTally).parish 0).tallies.get 0 255 = 5 ∧
    ((tRun (.tdec tP (tT 0 15)) (tCore { t := (Vector.replicate 16 0).set 15 5 })).core tP).t[15] = 0 ∧
    ((tRun (.tdec tP (tT 0 15)) (tCore { t := (Vector.replicate 16 0).set 15 4 })).core tP).t[15] = 4 := by decide +kernel

theorem test_tally_waits : ((tRun (.twait tP (tT 1 0)) (tCore {})).core tP).wait = .tally .waitGe (tT 1 0) ∧
    ((tRun (.twaitd tP (tT 1 0)) (tCore {})).core tP).wait = .tally .waitGeDec (tT 1 0) ∧
    ((tRun (.tread tP (tT 1 0)) (tCore {})).core tP).wait = .tally .readVal (tT 1 0) ∧
    ((tRun (.tallyAnswer tP) (tCore { wait := .answer .readVal (tT 2 0) 7 })).core tP).sreg 1 = 7 := by decide +kernel

/-- A descriptor at 0x40 of data SRAM, in s1: 64 bytes from DPA 0 to local address 0x80. -/
def tDescCore : State := tUp.setCore tP
  { mode := .running, bankA := { st := .active }, s := (Vector.replicate 32 0).set 1 0x40
    sram := [(0x40 + 26, 0x80), (0x40 + 28, 0xFC)] }

theorem test_witness_CarterLaunch : let c := tDescCore.core tP
    let f : FmtD := ⟨tYes, 1, 0, 0⟩
    tDescCore.frozen tP = false ∧ c.canIssue = true ∧ f.rsv = 0 ∧ f.rd = 0 ∧ c.spois 1 = false ∧ (c.sreg 1).toNat = 0x40 ∧
    descPlace 0x40 = true ∧ descPlace (0x18000 - 48) = true ∧ descPlace 0x21B00 = true ∧ 0x40 % 16 = 0 ∧
    (∀ x ∈ descChecks tDescCore tP c 0x40, x.1 = false) ∧ (c.load.running.length + c.load.waiting.length < 4) ∧
    (c.store.running.length + c.store.waiting.length < 4) ∧ ({ f with ra := 0 } : FmtD).ra = 0 := by decide +kernel

theorem test_witness_CarterLaunch_clean (w : Word) : tDescCore.touchLocal tP w 0x40 48 = tDescCore := by
  have r : regionOf 0x40 48 = .data := by decide +kernel
  unfold State.touchLocal
  rw [r]
  exact touchSram_clean _ _ _ _ _ (by decide +kernel) (by decide +kernel) (by decide +kernel) (by decide +kernel)

theorem test_launch : (((tRun (.dld tP ⟨tYes, 1, 0, 0⟩) tDescCore).core tP).load.waiting.map fun d => (d.lbase, d.blen, d.rbase)) =
      [(0x80, 64, 0)] ∧
    ((tRun (.dst tP ⟨tYes, 1, 0, 0⟩) tDescCore).core tP).store.waiting.length = 1 := by decide +kernel

def tK : FmtV := ⟨tYes, 0, 0, 0, 0, 0⟩

theorem test_witness_TopkClass : tK.vc = 0 ∧ tK.vd = 0 ∧ ({ tK with mode := 1 } : FmtV).mode.toNat < 2 ∧ 3 * 16 + 15 < 64 ∧
    tK.mode = 0 ∧
    tK.va = 0 ∧ tK.vb = 0 ∧ ((tCore {}).core tP).accrdPending 0 = false := by decide +kernel

/-- The best of 16 equal values is the one offered first (R67). -/
theorem test_topk : let t := tRun (.tkpush tP { tK with va := 2 }) (tRun (.tkinit tP { tK with vb := 1 }) tVec)
    (t.core tP).topk.kept = [(0x3F800000, 0), (0x3F800000, 1)] ∧ (t.core tP).topk.counter = 16 ∧
    lane (((tRun (.tkrd tP { tK with vd := 5 }) t).core tP).vreg 5) 1 = 0x3F800000 ∧
    lane (((tRun (.tkrdi tP { tK with vd := 5 }) t).core tP).vreg 5) 1 = 1 := by decide +kernel

theorem test_random : ((tRun (.rand tP { tK with vd := 5 }) tVec).core tP).rngctr = 4 ∧
    ((tRun (.sample tP { tK with vd := 5 }) tVec).core tP).rngctr = 1 := by decide +kernel

/-! ### Exceptions, observation points, frames -/

theorem test_witness_CoreExceptions : (tCore {}).allotOf 0 = some 0 ∧ ((tCore {}).allot 0).st = .running ∧
    (tCore {}).frozen tP = false ∧ ((tCore {}).core tP).canIssue = true ∧ ((tCore {}).core tP).active.ue.contains 0 = false ∧
    ((tCore {}).core tP).pc < 1536 ∧ ¬ (tYes.pn = 1 ∧ tYes.ps = 0) ∧ ({ tR with rsv := 7 } : FmtR).rsv ≠ 0 ∧
    ((tCore { pc := 1535 }).core tP).pc < 1536 ∧ ({ tR with pr := tNo } : FmtR).rsv = 0 ∧ ((tCore {}).core tP).assigned = true := by
  decide +kernel

/-- The first word of the bank has class 0xF, which is not assigned (R46). -/
def tUnassigned : State := tCore { bankA := { data := [(3, 0x0F)] } }

theorem test_witness_CoreExceptions_opcode : tUnassigned.frozen tP = false ∧ (tUnassigned.core tP).canIssue = true ∧
    (tUnassigned.core tP).active.ue.contains 0 = false ∧ (tUnassigned.core tP).pc = 0 ∧ (tUnassigned.core tP).assigned = false ∧
    ¬ (bits (tUnassigned.core tP).text 31 1 = 1 ∧ bits (tUnassigned.core tP).text 28 3 = 0) := by decide +kernel

theorem test_opcode : ((tRun (.nop tP { tR with rd := 0, ra := 0, rb := 0 }) tUnassigned).core tP).mode = .halted ∧
    ((tRun (.nop tP { tR with rd := 0, ra := 0, rb := 0 }) (tCore {})).core tP).mode = .running := by decide +kernel

theorem test_exception : let t := tRun (.add tP { tR with rsv := 7 }) (tCore {})
    (t.core tP).mode = .halted ∧ (t.core tP).pc = 0 ∧ (t.allot 0).haltAt ≠ none := by decide +kernel

theorem test_predicated_off : ((tRun (.add tP { tR with pr := tNo }) (tCore {})).core tP).sreg 3 = 0 ∧
    ((tRun (.add tP { tR with pr := tNo }) (tCore {})).core tP).pc = 1 := by decide +kernel

/-- s1, s2 and s3 are poisoned. -/
def tBad : State := tCore { sp := 0xE }

theorem test_witness_ObservationPoints : tBad.frozen tP = false ∧ (tBad.core tP).canIssue = true ∧
    (tBad.core tP).takes tYes = true ∧ (tBad.core tP).spois 1 = true ∧ (tBad.core tP).spois 2 = true ∧
    (tBad.core tP).spois 3 = true ∧
    tBad.allotOf 0 = some 0 ∧ tBad.noted 0 evPoisonConsumed 0 = false ∧ (tT 0 15).rsv = 0 ∧ tWld.rsv = 0 ∧
    (tBad.core tP).accrdPending 1 = false ∧ (0 : Nat) * 32 + 7 = 7 ∧ (tMx.core tP).bufFmt 0 ≠ none ∧
    (⟨tYes, 1, 0, 0⟩ : FmtD).rd = 0 ∧ tBad.hubOwner 15 = tBad.allotOf 0 := by decide +kernel

theorem test_observed : ((tRun (.branchEq tP tB) tBad).events.map (·.code)).contains evPoisonConsumed = true ∧
    ((tRun (.add tP tR) tBad).events.map (·.code)).contains evPoisonConsumed = false ∧
    ((tRun (.add tP tR) tBad).core tP).spois 3 = true := by decide +kernel

def tNext (o : Host.Outcome State Fault Refusal) : Bool :=
  match o with
  | .next _ => true
  | _ => false

theorem test_witness_RegisterFrames : tNext (exec (.add tP tR) (tCore {})) = true ∧ tNext (exec (.lw tP tI) (tCore {})) = true ∧
    tNext (exec (.luh tP tU) (tCore {})) = true ∧ tNext (exec (.vadd tP tV) tVec) = true := by decide +kernel

theorem test_witness_StoreFrames : tNext (exec (.sw tP tI) (tCore {})) = true ∧ tNext (exec (.sh tP tI) (tCore {})) = true ∧
    tNext (exec (.vst tP tVM) (tCore {})) = true := by decide +kernel

/-! ### Mesh and banks -/

def tEast : Pos := ⟨0, 1, 0⟩
/-- Slot 0, the last of the round: east takes one token of output 0 through the inbound Core port. -/
def tMesh : State := tCore
  { bankA := { data := [(0x1800, 0x28), (0x1801, 0x80), (0x1807, 0x80)] }, outq := (Vector.replicate 4 []).set 0 [tTok 9 false] }
def tSlot : Slot := ⟨[0, 5, 0, 0, 0], 1, 0, 0, 0, false, 1, true⟩

theorem test_witness_MeshMoves_transfer : tMesh.meshRuns tP = true ∧ (tMesh.core tP).slot 0 = tSlot ∧ tSlot.source (dirNo .e) = 5 ∧
    ((tMesh.xroad tP).moved.toList[dirNo .e]?).getD 0 < tSlot.len ∧ tMesh.inbound tP tSlot 5 = (tMesh, some (tTok 9 false)) ∧
    (tMesh.xroad tP).offers tSlot 5 (dirNo .e) = true ∧
    (tMesh.deliverToken tP tSlot (dirNo .e) (tTok 9 false) false).isSome = true ∧
    (tMesh.deliverToken tP tSlot (dirNo .e) (tTok 9 false) true).isSome = true ∧ neighbour tP (dirNo .e) = some tEast ∧
    dirNo .e < 4 := by decide +kernel

def tMoved : State := tRun (.tokenTransfer tP .e false) tMesh

/-- The token arrives at the west port of the neighbour, and the slot is then complete (R110 to R117). -/
theorem test_transfer : ((tMoved.xroad tEast).latch.toList[opposite 1]?).getD none = some (tTok 9 false) ∧
    (tMoved.core tP).outQ 0 = [] ∧ (tMoved.xroad tP).moved[1] = 1 ∧
    (((tRun (.tokenTransfer tP .e true) tMesh).xroad tEast).latch.toList[opposite 1]?).getD none =
      some { tTok 9 false with poison := true } := by decide +kernel

theorem test_witness_MeshMoves_advance : tMoved.meshRuns tP = true ∧
    (tMoved.xroad tP).complete ((tMoved.core tP).slot (tMoved.xroad tP).slot) = true ∧ (tMoved.core tP).hold = none := by
  decide +kernel

theorem test_slot_advance : ((tRun (.slotAdvance tP) tMoved).xroad tP).moved[1] = 0 ∧
    ((tRun (.slotAdvance tP) tMoved).xroad tP).slot = 0 := by decide +kernel

/-- SUM of the Core port and of the east port, one token. -/
def tSum : State :=
  let one : Token := ⟨0x3F800000, 0, false, false, false⟩
  let s := tCore { bankA := { data := [(0x1801, 0x80), (0x1802, 0xA0), (0x1803, 0x02)] }, outq := (Vector.replicate 4 []).set 0 [one] }
  s.setXroad tP { latch := (Vector.replicate 5 none).set 1 (some one) }

theorem test_witness_MeshMoves_sum : let e := (tSum.core tP).slot 0
    let one : Token := ⟨0x3F800000, 0, false, false, false⟩
    tSum.meshRuns tP = true ∧ e.suma = 5 ∧ e.sumb = 2 ∧ (tSum.xroad tP).sumOut = [] ∧ (tSum.xroad tP).offers e 5 5 = true ∧
    (tSum.xroad tP).offers e 2 5 = true ∧ tSum.inbound tP e 5 = (tSum, some one) ∧ tSum.inbound tP e 2 = (tSum, some one) := by
  decide +kernel

/-- 1.0 and 1.0 give 2.0 in the lane that holds them (R114). -/
theorem test_sum : (((tRun (.sum tP) tSum).xroad tP).sumOut.map fun k => bits k.data 0 32) = [0x40000000] := by decide +kernel

/-- Input 0 is elastic, with 64 entries at 0x40 and their side bytes at 0x800; one entry is spilled. -/
def tSpill : State := tCore
  { qcfg := (Vector.replicate 8 0).set 0 (0x1000000000100010003), sram := [(0x40, 7)]
    spill := (Vector.replicate 4 (0, 0)).set 0 (0, 1) }

theorem test_witness_MeshMoves_refill : let c := tSpill.core tP
    (c.region 0).2 ≠ 0 ∧ qRegionSize (c.inCfg 0) = 64 ∧ ((c.inq.toList[0]?).getD []).length < 16 ∧
    (c.spilledAt (c.inCfg 0) 0).colour = c.colour ∧ c.ue = [] ∧ c.ce = [] := by decide +kernel

theorem test_witness_MeshMoves_refill_clean (a n : Nat) : tSpill.touchSram tP 0 a n = tSpill :=
  touchSram_clean _ _ _ _ _ (by decide +kernel) (by decide +kernel) (by decide +kernel) (by decide +kernel)

theorem test_refill : (((tRun (.refill tP 0) tSpill).core tP).inQ 0).map (·.data) = [7] ∧
    ((tRun (.refill tP 0) tSpill).core tP).region 0 = (1, 0) := by decide +kernel

def tSect : Sect := ⟨1, 10, 20, 5, 0, 0, false, false, 0, [0], [], [], 0, 0, 0, 0⟩
def tProg : Prog := ⟨7, 0, 1, [tSect]⟩
/-- Allotment 0 runs a program of one section, the field at a tick. -/
def tField (tick : DWord) (c : Core) (e : Exec) : State :=
  let s := tUp.setCore tP c
  { s.updAllot 0 fun x => { x with prog := some tProg, exec := some e, probing := true } with
    parishes := [(0, { railOn := true, bell := tick })], bell := { count := tick } }

def tSwap : State := tField 10 { mode := .retired, bankB := { st := .complete, run := 0, data := [(0x1AA0, 8), (0x1AA8, 1)] } }
  { lsn := 1, start := 0, fills := [(⟨0, 1⟩, 0)], launched := 1 }

theorem test_witness_BankSwap : tSwap.maySwap tP = true ∧
    (∀ i < 4, (tSwap.core tP).shadow.ue.contains (0x1AA0 / 8 + i) = false) := by
  decide +kernel

theorem test_bank_swap : let t := tRun (.bankSwap tP) tSwap
    (t.core tP).mode = .running ∧ (t.core tP).pc = 8 ∧ (t.core tP).secseq = 1 ∧
    ((tRun (.sramCeWriteback tP 16) (tCore { writeback := [2, 3] })).core tP).writeback = [3] := by decide +kernel

/-! ### Posted registers -/

def tPath : RegPath := .session 1
def tBlock : Nat := parishBase 0

theorem test_witness_PostedWrites : tUp.reaches .steward (tBlock + 0x1000) = true ∧
    State.coreIgnored .steward (tBlock + 0x1000) = false ∧
    tUp.keyed .steward tBlock = true ∧ tUp.absent (tBlock + 0x1000) = false ∧ tUp.posted.find? tBlock = none ∧
    tUp.reaches tPath (tBlock + 0x3000) = true ∧ tUp.absent (tBlock + 0x4038) = false ∧ tUp.absent (tBlock + 0x2020) = false ∧
    blockOf (tBlock + 0x3000) = some tBlock ∧ blockOf (mcBase 0 + 0xF0) = some (mcBase 0) ∧
    tUp.absent (mcBase 0 + 0xF0) = false := by
  decide +kernel

def tPosted : State := tRun (.parishTally tPath 0 255 9) { tUp with allots := [] }

theorem test_witness_PostedWrites_done : (tPosted.posted.find? (BitVec.ofNat 24 tBlock).toNat).isSome = true ∧
    tPosted.isRunning (tPosted.allotOf 0) = false ∧ (tPosted.parish 0).waiters.get [] 255 = [] := by decide +kernel

/-- The write is pending until it is done (R494). -/
theorem test_posted : (tPosted.parish 0).tallies.get 0 255 = 0 ∧
    ((tRun (.postedWriteDone (BitVec.ofNat 24 tBlock)) tPosted).parish 0).tallies.get 0 255 = 9 ∧
    (tRun (.postedWriteDone (BitVec.ofNat 24 tBlock)) tPosted).posted = [] := by decide +kernel

theorem test_witness_PostedEffects : let s := tCore { load := { halted := true, latch := some ⟨1, ⟨0, 0, 64⟩, 3, 0⟩ } }
    selPos 0 (s.reg (tBlock + 0x2000)) = some tP ∧ ((s.core tP).chan (selChan (s.reg (tBlock + 0x2000)))).latch.isSome = true ∧
    bit (0 : DWord) 0 = false ∧ ({ tUp with allots := [] } : State).allotOf 0 = none ∧ (tUp.parish 0).railOn = true ∧
    tUp.allotOf 0 = some 0 := by decide +kernel

theorem test_carter_control : let s := tCore { load := { halted := true, latch := some ⟨1, ⟨0, 0, 64⟩, 3, 0⟩ } }
    (((s.carterCtl 0 1).core tP).load.halted = false) ∧ ((s.carterCtl 0 1).core tP).load.latch = none := by decide +kernel

/-! ### Runs and the bell -/

theorem test_witness_RunsOfAProgram_fill : let s := tField 9 {} { lsn := 1, start := 0 }
    let e : Exec := { lsn := 1, start := 0 }
    (s.allot 0).prog = some tProg ∧ (s.allot 0).exec = some e ∧ (s.allot 0).st = .running ∧ e.nextRun tProg = some ⟨0, 1⟩ ∧
    e.mayFill = true ∧ e.launched = e.fills.length ∧ s.fieldTick 0 < (s.allot 0).launchTick e ⟨0, 1⟩ := by decide +kernel

def tLate : Exec := { lsn := 1, start := 0, fills := [(⟨0, 1⟩, 0)], launched := 1 }
def tEnded : Exec := { tLate with ended := 1 }

theorem test_witness_RunsOfAProgram_ends : tLate.launched = tLate.ended + 1 ∧ tLate.fills[tLate.ended]? = some (⟨0, 1⟩, 0) ∧
    ((tField 20 {} tLate).allot 0).deadlineTick tLate ⟨0, 1⟩ ≤ (tField 20 {} tLate).fieldTick 0 ∧
    (0, ⟨0, 1⟩) ∈ ((tField 20 {} tLate).allot 0).unended tLate ∧ tLate.overran.contains ⟨0, 1⟩ = false ∧
    ((tField 25 {} tLate).allot 0).deadlineTick tLate ⟨0, 1⟩ + ((tField 25 {} tLate).allot 0).graceOf ⟨0, 1⟩ ≤
      (tField 25 {} tLate).fieldTick 0 ∧
    tEnded.quiescing tProg = true ∧ ((tField 25 {} tEnded).allot 0).haltAt ≠ some .fault ∧
    (∀ y ∈ (tField 25 {} tEnded).ses, y.2.closing = none) := by decide +kernel

theorem test_witness_RunsOfAProgram_faults : let s := tField 15 {} tLate
    let e : Exec := { tEnded with sigDue := [0] }
    s.allotOf 0 = some 0 ∧ (s.allot 0).probing = true ∧ s.alive tP = true ∧ (s.core tP).dead = false ∧ e.sigDue = [0] ∧
    e.fills[0]? = some (⟨0, 1⟩, 0) ∧ (s.allot 0).sectOf ⟨0, 1⟩ = some tSect ∧ (s.allot 0).curRun = some ⟨0, 1⟩ ∧
    tLate.deadlock = false := by decide +kernel

/-- Parish 0 has been quiet as long as its watchman watches. -/
def tQuiet : State :=
  let s := tField 15 {} tLate
  s.setParish 0 { s.parish 0 with quiet := s.watchTicks }

theorem test_witness_RunsOfAProgram_deadlock : (tQuiet.allot 0).st = .running ∧ (tQuiet.allot 0).exec = some tLate ∧
    (tQuiet.allot 0).curRun = some ⟨0, 1⟩ ∧ tQuiet.allQuiet 0 = true ∧ (tField 15 {} tLate).allQuiet 0 = false := by decide +kernel

theorem test_runs : ((tRun (.sectionLoaderFill 0) (tField 9 {} { lsn := 1, start := 0 })).allot 0).colour = 1 ∧
    ((tRun (.graceExpiry 0) (tField 25 {} tLate)).allot 0).st = .halted ∧
    ((tRun (.quiescenceCheck 0) (tField 25 {} tEnded)).allot 0).st = .loaded ∧
    ((tRun (.sectionOverrun 0) (tField 20 {} tLate)).events.map (·.code)) = [evSectionOverrun] := by decide +kernel

theorem test_run_faults : ((tRun (.coreLost tP) (tField 15 {} tLate)).core tP).dead = true ∧
    ((tRun (.deadlock 0) tQuiet).allot 0).st = .running ∧ ((tRun (.deadlock 0) tQuiet).events.map (·.code)) = [evDeadlock] ∧
    (tRun (.deadlock 0) (tField 15 {} tLate)).events = [] ∧
    (((tRun (.signatureCompare ⟨0, []⟩) (tField 25 {} { tEnded with sigDue := [0] })).allot 0).exec.map (·.sigDue)) = some [] := by
  decide +kernel

theorem test_witness_BellAndCrier : tUp.pins.pwrGood = true ∧ tUp.pins.resetN = true ∧ (tUp.parish 0).hears = true ∧
    tUp.planeOpen 0 0 false = true ∧ (tUp.parish 0).throttle = 256 ∧ tUp.allotOf 0 = some 0 ∧ (tUp.allot 0).acted < 1 ∧
    ({ tUp with allots := [] } : State).allotOf 0 = none ∧ (tUp.parish 0).planeB = true ∧
    (({ tUp with allots := [(0, { st := .halted, snap := some [1] })] } : State).allot 0).snap = some [1] ∧
    (tUp.gate .steward (0x38000 + 8 * 4095) false).2 = true ∧ tUp.isRunning (tUp.hubOwner 4095) = false ∧
    tUp.hubWait.get [] 4095 = [] := by
  decide +kernel

theorem test_bell : (tRun (.bellTick false) tUp).bell.count = 1 ∧
    ((tRun (.bellWave 0 ⟨1, false⟩) { tUp with allots := [] }).parish 0).bell = 1 ∧
    (tRun (.bellWave 0 ⟨1, true⟩) tUp).reg (tBlock + 0x3820) = 1 ∧
    ((tRun (.crierPlaneDown 0 false 0 0) tUp).parish 0).planeA = false ∧
    (tRun (.hubTally .steward 4095 7) tUp).hub.get 0 4095 = 7 := by
  decide +kernel

theorem test_calibration_and_snapshot : (tRun (.riserCalibration 0 3 4 5) tUp).bell.calibrated = true ∧
    (tRun (.riserCalibration 0 3 4 5) tUp).reg (tBlock + 0x3818) = 0x40003 ∧
    ((tRun (.watchSnapshotDone 0) { tUp with allots := [(0, { st := .halted, snap := some [1] })] }).memByte 0) = 1 := by
  decide +kernel

theorem test_witness_BellCounterSet : tNext (step { tUp with pending := [.bellTick false] }) = true ∧
    tNext (step { tUp with pending := [.powerEnFall] }) = true := by decide +kernel

/-! ### Clocks -/

theorem test_witness_Clocks : tUp.pins.pwrGood = true ∧ Src.tlane ≠ .mon ∧
    ({ tUp with clk := { primaryPending := true } } : State).clk.ok (primarySrc tUp.boot.cfg) = true ∧ tUp.clk.switching = none ∧
    (tUp.gate .steward 0x20008 true).2 = true ∧ srcOf (bits (2 : DWord) 0 4) = some .tlane ∧
    ({ tUp with clk := { tlaneOk := true } } : State).clk.ok .tlane = true ∧ Src.tlane ≠ tUp.clk.sel ∧
    ({ tUp with clk := { switching := some .tlane } } : State).clk.switching = some .tlane ∧
    (tUp.gate .steward 0x20030 false).2 = true ∧
    bits (0x8000000000000143 : DWord) 8 24 ≠ 0 ∧ bit (0x8000000000000143 : DWord) 63 = true ∧
    bits (0x8000000000000143 : DWord) 0 4 ≤ 4 ∧ bits (0x8000000000000143 : DWord) 4 4 ≤ 4 ∧
    ({ tUp with clk := { meterRunning := true } } : State).clk.meterRunning = true := by decide +kernel

theorem test_clock_switch : let s : State := { tUp with clk := { tlaneOk := true } }
    let t := tRun (.clkSelect .steward 2) s
    t.clk.switching = some .tlane ∧ t.clk.sel = .ref ∧ (tRun .muxSwitchComplete t).clk.sel = .tlane ∧
    (tRun (.muxStuck false) t).clk.sel = .tlane ∧ (tRun (.muxStuck false) t).clk.lastForced = true ∧
    (tRun (.edgeGap .tlane false) t).clk.tlaneOk = false ∧
    (tRun .primarySwitch { tUp with clk := { sel := .tlane, primaryPending := true } }).clk.switching = some .ref := by decide +kernel

theorem test_monitor : let t := tRun (.monitorWindow ⟨some 500, some 501, none, some 0, false⟩) tUp
    t.clk.tlaneOk = true ∧ t.clk.synceOk = false := by decide +kernel

theorem test_meter : let t := tRun (.fmeterStart .steward 0x8000000000000143) tUp
    t.clk.meterRunning = true ∧ (tRun (.fmeterDone 9) t).reg 0x20038 = 0x8000000000000009 := by decide +kernel

/-! ### Wells, device memory, the carter -/

/-- A request of core 0 for 64 bytes, at some stage of its way. -/
def tReq (ch : Chan) (stage : Stage) (addr : Nat) : Req :=
  ⟨tP, ch, 1, ⟨0, 0, 64⟩, addr, stage, 0, if ch = .store then List.replicate 64 7 else [], if ch = .store then List.replicate 64 false else [],
    false, none, 0, 0, 0, false⟩
/-- Tokens of core 0 have reached a tap of its well, in a slot that selects WELL in both directions (R179); the core's own slot
gives its port to the CARTER endpoint in both (R120). -/
def tTap (s : State) : State :=
  ((s.setXroad ⟨0, 4, 5⟩ { arrived := [(0, tP.id)] }).setCore ⟨0, 4, 5⟩ { bankA := { st := .active, data := [(0x1802, 0x1B)] } }).updCore tP
    fun c => { c with bankA := { c.bankA with data := [(0x1801, 0x80), (0x1802, 0x16)] } }
def tWith (r : Req) : State := { tTap (tCore {}) with reqs := [(5, r)], nextReq := 6 }

theorem test_witness_WellChecks : let s := tWith (tReq .load .toWell 0)
    s.reqs.find? 5 = some (tReq .load .toWell 0) ∧ (s.parish 0).railOn = true ∧ (s.parish 0).dark = false ∧ s.wellOf tP ≠ none ∧
    0 < 2 * nearBase ∧ s.viewDpa (2 * 2 ^ 36) = none ∧ s.viewDpa 0 = some 0 ∧ s.allotOf 0 = some 0 ∧ s.inQuota 0 0 64 = true ∧
    s.viewDpa (4 * s.stripe) = some (4 * s.stripe) ∧ s.inQuota 0 (4 * s.stripe) 64 = false ∧ s.noted 0 evWindowFault tP.id = false ∧
    guestBase + 2 ^ 38 ≤ guestBase + 2 ^ 38 := by decide +kernel

def tStage (i : Instr) (r : Req) : Option (Stage × BitVec 4) := ((tRun i (tWith r)).reqs.find? 5).map fun q => (q.stage, q.status)

theorem test_well : tStage (.read ⟨5, []⟩) (tReq .load .toWell 0) = some (.atMem, 0) ∧
    tStage (.write ⟨5, []⟩) (tReq .store .toWell (2 * 2 ^ 36)) = some (.toCarter, 1) ∧
    tStage (.read ⟨5, []⟩) (tReq .load .toWell (4 * 2 ^ 25)) = some (.toCarter, 2) := by decide +kernel

theorem test_witness_MemoryController : let s := tWith (tReq .load .atMem 0)
    s.reqs.find? 5 = some (tReq .load .atMem 0) ∧ s.viewDpa 0 = some 0 ∧ s.stackUp (s.memKey 0 / 2 ^ 36) = true ∧
    ({ s with mcs := [] } : State).stackUp (s.memKey 0 / 2 ^ 36) = false ∧ s.hubToWell tP (stackSector 0) = true ∧
    ({ s with boot := { s.boot with sectors := 0xFFDE, escapeLoaded := false } } : State).hubToWell tP 4 = false ∧ s.memWf = true ∧ (1 : Nat) ≠ 0 := by decide +kernel

theorem test_memory : let t := tRun (.memoryAccess 5 ⟨100, 0⟩) (tWith (tReq .store .atMem 0))
    t.memByte 63 = 7 ∧ t.memByte 64 = 0 ∧ (t.reqs.find? 5).map (·.stage) = some .toCarter ∧ t.memWf = true ∧
    ((tRun (.memoryAccess 5 ⟨100, 0⟩) { t with reqs := [(5, tReq .load .atMem 0)] }).reqs.find? 5).map (·.data) =
      some (List.replicate 64 7) := by decide +kernel

def tDirect (ch : Chan) (stage : Stage) (off : Nat) : Req :=
  { tReq ch stage (directBase + 2 ^ 17 * tP.id + off) with target := some tP }

theorem test_witness_FieldSram_well : let r := tDirect .load .toWell 0
    (tWith r).reqs.find? 5 = some r ∧ directBase ≤ r.addr ∧ r.addr < directBase + 2 ^ 37 ∧
    posOfId ((r.addr - directBase) / 2 ^ 17) = some tP ∧ (tWith r).allotOf 0 = some 0 ∧ (tWith r).fallow 0 0 = false ∧
    (tWith r).alive tP = true ∧ (tWith r).wellOf tP ≠ none ∧ (tWith r).portOpen tP true = true := by decide +kernel

theorem test_witness_FieldSram_field : let r := tDirect .load .atField 0x17FC0
    (tWith r).reqs.find? 5 = some r ∧ r.target = some tP ∧ r.inSram = true ∧ (tWith r).portOpen tP false = true ∧
    (tWith r).hubToWell tP ((tWith r).sectorOf tP) = true ∧
    0x18000 < ((tDirect .load .atField 0x17FC1).addr - directBase) % 2 ^ 17 + 64 ∧
    ((tWith r).core tP).ue = [] ∧ ((tWith r).core tP).ce = [] ∧ (tWith r).setCore tP ((tWith r).core tP) = tWith r ∧
    (tDirect .load .fieldResp 0).stage = .fieldResp ∧
    ((tWith (tDirect .load .fieldResp 0)).updCore tP fun c => { c with answers := [5] }).mayAnswer 5 tP = true := by decide +kernel

/-- The stage of an answer of core 0 after a command, the answers that wait to leave it given. -/
def tLeaves (i : Instr) (r : Req) (l : List Nat) : Option Stage :=
  ((tRun i ((tWith r).updCore tP fun c => { c with answers := l })).reqs.find? 5).map (·.stage)

theorem test_sram : let t := tRun (.sramWrite tP false ⟨5, []⟩) (tWith (tDirect .store .atField 0x17FC0))
    (t.core tP).byte 0x17FFF = 7 ∧ (t.core tP).byte 0x17FBF = 0 ∧
    ((tRun (.sramRead 5) (tWith (tDirect .load .atField 0x17FC0))).reqs.find? 5).map (·.data) = some (List.replicate 64 0) ∧
    tStage (.sramRead 5) (tDirect .load .atField 0x17FC1) = some (.fieldResp, 1) ∧
    tLeaves (.sramReadResp 5) (tDirect .load .fieldResp 0) [5] = some .toCarter ∧
    tLeaves (.sramReadResp 5) (tDirect .load .fieldResp 0) [] = some .fieldResp ∧
    tLeaves (.sramWriteAck 5) (tDirect .store .fieldResp 0) [5] = some .toCarter := by decide +kernel

/-- The field waits for the blocks of run 0, whose section has no record: every byte of its bank is 0 but those of the core's
own. -/
def tFill : State := tField 9 { mode := .noBank } { lsn := 1, start := 0, fills := [(⟨0, 1⟩, 2)] }

theorem test_witness_FieldSram_loader : tFill.allotOf 0 = some 0 ∧ (tFill.allot 0).prog = some tProg ∧
    (∀ e, (tFill.allot 0).exec = some e → e.fills[(tFill.core tP).nextFill]? = some (⟨0, 1⟩, 2)) ∧
    (tFill.allot 0).exec.isSome = true ∧
    tProg.sectOf ⟨0, 1⟩ = some tSect ∧ tFill.alive tP = true ∧ tFill.paired tP = true ∧ (tFill.core tP).shadow.st = .empty ∧
    tFill.portOpen tP false = true ∧ bit (tFill.core tP).shadow.got 106 = false ∧ tFill.recordOf tProg ⟨0, 1⟩ tP = none := by decide +kernel

/-- Block 106 holds the entry block: the colour of the run, and no SECSEQ where no record covers the position (R148, R155). -/
theorem test_loader : let t := tRun (.sramWrite tP true ⟨106, []⟩) tFill
    (t.core tP).shadow.byte 0x1AA2 = 2 ∧ (t.core tP).shadow.byte 0x1AA8 = 0 ∧ bit (t.core tP).shadow.got 106 = true ∧
    (t.core tP).shadow.st = .filling := by decide +kernel

theorem test_witness_MemoryUpkeep : tUp.slotOf 1 = some 1 ∧ tUp.stackUp 1 = true ∧ bit (tUp.reg (mcBase 1 + 0x40)) 0 = true ∧
    (tUp.mc 1).online = true ∧ (1 : Nat) / 8 = (0 : Fin 8).val ∧ (tUp.mcs.find? 0).isSome = true ∧
    ({ tUp with mcs := [(0, { online := true, hot := true })] } : State).stackUp 0 = true := by decide +kernel

theorem test_upkeep : ((tRun (.refreshWindow 0 false) { tUp with mcs := [(0, { online := true, acts := [(3, 40)] })] }).mc 0).acts = [(3, 8)] ∧
    ((tRun (.scrubRead 1) tUp).mc 1).scrubPos = 1 ∧ (tRun (.stackOffline 1 2) tUp).stackUp 1 = false ∧
    ((tRun .ceHourlyRoll { tUp with mcs := [(0, { online := true, rows := [(3, [2], false), (4, List.replicate 23 0 ++ [1], false)] })] }).mc 0).rows.length
      = 1 := by decide +kernel

def tDesc : Desc := ⟨0, 0, 0, 0, 1, 1, 1, 64, 0x80, 0, 0, 1, 0, false, 0, 0, 1, true, 0x100⟩
def tRunDesc : DescRun := { d := tDesc, serial := 1 }

theorem test_witness_CarterChannel : let s (x : Channel) := tTap (tCore { load := x })
    (∀ y : FmtD, ((s {}).core tP).wait ≠ .carterFull .load y) ∧
    (s {}).carterRuns tP = true ∧ ({} : Channel).issuing = true ∧ ({ waiting := [tDesc] } : Channel).waiting = tDesc :: [] ∧
    (∀ r ∈ ({ waiting := [tDesc] } : Channel).running, r.issued = true) ∧
    ({ running := [tRunDesc] } : Channel).nextPiece = some (tRunDesc, ⟨0, 0, 64⟩, false) ∧ tDesc.outside 0 = false ∧
    0 < ({} : Channel).credits ∧ (s {}).mayEnter tP .load = true ∧
    ({ running := [{ tRunDesc with next := 1 }] } : Channel).mayComplete { tRunDesc with next := 1 } = true ∧
    tDesc.tbind = false :=
  ⟨fun _ h => (nomatch (show Wait.none = _ from h)), by decide +kernel⟩

/-- A load whose one piece is on its way, its answer at the carter. -/
def tFlight (status : BitVec 4) : State :=
  let s := tTap (tCore { load := { running := [{ tRunDesc with next := 1, outstanding := [⟨0, 0, 64⟩] }], serial := 2, credits := 7 } })
  { s with reqs := [(5, { tReq .load .toCarter 0 with status := status, data := List.replicate 64 7, poison := List.replicate 64 false })] }

theorem test_witness_CarterChannel_answers : (tFlight 3).portOpen tP false = true ∧ (tFlight 3).reqs.find? 5 ≠ none ∧ (3 : BitVec 4) ≠ 0 ∧ (3 : BitVec 4) ≠ 4 ∧
    (((tFlight 3).core tP).chan .load).halted = false ∧ (((tFlight 3).core tP).chan .load).failed = [] ∧
    (∀ d ∈ (((tFlight 3).core tP).chan .load).running,
      (if d.serial = 1 then d.outstanding.erase ⟨0, 0, 64⟩ else d.outstanding) = []) ∧
    (({ tFlight 3 with allots := [(0, { st := .halted, parishes := 1 })] } : State).allot 0).st = .halted ∧
    (tFlight 3).outstandingOf tP .load ≠ [] := by decide +kernel

theorem test_carter : let t := tRun (.carterRequest tP .load) (tRun (.descriptorStart tP .load) (tTap (tCore { load := { waiting := [tDesc] } })))
    (t.core tP).load.credits = 7 ∧ (t.reqs.map fun e => (e.2.stage, e.2.addr, e.2.piece)) = [(.toWell, 0, ⟨0, 0, 64⟩)] := by
  decide +kernel

theorem test_carter_answers : let t := tRun (.readResp 5) (tFlight 0)
    let u := tRun (.descriptorComplete tP .load) t
    (t.core tP).load.credits = 8 ∧ (u.core tP).byte 0x80 = 7 ∧ (u.core tP).load.running = [] ∧
    leNat ((u.core tP).bytes 0x100 8) = 64 * 2 ^ 32 ∧
    ((tRun (.readResp 5) (tFlight 3)).core tP).load.halted = true ∧
    (tRun (.dmaDrainTimeout tP) { tFlight 3 with allots := [(0, { st := .halted, parishes := 1 })] }).reqs = [] := by decide +kernel

theorem test_store_answer : let s := tTap (tCore { store := { running := [{ tRunDesc with next := 1, outstanding := [⟨0, 0, 64⟩] }], credits := 7 } })
    ((tRun (.writeAck 5) { s with reqs := [(5, { tReq .store .toCarter 0 with data := [], poison := [] })] }).core tP).store.credits = 8 := by
  decide +kernel

/-! ### Links, ports, the schedule domain, the fabric -/

theorem test_witness_LinkLayer : let x := tUp.port 0
    x.carries = true ∧ (x.group 0).ok = true ∧ ((([(0, 8), (1, 7)] : List (Fin 8 × Nat)).map (·.2)).sum ≤ 15) ∧
    15 < (([(0, 16)] : List (Fin 8 × Nat)).map (·.2)).sum ∧ (1 : BitVec 10) ≠ (x.group 0).recvSeq ∧ (x.group 0).discarding = false ∧
    x.ctrl = [] ∧ x.queued = [] ∧ x.st ≠ .draining ∧ x.g0.held.length < 1024 ∧ x.g1.held.length < 1024 ∧ tUp.fabWait = [] ∧
    (([tUp.tick]).filter fun t => decide (tUp.ticksNs (tUp.tick - t) < 1000000)).length ≤ bits (tUp.reg (portBase 0 + 0x60)) 0 16 ∧
    bits (({ tUp with regs := [(portBase 0 + 0x60, 0)] } : State).reg (portBase 0 + 0x60)) 0 16 < 1 := by decide +kernel

def tPkt (typ : Nat) : FabPkt := ⟨mkHdr typ false 0 0 0 0 3 0 0 0 0 0 0 0 9 0, []⟩
def tHeld : State :=
  tUp.updPort 0 fun x => { x with g0 := { x.g0 with held := [⟨1, 0, [.packet (tPkt 2)], 1⟩, ⟨2, 0, [.packet (tPkt 1)], 1⟩, ⟨3, 0, [], 0⟩] } }

theorem test_witness_LinkLayer_held : ((tHeld.port 0).group 0).held.any (fun h => h.lseq = (2 : BitVec 10)) = true ∧
    (tHeld.port 0).queued = [] ∧ (tHeld.port 0).ctrl = [] ∧
    ((tUp.updPort 0 fun x => x.setGroup 0 { x.g0 with discarding := true }).port 0 |>.group 0).discarding = true := by decide +kernel

theorem test_links : ((tRun (.codeword 0 0 0 [(0, 8), (1, 7)] 0 10) tUp).port 0).g0.recvSeq = 1 ∧
    (tRun (.codeword 0 0 0 [(0, 16)] 0 10) tUp).out = [.link 0 2 [0, 0]] ∧
    (tRun (.codeword 0 0 0 [(0, 16)] 0 10) (tRun (.codeword 0 0 0 [(3, 16)] 0 10) tUp)).out = [.link 0 2 [0, 0], .link 0 2 [0, 0]] ∧
    ((tRun (.ack 0 0 2) tHeld).port 0).g0.held = [⟨3, 0, [], 0⟩] ∧
    (tRun (.nak 0 0 2) tHeld).out = [.packet 0 (tPkt 1)] ∧
    ((tRun (.credit 0 24 3) tUp).port 0).credit 24 = 3 + (tUp.port 0).credit 24 ∧
    (tRun (.ackIntervalExpiry 0 0) tUp).out = [.link 0 1 [0, 1023]] := by decide +kernel

/-- A packet of TC0 and one of TC3, of two flits each: after its first flit TC0 gives way for 15 (R294). -/
def tMixed : State := tUp.updPort 0 fun x =>
  { x with credits := [(0, 9), (18, 9)], queued := [(0, tPkt 1, 2), (18, tPkt 2, 2)] }

theorem test_arbitration : (tMixed.pump 0).out = [.packet 0 (tPkt 1), .packet 0 (tPkt 2)] ∧
    ((tMixed.pump 0).port 0).sentClasses = [0, 3, 3, 0] := by decide +kernel

theorem test_groups : ((tRun (.groupLost 0 1 4) tUp).port 0).st = .degraded ∧
    ((tRun (.groupLost 0 0 4) (tRun (.groupLost 0 1 4) tUp)).port 0).st = .down ∧
    ((tRun (.gfail 0 1 0) tUp).port 0).g1.ok = false := by decide +kernel

def tObs : TrainObs := ⟨[], [16], true, true, 0, 7, 9, 5, true, 6⟩
def tPort (x : Port) : State := tUp.setPort 0 x
def tLone : State := tPort { st := .degraded, g0 := { ok := true } }

theorem test_witness_PortStates : tUp.portThere 0 = true ∧ ({} : Port).en = true ∧ ({} : Port).st = .disabled ∧
    ((tPort { st := .down }).port 0).st = .down ∧ ((tPort { st := .training }).port 0).st = .training ∧ tObs.peerVerux1 = true ∧
    tObs.peerFeid.toNat ≠ tUp.feid ∧ trainGroup (tUp.fuseLanes 0 tObs) 0 = true ∧
    trainGroup (tUp.fuseLanes 0 { tObs with group0 := false, group1 := false }) 0 = false ∧
    trainGroup (tUp.fuseLanes 0 { tObs with group0 := false, group1 := false }) 1 = false ∧ tObs.rxBad.dedup.length ≤ 1 ∧
    tUp.gate .steward (portBase 0 + 8) true = (tUp, true) ∧ bit (1 : DWord) 0 = true ∧ bit (0 : DWord) 0 = false ∧
    ((tPort { st := .draining }).port 0).st = .draining ∧ (tUp.port 0).st = .up ∧ (tUp.port 0).carries = true ∧
    ((tUp.port 0).group 1).ok = true ∧ (tLone.port 0).carries = true ∧ ((tLone.port 0).group 0).ok = true ∧
    ((tLone.port 0).group 1).ok = false := by decide +kernel

theorem test_ports : (tRun (.portTraining 0) (tPort {})).out = [.link 0 5 [0, 0, 1, 0]] ∧
    ((tRun (.retrainTimer 0) (tPort { st := .down })).port 0).attempts = 1 ∧
    ((tRun (.trainingComplete 0 tObs) (tPort { st := .training })).port 0).st = .up ∧
    ((tRun (.trainingComplete 0 { tObs with txBad := [1, 9] }) (tPort { st := .training })).port 0).st = .down ∧
    ((tRun (.trainingComplete 0 { tObs with txBad := [1] }) (tPort { st := .training })).port 0).spareLane = 1 ∧
    ((tRun (.train 0 tObs) (tPort { st := .training })).port 0).peer = some (9, 5) ∧
    ((tRun (.portDrainTimeout 0) (tPort { st := .draining })).port 0).st = .disabled ∧
    ((tRun (.portCtl .steward 0 1) (tPort { en := false })).port 0).st = .training := by decide +kernel

/-- A member of a domain of two levels under port 0, with a child on port 1. -/
def tDomain (b : Bell) : State :=
  { tUp with boot := { tUp.boot with cfg := { domain := true, domainId := 6, level := 1, levels := 2, childMask := 2 } }, bell := b }

theorem test_witness_ScheduleDomain : (tDomain {}).up = true ∧ (tDomain {}).boot.cfg.domain = true ∧
    (tDomain {}).boot.cfg.root = false ∧
    (tDomain { member := true }).bell.member = true ∧ (tDomain {}).admission (6, 160, true, 0) 6 0 = none ∧
    (tDomain {}).admission (6, 160, true, 0) 6 1 ≠ none ∧
    (tDomain { parentDomain := some (6, 160, true, 0) }).bell.parentDomain = some (6, 160, true, 0) ∧
    (tDomain { member := true }).bell.errRaised = false ∧ 0 < (tDomain { member := true, count := 10 }).bell.markersDue ∧
    (tDomain { member := true }).children = [1] := by decide +kernel

/-- A stretch request for tick 100, and a DOMAIN message of the parent. -/
def tStretch : FabPkt := ⟨mkHdr 7 false 0 0 0 0 3 0 0 0 0 0 0 0 0 (2 ^ 16 * 5 + 2 ^ 64 * 100), []⟩
def tDomMsg : FabPkt := ⟨mkHdr 10 false 0 0 0 0 3 0 0 0 0 0 0 0 0 (6 + 2 ^ 16 * 160 + 2 ^ 56), []⟩

theorem test_witness_ScheduleDomain_packets : pMalformed tStretch = false ∧ pType tStretch = 7 ∧ (stretchReqOf tStretch).td = 100 ∧
    (tDomain { member := true }).crierOpen (portSector 0) 0 = true ∧
    (tDomain { member := true }).tick ≤ (stretchReqOf tStretch).td ∧
    (tDomain { member := true }).bell.requests.contains (stretchReqOf tStretch) = false ∧ pMalformed tDomMsg = false ∧
    pType tDomMsg = 10 ∧ (0 : Fin 64).val = (tDomain {}).boot.cfg.parentPort := by decide +kernel

theorem test_domain : (tRun (.marker 77 160 6 0 false 0 5) (tDomain { parentDomain := some (6, 160, true, 0) })).bell.count = 77 ∧
    (tRun (.marker 77 160 6 1 false 0 5) (tDomain { parentDomain := some (6, 160, true, 0) })).bell.member = false ∧
    (tRun (.marker 77 160 6 0 true 0 5) (tDomain { member := true })).bell.outOfStep = true ∧
    (tDomain { member := true, count := 3 }).phaseErr 2 150 5 = BitVec.ofNat 32 (10 * 6400 + 160 * 6400 - 160 * 6400 + 5) ∧
    (tRun .markerSend (tDomain { member := true, count := 10 })).out = [.link 1 4 [10, 0, 6, 1, 0]] ∧
    (tRun .markerLost (tDomain { member := true })).bell.outOfStep = true ∧
    (tRun (.stretch 0 tStretch) (tDomain { member := true })).bell.requests.length = 1 ∧
    (tRun (.domain 0 tDomMsg) (tDomain {})).bell.parentDomain = some (6, 160, true, 0) := by decide +kernel

/-- This module is entry 0 of the route table. -/
def tFab : State := { tUp with routes := [(0, BitVec.ofNat 128 (2 ^ 71 + 2 ^ 72))] }
/-- A WRITE of 32 bytes to DPA 32. -/
def tWrite : FabPkt := ⟨mkHdr 1 false 0 0 1 0 3 0 0 0 32 32 0 0 9 0, [0x0807060504030201]⟩
def tReadPkt : FabPkt := ⟨mkHdr 2 false 0 0 0 0 3 0 0 0 32 0 0 0 9 0, []⟩

theorem test_witness_FabricTarget : (tFab.port 0).carries = true ∧ pMalformed tWrite = false ∧ pMalformed tReadPkt = false ∧
    pHops tWrite = 63 ∧ tFab.routeOf (pHop tWrite) = .here ∧ pType tWrite = 1 ∧
    tFab.judgeFabric (pTag tWrite) (pAddr tWrite) (min (pBytes tWrite) (readSpan (pAddr tWrite))) = (0, 32) ∧ pType tReadPkt = 2 ∧
    tFab.routeOf (pHop tReadPkt) = .here ∧ tFab.judgeFabric (pTag tReadPkt) (pAddr tReadPkt) (readSpan (pAddr tReadPkt)) = (0, 32) ∧
    pHops { tReadPkt with hdr := setBits tReadPkt.hdr 16 6 0 } = 0 ∧ tFab.fabLocal.contains tReadPkt = false ∧
    pMalformed { tReadPkt with hdr := setBits tReadPkt.hdr 16 6 0 } = false := by decide +kernel

theorem test_fabric_target : let t := tRun (.fabricWrite 0 ⟨tWrite, 9⟩) tFab
    t.memByte 32 = 1 ∧ t.memByte 39 = 8 ∧ t.memByte 64 = 0 ∧ t.memByte 31 = 0 ∧
    tNext (exec (.fabricRead 0 ⟨tReadPkt, 9⟩) t) = true ∧
    (t.serveRead tReadPkt 7 0xFFFFFFFF).2.data = [0x0807060504030201] := by decide +kernel

/-- The module's own READ of 64 bytes waits for its answer under RTAG 5. -/
def tAsk (ch : Chan) : State := { tFab with reqs := [(5, tReq ch .atFabric 0)] }
def tAnswer (typ status : Nat) (data : List (BitVec 512)) : FabPkt := ⟨mkHdr typ true 0 0 data.length 0 3 0 0 status 0 64 0 0 5 0, data⟩

def tNotice (typ : Nat) : FabPkt := ⟨mkHdr 8 true 0 0 0 0 3 0 0 0 0 0 0 0 5 (256 * typ), []⟩

theorem test_witness_FabricAnswers : pMalformed (tAnswer 3 0 [7]) = false ∧ pHops (tAnswer 3 0 [7]) ≠ 0 ∧
    (tAsk .load).routeOf (pHop (tAnswer 3 0 [7])) = .here ∧
    (tAsk .load).waiting (pRtag (tAnswer 3 0 [7])) = some (5, tReq .load .atFabric 0) ∧
    pType (tAnswer 3 0 [7]) = 3 ∧ pStatus (tAnswer 3 0 [7]) = 0 ∧
    pMalformed ⟨mkHdr 4 true 0 0 0 0 3 0 0 2 0 0 0 0 5 0, []⟩ = false ∧
    pMalformed (tNotice 2) = false ∧ pType (tNotice 2) = 8 ∧ (tAsk .store).waiting 5 = some (5, tReq .store .atFabric 0) ∧
    1 ≤ pBody (tNotice 1) 33 1 ∧ pBody (tNotice 4) 33 1 ≤ 4 ∧
    (tAsk .load).reqs.find? 5 = some (tReq .load .atFabric 0) := by decide +kernel

theorem test_fabric_answers : let got (t : State) : Option (Stage × BitVec 4 × Nat) := (t.reqs.find? 5).map fun r => (r.stage, r.status, r.data.length)
    got (tRun (.fabricReadResp 0 (tAnswer 3 0 [7])) (tAsk .load)) = some (.toCarter, 0, 64) ∧
    got (tRun (.fabricWriteAck 0 ⟨mkHdr 4 true 0 0 0 0 3 0 0 2 0 0 0 0 5 0, []⟩) (tAsk .store)) = some (.toCarter, 2, 0) ∧
    got (tRun (.notice 0 (tNotice 2)) (tAsk .load)) = some (.toCarter, 4, 0) ∧
    got (tRun (.transferTimeout 5) (tAsk .load)) = some (.toCarter, 4, 0) := by decide +kernel

/-- An increment of hub tally 3 by 7. -/
def tIncPkt : FabPkt := ⟨mkHdr 6 false 0 0 0 0 3 0 0 0 0 0 0 0 0 (3 + 2 ^ 16 * 7), []⟩
/-- The staging registers name entry 9 of the route table and an entry over port 1. -/
def tRoute : State := { tFab with regs := [(0x900000, 9), (0x900008, 2), (0x900010, 256)] }

theorem test_witness_FabricTables : tFab.allotOfTag (pTag tIncPkt) = some 0 ∧ tFab.hubOwner (pBody tIncPkt 32 2 % 4096) = some 0 ∧
    tFab.waitersAt { lvl := 2, core := tP, idx := 3 } = [] ∧
    ({ tFab with fabLocal := [tIncPkt] } : State).fabLocal.contains tIncPkt = true ∧
    (tFab.port 0).carries = true ∧ pMalformed tIncPkt = false ∧ pType tIncPkt = 6 ∧ pHops tIncPkt ≠ 0 ∧
    tFab.routeOf (pHop tIncPkt) = .here ∧ tRoute.gate .steward 0x900018 true = (tRoute, true) ∧
    tRoute.routeIsBusy = false ∧ ({ tRoute with routeBusy := some 0 } : State).routeIsBusy = true ∧
    tFab.crierOpen (portSector 0) 0 = true ∧
    tRoute.badRoute (BitVec.ofNat 128 (2 + 2 ^ 64 * 256)) = false ∧ tRoute.badRoute (BitVec.ofNat 128 (2 + 2 ^ 71)) = true := by
  decide +kernel

theorem test_fabric_tables : (tRun (.tallyInc (some 0) tIncPkt) tFab).hub.get 0 3 = 7 ∧
    (tRun (.tallyInc none tIncPkt) { tFab with fabLocal := [tIncPkt] }).hub.get 0 3 = 7 ∧
    bit ((tRun (.routeCmdWrite .steward) tRoute).route 9) 1 = true ∧
    (tRun (.routeCmdRead .steward) { tRoute with routes := [(9, 5)] }).reg 0x900008 = 5 ∧
    bit ((tRun (.routeCmdRead .steward) (tRun (.routeCmdWrite .steward) tRoute)).reg 0x900020) 2 = true := by decide +kernel

/-- Reduction entry 2 takes port 0 and LOCAL: FP32, two SEQs, to port 1 with the sum. -/
def tRed (x : Red) : State :=
  { tFab with reds := [(2, { x with words := BitVec.ofNat 512 (1 + 2 ^ 10 + 2 ^ 11 + 2 ^ 64 * 3 + 2 ^ 128 + 2 ^ 136 + 2 ^ 256 * 4096) })] }
def tReduce : FabPkt := ⟨mkHdr 5 false 2 0 32 0 3 0 0 0 0 2048 0 0 0 0, List.replicate 32 7⟩

theorem test_witness_ReductionTable : let x := (tRed {}).red 2
    pMalformed tReduce = false ∧ pType tReduce = 5 ∧ (tRed {}).allotOfTag (pTag tReduce) = some 0 ∧
    (tRed {}).redOf 0 tReduce = some 2 ∧
    x.accepts 0 tReduce = true ∧ (1 : Nat) ∈ x.ports ∧ x.hasPort 1 x.seq = false ∧ x.hasPort 1 (x.seq + 1) = false ∧
    ((tRed { started := true, ins := [(0, { next := 2 })], filled := [(0, 0)] }).red 2).accepts 0 tReduce = false ∧ x.valid = true ∧
    (tRed { started := true, ins := [(0, { next := 2 })], filled := [(0, 0)] }).redOf 0 tReduce = some 2 ∧ x.localIn = true ∧
    x.started = false ∧ x.trigEn = false ∧ x.hasPort 0 x.seq = false ∧ x.seq + 1 < x.seqs ∧
    ((tRed { started := true }).red 2).partial' = true ∧ x.stalls = 0 ∧ ((tRed { started := true, stalls := 1 }).red 2).stalls ≠ 0 ∧
    (tRed {}).redOf 5 tReduce = none ∧ ((tRed {}).port 5).carries = false ∧
    ({ tRed {} with allots := [] } : State).allotOfTag (pTag tReduce) = none := by decide +kernel

theorem test_witness_ReductionTable_queues (p : Nat) : ((tRed {}).port p).redQ = [] := by
  simp only [tRed, tFab, tUp, State.port, Tab.get, Tab.find?]
  repeat' split
  all_goals rfl

theorem test_reductions : let x := (tRun (.reduce 0 ⟨tReduce, []⟩) (tRed {})).red 2
    (x.input 0).next = 1 ∧ x.hasPort 0 0 = true ∧ ((tRun (.reductionTrigger ⟨2, []⟩) (tRed {})).red 2).started = true ∧
    ((tRun (.reductionStall 2) (tRed { started := true })).red 2).stalls = 1 ∧
    ((tRun (.reductionPoisonFill ⟨2, []⟩) (tRed { started := true, stalls := 1 })).red 2).seq = 1 := by decide +kernel

theorem test_reduction_drops : ((tRun (.noEntryTimeout ⟨1, []⟩) (tUp.updPort 1 fun x => { x with redQ := [tReduce] })).port 1).redQ = [] ∧
    (tRun (.reduceOutPortTimeout 5) (tPort {})).events = [] := by decide +kernel

/-! ### Sessions, commands, host memory, host ports -/

/-- A message of `n` bytes with fields at offsets: offset, bytes, value. -/
def tBytes (n : Nat) (l : List (Nat × Nat × Nat)) : List Byte :=
  l.foldl (fun m e => m.take e.1 ++ leBytes e.2.1 e.2.2 ++ m.drop (e.1 + e.2.1)) (List.replicate n 0)

/-- OPEN of a compute session: Verux 1, eight credits, rings of 64 (R347). -/
def tOpen : List Byte := tBytes 128 [(1, 1, 1), (6, 2, 128), (32, 2, 1), (50, 2, 8), (76, 1, 6), (92, 1, 6)]
/-- CLOSE on session 1 with a SEQ. -/
def tClose (seq : Nat) : List Byte := tBytes 40 [(0, 1, 1), (1, 1, 2), (2, 2, 1), (6, 2, 40), (8, 4, seq), (12, 1, 255)]
/-- The session of that module. -/
def tSes : Session := { qp := 2, mgmt := true, grant := 8, regsKey := 7, devall := 9 }
/-- A frame of no VLAN, whole and not marked. -/
def tF : Frame := ⟨none, false, false, 64⟩

theorem test_witness_takes : ({} : Qp).takes tF ∧
    ({ ses := some 1, rate := 100 } : Qp).takes tF := ⟨⟨rfl, by decide, rfl, rfl⟩, ⟨rfl, by decide, rfl, rfl⟩⟩

def tQp (q : Qp) : State := { tUp with qps := [(2, { ses := some 1, rate := 100 }), (3, q)] }

theorem test_witness_SessionMessages : (tQp { opening := some tOpen }).qps.find? 3 = some { opening := some tOpen } ∧
    (tQp {}).openFault {} tOpen = none ∧ (leAt tOpen 49 1).testBit 0 = false ∧
    (tQp {}).openFault {} (tBytes 128 [(1, 1, 1), (6, 2, 128)]) = some dNoCommonVersion ∧ (tQp {}).hpUp 0 = true ∧
    openOk tOpen = true ∧ openOk (tClose 1) = false ∧ (tQp {}).qps.find? 2 = some { ses := some 1, rate := 100 } ∧
    ({ tF with vlan := some 5 } : Frame).vlan ≠ ({} : Qp).vlan ∧ 9216 < ({ tF with bytes := 9217 } : Frame).bytes ∧ leAt (tClose 1) 8 4 = 1 ∧ leAt (tClose 3) 8 4 = 3 ∧
    (tQp {}).ses.find? 1 = some tSes ∧ tSes.firstBad 1 (tClose 1) = none ∧ leAt (tClose 1) 4 2 = tSes.epoch.toNat ∧
    tSes.nextSeq = 1 ∧ tSes.held < tSes.grant := by decide +kernel

theorem test_sessions : let t := tRun (.openSession 3) (tQp { opening := some tOpen })
    (t.qps.find? 3).bind (·.ses) = some 0 ∧ (t.ses.find? 0).map (fun x => (x.grant, x.mgmt, x.qp)) = some (8, false, 3) ∧
    (tRun (.send ⟨3, tF⟩ tOpen) (tQp {})).qps.find? 3 = some { opening := some tOpen } ∧
    (tRun (.send ⟨3, tF⟩ (tClose 1)) (tQp {})).qps.find? 3 = none ∧
    (tRun (.send ⟨3, { tF with vlan := some 5 }⟩ tOpen) (tQp {})).qps.find? 3 = some {} ∧
    (tRun (.send ⟨3, { tF with ce := true }⟩ tOpen) (tQp {})).out = [.cnp 3] := by decide +kernel

theorem test_sequence : (tRun (.send ⟨2, tF⟩ (tClose 1)) tUp).ledger.nextLsn = 2 ∧
    ((tRun (.send ⟨2, tF⟩ (tClose 1)) tUp).ses.find? 1).map (·.nextSeq) = some 2 ∧ (tRun (.send ⟨2, tF⟩ (tClose 3)) tUp).ledger = {} := by
  decide +kernel

/-- Session 1 has accepted one command of LSN 1, immediate. -/
def tEntry (op allot : Byte) (body : List Byte) : LEntry := { opcode := op, st := 1, allot := allot, ses := 1, lsn := 1, body := body }
def tImm (op allot : Byte) (body : List Byte) : State :=
  { tUp with ses := [(1, { qp := 2, mgmt := true, grant := 8, held := 1, imm := [1] })]
             ledger := { entries := [(1, tEntry op allot body)], nextLsn := 2, alloc := 1 } }

theorem test_witness_executes (op allot : Byte) (body : List Byte)
    (h : (op, allot, body) ∈ [(2, 255, tBytes 40 []), (3, 255, []), (7, 0, []), (8, 255, []), (9, 255, []), (10, 255, []), (11, 0, []),
      (15, 255, []), (16, 255, [])]) :
    (tImm op allot body).executes 1 op.toNat 1 { qp := 2, mgmt := true, grant := 8, held := 1, imm := [1] } (tEntry op allot body) := by
  repeat' obtain _ | ⟨_, h⟩ := h
  all_goals exact ⟨by decide +kernel, by decide +kernel, by decide +kernel, by decide +kernel, by decide +kernel⟩

/-- ALLOT of parish 1, stripes 4 to 7, hub tallies 16 to 31, tag 1 (R350). -/
def tAllot : List Byte := tBytes 128 [(1, 1, 3), (12, 1, 255), (32, 1, 2), (48, 1, 1), (49, 1, 1), (52, 2, 4), (54, 2, 4), (56, 2, 16), (58, 2, 16)]
/-- RESETs of an image: the STATUS command with room for the digest; SET_OP to 3; ROUTE_AMEND of entry 9 over port 1. -/
def tStatus : List Byte := tBytes 48 [(1, 1, 8), (44, 4, 576)]
def tSetOp : List Byte := tBytes 40 [(1, 1, 11), (32, 1, 3)]
def tAmend (kind : Nat) : List Byte := tBytes 128 [(1, 1, 15), (12, 1, 255), (32, 1, kind), (36, 4, 9), (48, 1, 2)]

def tAllotState : State := { tImm 3 255 tAllot with parishes := [(0, { railOn := true }), (1, { railOn := true })] }

theorem test_witness_ImmediateCommands : (tImm 2 255 (tClose 1)).ownedBy 1 = [0] ∧
    ({ tImm 2 255 [] with allots := [] } : State).ownedBy 1 = [] ∧
    leAt (tClose 1) 32 1 % 2 = 0 ∧ tAllotState.allotWaits 1 (leAt tAllot 32 16) = false ∧
    tAllotState.allotCheck tAllot none = .ok 1 ∧ (tImm 3 255 tAllot).allotCheck tAllot none = .error dParishSet ∧
    (tImm 7 0 []).ownerFault { mgmt := true } 1 7 0 = none ∧ ((tImm 7 0 []).allot 0).halts.contains 1 = false ∧
    ((tImm 7 0 []).allot 0).quiescing = false ∧ 576 ≤ leAt tStatus 44 4 ∧
    (tImm 15 255 (tAmend 0)).badRoute (BitVec.ofNat 128 (leAt (tAmend 0) 48 16)) = false ∧ leAt (tAmend 0) 32 1 = 0 ∧
    (tImm 16 255 []).stagingBefore 1 = false ∧ (tImm 16 255 []).boot.pldmUpdate = false ∧
    ({ tUp with allots := [] } : State).ownedBy 1 = [] ∧ ({} : Session).heldRecs.length < min ({} : Ring).free 65536 ∧
    ({ qp := 0, st := .detached } : Session).attached = false ∧ ({} : Session).ending = false := by decide +kernel

def tDone (s : State) : Option (BitVec 2 × Byte × Half) := (s.entryOf 1).map fun e => (e.2.st, e.2.status, e.2.detail)

theorem test_immediate : tDone (tRun (.close 1) (tImm 2 255 (tClose 1))) = some (2, 1, 0x37) ∧
    tDone (tRun (.allot 1 none) tAllotState) = some (2, 0, 0) ∧ (((tRun (.allot 1 none) tAllotState).allot 1).st) = .idle ∧
    ((tRun (.halt 1) (tImm 7 0 [])).allot 0).halts = [1] ∧
    tDone (tRun (.status 1) (tImm 8 255 tStatus)) = some (2, 0, 0) := by decide +kernel

theorem test_immediate_more : tDone (tRun (.setOp 1) (tImm 11 0 tSetOp)) = some (2, 0, 0) ∧
    ((tRun (.setOp 1) (tImm 11 0 tSetOp)).allot 0).opCeil = 3 ∧
    tDone (tRun (.routeAmend ⟨1, []⟩ none) (tImm 15 255 (tAmend 0))) = some (2, 0, 0) ∧
    bit ((tRun (.routeAmend ⟨1, []⟩ none) (tImm 15 255 (tAmend 0))).route 9) 1 = true ∧
    tDone (tRun (.stats 1) (tImm 9 255 (tBytes 56 [(36, 4, 8), (52, 4, 8)]))) = some (2, 0, 0) ∧
    tDone (tRun (.ledgerRead 1) (tImm 10 255 (tBytes 64 [(32, 8, 1), (40, 4, 1), (44, 2, 0x8000)]))) = some (2, 0, 0) ∧
    tDone (tRun (.fwStage 1 none) (tImm 16 255 (tBytes 56 []))) ≠ none ∧
    (tRun (.sessionExpired 1) { tUp with allots := [], ses := [(1, { qp := 0, st := .detached })] }).ses = [] := by decide +kernel

/-- Allotment 0 executes a queued command of LSN 1, in a state. -/
def tQd (st : AState) (op : Byte) (body : List Byte) (mem : Tab Byte) : State :=
  { tUp with allots := [(0, { st := st, owner := 1, parishes := 1, stripeCount := 4, hubCount := 16, active := some 1,
                              prog := if st = .loaded then some tProg else none })]
             ledger := { entries := [(1, tEntry op 0 body)], nextLsn := 2, alloc := 1 }, mem := mem }
def tWait : State := { tQd .loaded 6 (tBytes 40 [(32, 8, 100)]) [] with
  allots := [(0, { st := .loaded, owner := 1, parishes := 1, queue := [1], prog := some tProg })] }

theorem test_witness_QueuedCommands_start : (tWait.allot 0).queue = 1 :: [] ∧ (tWait.allot 0).active = none ∧
    (tWait.allot 0).st = .loaded ∧
    tWait.ras.repairs = [] ∧ tWait.entryOf 1 = some (1, tEntry 6 0 (tBytes 40 [(32, 8, 100)])) ∧ acceptedIn 6 .loaded = true ∧
    tWait.tick < tWait.startTick (leAt (tBytes 40 [(32, 8, 100)]) 32 8) := by decide +kernel

/-- One section, tick 10 to 20, and a header for parish 0 (R152, R153). -/
def tProgImage : Tab Byte := [(0, 1), (2, 1), (4, 1), (6, 1), (8, 1), (24, 128), (33, 1), (132, 10), (136, 20)]

theorem test_witness_runsCommand (op : Byte) (body : List Byte)
    (h : (op, body) ∈ [(4, []), (5, tBytes 40 []), (6, tBytes 40 [(32, 8, 100)]), (12, []), (13, []), (14, []), (15, [])]) :
    (tQd .loaded op body tProgImage).runsCommand 0 op.toNat 1 (tEntry op 0 body) := by
  simp only [List.mem_cons, Prod.mk.injEq, List.not_mem_nil, or_false] at h
  rcases h with ⟨rfl, rfl⟩ | ⟨rfl, rfl⟩ | ⟨rfl, rfl⟩ | ⟨rfl, rfl⟩ | ⟨rfl, rfl⟩ | ⟨rfl, rfl⟩ | ⟨rfl, rfl⟩ <;>
  exact ⟨by decide +kernel, by decide +kernel⟩

theorem test_witness_QueuedCommands : ((tQd .loaded 4 [] []).allot 0).queue = [] ∧ ((tQd .loaded 6 [] []).allot 0).st = .loaded ∧
    ((tQd .idle 5 [] tProgImage).judgeLoad 0 0).toOption.isSome = true ∧ (tQd .idle 5 [] []).judgeLoad 0 0 = .error 0x01 ∧
    (tQd .idle 12 [] []).viewDpa 0 = some 0 ∧ (tQd .idle 12 [] []).inQuota 0 0 1 = true ∧
    ctxSize 16 1 false ≤ leAt (tBytes 48 [(40, 8, 1048576)]) 40 8 ∧ (tQd .idle 12 [] []).inQuota 0 0 (ctxSize 16 1 false) = true ∧
    (let s := tQd .idle 13 [] [(0, 1), (8, 1)]
     s.inQuota 0 0 64 = true ∧ leAt (s.imgBytes 0 64) 0 2 = 1 ∧ leAt (s.imgBytes 0 64) 8 16 = (s.allot 0).parishes.toNat ∧
     s.inQuota 0 0 (ctxSize 0 1 false) = true) ∧
    leAt (tAmend 1) 32 1 = 1 ∧ badWindow (BitVec.ofNat 128 (leAt (tAmend 1) 48 16)) = false := by decide +kernel

/-- Two commands, in entries 1 and 2; the second waits behind the RESET_FUNCTION. -/
def tResetQ : State :=
  { tQd .loaded 14 [] [] with
    allots := [(0, { st := .loaded, owner := 1, parishes := 1, active := some 1, queue := [2] })]
    ledger := { entries := [(1, tEntry 14 0 []), (2, { tEntry 5 0 [] with lsn := 2 })], nextLsn := 3, alloc := 2 } }

theorem test_witness_QueuedCommands_reset : tResetQ.apart [1, 2] := by
  have h1 : tResetQ.entryOf 1 = some (1, tEntry 14 0 []) := by decide +kernel
  have h2 : tResetQ.entryOf 2 = some (2, { tEntry 5 0 [] with lsn := 2 }) := by decide +kernel
  simp only [State.apart, List.pairwise_cons, List.mem_singleton, forall_eq, h1, h2]
  exact ⟨fun i j _ _ hi hj => by cases hi; cases hj; decide, fun _ h => absurd h List.not_mem_nil, List.Pairwise.nil⟩

theorem test_reset_aborts : ((tRun (.resetFunction 0) tResetQ).entryOf 2).map (fun e => (e.2.st, e.2.status, e.2.detail)) =
    some (2, 3, 0x42) := by decide +kernel

theorem test_witness_QueuedCommands_save : (tQd .idle 12 [] []).rangeUp 0 ((tQd .idle 12 [] []).ctxImage 0 false).length = true := by
  rw [State.ctxImage_length]
  decide +kernel

theorem test_queued : ((tRun (.queuedCommandStart 0) tWait).allot 0).active = some 1 ∧
    (tRun (.release 0) (tQd .idle 4 [] [])).allots.find? 0 = none ∧
    ((tRun (.load 0) (tQd .idle 5 (tBytes 40 []) tProgImage)).allot 0).st = .loaded ∧
    (((tRun (.load 0) (tQd .idle 5 (tBytes 40 []) tProgImage)).allot 0).prog.map fun g => g.sects.map fun x => (x.launch, x.deadline)) =
      some [(10, 20)] ∧
    tDone (tRun (.load 0) (tQd .idle 5 (tBytes 40 []) [])) = some (2, 1, 0x01) := by decide +kernel

theorem test_queued_more : ((tRun (.run 0) (tQd .loaded 6 (tBytes 40 [(32, 8, 100)]) [])).allot 0).st = .running ∧
    (((tRun (.run 0) (tQd .loaded 6 (tBytes 40 [(32, 8, 100)]) [])).allot 0).exec.map (·.start)) = some 100 ∧
    ((tRun (.resetFunction 0) (tQd .loaded 14 [] [])).allot 0).prog = none ∧
    ((tRun (.routeAmend ⟨1, []⟩ (some 0)) (tQd .idle 15 (tAmend 1) [])).allot 0).windows = [(9, 2)] := by decide +kernel

theorem test_witness_HostMemory : ({ tF with fcsBad := true } : Frame).fcsBad = true ∧ tUp.hpUp 0 = true ∧
    tUp.qps.find? 2 = some { ses := some 1, rate := 100 } ∧ tUp.ses.find? 1 = some tSes ∧
    tUp.regionOf 1 tSes 5 = some (.devmem 0) ∧ tUp.regionOf 1 tSes 7 = some .regs ∧
    (let d := (tUp.allot 0).stripeFirst * tUp.stripe + 60
     60 % 64 + 4 ≤ 64 ∧ tUp.stripe % 64 = 0 ∧ 60 + 4 ≤ (tUp.allot 0).stripeCount * tUp.stripe ∧ tUp.rangeUp d 4 = true ∧
     tUp.memUe = [] ∧
     tUp.memCe = []) ∧
    (tUp.allot 0).stripeCount * tUp.stripe < 4 * tUp.stripe + 1 ∧ (8 : Nat) % 8 = 0 ∧
    (2 : Nat) ^ 24 - 8 < 2 ^ 24 := by decide +kernel

/-- The completion ring of session 1 is full, or read. -/
def tRing (r : Ring) : State := { tUp with ses := [(1, { qp := 2, grant := 8, cring := r })] }

theorem test_witness_HostMemory_rings : (({ prod := 64 } : Ring).room = false) ∧ ({ prod := 64 } : Ring).polledAt = none ∧
    (({ qp := 2, grant := 8, cring := { prod := 64 } } : Session).reads < 16) ∧ tUp.ticksNs (tUp.tick - 0) < 10000 ∧
    (((tRing { prod := 64 }).ses.find? 1).map fun x => (x.attached, x.ring 17)) = some (true, { prod := 64 }) ∧
    (((tRing { prod := 64, polling := true }).ses.find? 1).map fun x => (x.ring 17).polling) = some true ∧
    (0 : Nat) ≤ (64 : DWord).toNat ∧ (64 : DWord).toNat ≤ 64 ∧ 64 < (65 : DWord).toNat ∧
    (1 : BitVec 12).toNat = 1 := by decide +kernel

theorem test_rdma : (tRun (.rdmaWrite ⟨2, tF⟩ 5 60 [1, 2, 3, 4]) tUp).memByte 63 = 4 ∧
    (tRun (.rdmaWrite ⟨2, { tF with fcsBad := true }⟩ 5 60 [1, 2, 3, 4]) tUp).memByte 63 = 0 ∧
    (tRun (.rdmaWrite ⟨2, tF⟩ 5 (4 * 2 ^ 25) [1]) tUp).qps.find? 2 = none ∧
    (tRun (.rdmaRead ⟨2, tF⟩ 5 0 2) { tUp with mem := [(1, 9)] }).out = [.rdmaRead 2 [0, 9]] ∧
    (tRun (.rdmaWrite ⟨2, tF⟩ 7 0xC0028 [60, 0, 0, 0, 0, 0, 0, 0]) tUp).reg 0xC0028 = 60 := by decide +kernel

theorem test_rings : (tRun (.ringConsumerPoll 1 17) (tRing { prod := 64 })).out = [.ringRead 1 17 0 8] ∧
    (tRun (.ringConsumerPoll 1 17) (tRing { prod := 64, polledAt := some 0 })).out = [] ∧
    ((tRun (.rdmaReadResponse ⟨1, tF⟩ 17 64) (tRing { prod := 64, polling := true })).ses.find? 1).map (·.cring.cons) = some 64 ∧
    ((tRun (.rdmaReadResponse ⟨1, tF⟩ 17 65) (tRing { prod := 64, polling := true })).ses.find? 1).map (·.cring.cons) = some 0 := by decide +kernel

def tHost : State := { tUp with boot := { tUp.boot with cfg := { ips := [(0, mapped 0x0A000001, none)], macs := [1], pfcPrio := some 3 } } }

theorem test_witness_HostPorts : tUp.qps.find? 2 = some { ses := some 1, rate := 100 } ∧ (0 : Nat) < 100 ∧ (tUp.hp 0).up = true ∧
    tUp.up = true ∧ tUp.hostPortThere 1 = true ∧ (tUp.hp 1).en = true ∧ tUp.gate .steward (hpBase 0 + 8) true = (tUp, true) ∧
    tUp.hpUp 0 = true ∧ 1 < 9 ∧ tUp.qps.length < 4160 ∧ tUp.qps.find? 9 = none ∧ 1024 ≠ 4096 ∧
    tHost.hasIp 0 (mapped 0x0A000001) none = true ∧ tHost.hasIp 0 (mapped 0x0A000001) (some 5) = false ∧
    ({} : Qp).cnpTick = none ∧ tUp.ptpSource 0 = true ∧ ({ tUp with tod := { valid := true } } : State).tod.valid = true ∧
    tUp.reaches .steward (hostBase + 0x4010) = true ∧
    ({ tUp with unreadBoard := [{ code := 1 }] } : State).unreadBoard = { code := 1 } :: [] := by
  decide +kernel

theorem test_host_ports : (tRun (.qpError 2) tUp).qps = [] ∧ ((tRun (.qpError 2) tUp).ses.find? 1).map (·.st) = some .detached ∧
    (tRun (.hostPortDown 0) tUp).qps = [] ∧ ((tRun (.hostLinkUp 1) tUp).hp 1).up = true ∧
    (tRun (.cmReq ⟨0, tF⟩ 9 4096 ⟨7, mapped 0x0A000001⟩) tHost).out = [.cm 0 9 true] ∧
    (tRun (.cmReq ⟨0, tF⟩ 9 1024 ⟨7, mapped 0x0A000001⟩) tHost).out = [.cm 0 9 false] ∧
    (tRun (.cmReq ⟨0, tF⟩ 9 4096 ⟨7, mapped 0x0A000002⟩) tHost).out = [] ∧
    (tRun (.cmReq ⟨0, { tF with bytes := 9217 }⟩ 9 4096 ⟨7, mapped 0x0A000001⟩) tHost).out = [] ∧
    ((tRun (.hpCtl .steward 0 0) tUp).hp 0).up = false := by decide +kernel

theorem test_host_frames : (tRun (.arp ⟨0, tF⟩ 0x0A000001) tHost).out = [.eth 0 1 [1, 0, 0, 0, 0, 0]] ∧
    (tRun (.neighbourDiscovery ⟨0, tF⟩ (mapped 0x0A000001)) tHost).out = [.eth 0 2 [1, 0, 0, 0, 0, 0]] ∧
    (tRun (.icmpEcho ⟨0, tF⟩ ⟨(mapped 0x0A000001), [9]⟩) tHost).out = [.eth 0 3 [9]] ∧
    (tRun (.icmpEcho ⟨0, { tF with vlan := some 5 }⟩ ⟨(mapped 0x0A000001), [9]⟩) tHost).out = [] ∧
    ((tRun (.pfcPause ⟨0, tF⟩ 3) tHost).hp 0).paused = some 3 ∧
    ((tRun (.pfcPause ⟨0, tF⟩ 4) tHost).hp 0).paused = none ∧ ((tRun (.cnp ⟨2, tF⟩) tUp).qps.find? 2).isSome = true := by
  decide +kernel

theorem test_time_of_day : let t := tRun (.ptp ⟨0, tF⟩ ⟨0, 5⟩ 6 0) tUp
    t.tod.sec = 5 ∧ t.tod.ns = 6 ∧ (tRun .taiSecond t).tod.sec = 6 ∧ (tRun .hostTodLost t).tod.holdover = true ∧
    (tRun (.todSec .steward) t).tod.nsLatched = 6 ∧
    (tRun .mctpEventRead { tUp with unreadBoard := [{ code := 1 }] }).pins.alertN = true := by decide +kernel

/-! ### Power, guests, start, registers -/

def tTel : Telemetry := ⟨20000, 48000, 4000, 3000, 9000, 80, 20000, [⟨0, 10, 720, Vector.replicate 4 500, 30, 900, (1, 2, 3)⟩], [(0, 600)],
  [(0, 700, 450)], [(0, false, 10, 6, 500, false)], Vector.replicate 4 300, 7, [(0, 5, 1)], 1, 1⟩
def tReeve (r : Reeve) : State := { tUp with reeve := r }

theorem test_witness_ReevePower : (let l : List Share := [⟨0, 64, 256, 1⟩]
    floors l ≤ tUp.reeve.field tUp.reeve.hard (floors l + headroom l) ∧ tUp.deferPast 0 = false) ∧ tUp.up = true ∧ ({} : Reeve).standby = true ∧
    (tReeve { jobEnding := true }).reeve.jobEnding = true ∧
    ((tField 9 {} { lsn := 1, start := 0, deferred := true }).allot 0).exec.isSome = true ∧
    tUp.gate .steward 0x40008 false = (tUp, true) ∧
    tUp.gate .steward 0x40010 true = (tUp, true) ∧ 8000 ≤ bits (8000 : DWord) 0 16 ∧
    bits (8000 : DWord) 0 16 ≤ tUp.reeve.capMax := by
  decide +kernel

theorem test_reeve : (tRun (.reeveTelemetry tTel) tUp).reeve.inputW = 20000 ∧ (tRun (.reeveTelemetry tTel) tUp).reeve.energy = 7 ∧
    (tRun (.reeveTelemetry tTel) tUp).reeve.activity = [(0, (1, 2, 3))] ∧
    ((tRun (.deferMaxExpiry 0) (tField 9 {} { lsn := 1, start := 0, deferred := true })).allot 0).deferOver = true ∧
    ((tRun (.deferMaxExpiry 0) (tField 9 {} { lsn := 1, start := 0, deferred := true })).allot 0).capOver = false ∧
    (tRun .floorHoldExpiry (tReeve { jobTime := true, jobEnding := true })).reeve.jobTime = false ∧
    (tRun .reeveFailover tUp).reeve.steward = 2 ∧ (tRun (.cap .steward 8000) tUp).reeve.cap = 8000 ∧
    (tRun (.cap .steward 7999) tUp).reeve.cap = 30000 ∧ (tRun (.capMax .steward 32001) tUp).reeve.capMax = 32000 ∧
    (tRun .energyRescale (tReeve { nativeUj := 9, chargedUj := 4 })).reeve.carryUj = 5 := by decide +kernel

/-- A member of domain 6 that lends to partner 3, its run late at tick 20; 25 kW of budget to spare and 1 kW drawn. -/
def tLend (r : Reeve) : State :=
  let u := tField 0 {} tLate
  { u with
    boot := { u.boot with cfg := { loans := true, domain := true, domainId := 6, partners := [3] } }
    bell := { member := true }, routes := [(0, BitVec.ofNat 128 (2 ^ 71 + 2 ^ 72))]
    reeve := { r with inputMv := 48000 } }
/-- A loan packet from FEID 3: a request (1), a grant (2) or a decline (3) of 500 W, identifier 4 (R395, R396). -/
def tLoanPkt (op : Nat) : FabPkt :=
  ⟨mkHdr 9 false 0 0 0 0 3 0 0 0 0 0 0 0 0 (op + 2 ^ 16 * 6 + 2 ^ 32 * 500 + 2 ^ 64 * 20 + 2 ^ 160 * 4), []⟩

theorem test_witness_Loans : ((tLend {}).port 0).carries = true ∧ pMalformed (tLoanPkt 1) = false ∧ pType (tLoanPkt 1) = 9 ∧
    pHops (tLoanPkt 1) ≠ 0 ∧ (tLend {}).routeOf (pHop (tLoanPkt 1)) = .here ∧
    pBody (tLoanPkt 1) 34 2 = (tLend {}).boot.cfg.domainId.toNat ∧
    (tLend {}).boot.cfg.domain = true ∧ pBody (tLoanPkt 1) 32 1 = 1 ∧ (tLend {}).boot.cfg.loans = true ∧
    (tLend {}).bell.member = true ∧
    (tLend {}).boot.cfg.partners.contains (BitVec.ofNat 24 (pSrc (tLoanPkt 1))) = true ∧ pBody (tLoanPkt 2) 32 1 = 2 ∧
    ({ asked := [(3, 4, 0)] } : Reeve).freeLoan = some 0 ∧
    ({ asked := [(3, 4, 0)] } : Reeve).asked.any (fun a => decide (a.1.toNat = pSrc (tLoanPkt 2) ∧
    a.2.1.toNat = pBody (tLoanPkt 2) 52 4)) = true ∧ (tLend {}).expiryFits 0 (pBody (tLoanPkt 2) 40 8) = true ∧
    pBody (tLoanPkt 3) 32 1 = 3 ∧ (tLend {}).loansOn = true := by decide +kernel

theorem test_witness_Loans_ends : let r := (tLend { collecting := [(3, 500, 0, 4)] }).reeve
    r.collecting = [(3, 500, 0, 4)] ∧ r.freeLoan = some 0 ∧ 0 < min 500 (r.budget - r.demandW - 1000) ∧
    (∀ b : Bool, ({ loans := [(0, ⟨3, b, 500, 0, 4⟩)] } : Reeve).loans.find? 0 = some ⟨3, b, 500, 0, 4⟩) ∧
    0 + b2n (!true) ≤ (tLend {}).tick := by decide +kernel

theorem test_loans : (tRun (.loanRequest 0 (tLoanPkt 1)) (tLend {})).reeve.collecting = [(3, 500, 0, 4)] ∧
    (tRun (.loanGrant 0 (tLoanPkt 2)) (tLend { asked := [(3, 4, 0)] })).reeve.loans = [(0, ⟨3, true, 500, 20, 4⟩)] ∧
    (tRun (.loanDecline 0 (tLoanPkt 3)) (tLend { asked := [(3, 4, 0)] })).reeve.asked = [] ∧
    (tRun (.loanExpiry 0) (tLend { loans := [(0, ⟨3, true, 500, 0, 4⟩)] })).reeve.loans = [] := by decide +kernel

theorem test_witness_DroopAndHeat : (tUp.parish 0).railOn = true ∧ (tUp.parish 0).dark = false ∧ 256 ≤ (tUp.parish 0).throttle ∧
    900 ≤ (900 : Half).toNat ∧ tUp.noted 0 evParishThrottle 0 = false ∧
    ((tUp.setParish 0 { tUp.parish 0 with throttle := 40 }).parish 0).throttle < 256 ∧ tUp.stackUp 0 = true := by decide +kernel

theorem test_heat : let s := tUp.setParish 0 { tUp.parish 0 with throttle := 40 }
    ((tRun (.throttleStep 0 true) s).parish 0).throttle = 32 ∧ ((tRun (.throttleStep 0 false) s).parish 0).throttle = 56 ∧
    ((tRun (.parishThrottle 0 900) tUp).parish 0).throttle = 192 ∧ ((tRun (.parishThrottle 0 899) tUp).parish 0).throttle = 256 ∧
    ((tRun (.droop 0 5) tUp).parish 0).droop = true ∧ ((tRun (.droopEnd 0) (tRun (.droop 0 5) tUp)).parish 0).droop = false ∧
    ((tRun (.stackThrottle 0 850) tUp).mc 0).halved = true ∧ ((tRun (.stackThrottle 0 850) tUp).mc 0).hot = false ∧
    ((tRun (.stackThrottle 0 851) tUp).mc 0).hot = true ∧
    ((tRun (.stackThrottle 0 849) tUp).mc 0).halved = false := by decide +kernel

theorem test_witness_RailsAndLoss : tUp.pins.pwrGood = true ∧ (0 : Fin 112).val = (0 : Fin 78).val ∧ (tUp.parish 0).railOn = true ∧
    tUp.boot.railsOff.contains 0 = false ∧ tUp.trips 0 (.undervoltage 400) = true ∧ tUp.trips 0 (.overcurrent 99999) = true ∧
    2 * 10 ≤ 3 * tUp.railLimit 0 ∧ 9 * tUp.railMv 0 ≤ 10 * 720 ∧ 1050 ≤ (1050 : Half).toNat ∧ tUp.failedRegs = [] ∧
    (0, false) ∈ ({ tUp with failedRegs := [(0, false)] } : State).failedRegs ∧ (1 : Fin 16) ≠ 0 ∧ tUp.crierHeld = [] ∧
    ({ tUp with crierHeld := [(0, tIncPkt)] } : State).crierHeld = [(0, tIncPkt)] ∧ pType tIncPkt ≠ 7 ∧ tUp.sectorUp 1 = true ∧
    tUp.up = true ∧ tUp.pins.powerEn = true := by decide +kernel

theorem test_rails : ((tRun (.railFault 0 (.undervoltage 400)) tUp).parish 0).railOn = false ∧
    ((tRun (.railFault 0 (.overcurrent 10)) tUp).parish 0).railOn = true ∧
    (tRun (.thermalTrip false 0 1100) tUp).pins.thermtripN = false ∧
    (tRun (.thermalTrip false 0 1049) tUp).pins.thermtripN = true ∧ (tRun (.regulatorLoss 0 false) tUp).failedRegs = [(0, false)] ∧
    ((tRun (.regulatorLoss 0 true) (tRun (.regulatorLoss 0 false) tUp)).parish 0).dark = true ∧
    (tRun (.hubSectorLost 1 0) tUp).sectorUp 1 = false ∧
    (tRun (.hubSectorLost 0 0) tUp).up = false ∧ (tRun .escapeTableLoad tUp).boot.escapeLoaded = true ∧
    (tRun .escapeTableLoad { tUp with crierHeld := [(0, tIncPkt)], routes := tFab.routes }).hub.get 0 3 = 7 ∧
    (tRun .undervoltageLockout tUp).boot.uvlo = true ∧ (tRun .undervoltageLockout tUp).store.uvlos = 1 := by decide +kernel

theorem test_rail_registers : let s : State := { tUp with allots := [], posted := [(tBlock, ⟨tBlock + 0x4038, 0⟩)] }
    (tRun (.railCtl .steward 0 0) tUp).posted = [(tBlock, ⟨tBlock + 0x4038, 0⟩)] ∧
    ((tRun (.postedWriteDone (BitVec.ofNat 24 tBlock)) s).parish 0).railOn = false := by decide +kernel

theorem test_witness_SpdmAnswers : tUp.up = true ∧ ({ tUp with spdmVer := true } : State).spdmVer = true ∧
    ({ tUp with spdmAlgo := true } : State).spdmAlgo = true ∧ (1 : BitVec 4) ≠ 0 ∧ (0xFF : Byte) = 0xFF := by decide +kernel

theorem test_spdm : (tRun .getVersion tUp).out = [.spdm 0x04 [0x13]] ∧
    (tRun (.getCapabilities 0x12) tUp).out = [.spdm 0x7F [0x41]] ∧
    (tRun (.getCapabilities 0x13) tUp).spdmVer = true ∧
    (tRun (.negotiateAlgorithms 0x200 0x40 0x80) { tUp with spdmVer := true }).spdmAlgo = true ∧
    (tRun (.getCertificate 1 0 1) { tUp with spdmAlgo := true }).out = [.spdm 0x7F [1]] ∧
    (tRun (.challenge 0 5) { tUp with spdmAlgo := true }).fresh = 1 ∧
    (tRun (.getMeasurements 0 5) { tUp with spdmAlgo := true }).fresh = 1 ∧
    (tRun .getDigests { tUp with spdmAlgo := true }).out.length = 1 := by decide +kernel

theorem test_witness_PldmAnswers : tUp.boot.pldmUpdate = false ∧
    ({ tUp with boot := { tUp.boot with pldmUpdate := true } } : State).mctp = true ∧ tUp.mctp = true ∧ tUp.pldmTypes.contains 2 = true ∧ tUp.pldmTypes.contains 3 = false ∧
    tUp.boot.st ≠ .recovery ∧ tUp.sensor 14 ≠ none ∧ tUp.staging = false ∧ tUp.boot.st = .ready ∧ tUp.up = true := by decide +kernel

theorem test_pldm : (tRun .getPldmTypes tUp).out = [.pldm 0x04 [0, 37]] ∧ (tRun (.getPldmVersion 3) tUp).out = [.pldm 0x03 [0x83]] ∧
    (tRun (.getPldmCommands 3) tUp).out = [.pldm 0x05 [0x83]] ∧ (tRun .getTid tUp).fresh = 1 ∧
    (tRun (.pldmFirmwareUpdate .request) tUp).boot.pldmUpdate = true ∧
    (tRun (.pldmFirmwareUpdate .request) (tRun (.pldmFirmwareUpdate .request) tUp)).boot.pldmUpdate = true ∧
    (tRun (.pldmSensorRead 7) tUp).out = [.pldm 0x11 [0, 0]] ∧
    (tRun (.pldmShutdown [] (true, true)) tUp).boot.st = .shutdownDone := by decide +kernel

/-- Guest site 0 is OPEN with full buckets; rule 0 lets it write a page of allotment 0. -/
def tRule : BitVec 256 := BitVec.ofNat 256 (1 + 16 + 2 ^ 128 * 4096)
def tGuest (g : Guest) : State :=
  { tUp with guests := [(0, g)], regs := [(gsBase 0 + 0x10, 31), (gsBase 0 + 0x18, 0x40000)], routes := [(0, BitVec.ofNat 128 (2 ^ 71 + 2 ^ 72))] }
def tOpenG : Guest := { st := .opened, rules := [(0, tRule)] }

/-- The same write with two data flits, more than a guest's packet carries (R292). -/
def tLong : FabPkt := ⟨mkHdr 1 false 0 0 2 0 3 0 0 0 32 128 0 0 9 0, [1, 2]⟩

theorem test_witness_GuestTraffic : (tGuest tOpenG).guestThere 0 = true ∧ (tGuest tOpenG).withheld 0 tWrite = false ∧
    bit ((tGuest tOpenG).reg (gsBase 0 + 0x10)) ((tGuest tOpenG).guestClass tWrite) = true ∧
    tOpenG.rule ((tGuest tOpenG).ruleFits tWrite) = some tRule ∧
    (let k := gateHdr (tGuest tOpenG) tWrite ((tGuest tOpenG).allot (rAllot tRule)).tag (rBg tRule)
     pMalformed k = false ∧ pLen k ≤ 1 ∧ pType k = 1 ∧ pDst k = (tGuest tOpenG).feid ∧
     (tGuest tOpenG).judgeFabric (pTag k) (pAddr k) (min (pBytes k) (readSpan (pAddr k))) = (0, 32)) ∧
    (let k := gateHdr (tGuest tOpenG) tLong ((tGuest tOpenG).allot (rAllot tRule)).tag (rBg tRule)
     1 < pLen k ∧ tOpenG.rule ((tGuest tOpenG).ruleFits tLong) = some tRule) ∧
    ({ tOpenG with rules := [] } : Guest).rule ((tGuest tOpenG).ruleFits tWrite) = none ∧ (tReq .load .atGuest 0).stage = .atGuest ∧
    ((tGuest { tOpenG with draining := true }).guest 0).draining = true := by decide +kernel

theorem test_guest_traffic : (tRun (.guestPacket 0 ⟨tWrite, []⟩) (tGuest tOpenG)).memByte 32 = 1 ∧
    (tRun (.guestPacket 0 ⟨tWrite, []⟩) (tGuest { tOpenG with rules := [] })).mem = [] ∧
    ((tRun (.guestNoResponse 5) { tGuest tOpenG with reqs := [(5, tReq .load .atGuest 0)] }).reqs.find? 5).map (·.status) = some 3 ∧
    ((tRun (.fenceDrainTimeout 0) (tGuest { tOpenG with draining := true })).guest 0).draining = false := by decide +kernel

def tRules : State := { tGuest tOpenG with regs := [(gsBase 0 + 0x38, 17), (gsBase 0 + 0x48, 4096)] }

theorem test_witness_GuestSites : (tGuest {}).guestThere 0 = true ∧ (tGuest {}).up = true ∧ ((tGuest {}).guest 0).st = .off ∧
    (3 : BitVec 4) ≠ 0 ∧ answerStep (.versions true) = 1 ∧ attestFault tUp.boot.cfg 0 0 (.versions false) = some fVersion ∧
    attestFault tUp.boot.cfg 0 0 (.versions true) = none ∧ answerStep (.versions true) < 6 ∧
    measureOk (expectedOf tUp.boot.cfg 0) [] = true ∧
    tUp.boot.cfg.gsReattestHours.contains (0, 0) = false ∧ tOpenG.step = 0 ∧ (tRules.gate .steward (gsBase 0 + 8) true).2 = true ∧
    (tRules.gate .steward (gsBase 0 + 0x58) true).2 = true ∧ tRules.badRule 0 tRule = false ∧
    tRules.badRule 0 0 = true := by decide +kernel

theorem test_guests : ((tRun (.guestTraining 0 3) (tGuest {})).guest 0).st = .attesting ∧
    ((tRun (.guestTrainingTimeout 0) (tGuest { st := .training })).guest 0).st = .lost ∧
    ((tRun (.guestSpdmResponse 0 (.versions true)) (tGuest { st := .attesting, step := 1 })).guest 0).step = 2 ∧
    ((tRun (.guestSpdmResponse 0 (.versions false)) (tGuest { st := .attesting, step := 1 })).guest 0).st = .fenced ∧
    ((tRun (.guestSpdmResponse 0 (.capabilities false)) (tGuest { st := .attesting, step := 2 })).guest 0).cause = BitVec.ofNat 4 fVersion ∧
    ((tRun (.guestSpdmResponse 0 (.measurements 7 true [] 9)) (tGuest { st := .attesting, step := 6, nonce := 7 })).guest 0).st = .opened ∧
    ((tRun (.guestSpdmResponse 0 (.measurements 8 true [] 9)) (tGuest { st := .attesting, step := 6, nonce := 7 })).guest 0).st = .fenced ∧
    ((tRun (.guestSpdmResponse 0 (.measurements 7 true [] 9)) (tGuest { st := .attesting, step := 6, nonce := 7, fenceAt := some 0 })).guest 0).st =
      .fenced ∧
    ((tRun (.guestAttestTimeout 0) (tGuest { st := .attesting, step := 1 })).guest 0).cause = 6 := by decide +kernel

theorem test_guest_controls : ((tRun (.reattestPeriodExpiry 0) (tGuest tOpenG)).guest 0).step = 1 ∧
    ((tRun (.guestLost 0 2) (tGuest tOpenG)).guest 0).st = .lost ∧
    ((tRun (.gsCtlFence .steward 0) (tGuest tOpenG)).guest 0).cause = 7 ∧
    ((tRun (.gsCtlReattest .steward 0) (tGuest { st := .fenced })).guest 0).st = .attesting ∧
    ((tRun (.ruleCmdWrite .steward 0) tRules).guest 0).rules = [(0, BitVec.ofNat 256 (17 + 2 ^ 128 * 4096))] ∧
    (tRun (.ruleCmdRead .steward 0) tRules).reg (gsBase 0 + 0x38) = 17 := by decide +kernel

def tStart (test mgmt : Bool) : StartObs :=
  ⟨⟨false, mgmt, 0, test⟩, [], [], [], [], [], [], [], [], false, [], [], [], [], [], true, [], [], (true, true), none, 100⟩
def tCold : State := { pins := { powerEn := true, pwrGood := true }, boot := { st := .coldReset, step := 1 } }

theorem test_witness_PowerAndReset : State.reset.pins.powerEn = false ∧ tCold.pins.pwrGood = true ∧
    (tStart true false).straps.test = true ∧
    (tStart false true).straps.mgmt = true ∧ tCold.store.a = none ∧ tCold.store.b = none ∧ tCold.pins.resetN = false ∧
    tCold.boot.st = .coldReset ∧ tCold.boot.stopped = false ∧ State.reset.failedRegs = [] ∧ 47500 < 48000 ∧
    State.reset.boot.uvlo = false ∧
    ({ State.reset with boot := { State.reset.boot with uvlo := true } } : State).boot.uvlo = true ∧
    (let t : State := { tUp with reeve := { slotWait := true }, boot := { tUp.boot with st := .training } }
     t.reeve.slotWait = true ∧ t.boot.st = .training) ∧
     ({ tUp with reeve := { slotWait := true } } : State).reeve.slotWait = true := by decide +kernel

/-- An image that no check of R408 and R409 faults, where its signatures verify. -/
def tEnv (kind : Byte) : Envelope :=
  { magic := 0x4D49574B, format := 1, kind := kind, version := 1, rollback := 0, bodyLen := 8, reservedZero := true
    digest := Config.sm3 [1, 0, 1, 0, 0, 0, 0, 0], signature := 5, signerKey := Config.firmwareKey 0, body := [1, 0, 1, 0, 0, 0, 0, 0] }
/-- The body of its configuration is an IDENTITY record, CRITICAL and of no length. -/
def tImage : StoreImage := { dir := ⟨0x4453574B, 1, 0, 0, 8192, 0, 0xA38D5D6E, true⟩, fw := tEnv 1, cfg := tEnv 2, content := {} }

theorem test_witness_image (h1 : Config.sm2Verify (Config.firmwareKey 0) (Config.sm3 (envHead (tEnv 1))) 5 = true)
    (h2 : Config.sm2Verify (Config.firmwareKey 0) (Config.sm3 (envHead (tEnv 2))) 5 = true) : imgFault tImage {} = none := by
  have t : ∀ k : Byte, ({} : Fuses).fwTrusts (keyHash (tEnv k).signerKey) = true := fun k => by
    simp only [Fuses.fwTrusts, List.any_eq_true, List.mem_finRange, true_and]
    exact ⟨0, by simp [tEnv, bit]⟩
  have r : (imageRecords tImage).any recordsOk = true := by decide +kernel
  have f1 : envFormatOk (tEnv 1) kindFw 0 = true := by decide +kernel
  have f2 : envFormatOk (tEnv 2) kindCfg (cfgOffset (tEnv 1)) = true := by decide +kernel
  simp [imgFault, envFault, tImage, r, f1, f2, Fuses.trusts, t, kindFw, kindCfg] at *
  simp_all [tEnv]

/-- The check value of CRC-32C is that of its catalogue entry, for the characters 1 to 9. -/
theorem test_directory : crc32c [49, 50, 51, 52, 53, 54, 55, 56, 57] = 0xE3069283 ∧
    directoryOk (directoryFor true tImage) true = true ∧ directoryOk (directoryFor true tImage) false = false := by decide +kernel

theorem test_power : (tRun .powerEnRise State.reset).pins.pwrGood = true ∧
    (tRun .powerEnRise State.reset).boot.st = .coldReset ∧
    (tRun .powerEnFall tUp).mem = [] ∧ (tRun .resetNFall tUp).boot.st = .coldReset ∧
    (tRun (.resetNRise (tStart true false)) tCold).boot.st = .strapHalt ∧
    (tRun (.resetNRise (tStart false false)) tCold).boot.st = .recovery ∧
    (tRun (.resetReleaseImplied (tStart true false)) { tCold with pins := { tCold.pins with resetN := true } }).boot.st = .strapHalt := by
  decide +kernel

/-- A mux switch is under way. -/
def tSwitching : State := { tUp with clk := { tUp.clk with switching := some .tlane } }

theorem test_witness_Restarts : tUp.boot.st = .ready ∧ tUp.boot.stopped = false ∧ tUp.pins.pwrGood = true ∧
    tUp.clk.switching = none ∧
    tSwitching.clk.switching.isSome = true ∧ tUp.gate .steward (configBase + 0x78) true = (tUp, true) ∧
    tUp.gate .steward (configBase + 0x80) true = (tUp, true) ∧
    (({} : Reeve).slotAt.getD 0) ≤ tUp.tod.sec.toNat ∧ tUp.boot.st ≠ .shutdownDone ∧ tUp.boot.warmHeld = false ∧ tUp.gate .steward (configBase + 0x10) true = (tUp, true) ∧
    bits (2 : DWord) 0 2 ≠ 1 := by decide +kernel

theorem test_restarts : (tRun .warmN tSwitching).boot.st = .ready ∧ (tRun .warmN tSwitching).boot.warmHeld = true ∧
    (tRun .warmN tUp).boot.st = .restarting ∧ (tRun .warmN tUp).boot.epoch = 1 ∧ (tRun .warmN tUp).qps = [] ∧
    (tRun (.warmReq .steward) tUp).boot.epoch = 1 ∧ (tRun (.shutdown .steward [] (true, true)) tUp).boot.st = .shutdownDone ∧
    (tRun (.bootSelect .steward 2) tUp).reg (configBase + 0x10) = 2 := by decide +kernel

/-- Site (0, 0, 1): bits 31:28 are 1 and bits 6:0 a CRC-7 (R439). -/
def tSite : DWord := BitVec.ofNat 64 (2 ^ 28 + 2 ^ 7 + crc7 (BitVec.ofNat 32 (2 ^ 28 + 2 ^ 7)))
def tFuse (f : Fuses) : State := { tUp with fuses := f, regs := [(configBase + 0x40, tSite)] }

theorem test_witness_FusesAndRecords : (tUp.gate .steward 0xA00068 true).2 = true ∧ (tFuse {}).fuses.busy = none ∧
    (tFuse {}).fuses.badEntry (tFuse {}).fuseEntry = false ∧
    (tFuse { busy := some (.revokeFw 3) }).fuses.busy = some (.revokeFw 3) ∧
    tUp.up = true ∧ tUp.boot.st ≠ .restarting ∧
    ({ tUp with boot := { tUp.boot with st := .restarting } } : State).boot.st = .restarting := by decide +kernel

theorem test_fuses : (tRun (.appendSite .steward) (tFuse {})).fuses.busy = some (.appendSite (tSite.setWidth 32)) ∧
    (tRun (.fuseProgrammingDone true) (tRun (.appendSite .steward) (tFuse {}))).fuses.infield = [tSite.setWidth 32] ∧
    (tRun (.revokeFwKey .steward 3) (tFuse {})).fuses.busy = some (.revokeFw 3) ∧
    (tRun (.revokeFwKey .steward 4) (tFuse {})).fuses.busy = none ∧
    (tRun (.programOwner .steward 1) (tFuse {})).fuses.busy = some (.programOwner 1 0) ∧
    (tRun (.revokeOwner .steward 1) (tFuse {})).fuses.busy = none ∧
    (tRun (.fuseProgrammingDone false) (tFuse { busy := some (.revokeFw 3) })).fuses = {} := by decide +kernel

theorem test_wear : (tRun (.wearAppend [(0, 5)] true false) tUp).store.seq = 1 ∧
    (tRun (.wearAppend [] false false) tUp).store.records = [] ∧
    (tRun (.wearAppend [(0, 5)] true false) tUp).store.recsB.all = [] := by
  decide +kernel

theorem test_witness_FusesBurnOneWay : ({} : Fuses).steady ∧ State.reset.fuses.steady := by
  constructor <;> intro _ _ h <;> cases h

theorem test_witness_KeyGuard : tUp.up = true ∧ tUp.mgmt 1 = true ∧ blockOf (0x040000 + 0xFF8) = some 0x040000 ∧
    tUp.absent 0x040FF8 = false ∧
    (tUp.guard 0x040000).locked = false ∧ (0x6B70 : DWord) ≠ 0x6B71 ∧ (tUp.guard 0x040000).faults < 15 ∧
    (({ tUp with guards := [(0x040000, { faults := 15 })] } : State).guard 0x040000).faults = 15 ∧
    (({ tUp with guards := [(0x040000, { armed := true })] } : State).guard 0x040000).armed = true ∧
    tUp.absent (tBlock + 0x1500) = false ∧ tUp.posted.find? tBlock = none ∧ (tUp.guard tBlock).armed = false := by decide +kernel

theorem test_keys : ((tRun (.unlock tPath 0x040000 0x6B71) tUp).guard 0x040000).armed = true ∧
    ((tRun (.unlock tPath 0x040000 5) tUp).guard 0x040000).faults = 1 ∧
    ((tRun (.unlock tPath 0x040000 5) { tUp with guards := [(0x040000, { faults := 15 })] }).guard 0x040000).locked = true ∧
    ((tRun (.fallow tPath 0 false 1) tUp).guard tBlock).notArmed = true ∧
    (tRun (.deadmap .steward 0 1 true 1) tUp).posted.length = 1 := by
  decide +kernel

theorem test_witness_RegisterEffects : tUp.up = true ∧ (0xC0030 : BitVec 24) ≠ 0xC0028 ∧ bits (10000 : DWord) 0 14 ≤ 10000 ∧
    tUp.absent (mcBase 0 + 0x38) = false ∧ parishOfOff (tBlock + 8) = some 0 ∧ parishOfOff (tBlock + 0x10008) ≠ some 0 ∧
    coreWritable 0x1500 = false ∧ coreWritable 0x2028 = true := by decide +kernel

theorem test_registers : (tRun (.registerWrite .steward 0xC0028 10000) tUp).reg 0xC0028 = 10000 ∧
    (tRun (.registerWrite .steward 0xC0028 10001) tUp).reg 0xC0028 = 50 ∧
    (tRun (.registerWrite (.core tP) (BitVec.ofNat 24 (tBlock + 0x1500)) 1) tUp).reg (tBlock + 8) = 4 ∧
    (tRun (.ctrclr .steward (BitVec.ofNat 24 (mcBase 0 + 0xF0)) 1) tUp).posted.length = 1 := by decide +kernel

def tRas (r : Ras) : State := { tUp with allots := [], ras := r }

theorem test_witness_FaultSteward : (tRas { repairs := [⟨0, 3, 70⟩] }).ras.repairs[0]? = some ⟨0, 3, 70⟩ ∧
    (tRas { repairs := [⟨0, 3, 70⟩] }).mayRepair ⟨0, 3, 70⟩ = true ∧ (70 : Nat) < 100 ∧
    (tUp.gate .steward (rasBase + 0x20) true).2 = true ∧
    (tRas {}).honours = true ∧ (tRas {}).clk.switching = none ∧ (3 : Fin 8).val ≠ 1 ∧ (3 : Fin 8).val ≠ 2 ∧
    (tRas {}).reeve.steward ≠ (2 : Fin 8).val ∧ (tRas {}).ras.retired.contains 1 = false ∧ tUp.reeve.steward = 1 ∧ tUp.reeve.standby = true ∧
    (((tCore {}).setCore tP { mode := .ended }).core tP).mayRetire = true ∧
    (((tCore {}).setCore tP { mode := .ended }).core tP).wait = .none ∧ (tCore {}).frozen tP = false ∧
    (((tCore {}).setCore tP { mode := .ended }).core tP).t = (((tCore {}).setCore tP { mode := .ended }).core tP).tstart := by decide +kernel

theorem test_fault_steward : (tRun (.softRepair 0) (tRas { repairs := [⟨0, 3, 70⟩] })).rowDead 0 3 70 = true ∧
    (tRun (.suspectHold .steward true) tUp).ras.hold = true ∧
    (tRun (.suspectClear .steward) (tRas { suspects := [(0, ⟨1, 0, 0, 0, 0, 1, 0, 0⟩)] })).ras.suspects = [] ∧
    (tRun (.stewardRestart 1 3) tUp).reeve.failing = true ∧
    (tRun .reeveFailover (tRun (.stewardRestart 1 3) tUp)).reeve.steward = 2 ∧ (tRun (.stewardRestart 2 3) tUp).reeve.standby = false ∧ (tRun (.stewardRestart 1 2) tUp).ras.retired = [] ∧
    ((tRun (.endRetire tP) (tUp.setCore tP { mode := .ended })).core tP).mode = .retired := by decide +kernel

/-! ### The shape of commands: an ill-formed term for each check -/

theorem test_wf_loader : Instr.wf (.sramWrite tP true ⟨127, []⟩) = true ∧ Instr.wf (.sramWrite tP true ⟨128, []⟩) = false := by decide

theorem test_wf_tally : Instr.wf (.tallyOperationArrival tP false ⟨2, false⟩) = true ∧
    Instr.wf (.tallyOperationArrival tP false ⟨0, false⟩) = false ∧
    Instr.wf (.tallyOperationArrival tP false ⟨3, false⟩) = false := by decide

theorem test_wf_units : Instr.wf (.crierPlaneDown 0 true 15 0) = true ∧ Instr.wf (.crierPlaneDown 0 true 16 0) = false ∧
    Instr.wf (.thermalTrip true 63 0) = true ∧ Instr.wf (.thermalTrip true 64 0) = false := by decide

theorem test_wf_causes : Instr.wf (.guestLost 0 2) = true ∧ Instr.wf (.guestLost 0 3) = false ∧
    Instr.wf (.train 0 { tObs with group0 := false, group1 := false, cause := 1 }) = true ∧
    Instr.wf (.train 0 { tObs with group0 := false, group1 := false }) = false ∧
    Instr.wf (.trainingComplete 0 { tObs with group0 := false, group1 := false }) = false := by decide

theorem test_wf_packets : Instr.wf (.codeword 0 0 0 [(0, 68)] 0 10) = true ∧ Instr.wf (.codeword 0 0 0 [] 0 11) = false ∧
    Instr.wf (.codeword 0 0 0 [(0, 69)] 0 10) = false ∧
    Instr.wf (.fabricWrite 0 ⟨⟨0, List.replicate 32 0⟩, 0⟩) = true ∧
    Instr.wf (.fabricWrite 0 ⟨⟨0, List.replicate 33 0⟩, 0⟩) = false := by decide

end Sys2Proof.Machine
end

/-! Exceptions: the cause R82 reports of several, and the observation points of R81. -/

namespace Sys2Proof.Machine

/-! ### The cause reported (R82) -/

/-- Different causes have different ranks. -/
theorem Cause.eq_of_rank_eq {a b : Cause} (h : a.rank = b.rank) : a = b := by
  have hmem : ∀ c : Cause, c ∈ [Cause.fetchUe, .pc, .pred, .opcode, .reserved, .fmt, .queue, .index, .wbuf, .rows, .poison,
      .addr, .align, .ro] := fun c => by cases c <;> decide
  exact (List.idxOf_inj (hmem a)).1 (Nat.add_left_cancel h)

/-- The cause reported is one whose condition holds. -/
theorem mem_of_firstCause {l : List (Bool × Cause)} {d : Cause} (h : firstCause l = some d) : (true, d) ∈ l := by
  induction l generalizing d with
  | nil => simp [firstCause] at h
  | cons x t ih =>
    obtain ⟨b, c⟩ := x
    cases b with
    | false => exact List.mem_cons_of_mem _ (ih h)
    | true =>
      simp only [firstCause] at h
      split at h
      · simp_all
      · rename_i e he
        split at h
        · exact List.mem_cons_of_mem _ (ih (he.trans h))
        · simp_all

/-- No condition that holds has a cause of lower rank than the one reported. -/
theorem firstCause_rank_le {l : List (Bool × Cause)} {c : Cause} (h : (true, c) ∈ l) :
    ∃ d, firstCause l = some d ∧ d.rank ≤ c.rank := by
  induction l with
  | nil => simp at h
  | cons x t ih =>
    obtain ⟨b, e⟩ := x
    rcases List.mem_cons.1 h with hx | ht
    · obtain ⟨rfl, rfl⟩ := Prod.mk.inj hx
      simp only [firstCause]
      split
      · exact ⟨c, rfl, Nat.le_refl _⟩
      · rename_i d _
        by_cases hd : d.rank < c.rank
        · exact ⟨d, by simp [hd], Nat.le_of_lt hd⟩
        · exact ⟨c, by simp [hd], Nat.le_refl _⟩
    · obtain ⟨d, hd, hle⟩ := ih ht
      cases b with
      | false => exact ⟨d, hd, hle⟩
      | true =>
        by_cases hlt : d.rank < e.rank
        · exact ⟨d, by simp [firstCause, hd, hlt], hle⟩
        · exact ⟨e, by simp [firstCause, hd, hlt], by omega⟩

/-- A condition that holds is reported when no condition of lower rank holds. -/
theorem firstCause_eq {l : List (Bool × Cause)} {c : Cause} (h : (true, c) ∈ l)
    (hmin : ∀ x ∈ l, x.1 = true → c.rank ≤ x.2.rank) : firstCause l = some c := by
  obtain ⟨d, hd, hle⟩ := firstCause_rank_le h
  have hge : c.rank ≤ d.rank := hmin _ (mem_of_firstCause hd) rfl
  rw [hd, Cause.eq_of_rank_eq (Nat.le_antisymm hle hge)]

/-! ### A ready core that meets a poisoned operand -/

/-- A check finds a poisoned operand, and no condition that R82 ranks before POISON; the vector registers it reads are there. -/
structure Check.poisonFirst (k : Check) (c : Core) : Prop where
  found : (true, Cause.poison) ∈ k.on
  first : ∀ x ∈ k.word ++ k.always ++ k.on, x.1 = true → x.2 ∈ [Cause.poison, .addr, .align, .ro]
  unblocked : k.unblocked c

/-- R82 ranks none of these before POISON. -/
theorem Cause.poison_rank_le {c : Cause} (h : c ∈ [Cause.poison, .addr, .align, .ro]) : Cause.poison.rank ≤ c.rank := by
  simp only [List.mem_cons, List.not_mem_nil, or_false] at h
  rcases h with rfl | rfl | rfl | rfl <;> decide

/-- A ready core's fetch has no fault. -/
theorem State.ready.fetchFaults_false {s : State} {p : Pos} {pr : Pred} (h : s.ready p pr) :
    ∀ x ∈ (s.core p).fetchFaults pr, x.1 = false := by
  obtain ⟨_, _, hf, ht, _, hl, _⟩ := h
  intro x hx
  simp only [Core.fetchFaults, List.mem_cons, List.not_mem_nil, or_false] at hx
  rcases hx with rfl | rfl | rfl
  · simp only [hf, Bool.and_false]
  · simpa using ht
  · simpa using hl

/-- The verdict on it is POISON. -/
theorem judge_poison {s : State} {p : Pos} {pr : Pred} {k : Check} (h : s.ready p pr) (hk : k.poisonFirst (s.core p)) :
    (s.core p).judge pr k = .fault .poison := by
  have hf : firstCause ((s.core p).fetchFaults pr ++ k.word ++ k.always ++ k.on) = some .poison := by
    refine firstCause_eq (List.mem_append_right _ hk.found) fun x hx ht => ?_
    simp only [List.append_assoc] at hx
    rcases List.mem_append.1 hx with hx | hx
    · simp [h.fetchFaults_false x hx] at ht
    · exact Cause.poison_rank_le (hk.first x (by simpa using hx) ht)
  have hb : k.reads.any (fun r => (s.core p).accrdPending r.toNat) = false := by
    simpa [Check.unblocked] using hk.unblocked
  simp only [List.append_assoc] at hf
  simp [Core.judge, h.issues, h.assigned, h.taken, hb, hf]

/-- The word reported is the instruction's. -/
theorem State.ready.fetched_eq {s : State} {p : Pos} {pr : Pred} (h : s.ready p pr) (w : Word) : (s.core p).fetched w = w := by
  simp [Core.fetched, h.assigned]

theorem runCore_poison {s : State} {p : Pos} {pr : Pred} (w : Word) {k : Core → Check} (eff off : Core → Core)
    (h : s.ready p pr) (hk : (k (s.core p)).poisonFirst (s.core p)) :
    s.runCore p w pr k eff off = s.except p w .poison := by
  simp [State.runCore, h.thawed, judge_poison h hk, h.fetched_eq]

theorem runWide_poison {s : State} {p : Pos} {pr : Pred} (w : Word) {k : Core → Check} (eff off : State → State)
    (h : s.ready p pr) (hk : (k (s.core p)).poisonFirst (s.core p)) :
    s.runWide p w pr k eff off = s.except p w .poison := by
  simp [State.runWide, h.thawed, judge_poison h hk, h.fetched_eq]

/-! ### Events raised -/

/-- What delivering an event to rings can change: counters, messages sent, sessions. -/
def State.onlyDelivers (s t : State) : Prop := ∃ regs out ses, t = { s with regs := regs, out := out, ses := ses }

theorem State.onlyDelivers.trans {s t u : State} : s.onlyDelivers t → t.onlyDelivers u → s.onlyDelivers u := by
  rintro ⟨_, _, _, rfl⟩ ⟨regs, out, ses, rfl⟩
  exact ⟨regs, out, ses, rfl⟩

theorem State.onlyDelivers_foldl {α : Type} (f : State → α → State) (hf : ∀ (s : State) a, s.onlyDelivers (f s a)) (l : List α) :
    ∀ s : State, s.onlyDelivers (l.foldl f s) := by
  induction l with
  | nil => exact fun s => ⟨s.regs, s.out, s.ses, rfl⟩
  | cons a t ih => exact fun s => (hf s a).trans (ih _)

theorem State.postEvent_onlyDelivers (s : State) (id j : Nat) (e : Event) : s.onlyDelivers (s.postEvent id j e) := by
  unfold State.postEvent
  split
  · exact ⟨_, _, _, rfl⟩
  · dsimp only
    split <;> exact ⟨_, _, _, rfl⟩

theorem State.deliver_onlyDelivers (s : State) (e : Event) (d : Dest) : s.onlyDelivers (s.deliver e d) := by
  have same : ∀ t : State, t.onlyDelivers t := fun t => ⟨_, _, _, rfl⟩
  cases d with
  | allot a =>
    dsimp only [State.deliver]
    split
    · exact same s
    · exact s.postEvent_onlyDelivers _ _ _
  | session id =>
    dsimp only [State.deliver]
    split
    · exact same s
    · split
      · exact same s
      · exact s.postEvent_onlyDelivers _ _ _
  | sessions =>
    refine State.onlyDelivers_foldl
      (fun t (x : Nat × Session) => if x.2.ending ∨ masked x.2.mask e.code then t else t.postEvent x.1 0 e) (fun t x => ?_) _ s
    split
    · exact same t
    · exact t.postEvent_onlyDelivers _ _ _

/-- Raising an event logs it, and changes besides only counters, messages sent, sessions and what the board controller sees. -/
theorem State.raiseEvent_eq (s : State) (e : Event) (l : List Dest) :
    ∃ regs out ses unread pins, s.raiseEvent e l = { s with events := e :: s.events, regs := regs, out := out, ses := ses,
                                                            unreadBoard := unread, pins := pins } := by
  unfold State.raiseEvent
  dsimp only
  split
  all_goals
    obtain ⟨regs, out, ses, h⟩ := State.onlyDelivers_foldl _ (fun t d => t.deliver_onlyDelivers e d) l _
    exact ⟨regs, out, ses, _, _, h⟩

theorem State.raise_eq (s : State) (code : Nat) (al : Option Nat) (payload : List (Nat × Nat)) (l : List Dest) (count : Nat) :
    ∃ e regs out ses unread pins, e.code = code ∧
      s.raise code al payload l count = { s with events := e :: s.events, regs := regs, out := out, ses := ses,
                                                 unreadBoard := unread, pins := pins } := by
  obtain ⟨regs, out, ses, unread, pins, h⟩ := s.raiseEvent_eq
    { code := code, allot := al, tick := s.bell.count.toNat, tod := s.todNow, count := count, payload := payload } l
  exact ⟨_, regs, out, ses, unread, pins, rfl, h⟩

theorem State.raise_raises (s : State) (code : Nat) (al : Option Nat) (payload : List (Nat × Nat)) (l : List Dest) (count : Nat) :
    s.raises (s.raise code al payload l count) code := by
  obtain ⟨e, _, _, _, _, _, hc, h⟩ := s.raise_eq code al payload l count
  exact ⟨[e], by rw [h]; rfl, e, by simp, hc⟩

@[simp] theorem State.failRun_events (s : State) (a : Nat) (r : Option RunId) : (s.failRun a r).events = s.events := by
  unfold State.failRun State.haltNext State.chargeRun
  cases r <;> dsimp only <;> split <;> rfl

/-- An observation point not yet noted in its run raises POISON_CONSUMED (R464). -/
theorem State.observe_raises (s : State) (a : Nat) (ends : Bool) (record : List (Nat × Nat)) (r : Option RunId)
    (h : s.noted a evPoisonConsumed 0 r = false) : s.raises (s.observe a ends record r) evPoisonConsumed := by
  have hn : (s.bump (0x60100 + 8 * a)).noted a evPoisonConsumed 0 r = false := h
  have hr : s.raises ((s.bump (0x60100 + 8 * a)).raiseA evPoisonConsumed a record) evPoisonConsumed :=
    (s.bump (0x60100 + 8 * a)).raise_raises _ _ _ _ _
  unfold State.observe
  dsimp only
  rw [hn]
  cases ends
  · exact hr
  · simpa [State.raises] using hr

/-- A core that halts still executes the run of its ACTIVE bank. -/
theorem State.coreRun_halt (s : State) (p : Pos) :
    (s.setCore p { s.core p with mode := .halted }).coreRun p = s.coreRun p := by
  simp only [State.coreRun, State.core_setCore]
  rfl

/-- A core's POISON exception is an observation point that ends the run the core executes (R82, R464). -/
theorem State.except_poison_eq (s : State) (p : Pos) (w : Word) {a : Nat} (ha : s.allotOf p.parish = some a) :
    ∃ record, s.except p w .poison =
      (s.setCore p { s.core p with mode := .halted }).observe a true record (s.coreRun p) := by
  have ha' : (s.setCore p { s.core p with mode := .halted }).allotOf p.parish = some a := ha
  unfold State.except
  dsimp only
  rw [ha', s.coreRun_halt p]
  exact ⟨_, rfl⟩

/-- A core's POISON exception raises POISON_CONSUMED where its run has not noted one (R81, R464). -/
theorem State.except_poison_raises (s : State) (p : Pos) (w : Word) {a : Nat} (ha : s.allotOf p.parish = some a)
    (h : s.noted a evPoisonConsumed 0 (s.coreRun p) = false) : s.raises (s.except p w .poison) evPoisonConsumed := by
  obtain ⟨record, he⟩ := s.except_poison_eq p w ha
  rw [he]
  exact (s.setCore p { s.core p with mode := .halted }).observe_raises a true record _ h

/-! ### The instructions with an observation point (R81) -/

section Observed

variable {s : State} {p : Pos}

/-- A check whose only conditions at issue are its word's, all in order, and a poisoned operand. -/
theorem poisonFirst_of_word {k : Check} {c : Core} (hw : ∀ x ∈ k.word, x.1 = false) (ha : k.always = [])
    (ho : k.on = [(true, .poison)]) (hr : k.reads = []) : k.poisonFirst c where
  found := by simp [ho]
  first x hx ht := by
    simp only [ha, ho, List.append_nil, List.mem_append, List.mem_singleton] at hx
    rcases hx with hx | rfl
    · simp [hw x hx] at ht
    · simp
  unblocked := by simp [Check.unblocked, hr]

/-- The word of a predicate instruction that names p1 to p7 and has its reserved fields zero is in order (R52). -/
theorem predWord_false {f : FmtR} (h0 : f.rsv = 0) (h1 : 1 ≤ f.rd.toNat) (h7 : f.rd.toNat < 8) :
    ∀ x ∈ predWord f false, x.1 = false := by
  have : f.rd.toNat % 8 ≠ 0 := by omega
  simp [predWord, rsvR, h0, h7, this]

theorem pcmp_poison {f : FmtR} (hs : s.ready p f.pr) (h0 : f.rsv = 0) (h1 : 1 ≤ f.rd.toNat) (h7 : f.rd.toNat < 8)
    (hp : (s.core p).spois f.ra = true ∨ (s.core p).spois f.rb = true) (func : BitVec 6) (test : Word → Word → Bool) :
    pcmp p func f test s = s.except p (wordR 0x7 func f) .poison :=
  runCore_poison _ _ _ hs (poisonFirst_of_word (predWord_false h0 h1 h7) rfl (by simpa using hp) rfl)

theorem branchOn_poison {f : FmtB} (hs : s.ready p f.pr)
    (hp : (s.core p).spois f.ra = true ∨ (s.core p).spois f.rb = true) (cond : BitVec 3) (test : Word → Word → Bool) :
    branchOn p cond f test s = s.except p (wordB cond f) .poison :=
  runCore_poison _ _ _ hs (poisonFirst_of_word (by simp) rfl (by simpa using hp) rfl)

/-- An access through a poisoned address register: POISON goes before ADDR, ALIGN and RO (R82). -/
theorem accessChecks_poisonFirst {c : Core} {r : BitVec 5} (hp : c.spois r = true) (ea n al : Nat) (store : Bool)
    (reads : List (BitVec 4)) (hr : ∀ v ∈ reads, c.accrdPending v.toNat = false) :
    Check.poisonFirst { on := accessChecks c r ea n al store, reads := reads } c where
  found := by simp [accessChecks, hp]
  first := by simp [accessChecks]
  unblocked := hr

theorem scalarLoad_poison {f : FmtI} (hs : s.ready p f.pr) (hp : (s.core p).spois f.ra = true) (f3 : BitVec 3) (n : Nat)
    (conv : Nat → Word) : scalarLoad p f3 f n conv s = s.except p (wordI 0x4 f3 f) .poison := by
  unfold scalarLoad
  exact runWide_poison _ _ _ hs (accessChecks_poisonFirst hp _ _ _ _ [] (by simp))

theorem scalarStore_poison {f : FmtI} (hs : s.ready p f.pr) (hp : (s.core p).spois f.ra = true) (f3 : BitVec 3) (n : Nat) :
    scalarStore p f3 f n s = s.except p (wordI 0x4 f3 f) .poison := by
  unfold scalarStore
  exact runWide_poison _ _ _ hs (accessChecks_poisonFirst hp _ _ _ _ [] (by simp))

/-- A tally instruction of a tally there is, in the allotment's own hub tallies, whose count is poisoned (R65, R81). -/
theorem tallyChecks_poisonFirst {f : FmtT} (h0 : f.rsv = 0) (h1 : f.one = 0) (hi : f.idx.toNat < tallyRange f.lvl.toNat)
    (hh : f.lvl = 2 → s.hubOwner f.idx.toNat = s.allotOf p.parish) (hp : (s.core p).spois f.rs = true) :
    (tallyChecks s p f true (s.core p)).poisonFirst (s.core p) where
  found := by simp [tallyChecks, h1, hp]
  first := by simp +contextual [tallyChecks, h0, h1, hi, hh]
  unblocked := by simp [Check.unblocked, tallyChecks]

theorem tallyPost_poison {f : FmtT} (hs : s.ready p f.pr)
    (hk : (tallyChecks s p f true (s.core p)).poisonFirst (s.core p)) (top : BitVec 3) (op : TallyOp) :
    tallyPost p top op f s = s.except p (wordT top f) .poison :=
  runWide_poison _ _ _ hs hk

theorem tallyHold_poison {f : FmtT} (hs : s.ready p f.pr)
    (hk : (tallyChecks s p f true (s.core p)).poisonFirst (s.core p)) (top : BitVec 3) {op : TallyOp} (ho : op ≠ .readVal) :
    tallyHold p top op f s = s.except p (wordT top f) .poison :=
  runWide_poison _ _ _ hs (by simpa [ho] using hk)

/-- A launch through a poisoned register reads no descriptor: the checks of the register alone decide (R66, R82). -/
theorem launchPlace_poisonFirst {c : Core} {f : FmtD} (h0 : f.rsv = 0) (hd : f.rd = 0) (hp : c.spois f.ra = true) :
    Check.poisonFirst { word := launchRsv f, on := launchPlace c f } c where
  found := by simp [launchPlace, hp]
  first := by simp [launchRsv, launchPlace, h0, hd]
  unblocked := by simp [Check.unblocked]

theorem launch_poison {f : FmtD} (hs : s.ready p f.pr) (h0 : f.rsv = 0) (hd : f.rd = 0) (hp : (s.core p).spois f.ra = true)
    (dop : BitVec 2) (ch : Chan) : s.launch p dop ch f = s.except p (wordD dop f) .poison := by
  have hk := launchPlace_poisonFirst h0 hd hp
  have hany : (launchPlace (s.core p) f).any (·.1) = true := by simp [launchPlace, hp]
  unfold State.launch
  simp only [judge_poison hs hk]
  exact runWide_poison _ _ _ hs (by simpa [hany] using hk)

theorem execWld_poison {f : FmtM} (hs : s.ready p f.pr) (h0 : f.rsv = 0) {m : MFmt} (hm : mfmt f.a.toNat = some m)
    (hacc : f.acc = 0) (hb : f.b.toNat % 4 = 0) (hsb : f.sb = 0) (hsp : bit f.b 2 = true → sparseOk f.a.toNat = true)
    (hp : (s.core p).spois f.sa = true) : execWld p f s = .next (s.except p (wordM 0 f) .poison) := by
  refine congrArg _ (runCore_poison _ _ _ hs ⟨by simp [hp], ?_, by simp [Check.unblocked]⟩)
  simp +contextual [h0, hacc, hb, hsb, hm, hsp]

theorem execMma_poison {f : FmtM} (hs : s.ready p f.pr) (h0 : f.rsv = 0) (hb : f.b = 0)
    (hbf : (s.core p).bufFmt f.w ≠ none) (hp : (s.core p).spois f.sa = true ∨ (s.core p).spois f.sb = true) :
    execMma p f s = .next (s.except p (wordM 1 f) .poison) := by
  refine congrArg _ (runCore_poison _ _ _ hs ⟨by simp [hb, hp], ?_, by simp [Check.unblocked]⟩)
  simp [h0, hb, hbf]

theorem execPset_poison {f : FmtR} (hs : s.ready p f.pr) (h0 : f.rsv = 0) (h1 : 1 ≤ f.rd.toNat) (h7 : f.rd.toNat < 8)
    (hb : f.rb = 0) (hp : (s.core p).spois f.ra = true) :
    execPset p f s = .next (s.except p (wordR 0x7 0x08 f) .poison) :=
  congrArg _ (runCore_poison _ _ _ hs
    (poisonFirst_of_word (by simpa [hb] using predWord_false h0 h1 h7) rfl (by simp [hp]) rfl))

theorem execJalr_poison {f : FmtR} (hs : s.ready p f.pr) (h0 : f.rsv = 0) (hp : (s.core p).spois f.ra = true) :
    execJalr p f s = .next (s.except p (wordR 0x0 0x03 f) .poison) :=
  congrArg _ (runCore_poison _ _ _ hs (poisonFirst_of_word (by simp [rsvR, h0]) rfl (by simp [hp]) rfl))

theorem execBellwait_poison {f : FmtR} (hs : s.ready p f.pr) (h0 : f.rsv = 0) (hp : (s.core p).spois f.ra = true) :
    execBellwait p f s = .next (s.except p (wordR 0x0 0x06 f) .poison) :=
  congrArg _ (runWide_poison _ _ _ hs (poisonFirst_of_word (by simp [rsvR, h0]) rfl (by simp [hp]) rfl))

/-- A write of a special register that is not read-only observes its source (R50, R81). -/
theorem execCsrw_poison {f : FmtR} (hs : s.ready p f.pr) (h0 : f.rsv = 0) (hro : csrRo (csrNo f) = false)
    (hp : (s.core p).spois f.rd = true) : execCsrw p f s = .next (s.except p (wordR 0x0 0x05 f) .poison) :=
  congrArg _ (runCore_poison _ _ _ hs (poisonFirst_of_word (by simp [rsvR, h0, hro]) rfl (by simp [hp]) rfl))

theorem execLoop_poison {f : FmtB} (hs : s.ready p f.pr) (hb : f.rb = 0) (hp : (s.core p).spois f.ra = true) :
    execLoop p f s = .next (s.except p (wordB 6 f) .poison) :=
  congrArg _ (runCore_poison _ _ _ hs (poisonFirst_of_word (by simp [hb]) rfl (by simp [hp]) rfl))

theorem execVld_poison {f : FmtVM} (hs : s.ready p f.pr) (hp : (s.core p).spois f.ra = true) :
    execVld p f s = .next (s.except p (wordVM 0 f) .poison) :=
  congrArg _ (runWide_poison _ _ _ hs (k := fun c => { on := accessChecks c f.ra (vecEa (s.core p) f) 64 16 false })
    (accessChecks_poisonFirst hp _ _ _ _ [] (by simp)))

theorem execVst_poison {f : FmtVM} (hs : s.ready p f.pr) (hp : (s.core p).spois f.ra = true)
    (hv : (s.core p).accrdPending f.vd.toNat = false) : execVst p f s = .next (s.except p (wordVM 1 f) .poison) :=
  congrArg _ (runCore_poison _ _ _ hs
    (k := fun c => { on := accessChecks c f.ra (vecEa (s.core p) f) 64 16 true, reads := [f.vd] })
    (accessChecks_poisonFirst hp _ _ _ _ [f.vd] (by simpa using hv)))

end Observed

/-- Settles O17: R82 ranks nothing a ready core can meet at these instructions before POISON, and taking it raises the event. -/
theorem observationPoints : Obligations.ObservationPoints := by
  intro p s c used
  have use {i : Instr} {w : Word} {t : State} (he : exec i s = .next t) (ht : t = s.except p w .poison) : used i :=
    ⟨w, ht ▸ he⟩
  refine ⟨fun w a ha hn => s.except_poison_raises p w ha hn,
    fun f hs h0 => ⟨fun h1 h7 => ⟨fun hp => ?pcmp, fun hb hp => ?pset⟩, fun hp => ⟨?jalr, ?bellwait⟩, fun hp hn => ?csrw⟩,
    fun f hs => ⟨fun hp => ?branch, fun hb hp => ?loop⟩, fun f hs hp => ?scalarAccess, fun f hs hp => ⟨?vld, fun hv => ?vst⟩,
    fun f hs h0 h1 hi hh hp => ?tally, fun f hs h0 hd hp => ?launch,
    fun f hs h0 => ⟨fun m hm hacc hb hsb hsp hp => ?wld, fun hb hbf hp => ?mma⟩⟩
  case pcmp =>
    have h := pcmp_poison hs h0 h1 h7 hp
    exact ⟨use rfl (h _ _), use rfl (h _ _), use rfl (h _ _), use rfl (h _ _), use rfl (h _ _), use rfl (h _ _)⟩
  case pset => exact ⟨_, execPset_poison hs h0 h1 h7 hb hp⟩
  case jalr => exact ⟨_, execJalr_poison hs h0 hp⟩
  case bellwait => exact ⟨_, execBellwait_poison hs h0 hp⟩
  case csrw =>
    have hro : csrRo (csrNo f) = false := by
      unfold csrNo
      rcases hn with hn | hn <;> rw [hn] <;> decide
    exact ⟨_, execCsrw_poison hs h0 hro hp⟩
  case branch =>
    have h := branchOn_poison hs hp
    exact ⟨use rfl (h _ _), use rfl (h _ _), use rfl (h _ _), use rfl (h _ _), use rfl (h _ _), use rfl (h _ _)⟩
  case loop => exact ⟨_, execLoop_poison hs hb hp⟩
  case scalarAccess =>
    have hl := scalarLoad_poison hs hp
    have hst := scalarStore_poison hs hp
    exact ⟨use rfl (hl _ _ _), use rfl (hl _ _ _), use rfl (hl _ _ _), use rfl (hst _ _), use rfl (hst _ _)⟩
  case vld => exact ⟨_, execVld_poison hs hp⟩
  case vst => exact ⟨_, execVst_poison hs hp hv⟩
  case tally =>
    have hk := tallyChecks_poisonFirst h0 h1 hi hh hp
    exact ⟨use rfl (tallyPost_poison hs hk _ _), use rfl (tallyPost_poison hs hk _ _),
      use rfl (tallyHold_poison hs hk _ (by decide)), use rfl (tallyHold_poison hs hk _ (by decide))⟩
  case launch => exact ⟨use rfl (launch_poison hs h0 hd hp _ _), use rfl (launch_poison hs h0 hd hp _ _)⟩
  case wld => exact ⟨_, execWld_poison hs h0 hm hacc hb hsb hsp hp⟩
  case mma => exact ⟨_, execMma_poison hs h0 hb hbf hp⟩

end Sys2Proof.Machine

/-! Data SRAM from the hub: a request of the direct view from its well to its core and back (R40). -/

namespace Sys2Proof.Machine

/-! ### Requests of the direct view at their well (R40, R181) -/

/-- READ and WRITE take a request that has reached its well through the well's check. -/
theorem exec_toWell {s : State} {id : Nat} {r : Req} (hr : s.reqs.find? id = some r) (hst : r.stage = .toWell)
    (slow : List (Fin 64 × Nat)) :
    (if r.ch = .load then exec (.read ⟨id, slow⟩) s else exec (.write ⟨id, slow⟩) s) = .next (s.wellCheck id r slow) := by
  have hat : s.atWell ⟨id, slow⟩ r.ch = s.wellCheck id r slow := by simp [State.atWell, hr, hst]
  rw [← hat]
  cases r.ch <;> rfl

/-- The ranges of R181: an address of the direct view is neither memory nor a commons window. -/
theorem State.wellCheck_direct {s : State} {r : Req} (hon : (s.parish r.core.parish).railOn = true)
    (hdark : (s.parish r.core.parish).dark = false) (hw : s.wellOf r.core ≠ none) (hlo : directBase ≤ r.addr)
    (hhi : r.addr < directBase + 2 ^ 37) (id : Nat) (slow : List (Fin 64 × Nat)) :
    s.wellCheck id r slow = s.wellDirect id r := by
  have hmem : ¬ r.addr < 2 * nearBase := by simp only [directBase, nearBase] at *; omega
  have hcom : ¬ r.addr < directBase := by omega
  unfold State.wellCheck
  simp only [hon, hdark, Bool.not_true, Bool.or_self, Bool.false_eq_true, if_false, Option.isNone_iff_eq_none, hw, hmem, hcom,
    hhi, if_true]

/-- A core of the requester's allotment in a lit parish with a well: its SRAM is named, or fallow (R136, R181). -/
theorem State.wellDirect_eq {s : State} {r : Req} {q : Pos} {a : Nat}
    (hq : posOfId ((r.addr - directBase) / 2 ^ 17) = some q) (ha : s.allotOf r.core.parish = some a)
    (hqa : s.allotOf q.parish = some a) (hon : (s.parish q.parish).railOn = true) (hdark : (s.parish q.parish).dark = false)
    (hw : s.wellOf q ≠ none) (id : Nat) :
    s.wellDirect id r = { s with reqs := s.reqs.put id (if s.fallow q.parish q.col
      then { r with stage := .toCarter, status := 1, data := [], poison := [] }
      else { r with stage := .atField, target := some q }) } := by
  unfold State.wellDirect
  rw [hq, ha]
  cases hf : s.fallow q.parish q.col <;>
    simp [State.wellDirectAt, hqa, hon, hdark, hw, hf, State.wellRefuse, State.wellAnswer]

/-! ### A request at its core (R40, R178, R179) -/

/-- A direct-view request has reached the field, and core `q`, which it names, can take it now. -/
structure State.fieldReady (s : State) (id : Nat) (r : Req) (q : Pos) : Prop where
  found : s.reqs.find? id = some r
  atField : r.stage = .atField
  target : r.target = some q
  alive : s.alive q = true
  portOpen : s.portOpen q false = true
  reaches : s.hubToWell r.core (s.sectorOf q) = true

/-- Offsets past the data SRAM are unpopulated (R40). -/
theorem exec_pastSram {s : State} {id : Nat} {r : Req} {q : Pos} (h : s.fieldReady id r q)
    (hpast : 0x18000 < (r.addr - directBase) % 2 ^ 17 + r.piece.len) :
    (if r.ch = .load then exec (.sramRead id) s else exec (.sramWrite q false ⟨id, []⟩) s) =
      .next (s.fieldAnswer q id r 1 [] []) := by
  obtain ⟨hr, hst, ht, ha, hp, hh⟩ := h
  have hin : r.inSram = false := by
    unfold Req.inSram
    exact decide_eq_false (by omega)
  cases hch : r.ch
  · rw [if_pos rfl]
    show execSramRead id s = _
    simp [execSramRead, hr, hst, ht, ha, hp, hh, hin, hch]
  · rw [if_neg (by decide)]
    show execSramWrite q false ⟨id, []⟩ s = _
    simp [execSramWrite, State.sramWriteAt, hr, hst, ht, ha, hp, hh, hin, hch]

theorem execSramRead_inSram {s : State} {id : Nat} {r : Req} {q : Pos} (h : s.fieldReady id r q) (hin : r.inSram = true)
    (hch : r.ch = .load) (htouch : ∀ b n, s.touchSram q 0 b n = s) :
    execSramRead id s =
      let a := (r.addr - directBase) % 2 ^ 17
      .next (s.fieldAnswer q id r 0 ((s.core q).bytes a r.piece.len)
        ((rowsOf a r.piece.len).map fun w => (s.core q).poisoned (16 * w) 16)) := by
  obtain ⟨hr, hst, ht, ha, hp, hh⟩ := h
  have htouch' : ∀ b n, s.touchSram q 0#32 b n = s := htouch
  simp [execSramRead, hr, hst, ht, ha, hp, hh, hin, hch, htouch']

/-- The bytes a direct-view write gives the core's data SRAM, with the poison of their rows. -/
def Req.sramBytes (r : Req) : List (Nat × Option Byte × Bool) :=
  let a := (r.addr - directBase) % 2 ^ 17
  (r.data.zipIdx).map fun e => (a + e.2, some e.1, (r.poison[(a + e.2) / 16 - a / 16]?).getD false)

theorem execSramWrite_inSram {s : State} {id : Nat} {r : Req} {q : Pos} (h : s.fieldReady id r q) (hin : r.inSram = true)
    (hch : r.ch = .store) :
    execSramWrite q false ⟨id, []⟩ s = .next ((s.carterWrite q r.sramBytes).fieldAnswer q id r 0 [] []) := by
  obtain ⟨hr, hst, ht, ha, hp, hh⟩ := h
  simp [execSramWrite, State.sramWriteAt, hr, hst, ht, ha, hp, hh, hin, hch, Req.sramBytes]

@[simp] theorem State.fieldAnswer_reqs (s : State) (q : Pos) (id : Nat) (r : Req) (status : BitVec 4) (data : List Byte)
    (poison : List Bool) : (s.fieldAnswer q id r status data poison).reqs.find? id =
      some { r with stage := .fieldResp, status := status, data := data, poison := poison } := by
  simp [State.fieldAnswer]

@[simp] theorem State.fieldAnswer_byte (s : State) (q : Pos) (id : Nat) (r : Req) (status : BitVec 4) (data : List Byte)
    (poison : List Bool) : ((s.fieldAnswer q id r status data poison).core q).byte = (s.core q).byte := by
  show ((s.updCore q fun c => { c with answers := c.answers ++ [id] }).core q).byte = _
  rw [State.core_updCore]
  rfl

/-- The oldest answer of a core leaves and goes to the requester (R120, R178). -/
theorem exec_fieldReturn {s : State} {id : Nat} {r : Req} {q : Pos} (hr : s.reqs.find? id = some r) (hst : r.stage = .fieldResp)
    (ht : r.target = some q) (hm : s.mayAnswer id q = true) :
    (if r.ch = .load then exec (.sramReadResp id) s else exec (.sramWriteAck id) s) =
      .next { s.updCore q fun c => { c with answers := c.answers.erase id } with
              reqs := s.reqs.put id { r with stage := .toCarter } } := by
  have h : s.fieldReturn id r.ch = { s.updCore q fun c => { c with answers := c.answers.erase id } with
      reqs := s.reqs.put id { r with stage := .toCarter } } := by
    simp [State.fieldReturn, hr, hst, ht, hm, State.wellAnswer]
  rw [← h]
  cases r.ch <;> rfl

/-! ### What a read of data SRAM leaves of its bytes (R74, R75) -/

@[simp] theorem State.raise_cores (s : State) (code : Nat) (al : Option Nat) (payload : List (Nat × Nat)) (l : List Dest)
    (count : Nat) : (s.raise code al payload l count).cores = s.cores := by
  obtain ⟨_, _, _, _, _, _, _, h⟩ := s.raise_eq code al payload l count
  rw [h]

@[simp] theorem State.raiseDataUe_cores (s : State) (p : Pos) (w : Word) : (s.raiseDataUe p w).cores = s.cores := by
  unfold State.raiseDataUe
  dsimp only
  split
  · rfl
  · exact State.raise_cores _ _ _ _ _ _

@[simp] theorem State.softDead_cores (s : State) (par : Fin 78) (col : Fin 80) (phys : Nat) (i : Option Nat) :
    (s.softDead par col phys i).cores = s.cores := by
  unfold State.softDead State.raiseSuspect
  dsimp only
  cases i with
  | none => dsimp only; split <;> rfl
  | some i =>
    dsimp only
    rw [State.raise_cores]
    split <;> rfl

@[simp] theorem State.strikeSite_cores (s : State) (p : Pos) (lost : Bool) : (s.strikeSite p lost).cores = s.cores := by
  unfold State.strikeSite
  simp only [apply_ite State.cores, State.softDead_cores, ite_self]

/-- A core is what the table of cores holds. -/
theorem State.core_congr {s t : State} (h : t.cores = s.cores) (p : Pos) : t.core p = s.core p := by
  simp only [State.core, h]

@[simp] theorem State.checkCe_byte (s : State) (p : Pos) : ((s.checkCe p).core p).byte = (s.core p).byte := by
  unfold State.checkCe
  dsimp only
  split
  · rw [State.core_congr (State.strikeSite_cores _ _ _), State.core_congr (State.raise_cores _ _ _ _ _ _), State.core_setCore]
    rfl
  · rfl

/-- Errors met change no byte of data SRAM: a bad word takes the poison pattern. -/
@[simp] theorem State.touchSram_byte (s : State) (p : Pos) (w : Word) (a n : Nat) :
    ((s.touchSram p w a n).core p).byte = (s.core p).byte := by
  have fold (l : List Nat) : ∀ t : State, (l.foldl (fun t _ => t.raiseDataUe p w) t).cores = t.cores := by
    induction l with
    | nil => exact fun _ => rfl
    | cons x l ih => exact fun t => (ih _).trans (t.raiseDataUe_cores p w)
  have touched : ((s.setCore p ((s.core p).touch a n).1).core p).byte = (s.core p).byte := by
    rw [State.core_setCore]
    rfl
  unfold State.touchSram
  dsimp only
  rw [State.checkCe_byte, State.core_congr (fold _ _)]
  split
  · exact touched
  · exact touched

/-! ### What the carter's local write leaves (R72, R218) -/

/-- The bytes of a list written to data SRAM; one without a value keeps its byte. -/
def Core.setEach (c : Core) (l : List (Nat × Option Byte × Bool)) : Core :=
  l.foldl (fun c e => match e.2.1 with
    | some v => c.setByte e.1 v
    | none => c) c

/-- A byte that the list gives no value is kept. -/
theorem Core.byte_setEach_out {k : Nat} (l : List (Nat × Option Byte × Bool)) :
    ∀ c : Core, (∀ e ∈ l, e.1 = k → e.2.1 = none) → (c.setEach l).byte k = c.byte k := by
  induction l with
  | nil => exact fun _ _ => rfl
  | cons e t ih =>
    intro c h
    obtain ⟨a, v, b⟩ := e
    refine (ih _ fun x hx => h x (List.mem_cons_of_mem _ hx)).trans ?_
    cases v with
    | none => rfl
    | some v =>
      have hk : k ≠ a := fun hk => by simpa using h _ List.mem_cons_self hk.symm
      exact Core.byte_setByte_ne c v hk

/-- A byte that the list gives a value, and no other entry another, has it. -/
theorem Core.byte_setEach_in {k : Nat} {v : Byte} (l : List (Nat × Option Byte × Bool)) :
    ∀ c : Core, (∃ e ∈ l, e.1 = k) → (∀ e ∈ l, e.1 = k → e.2.1 = some v) → (c.setEach l).byte k = v := by
  induction l with
  | nil => intro c h; simp at h
  | cons e t ih =>
    intro c h hv
    have hv' : ∀ x ∈ t, x.1 = k → x.2.1 = some v := fun x hx => hv x (List.mem_cons_of_mem _ hx)
    by_cases ht : ∃ x ∈ t, x.1 = k
    · exact ih _ ht hv'
    · have he : e.1 = k := by
        obtain ⟨x, hx, hk⟩ := h
        rcases List.mem_cons.1 hx with rfl | hx
        · exact hk
        · exact absurd ⟨x, hx, hk⟩ ht
      refine (Core.byte_setEach_out t _ fun x hx hk => absurd ⟨x, hx, hk⟩ ht).trans ?_
      simp only [hv e List.mem_cons_self he, ← he, Core.byte_setByte]

/-- One word of a local write. -/
def State.carterWord (s : State) (p : Pos) (l : List (Nat × Option Byte × Bool)) (w : Nat) : State :=
  let es := l.filter fun e => decide (e.1 / 8 = w)
  let full := decide ((es.filter fun e => e.2.1.isSome).length = 8)
  let bad := es.any fun e => e.2.2
  let s := if full then s else s.touchSram p 0 (8 * w) 8
  s.updCore p fun c =>
    let was := c.sramPoison.contains w
    let c := c.setEach es
    let c := if full then
        { c with ue := c.ue.filter (· ≠ w), ce := c.ce.filter (· ≠ w), writeback := c.writeback.filter (· ≠ w) }
      else c
    c.setPoison w (bad || (!full && was))

/-- The words a local write touches. -/
def writtenWords (l : List (Nat × Option Byte × Bool)) : List Nat :=
  ((l.filter fun e => e.2.1.isSome || e.2.2).map fun e => e.1 / 8).dedup

theorem State.carterWrite_eq (s : State) (p : Pos) (l : List (Nat × Option Byte × Bool)) :
    s.carterWrite p l = (writtenWords l).foldl (fun s w => s.carterWord p l w) s := rfl

/-- A word written is its entries set at a core whose bytes are as they were. -/
theorem State.carterWord_byte (s : State) (p : Pos) (l : List (Nat × Option Byte × Bool)) (w : Nat) :
    ∃ c : Core, c.byte = (s.core p).byte ∧
      ((s.carterWord p l w).core p).byte = (c.setEach (l.filter fun e => decide (e.1 / 8 = w))).byte := by
  unfold State.carterWord
  dsimp only
  rw [State.core_updCore]
  split
  · exact ⟨_, rfl, rfl⟩
  · exact ⟨_, State.touchSram_byte s p 0 (8 * w) 8, rfl⟩

/-- A word written leaves a byte to which its entries give no value. -/
theorem State.carterWord_byte_out (s : State) (p : Pos) (l : List (Nat × Option Byte × Bool)) {w k : Nat}
    (h : ∀ e ∈ l, e.1 / 8 = w → e.1 = k → e.2.1 = none) : ((s.carterWord p l w).core p).byte k = (s.core p).byte k := by
  obtain ⟨c, hc, hw⟩ := s.carterWord_byte p l w
  rw [hw, ← hc]
  exact Core.byte_setEach_out _ c fun e he => h e (List.mem_filter.1 he).1 (by simpa using (List.mem_filter.1 he).2)

theorem State.carterWords_byte_out (p : Pos) (l : List (Nat × Option Byte × Bool)) {k : Nat} (ws : List Nat) :
    ∀ s : State, (∀ w ∈ ws, ∀ e ∈ l, e.1 / 8 = w → e.1 = k → e.2.1 = none) →
      ((ws.foldl (fun s w => s.carterWord p l w) s).core p).byte k = (s.core p).byte k := by
  induction ws with
  | nil => exact fun _ _ => rfl
  | cons w ws ih =>
    exact fun s h => (ih _ fun x hx => h x (List.mem_cons_of_mem _ hx)).trans (s.carterWord_byte_out p l (h w List.mem_cons_self))

/-- The last word written that holds a byte settles it. -/
theorem State.carterWords_byte_in (p : Pos) (l : List (Nat × Option Byte × Bool)) {k : Nat} {v : Byte}
    (hin : ∃ e ∈ l, e.1 = k) (hv : ∀ e ∈ l, e.1 = k → e.2.1 = some v) (ws : List Nat) :
    ∀ s : State, k / 8 ∈ ws → ((ws.foldl (fun s w => s.carterWord p l w) s).core p).byte k = v := by
  induction ws with
  | nil => intro s h; simp at h
  | cons w ws ih =>
    intro s h
    by_cases ht : k / 8 ∈ ws
    · exact ih _ ht
    · have hk : k / 8 = w := (List.mem_cons.1 h).resolve_right ht
      refine (State.carterWords_byte_out p l ws _ fun x hx e _ hw he => absurd (he ▸ hw ▸ hx) ht).trans ?_
      obtain ⟨c, _, hc⟩ := s.carterWord_byte p l w
      rw [hc]
      obtain ⟨e, he, hek⟩ := hin
      exact Core.byte_setEach_in _ c ⟨e, List.mem_filter.2 ⟨he, by simp [hek, hk]⟩, hek⟩
        fun x hx => hv x (List.mem_filter.1 hx).1

/-- A byte that a local write gives no value is kept. -/
theorem State.carterWrite_byte_out (s : State) (p : Pos) (l : List (Nat × Option Byte × Bool)) {k : Nat}
    (h : ∀ e ∈ l, e.1 = k → e.2.1 = none) : ((s.carterWrite p l).core p).byte k = (s.core p).byte k :=
  State.carterWords_byte_out p l _ s fun _ _ e he _ => h e he

/-- A byte that a local write gives a value, and no other entry another, has it. -/
theorem State.carterWrite_byte_in (s : State) (p : Pos) (l : List (Nat × Option Byte × Bool)) {k : Nat} {v : Byte}
    (hin : ∃ e ∈ l, e.1 = k) (hv : ∀ e ∈ l, e.1 = k → e.2.1 = some v) : ((s.carterWrite p l).core p).byte k = v := by
  refine State.carterWords_byte_in p l hin hv _ s ?_
  obtain ⟨e, he, hk⟩ := hin
  exact List.mem_dedup.2 (List.mem_map.2 ⟨e, List.mem_filter.2 ⟨he, by simp [hv e he hk]⟩, by rw [hk]⟩)

/-- A direct-view write gives a value to the bytes from its offset on. -/
theorem Req.mem_sramBytes {r : Req} {e : Nat × Option Byte × Bool} (h : e ∈ r.sramBytes) :
    ∃ i, i < r.data.length ∧ e.1 = (r.addr - directBase) % 2 ^ 17 + i ∧ e.2.1 = r.data[i]? := by
  obtain ⟨⟨b, i⟩, hx, rfl⟩ := List.mem_map.1 h
  obtain ⟨_, hi, hb⟩ := List.mem_zipIdx hx
  have hi' : i < r.data.length := by simpa using hi
  exact ⟨i, hi', rfl, by simp [hb, hi']⟩

theorem Req.exists_sramBytes (r : Req) {i : Nat} (h : i < r.data.length) :
    ∃ e ∈ r.sramBytes, e.1 = (r.addr - directBase) % 2 ^ 17 + i :=
  ⟨_, List.mem_map.2 ⟨(r.data[i], i), List.mem_zipIdx_iff_getElem?.2 (by simp [h]), rfl⟩, rfl⟩

/-- A direct-view write stores its bytes (R40). -/
theorem State.carterWrite_sramBytes_in (s : State) (q : Pos) (r : Req) {i : Nat} (h : i < r.data.length) :
    ((s.carterWrite q r.sramBytes).core q).byte ((r.addr - directBase) % 2 ^ 17 + i) = (r.data[i]?).getD 0 := by
  refine s.carterWrite_byte_in q _ (r.exists_sramBytes h) fun e he hk => ?_
  obtain ⟨j, hj, ha, hv⟩ := Req.mem_sramBytes he
  obtain rfl : j = i := by omega
  simp [hv, hj]

/-- And no others. -/
theorem State.carterWrite_sramBytes_out (s : State) (q : Pos) (r : Req) {k : Nat}
    (h : k < (r.addr - directBase) % 2 ^ 17 ∨ (r.addr - directBase) % 2 ^ 17 + r.data.length ≤ k) :
    ((s.carterWrite q r.sramBytes).core q).byte k = (s.core q).byte k := by
  refine s.carterWrite_byte_out q _ fun e he hk => ?_
  obtain ⟨j, hj, ha, _⟩ := Req.mem_sramBytes he
  omega

end Sys2Proof.Machine

/-! The section loader: reads leave the bytes of device memory, and a block is written as its record gives it (R155). -/

namespace Sys2Proof.Tab

/-! ### The bytes of a bank -/

/-- A byte put into a bank's data, which lists none that is 0. -/
def putByte (t : Tab Byte) (k : Nat) (v : Byte) : Tab Byte := if v = 0 then t.del k else t.put k v

theorem getD_putByte_self (t : Tab Byte) (k : Nat) (v : Byte) : ((t.putByte k v).find? k).getD 0 = v := by
  unfold putByte
  split
  · simp [*]
  · simp

theorem find?_putByte_ne (t : Tab Byte) {k j : Nat} (v : Byte) (h : j ≠ k) : (t.putByte k v).find? j = t.find? j := by
  unfold putByte
  split
  · exact find?_del_ne t h
  · exact find?_put_ne t v h

/-- Bytes put from a place on are read back. -/
theorem getD_foldl_putByte (f : Nat → Byte) (base n : Nat) (t : Tab Byte) {j : Nat} (h : j < n) :
    (((List.range n).foldl (fun t j => t.putByte (base + j) (f (base + j))) t).find? (base + j)).getD 0 = f (base + j) := by
  induction n with
  | zero => omega
  | succ n ih =>
    rw [List.range_succ, List.foldl_append, List.foldl_cons, List.foldl_nil]
    by_cases hj : j = n
    · rw [hj, getD_putByte_self]
    · rw [find?_putByte_ne _ _ (by omega), ih (by omega)]

end Sys2Proof.Tab

namespace Sys2Proof.Machine

/-! ### Reads of device memory leave its bytes where they are (R198) -/

/-- Every interleaved address names the same byte, of the same value, in both states. -/
def State.sameImage (s t : State) : Prop := s.sameMem t ∧ t.boot.set = s.boot.set

theorem State.sameImage.refl (s : State) : s.sameImage s := ⟨⟨rfl, rfl, rfl⟩, rfl⟩

theorem State.sameImage.trans {s t u : State} (h : s.sameImage t) (g : t.sameImage u) : s.sameImage u :=
  ⟨h.1.trans g.1, g.2.trans h.2⟩

theorem State.sameImage_foldl {α : Type} (f : State → α → State) (hf : ∀ (s : State) (a : α), s.sameImage (f s a)) (l : List α) :
    ∀ s : State, s.sameImage (l.foldl f s) := by
  induction l with
  | nil => exact State.sameImage.refl
  | cons a t ih => exact fun s => (hf s a).trans (ih _)

theorem State.sameImage_ite {s t u : State} {c : Prop} [Decidable c] (ht : s.sameImage t) (hu : s.sameImage u) :
    s.sameImage (if c then t else u) := by
  split
  · exact ht
  · exact hu

theorem State.sameImage.memByte {s t : State} (h : s.sameImage t) : t.memByte = s.memByte := by
  obtain ⟨⟨hm, hf, hi⟩, _⟩ := h
  funext k
  simp only [State.memByte, State.memDefault, hm, hf, hi]

theorem State.sameImage.memKey {s t : State} (h : s.sameImage t) : t.memKey = s.memKey := by
  funext d
  simp only [State.memKey, State.nSet, h.2]

/-- What a bank receives depends on device memory's bytes alone (R155). -/
theorem State.sameImage.bankByte {s t : State} (h : s.sameImage t) : t.bankByte = s.bankByte := by
  funext g r p colour secseq i
  simp only [State.bankByte, State.imageByte, h.memByte, h.memKey]

theorem State.setReg_sameImage (s : State) (o : Nat) (v : DWord) : s.sameImage (s.setReg o v) := ⟨⟨rfl, rfl, rfl⟩, rfl⟩

theorem State.bump_sameImage (s : State) (o n : Nat) : s.sameImage (s.bump o n) := s.setReg_sameImage _ _

theorem State.updExec_sameImage (s : State) (a : Nat) (f : Exec → Exec) : s.sameImage (s.updExec a f) := ⟨⟨rfl, rfl, rfl⟩, rfl⟩

theorem State.raise_sameImage (s : State) (code : Nat) (al : Option Nat) (payload : List (Nat × Nat)) (l : List Dest)
    (count : Nat) : s.sameImage (s.raise code al payload l count) := by
  obtain ⟨_, _, _, _, _, _, _, h⟩ := s.raise_eq code al payload l count
  rw [h]
  exact ⟨⟨rfl, rfl, rfl⟩, rfl⟩

theorem State.appendFails_sameImage (s : State) (k : Nat) (a b : Bool) : s.sameImage (s.appendFails k a b) := by
  have fails (ok : Bool) (t : State) (d : Nat) :
      t.sameImage (if ok then t else t.raise evRecordAppendFail none [(k, 2), (d, 1)] []) := by
    cases ok
    · exact t.raise_sameImage _ _ _ _ _
    · exact .refl t
  exact (fails a s 0).trans (fails b _ 1)

theorem State.listRows_sameImage (s : State) (l : List (Nat × Word)) : s.sameImage (s.listRows l) := by
  unfold State.listRows State.appendPpr
  dsimp only
  split
  · exact ⟨⟨rfl, rfl, rfl⟩, rfl⟩
  · refine State.sameImage.trans ?_ (State.appendFails_sameImage _ _ _ _)
    exact ⟨⟨rfl, rfl, rfl⟩, rfl⟩

theorem State.strikeRow_sameImage (s : State) (m : Nat) (r : Word) : s.sameImage (s.strikeRow m r) := by
  unfold State.strikeRow
  dsimp only
  split
  · exact ⟨⟨rfl, rfl, rfl⟩, rfl⟩
  · refine State.sameImage.trans ?_ (State.listRows_sameImage _ _)
    exact ⟨⟨rfl, rfl, rfl⟩, rfl⟩

theorem State.checkRows_sameImage (s : State) (m : Nat) : s.sameImage (s.checkRows m) := by
  unfold State.checkRows
  dsimp only
  refine State.sameImage.trans ⟨⟨rfl, rfl, rfl⟩, rfl⟩ (State.sameImage_foldl _ (fun t r => ?_) _ _)
  exact (t.raise_sameImage _ _ _ _ _).trans (State.strikeRow_sameImage _ _ _)

theorem State.touchWord_sameImage (s : State) (source core : Nat) (al : Option Nat) (w : Nat) :
    s.sameImage (s.touchWord source core al w) := by
  unfold State.touchWord
  dsimp only
  split
  · exact State.sameImage.trans ⟨⟨rfl, rfl, rfl⟩, rfl⟩ (State.raise_sameImage _ _ _ _ _ _)
  · split
    · exact State.sameImage.trans ⟨⟨rfl, rfl, rfl⟩, rfl⟩ (State.checkRows_sameImage _ _)
    · exact .refl s

theorem State.touchMem_sameImage (s : State) (source core : Nat) (al : Option Nat) (k n : Nat) :
    s.sameImage (s.touchMem source core al k n) :=
  State.sameImage_foldl _ (fun t w => t.touchWord_sameImage source core al w) _ s

theorem State.access_sameImage (s : State) (k : Nat) : s.sameImage (s.access k) := by
  refine ⟨s.access_sameMem k, ?_⟩
  unfold State.access State.activate
  dsimp only
  split <;> rfl

theorem State.readRange_sameImage (s : State) (source core : Nat) (al : Option Nat) (d n : Nat) :
    s.sameImage (s.readRange source core al d n) := by
  refine State.sameImage_foldl _ (fun t x => ?_) _ s
  dsimp only
  split
  · exact ((t.access_sameImage _).trans (State.touchMem_sameImage _ _ _ _ _ _)).trans (State.bump_sameImage _ _ _)
  · exact .refl t

theorem State.noteLatency_sameImage (s : State) (m : Nat) (al : Option Nat) (ns : Nat) (clean : Bool) :
    s.sameImage (s.noteLatency m al ns clean) := by
  have counted (o o' : Nat) (v : DWord) : s.sameImage ((s.setReg o v).bump o') :=
    (s.setReg_sameImage o v).trans (State.bump_sameImage _ _ _)
  unfold State.noteLatency
  refine State.sameImage_ite (s.setReg_sameImage _ _) ?_
  split
  · exact counted _ _ _
  · exact State.sameImage_ite (counted _ _ _)
      (((counted _ _ _).trans (State.raise_sameImage _ _ _ _ _ _)).trans (State.updExec_sameImage _ _ _))

theorem State.noteSlow_sameImage (s t : State) (al : Option Nat) (l : List (Fin 64 × Nat)) : t.sameImage (s.noteSlow t al l) := by
  exact State.sameImage_foldl _ (fun u e => State.sameImage_ite (u.noteLatency_sameImage _ _ _ _) (.refl u)) _ t

theorem State.readRecords_sameImage (s : State) (a : Nat) (p : Pos) (g : Prog) (r : RunId) :
    s.sameImage (s.readRecords a p g r) := by
  unfold State.readRecords
  split
  · exact .refl s
  · exact s.readRange_sameImage _ _ _ _ _

theorem State.readBody_sameImage (s : State) (a : Nat) (p : Pos) (i d n : Nat) (slow : List (Fin 64 × Nat)) :
    s.sameImage (s.readBody a p i d n slow) := by
  unfold State.readBody
  refine State.sameImage_ite (.refl s) (State.sameImage.trans ?_ (State.updExec_sameImage _ _ _))
  exact (s.readRange_sameImage _ _ _ _ _).trans (State.noteSlow_sameImage _ _ _ _)

/-! ### A block written into a shadow bank (R155, R157) -/

@[simp] theorem Core.shadow_setShadow (c : Core) (b : Bank) : (c.setShadow b).shadow = b := by
  unfold Core.setShadow Core.shadow
  cases c.activeB <;> simp

/-- Setting a bit that is clear adds its weight. -/
theorem toNat_setBit_of_clear {n : Nat} {w : BitVec n} {k : Nat} (h : bit w k = false) :
    (setBit w k true).toNat = (2 ^ k + w.toNat) % 2 ^ n := by
  have hz : w.toNat >>> k % 2 = 0 := by
    rw [bit, Nat.testBit_eq_decide_div_mod_eq, decide_eq_false_iff_not] at h
    rw [Nat.shiftRight_eq_div_pow]
    omega
  simp [setBit, setBits, hz, Nat.shiftLeft_eq, Nat.add_comm]

theorem bit_setBit_self {n : Nat} {w : BitVec n} {k : Nat} (hk : k < n) (h : bit w k = false) : bit (setBit w k true) k = true := by
  rw [bit, toNat_setBit_of_clear h, Nat.testBit_mod_two_pow, Nat.testBit_two_pow_add_eq]
  rw [bit] at h
  simp [hk, h]

/-- One block is not the whole bank. -/
theorem setBit_zero_ne_allOnes {k : Nat} (hk : k < 128) : setBit (0 : BitVec 128) k true ≠ BitVec.allOnes 128 := by
  intro h
  have hle : 2 ^ k ≤ 2 ^ 127 := Nat.pow_le_pow_right (by decide) (by omega)
  have hnat := congrArg BitVec.toNat h
  have hlt : 2 ^ k + (0 : BitVec 128).toNat < 2 ^ 128 := Nat.lt_of_le_of_lt hle (by decide)
  rw [toNat_setBit_of_clear (by simp [bit]), BitVec.toNat_allOnes, Nat.mod_eq_of_lt hlt] at hnat
  have hz : (0 : BitVec 128).toNat = 0 := rfl
  omega

/-- The shadow bank as the block of fill `n` finds it: an EMPTY one begins to fill (R157). -/
def Bank.begun (b : Bank) (n : Nat) : Bank := if b.st = .empty then { st := .filling, run := n } else b

theorem Bank.begun_st {b : Bank} (h : b.st = .empty ∨ b.st = .filling) (n : Nat) : (b.begun n).st = .filling := by
  unfold Bank.begun
  split
  · rfl
  · exact h.resolve_left ‹_›

theorem Bank.begun_got_clear {b : Bank} {k : Nat} (h : bit b.got k = false) (n : Nat) : bit (b.begun n).got k = false := by
  unfold Bank.begun
  split
  · simp [bit]
  · exact h

theorem Bank.begun_got_more {b : Bank} {k : Nat} (hk : k < 128)
    (h : b.st = .empty ∨ setBit b.got k true ≠ BitVec.allOnes 128) (n : Nat) :
    setBit (b.begun n).got k true ≠ BitVec.allOnes 128 := by
  unfold Bank.begun
  split
  · exact setBit_zero_ne_allOnes hk
  · exact h.resolve_left ‹_›

/-- A bank with block `k` written. -/
def Bank.withBlock (b : Bank) (k : Nat) (f : Nat → Byte) (unread : BitVec 128) (bad : List Nat) : Bank :=
  { b with data := (List.range 64).foldl (fun t j => t.putByte (64 * k + j) (f (64 * k + j))) b.data
           got := setBit b.got k true, unread := unread, poison := b.poison ++ bad }

theorem Bank.withBlock_byte (b : Bank) (k : Nat) (f : Nat → Byte) (unread : BitVec 128) (bad : List Nat) {j : Nat} (h : j < 64) :
    (b.withBlock k f unread bad).byte (64 * k + j) = f (64 * k + j) :=
  Tab.getD_foldl_putByte f (64 * k) 64 b.data h

/-- A core with block `k` written into its shadow bank. -/
def Core.withBlock (c : Core) (k : Nat) (f : Nat → Byte) (unread : BitVec 128) (bad : List Nat) : Core :=
  c.setShadow ((c.shadow.begun c.nextFill).withBlock k f unread bad)

/-- The loader's next image for a core is that of a run of its allotment's program (R147, R157). -/
structure State.nextImage (s : State) (p : Pos) (a : Nat) (g : Prog) (e : Exec) (r : RunId) (colour : BitVec 2) (sec : Sect) :
    Prop where
  allotOf : s.allotOf p.parish = some a
  prog : (s.allot a).prog = some g
  exec : (s.allot a).exec = some e
  fill : e.fills[(s.core p).nextFill]? = some (r, colour)
  sect : g.sectOf r = some sec

/-- A core can take block `k` now, and it is not the last it lacks (R122, R155, R157). -/
structure State.takesBlock (s : State) (p : Pos) (k : Nat) : Prop where
  inBank : k < 128
  alive : s.alive p = true
  portOpen : s.portOpen p false = true
  filling : (s.core p).shadow.st = .empty ∨ (s.core p).shadow.st = .filling
  missing : bit (s.core p).shadow.got k = false
  more : (s.core p).shadow.st = .empty ∨ setBit (s.core p).shadow.got k true ≠ BitVec.allOnes 128

/-- Every stack that holds block `k` of a record's body answers and is reached (R184). -/
def State.bodyReady (s : State) (p : Pos) (g : Prog) (x : Rec) (k : Nat) : Prop :=
  let len := if 64 * k < x.bodyLen then min 64 (x.bodyLen - 64 * k) else 0
  s.readable (g.dpa + x.bodyOfs + 64 * k) len = true ∧ s.hubToBody p (g.dpa + x.bodyOfs + 64 * k) len = true

/-- No check keeps the loader from a block that the core can take. -/
theorem State.takesBlock.unhindered {s : State} {p : Pos} {k : Nat} (h : s.takesBlock p k) :
    ¬ (k ≥ 128 ∨ (s.core p).shadow.st = .complete ∨ (s.core p).shadow.st = .active ∨ bit (s.core p).shadow.got k = true ∨
      (!s.alive p) = true ∨ (!s.portOpen p false) = true) := by
  obtain ⟨hk, ha, hp, hst, hgot, _⟩ := h
  rcases hst with hst | hst <;> simp [hst, hgot, ha, hp, hk]

/-- Such a block is written as its record gives it (R155, R178): what the loader reads on the way changes no byte of it. -/
theorem State.loaderWrite_eq {s : State} {p : Pos} {a k : Nat} {g : Prog} {e : Exec} {r : RunId} {colour : BitVec 2} {sec : Sect}
    (hi : s.nextImage p a g e r colour sec) (hb : s.takesBlock p k)
    (hread : ∀ n x, s.recordOf g r p = some (n, x) → s.bodyReady p g x k) (slow : List (Fin 64 × Nat)) :
    ∃ (t : State) (unread : BitVec 128) (bad : List Nat), s.loaderWrite p k slow =
      t.setCore p ((s.core p).withBlock k (s.bankByte g (s.recordOf g r p) p colour sec.secseq) unread bad) := by
  obtain ⟨ha, hg, he, hfill, hsec⟩ := hi
  have hmore := Bank.begun_got_more hb.inBank hb.more (s.core p).nextFill
  have same (i d n : Nat) : s.sameImage ((if k = 0 then s.readRecords a p g r else s).readBody a p i d n slow) :=
    (State.sameImage_ite (s.readRecords_sameImage a p g r) (.refl s)).trans (State.readBody_sameImage _ _ _ _ _ _ _)
  have written {x : Option (Nat × Rec)} {t : State} (ht : s.sameImage t) (unread : BitVec 128) (bad : List Nat) :
      t.setCore p ((s.core p).withBlock k (t.bankByte g x p colour sec.secseq) unread bad) =
      t.setCore p ((s.core p).withBlock k (s.bankByte g x p colour sec.secseq) unread bad) := by rw [ht.bankByte]
  unfold State.loaderWrite
  rw [ha]
  dsimp only
  rw [hg, he]
  dsimp only
  rw [hfill]
  dsimp only
  rw [if_neg hb.unhindered]
  rcases hx : s.recordOf g r p with _ | ⟨n, x⟩
  case none =>
    have hr : s.readable 0 0 = true := rfl
    have hh : s.hubToBody p 0 0 = true := rfl
    simp only [hsec, Option.map_some, Option.getD_some, hr, hh, Bool.not_true, Bool.false_eq_true, if_false, if_true]
    exact ⟨_, _, _, (if_pos hmore).trans (written (same _ _ _) _ _)⟩
  case some =>
    obtain ⟨hr, hh⟩ := hread n x hx
    simp only [hsec, Option.map_some, Option.getD_some, hr, hh, Bool.not_true, Bool.false_eq_true, if_false, if_true]
    exact ⟨_, _, _, (if_pos hmore).trans (written (same _ _ _) _ _)⟩

/-- The shadow bank a written block leaves: it is filling, has the block, and holds its bytes. -/
theorem Core.withBlock_shadow {s : State} {p : Pos} {k : Nat} (h : s.takesBlock p k) (f : Nat → Byte) (unread : BitVec 128)
    (bad : List Nat) :
    let b := ((s.core p).withBlock k f unread bad).shadow
    b.st = .filling ∧ bit b.got k = true ∧ ∀ j, j < 64 → b.byte (64 * k + j) = f (64 * k + j) := by
  simp only [Core.withBlock, Core.shadow_setShadow]
  exact ⟨Bank.begun_st h.filling _, bit_setBit_self h.inBank (Bank.begun_got_clear h.missing _),
    fun j hj => Bank.withBlock_byte _ _ _ _ _ hj⟩

/-- Settles O30: each request of the direct view is followed from its well to its core and back, and a loader's block into its
bank. -/
theorem fieldSram : Obligations.FieldSram := by
  intro s answered
  refine ⟨?well, ?past, ?atCore, ?back, ?loader⟩
  case well =>
    intro id r q a hr hst hon hdark hw hlo hhi hq ha hqa hqon hqdark hqw k slow
    rw [exec_toWell hr hst, State.wellCheck_direct hon hdark hw hlo hhi, State.wellDirect_eq hq ha hqa hqon hqdark hqw]
  case past =>
    intro id r q hr hst ht ha hp hh hpast
    exact exec_pastSram ⟨hr, hst, ht, ha, hp, hh⟩ hpast
  case atCore =>
    intro id r q hr hst ht ha hp hh hin a read
    have h : s.fieldReady id r q := ⟨hr, hst, ht, ha, hp, hh⟩
    refine ⟨fun hch htouch => execSramRead_inSram h hin hch htouch, fun hch => ⟨_, execSramWrite_inSram h hin hch, ?_, ?_, ?_⟩⟩
    · exact State.fieldAnswer_reqs _ _ _ _ _ _ _
    · intro i hi
      rw [State.fieldAnswer_byte]
      exact s.carterWrite_sramBytes_in q r hi
    · intro k hk
      rw [State.fieldAnswer_byte]
      exact s.carterWrite_sramBytes_out q r hk
  case back =>
    intro id r q hr hst ht hm
    exact exec_fieldReturn hr hst ht hm
  case loader =>
    intro p a g e r colour sec k ha hg he hfill hsec hk halive hopen hst hgot hmore hread slow
    have hb : s.takesBlock p k := ⟨hk, halive, hopen, hst, hgot, hmore⟩
    obtain ⟨t, unread, bad, h⟩ := State.loaderWrite_eq ⟨ha, hg, he, hfill, hsec⟩ hb hread slow
    refine ⟨_, congrArg Host.Outcome.next h, ?_⟩
    simp only [State.core_setCore]
    exact Core.withBlock_shadow hb _ unread bad

end Sys2Proof.Machine

/-! The bell counter over every step (R246): most commands keep it, a start keeps it too, and the loss of power or a cold reset clears
it. -/

namespace Sys2Proof.Machine

/-! ### Starts and restarts keep the bell counter (R440, R450) -/

/-- The bell counter is the same in both states. The predicate holds whole states, so that unfolding an operation in a goal rewrites one
state to another; in an equation of counters the kernel would evaluate both. -/
def State.sameBell (s t : State) : Prop := t.bell.count = s.bell.count

theorem State.sameBell.trans {s t u : State} (h : s.sameBell t) (g : t.sameBell u) : s.sameBell u := Eq.trans g h

theorem ite_sameBell {c : Prop} [Decidable c] {A B s : State} (ha : s.sameBell A) (hb : s.sameBell B) :
    s.sameBell (if c then A else B) := by
  split <;> assumption

@[simp] theorem State.advanceRollback_bell (s : State) : s.advanceRollback.bell = s.bell := by
  unfold State.advanceRollback
  split <;> rfl

@[simp] theorem State.reportReady_bellCount (s : State) (o : StartObs) : (s.reportReady o).bell.count = s.bell.count := by
  simp [State.reportReady]

theorem State.sameBell_ras (s : State) (r : Ras) : s.sameBell { s with ras := r } := rfl

theorem State.appendRecords_sameBell (s : State) (trims : List (Nat × Int)) (slack : List (Nat × Nat)) (okA okB : Bool) :
    s.sameBell ((s.appendWear trims slack okA okB).appendPpr okA okB).reportUvlo := by
  simp [State.sameBell]

theorem State.coldField_sameBell (s : State) (o : StartObs) : s.sameBell (s.coldField o) := by
  have hr : s.sameBell ((((s.startField o).knownAnswer o).coldStacks o).buildGeometry.reportReady o) := by
    simp [State.sameBell]
  unfold State.coldField
  dsimp only
  generalize (((s.startField o).knownAnswer o).coldStacks o).buildGeometry.reportReady o = u at hr ⊢
  refine hr.trans (ite_sameBell ?_ (State.reportUvlo_keeps u).2)
  exact (State.sameBell_ras u _).trans (State.appendRecords_sameBell _ _ _ _ _)

@[simp] theorem State.coldField_bellCount (s : State) (o : StartObs) : (s.coldField o).bell.count = s.bell.count :=
  s.coldField_sameBell o

@[simp] theorem State.slotWait_bellCount (s : State) (o : StartObs) : (s.slotWait o).bell.count = s.bell.count := by
  unfold State.slotWait
  split <;> simp

@[simp] theorem State.coldParts_bellCount (s : State) (o : StartObs) : (s.coldParts o).bell.count = s.bell.count := by
  simp [State.coldParts]

@[simp] theorem State.coldStart_bellCount (s : State) (o : StartObs) : (s.coldStart o).bell.count = s.bell.count := by
  simp [State.coldStart]

@[simp] theorem State.finishRestart_bellCount (s : State) (o : StartObs) : (s.finishRestart o).bell.count = s.bell.count := by
  simp [State.finishRestart]

/-! ### The loss of power and cold reset clear it (R25, R32, R473) -/

/-- The bell counter is kept, or cleared by the loss of power or by a cold reset. -/
def State.keepsOrClearsBell (s t : State) : Prop :=
  t.bell.count = s.bell.count ∨ (t.bell.count = 0 ∧ (t.pins.pwrGood = false ∨ t.boot.st = .coldReset))

theorem State.keepsOrClearsBell_of_eq {s u t : State} (h : u.bell.count = s.bell.count) (g : u.keepsOrClearsBell t) :
    s.keepsOrClearsBell t := by
  unfold State.keepsOrClearsBell at g ⊢
  rwa [h] at g

theorem ite_keepsOrClearsBell {c : Prop} [Decidable c] {A B s : State} (ha : s.keepsOrClearsBell A)
    (hb : s.keepsOrClearsBell B) : s.keepsOrClearsBell (if c then A else B) := by
  split <;> assumption

theorem State.serviceEnds_clearsBell (s u : State) : u.keepsOrClearsBell s.serviceEnds := .inr ⟨rfl, .inl rfl⟩

theorem State.coldReset_clearsBell (s u : State) : u.keepsOrClearsBell s.coldReset := .inr ⟨rfl, .inr rfl⟩

theorem State.railLost_bell (s : State) (rail cause : Nat) : s.keepsOrClearsBell (s.railLost rail cause) := by
  have hk {t : State} (h : t.bell.count = s.bell.count) : s.keepsOrClearsBell t := .inl h
  unfold State.railLost
  refine ite_keepsOrClearsBell (hk rfl) (ite_keepsOrClearsBell (hk (by simp)) (ite_keepsOrClearsBell
    (State.serviceEnds_clearsBell _ _) (ite_keepsOrClearsBell (State.serviceEnds_clearsBell _ _) (hk ?_))))
  simp

/-! ### The commands that may set it -/

theorem execPowerEnFall_bell (s : State) : ∃ t, execPowerEnFall s = .next t ∧ s.keepsOrClearsBell t :=
  ⟨_, rfl, .inr ⟨rfl, .inl rfl⟩⟩

theorem execUndervoltageLockout_bell (s : State) : ∃ t, execUndervoltageLockout s = .next t ∧ s.keepsOrClearsBell t :=
  ⟨_, rfl, ite_keepsOrClearsBell (.inr ⟨rfl, .inl rfl⟩) (.inl rfl)⟩

theorem execResetNFall_bell (s : State) : ∃ t, execResetNFall s = .next t ∧ s.keepsOrClearsBell t :=
  ⟨_, rfl, ite_keepsOrClearsBell (State.coldReset_clearsBell _ _) (.inl rfl)⟩

theorem execHubSectorLost_bell (h : Fin 16) (cause : BitVec 1) (s : State) :
    ∃ t, execHubSectorLost h cause s = .next t ∧ s.keepsOrClearsBell t := by
  refine ⟨_, rfl, ite_keepsOrClearsBell (.inl rfl) (ite_keepsOrClearsBell (State.serviceEnds_clearsBell _ _) (.inl ?_))⟩
  simp

theorem execRailFault_bell (rail : Fin 112) (o : RailObs) (s : State) :
    ∃ t, execRailFault rail o s = .next t ∧ s.keepsOrClearsBell t :=
  ⟨_, rfl, ite_keepsOrClearsBell (.inl rfl) (State.keepsOrClearsBell_of_eq (by simp) (State.railLost_bell _ _ _))⟩

theorem execRegulatorLoss_bell (rail : Fin 112) (second : Bool) (s : State) :
    ∃ t, execRegulatorLoss rail second s = .next t ∧ s.keepsOrClearsBell t := by
  have hr := State.failReg_keeps s rail second
  exact ⟨_, rfl, ite_keepsOrClearsBell (.inl rfl) (ite_keepsOrClearsBell
    (State.keepsOrClearsBell_of_eq hr.2 (State.railLost_bell _ _ _)) (.inl hr.2))⟩

theorem execResetNRise_bellCount (o : StartObs) (s : State) :
    ∃ t, execResetNRise o s = .next t ∧ t.bell.count = s.bell.count := by
  refine ⟨_, rfl, ?_⟩
  split <;> simp

theorem execResetReleaseImplied_bellCount (o : StartObs) (s : State) :
    ∃ t, execResetReleaseImplied o s = .next t ∧ t.bell.count = s.bell.count := by
  refine ⟨_, rfl, ?_⟩
  split <;> simp

theorem execStartupSlotWait_bellCount (o : StartObs) (s : State) :
    ∃ t, execStartupSlotWait o s = .next t ∧ t.bell.count = s.bell.count := by
  refine ⟨_, rfl, ?_⟩
  split <;> simp

theorem execWarmRestart_bellCount (o : StartObs) (s : State) :
    ∃ t, execWarmRestart o s = .next t ∧ t.bell.count = s.bell.count := by
  refine ⟨_, rfl, ?_⟩
  simp

theorem execFuseProgrammingDone_bellCount (ok : Bool) (s : State) :
    ∃ t, execFuseProgrammingDone ok s = .next t ∧ t.bell.count = s.bell.count := by
  refine ⟨_, rfl, ?_⟩
  split
  · rfl
  · cases ok <;> simp

/-- BELL_TICK moves the counter by one, or, without power or in reset, not at all (R245). -/
theorem execBellTick_bellCount (short : Bool) (s : State) :
    ∃ t, execBellTick short s = .next t ∧ (t.bell.count = s.bell.count ∨ t.bell.count = s.bell.count + 1) := by
  refine ⟨_, rfl, ?_⟩
  split
  · exact .inl rfl
  · right
    simp

/-- A module outside its domain takes the marker's count as it becomes a member, or keeps its own (R246, R313). -/
theorem State.joinDomain_bellCount (s : State) (count : DWord) (id : Half) (level : Nat) (oos : Bool) :
    (s.joinDomain count id level oos).bell.count = s.bell.count ∨
      ((s.joinDomain count id level oos).bell.member = true ∧ (s.joinDomain count id level oos).bell.count = count) := by
  unfold State.joinDomain
  split
  · exact .inl (State.refusePort_keeps s).2
  · split
    · exact .inl (State.refuseDomain_keeps s _).2
    · exact .inr ⟨rfl, rfl⟩

theorem execMarker_bellCount (count : DWord) (period : BitVec 18) (id : Half) (level : BitVec 3) (oos : Bool)
    (atPeriod atPs : Nat) (s : State) :
    ∃ t, execMarker count period id level oos atPeriod atPs s = .next t ∧ (t.bell.count = s.bell.count ∨
      (s.bell.member = false ∧ t.bell.member = true ∧ t.bell.count = count)) := by
  refine ⟨_, rfl, ?_⟩
  split
  · exact .inl rfl
  · split
    · exact .inl (by simp)
    · rename_i hm
      exact (State.joinDomain_bellCount s count id level.toNat oos).imp_right fun h => ⟨by simpa using hm, h⟩

/-! ### Every command -/

/-- The commands that may set the fuses, start a fuse command or set the bell counter; the lemmas of Keeps.lean cover the others. -/
def maySetFusesOrBell : Instr → Bool
  | .powerEnFall | .resetNFall | .undervoltageLockout | .hubSectorLost .. | .railFault .. | .regulatorLoss .. => true
  | .resetNRise .. | .resetReleaseImplied .. | .startupSlotWait .. | .warmRestart .. => true
  | .bellTick .. | .marker .. => true
  | .fuseProgrammingDone .. | .appendSite .. | .revokeFwKey .. | .programOwner .. | .revokeOwner .. => true
  | .registerWrite .. | .rdmaWrite .. | .read .. | .write .. => true
  | _ => false

/-- One row for each of the commands that keep both, in the order of exec. -/
theorem exec_keeps (i : Instr) (s : State) (hkeeps : maySetFusesOrBell i = false) :
    ∃ t, exec i s = .next t ∧ t.fuses = s.fuses ∧ t.bell.count = s.bell.count := by
  cases i with
  | powerEnRise => exact execPowerEnRise_keeps s
  | warmN => exact execWarmN_keeps s
  | escapeTableLoad => exact execEscapeTableLoad_keeps s
  | thermalTrip stack unit deciC => exact execThermalTrip_keeps stack unit deciC s
  | add p f => exact execAdd_keeps p f s
  | sub p f => exact execSub_keeps p f s
  | and p f => exact execAnd_keeps p f s
  | or p f => exact execOr_keeps p f s
  | xor p f => exact execXor_keeps p f s
  | sll p f => exact execSll_keeps p f s
  | srl p f => exact execSrl_keeps p f s
  | sra p f => exact execSra_keeps p f s
  | slt p f => exact execSlt_keeps p f s
  | sltu p f => exact execSltu_keeps p f s
  | min p f => exact execMin_keeps p f s
  | max p f => exact execMax_keeps p f s
  | mul p f => exact execMul_keeps p f s
  | mulh p f => exact execMulh_keeps p f s
  | mulhu p f => exact execMulhu_keeps p f s
  | div p f => exact execDiv_keeps p f s
  | divu p f => exact execDivu_keeps p f s
  | rem p f => exact execRem_keeps p f s
  | remu p f => exact execRemu_keeps p f s
  | addi p f => exact execAddi_keeps p f s
  | slti p f => exact execSlti_keeps p f s
  | andi p f => exact execAndi_keeps p f s
  | ori p f => exact execOri_keeps p f s
  | xori p f => exact execXori_keeps p f s
  | slli p f => exact execSlli_keeps p f s
  | srli p f => exact execSrli_keeps p f s
  | srai p f => exact execSrai_keeps p f s
  | luh p f => exact execLuh_keeps p f s
  | llo p f => exact execLlo_keeps p f s
  | lw p f => exact execLw_keeps p f s
  | sw p f => exact execSw_keeps p f s
  | lh p f => exact execLh_keeps p f s
  | lhu p f => exact execLhu_keeps p f s
  | sh p f => exact execSh_keeps p f s
  | branchEq p f => exact execBranchEq_keeps p f s
  | branchNe p f => exact execBranchNe_keeps p f s
  | branchLt p f => exact execBranchLt_keeps p f s
  | branchGe p f => exact execBranchGe_keeps p f s
  | branchLtu p f => exact execBranchLtu_keeps p f s
  | branchGeu p f => exact execBranchGeu_keeps p f s
  | loop p f => exact execLoop_keeps p f s
  | jal p f h => exact execJal_keeps p f h s
  | jalr p f => exact execJalr_keeps p f s
  | nop p f => exact execNop_keeps p f s
  | endIssue p f => exact execEndIssue_keeps p f s
  | endRetire p => exact execEndRetire_keeps p s
  | fence p f => exact execFence_keeps p f s
  | fenceDone p => exact execFenceDone_keeps p s
  | csrr p f => exact execCsrr_keeps p f s
  | csrw p f => exact execCsrw_keeps p f s
  | bellwait p f => exact execBellwait_keeps p f s
  | pcmpEq p f => exact execPcmpEq_keeps p f s
  | pcmpNe p f => exact execPcmpNe_keeps p f s
  | pcmpLt p f => exact execPcmpLt_keeps p f s
  | pcmpGe p f => exact execPcmpGe_keeps p f s
  | pcmpLtu p f => exact execPcmpLtu_keeps p f s
  | pcmpGeu p f => exact execPcmpGeu_keeps p f s
  | pset p f => exact execPset_keeps p f s
  | pand p f => exact execPand_keeps p f s
  | por p f => exact execPor_keeps p f s
  | pxor p f => exact execPxor_keeps p f s
  | pnot p f => exact execPnot_keeps p f s
  | vadd p f => exact execVadd_keeps p f s
  | vsub p f => exact execVsub_keeps p f s
  | vmul p f => exact execVmul_keeps p f s
  | vfma p f => exact execVfma_keeps p f s
  | vmax p f => exact execVmax_keeps p f s
  | vmin p f => exact execVmin_keeps p f s
  | vabs p f => exact execVabs_keeps p f s
  | vexp2 p f => exact execVexp2_keeps p f s
  | vrcp p f => exact execVrcp_keeps p f s
  | vrsqrt p f => exact execVrsqrt_keeps p f s
  | vredsum p f => exact execVredsum_keeps p f s
  | vredmax p f => exact execVredmax_keeps p f s
  | vcmp p f => exact execVcmp_keeps p f s
  | vsel p f => exact execVsel_keeps p f s
  | vcvt p f => exact execVcvt_keeps p f s
  | viadd p f => exact execViadd_keeps p f s
  | vand p f => exact execVand_keeps p f s
  | vor p f => exact execVor_keeps p f s
  | vxor p f => exact execVxor_keeps p f s
  | vsrl p f => exact execVsrl_keeps p f s
  | vld p f => exact execVld_keeps p f s
  | vst p f => exact execVst_keeps p f s
  | vbcast p f => exact execVbcast_keeps p f s
  | vins p f => exact execVins_keeps p f s
  | vext p f => exact execVext_keeps p f s
  | wld p f => exact execWld_keeps p f s
  | mma p f => exact execMma_keeps p f s
  | accz p f => exact execAccz_keeps p f s
  | accrd p f => exact execAccrd_keeps p f s
  | accwr p f => exact execAccwr_keeps p f s
  | msync p f => exact execMsync_keeps p f s
  | msyncDone p => exact execMsyncDone_keeps p s
  | matrixCommandStart p pipe => exact execMatrixCommandStart_keeps p pipe s
  | qpopV p f => exact execQpopV_keeps p f s
  | qpushV p f => exact execQpushV_keeps p f s
  | qpopS p f => exact execQpopS_keeps p f s
  | qpushS p f => exact execQpushS_keeps p f s
  | qvoid p f => exact execQvoid_keeps p f s
  | qlast p f => exact execQlast_keeps p f s
  | qstat p f => exact execQstat_keeps p f s
  | queueWaitEnd p => exact execQueueWaitEnd_keeps p s
  | tinc p f => exact execTinc_keeps p f s
  | tdec p f => exact execTdec_keeps p f s
  | twait p f => exact execTwait_keeps p f s
  | twaitd p f => exact execTwaitd_keeps p f s
  | tread p f => exact execTread_keeps p f s
  | tallyOperationArrival p carter lvl => exact execTallyOperationArrival_keeps p carter lvl s
  | tallyAnswer p => exact execTallyAnswer_keeps p s
  | dld p f => exact execDld_keeps p f s
  | dst p f => exact execDst_keeps p f s
  | dstat p f => exact execDstat_keeps p f s
  | tkinit p f => exact execTkinit_keeps p f s
  | tkpush p f => exact execTkpush_keeps p f s
  | tkrd p f => exact execTkrd_keeps p f s
  | tkrdi p f => exact execTkrdi_keeps p f s
  | sample p f => exact execSample_keeps p f s
  | rand p f => exact execRand_keeps p f s
  | sramCeWriteback p addr => exact execSramCeWriteback_keeps p addr s
  | bankSwap p => exact execBankSwap_keeps p s
  | tokenTransfer p out bad => exact execTokenTransfer_keeps p out bad s
  | slotAdvance p => exact execSlotAdvance_keeps p s
  | sum p => exact execSum_keeps p s
  | refill p q => exact execRefill_keeps p q s
  | deadmap path par col hi value => exact execDeadmap_keeps path par col hi value s
  | fallow path par hi value => exact execFallow_keeps path par hi value s
  | ctrclr path offset value => exact execCtrclr_keeps path offset value s
  | sectionLoaderFill a => exact execSectionLoaderFill_keeps a s
  | bellWave par low => exact execBellWave_keeps par low s
  | sectionOverrun a => exact execSectionOverrun_keeps a s
  | graceExpiry a => exact execGraceExpiry_keeps a s
  | coreLost p => exact execCoreLost_keeps p s
  | quiescenceCheck a => exact execQuiescenceCheck_keeps a s
  | signatureCompare a => exact execSignatureCompare_keeps a s
  | riserCalibration par dA dB skew => exact execRiserCalibration_keeps par dA dB skew s
  | deadlock a => exact execDeadlock_keeps a s
  | watchSnapshotDone a => exact execWatchSnapshotDone_keeps a s
  | crierPlaneDown plane sector unit link => exact execCrierPlaneDown_keeps plane sector unit link s
  | hubTally path idx value => exact execHubTally_keeps path idx value s
  | parishTally path par idx value => exact execParishTally_keeps path par idx value s
  | memoryAccess id time => exact execMemoryAccess_keeps id time s
  | readResp id => exact execReadResp_keeps id s
  | writeAck id => exact execWriteAck_keeps id s
  | sramWrite p loader k => exact execSramWrite_keeps p loader k s
  | sramRead id => exact execSramRead_keeps id s
  | sramReadResp id => exact execSramReadResp_keeps id s
  | sramWriteAck id => exact execSramWriteAck_keeps id s
  | refreshWindow group second => exact execRefreshWindow_keeps group second s
  | scrubRead stack => exact execScrubRead_keeps stack s
  | ceHourlyRoll => exact execCeHourlyRoll_keeps s
  | stackOffline stack cause => exact execStackOffline_keeps stack cause s
  | descriptorStart p ch => exact execDescriptorStart_keeps p ch s
  | carterRequest p ch => exact execCarterRequest_keeps p ch s
  | descriptorComplete p ch => exact execDescriptorComplete_keeps p ch s
  | resume path par => exact execResume_keeps path par s
  | skip path par fill => exact execSkip_keeps path par fill s
  | abort path par all => exact execAbort_keeps path par all s
  | dmaDrainTimeout p => exact execDmaDrainTimeout_keeps p s
  | monitorWindow o => exact execMonitorWindow_keeps o s
  | edgeGap src shortPulse => exact execEdgeGap_keeps src shortPulse s
  | primarySwitch => exact execPrimarySwitch_keeps s
  | clkSelect path value => exact execClkSelect_keeps path value s
  | muxSwitchComplete => exact execMuxSwitchComplete_keeps s
  | muxStuck shortPulse => exact execMuxStuck_keeps shortPulse s
  | fmeterStart path value => exact execFmeterStart_keeps path value s
  | fmeterDone count => exact execFmeterDone_keeps count s
  | fmeterTimeout => exact execFmeterTimeout_keeps s
  | markerLost => exact execMarkerLost_keeps s
  | markerSend => exact execMarkerSend_keeps s
  | codeword port group lseq symErr ctrl flits => exact execCodeword_keeps port group lseq symErr ctrl flits s
  | ack port group lseq => exact execAck_keeps port group lseq s
  | nak port group lseq => exact execNak_keeps port group lseq s
  | credit port vc n => exact execCredit_keeps port vc n s
  | train port o => exact execTrain_keeps port o s
  | gfail port lost lseq => exact execGfail_keeps port lost lseq s
  | groupLost port group cause => exact execGroupLost_keeps port group cause s
  | portTraining port => exact execPortTraining_keeps port s
  | trainingComplete port o => exact execTrainingComplete_keeps port o s
  | retrainTimer port => exact execRetrainTimer_keeps port s
  | portCtl path port value => exact execPortCtl_keeps path port value s
  | portDrainTimeout port => exact execPortDrainTimeout_keeps port s
  | fabricRead port pkt => exact execFabricRead_keeps port pkt s
  | fabricWrite port pkt => exact execFabricWrite_keeps port pkt s
  | fabricReadResp port pkt => exact execFabricReadResp_keeps port pkt s
  | fabricWriteAck port pkt => exact execFabricWriteAck_keeps port pkt s
  | notice port pkt => exact execNotice_keeps port pkt s
  | transferTimeout id => exact execTransferTimeout_keeps id s
  | reduce port pkt => exact execReduce_keeps port pkt s
  | reductionTrigger entry => exact execReductionTrigger_keeps entry s
  | reductionStall entry => exact execReductionStall_keeps entry s
  | reductionPoisonFill entry => exact execReductionPoisonFill_keeps entry s
  | noEntryTimeout port => exact execNoEntryTimeout_keeps port s
  | tallyInc port pkt => exact execTallyInc_keeps port pkt s
  | stretch port pkt => exact execStretch_keeps port pkt s
  | domain port pkt => exact execDomain_keeps port pkt s
  | routeCmdRead path => exact execRouteCmdRead_keeps path s
  | routeCmdWrite path => exact execRouteCmdWrite_keeps path s
  | send qp msg => exact execSend_keeps qp msg s
  | openSession qp => exact execOpenSession_keeps qp s
  | close ses => exact execClose_keeps ses s
  | allot ses wintab => exact execAllot_keeps ses wintab s
  | release a => exact execRelease_keeps a s
  | load a => exact execLoad_keeps a s
  | run a => exact execRun_keeps a s
  | halt ses => exact execHalt_keeps ses s
  | status ses => exact execStatus_keeps ses s
  | stats ses => exact execStats_keeps ses s
  | ledgerRead ses => exact execLedgerRead_keeps ses s
  | setOp ses => exact execSetOp_keeps ses s
  | contextSave a => exact execContextSave_keeps a s
  | contextRestore a => exact execContextRestore_keeps a s
  | resetFunction a => exact execResetFunction_keeps a s
  | routeAmend ses a => exact execRouteAmend_keeps ses a s
  | fwStage ses img => exact execFwStage_keeps ses img s
  | queuedCommandStart a => exact execQueuedCommandStart_keeps a s
  | cmReq port qp mtu ip => exact execCmReq_keeps port qp mtu ip s
  | rdmaRead qp rkey va len => exact execRdmaRead_keeps qp rkey va len s
  | ringConsumerPoll ses ring => exact execRingConsumerPoll_keeps ses ring s
  | qpError qp => exact execQpError_keeps qp s
  | sessionExpired ses => exact execSessionExpired_keeps ses s
  | hostPortDown port => exact execHostPortDown_keeps port s
  | hpCtl path port value => exact execHpCtl_keeps path port value s
  | ptp port time ns offset => exact execPtp_keeps port time ns offset s
  | hostTodLost => exact execHostTodLost_keeps s
  | taiSecond => exact execTaiSecond_keeps s
  | todSec path => exact execTodSec_keeps path s
  | cnp qp => exact execCnp_keeps qp s
  | arp port target => exact execArp_keeps port target s
  | neighbourDiscovery port target => exact execNeighbourDiscovery_keeps port target s
  | icmpEcho port echo => exact execIcmpEcho_keeps port echo s
  | reeveTelemetry o => exact execReeveTelemetry_keeps o s
  | deferMaxExpiry a => exact execDeferMaxExpiry_keeps a s
  | floorHoldExpiry => exact execFloorHoldExpiry_keeps s
  | droop par ns => exact execDroop_keeps par ns s
  | droopEnd par => exact execDroopEnd_keeps par s
  | parishThrottle par deciC => exact execParishThrottle_keeps par deciC s
  | throttleStep par hot => exact execThrottleStep_keeps par hot s
  | stackThrottle stack deciC => exact execStackThrottle_keeps stack deciC s
  | reeveFailover => exact execReeveFailover_keeps s
  | loanRequest port pkt => exact execLoanRequest_keeps port pkt s
  | loanCollection => exact execLoanCollection_keeps s
  | loanGrant port pkt => exact execLoanGrant_keeps port pkt s
  | loanDecline port pkt => exact execLoanDecline_keeps port pkt s
  | loanExpiry k => exact execLoanExpiry_keeps k s
  | energyRescale => exact execEnergyRescale_keeps s
  | cap path value => exact execCap_keeps path value s
  | capMax path value => exact execCapMax_keeps path value s
  | railCtl path par value => exact execRailCtl_keeps path par value s
  | getVersion => exact execGetVersion_keeps s
  | getCapabilities version => exact execGetCapabilities_keeps version s
  | negotiateAlgorithms asym hash meas => exact execNegotiateAlgorithms_keeps asym hash meas s
  | getDigests => exact execGetDigests_keeps s
  | getCertificate slot off len => exact execGetCertificate_keeps slot off len s
  | challenge slot nonce => exact execChallenge_keeps slot nonce s
  | getMeasurements index nonce => exact execGetMeasurements_keeps index nonce s
  | getTid => exact execGetTid_keeps s
  | getPldmVersion typ => exact execGetPldmVersion_keeps typ s
  | getPldmTypes => exact execGetPldmTypes_keeps s
  | getPldmCommands typ => exact execGetPldmCommands_keeps typ s
  | pldmSensorRead id => exact execPldmSensorRead_keeps id s
  | pldmFirmwareUpdate u => exact execPldmFirmwareUpdate_keeps u s
  | pldmShutdown slack appendOk => exact execPldmShutdown_keeps slack appendOk s
  | guestPacket site pkt => exact execGuestPacket_keeps site pkt s
  | guestTraining site mods => exact execGuestTraining_keeps site mods s
  | guestTrainingTimeout site => exact execGuestTrainingTimeout_keeps site s
  | guestSpdmResponse site ans => exact execGuestSpdmResponse_keeps site ans s
  | guestAttestTimeout site => exact execGuestAttestTimeout_keeps site s
  | reattestPeriodExpiry site => exact execReattestPeriodExpiry_keeps site s
  | gsCtlFence path site => exact execGsCtlFence_keeps path site s
  | gsCtlReattest path site => exact execGsCtlReattest_keeps path site s
  | fenceDrainTimeout site => exact execFenceDrainTimeout_keeps site s
  | ruleCmdRead path site => exact execRuleCmdRead_keeps path site s
  | ruleCmdWrite path site => exact execRuleCmdWrite_keeps path site s
  | guestNoResponse id => exact execGuestNoResponse_keeps id s
  | guestLost site cause => exact execGuestLost_keeps site cause s
  | wearAppend slack okA okB => exact execWearAppend_keeps slack okA okB s
  | bootSelect path value => exact execBootSelect_keeps path value s
  | warmReq path => exact execWarmReq_keeps path s
  | shutdown path slack appendOk => exact execShutdown_keeps path slack appendOk s
  | softRepair k => exact execSoftRepair_keeps k s
  | suspectHold path hold => exact execSuspectHold_keeps path hold s
  | suspectClear path => exact execSuspectClear_keeps path s
  | stewardRestart k inTenMinutes => exact execStewardRestart_keeps k inTenMinutes s
  | unlock path block value => exact execUnlock_keeps path block value s
  | postedWriteDone block => exact execPostedWriteDone_keeps block s
  | hostLinkUp port => exact execHostLinkUp_keeps port s
  | ackIntervalExpiry port group => exact execAckIntervalExpiry_keeps port group s
  | reduceOutPortTimeout port => exact execReduceOutPortTimeout_keeps port s
  | pfcPause port prio => exact execPfcPause_keeps port prio s
  | rdmaReadResponse ses ring consumer => exact execRdmaReadResponse_keeps ses ring consumer s
  | mctpEventRead => exact execMctpEventRead_keeps s
  | _ => nomatch hkeeps

/-- What the command `i` may do to the bell counter (R246). -/
def State.bellStep (s : State) (i : Instr) (t : State) : Prop :=
  s.keepsOrClearsBell t ∨
  (t.bell.count = s.bell.count + 1 ∧ ∃ short, i = .bellTick short) ∨
  (s.bell.member = false ∧ t.bell.member = true ∧ ∃ period dom lvl oos atPeriod atPs,
    i = .marker t.bell.count period dom lvl oos atPeriod atPs)

theorem exists_bellStep_of_keepsOrClears {s : State} {i : Instr} {o : Host.Outcome State Fault Refusal}
    (h : ∃ t, o = .next t ∧ s.keepsOrClearsBell t) : ∃ t, o = .next t ∧ s.bellStep i t :=
  h.imp fun _ ⟨ho, ht⟩ => ⟨ho, .inl ht⟩

theorem exists_bellStep_of_count_eq {s : State} {i : Instr} {o : Host.Outcome State Fault Refusal}
    (h : ∃ t, o = .next t ∧ t.bell.count = s.bell.count) : ∃ t, o = .next t ∧ s.bellStep i t :=
  h.imp fun _ ⟨ho, ht⟩ => ⟨ho, .inl (.inl ht)⟩

theorem exists_bellStep_of_maySetBusy {s : State} {i : Instr} {o : Host.Outcome State Fault Refusal}
    (h : ∃ t, o = .next t ∧ s.maySetBusy t) : ∃ t, o = .next t ∧ s.bellStep i t :=
  h.imp fun _ ⟨ho, ht⟩ => ⟨ho, .inl (.inl ht.1)⟩

/-- Every command has a next state, and its bell counter is one that R246 allows. -/
theorem exec_bellStep (i : Instr) (s : State) : ∃ t, exec i s = .next t ∧ s.bellStep i t := by
  cases hset : maySetFusesOrBell i with
  | false =>
    obtain ⟨t, ht, -, hb⟩ := exec_keeps i s hset
    exact ⟨t, ht, .inl (.inl hb)⟩
  | true =>
    cases i with
    | powerEnFall => exact exists_bellStep_of_keepsOrClears (execPowerEnFall_bell s)
    | undervoltageLockout => exact exists_bellStep_of_keepsOrClears (execUndervoltageLockout_bell s)
    | resetNFall => exact exists_bellStep_of_keepsOrClears (execResetNFall_bell s)
    | hubSectorLost h cause => exact exists_bellStep_of_keepsOrClears (execHubSectorLost_bell h cause s)
    | railFault rail o => exact exists_bellStep_of_keepsOrClears (execRailFault_bell rail o s)
    | regulatorLoss rail second => exact exists_bellStep_of_keepsOrClears (execRegulatorLoss_bell rail second s)
    | resetNRise o => exact exists_bellStep_of_count_eq (execResetNRise_bellCount o s)
    | resetReleaseImplied o => exact exists_bellStep_of_count_eq (execResetReleaseImplied_bellCount o s)
    | startupSlotWait o => exact exists_bellStep_of_count_eq (execStartupSlotWait_bellCount o s)
    | warmRestart o => exact exists_bellStep_of_count_eq (execWarmRestart_bellCount o s)
    | fuseProgrammingDone ok => exact exists_bellStep_of_count_eq (execFuseProgrammingDone_bellCount ok s)
    | appendSite path => exact exists_bellStep_of_maySetBusy (execAppendSite_maySetBusy path s)
    | revokeFwKey path key => exact exists_bellStep_of_maySetBusy (execRevokeFwKey_maySetBusy path key s)
    | programOwner path slot => exact exists_bellStep_of_maySetBusy (execProgramOwner_maySetBusy path slot s)
    | revokeOwner path slot => exact exists_bellStep_of_maySetBusy (execRevokeOwner_maySetBusy path slot s)
    | registerWrite path o v => exact exists_bellStep_of_maySetBusy (execRegisterWrite_maySetBusy path o v s)
    | rdmaWrite qp rkey va data => exact exists_bellStep_of_maySetBusy (execRdmaWrite_maySetBusy qp rkey va data s)
    | read id => exact exists_bellStep_of_maySetBusy (execRead_maySetBusy id s)
    | write id => exact exists_bellStep_of_maySetBusy (execWrite_maySetBusy id s)
    | bellTick short =>
      obtain ⟨t, ht, hc⟩ := execBellTick_bellCount short s
      exact ⟨t, ht, hc.imp .inl fun h => .inl ⟨h, short, rfl⟩⟩
    | marker count period dom lvl oos atPeriod atPs =>
      obtain ⟨t, ht, hc | ⟨hs, hm, rfl⟩⟩ := execMarker_bellCount count period dom lvl oos atPeriod atPs s
      · exact ⟨t, ht, .inl (.inl hc)⟩
      · exact ⟨t, ht, .inr (.inr ⟨hs, hm, period, dom, lvl, oos, atPeriod, atPs, rfl⟩)⟩
    | _ => nomatch hset

/-- Settles O26: the front command moves the counter in one of the ways of `State.bellStep`, and taking it from the queue leaves the
bell unit as it was. -/
theorem bellCounterSet : Obligations.BellCounterSet := by
  unfold Obligations.BellCounterSet
  intro s t h
  unfold step at h
  split at h
  · cases h
    exact .inl rfl
  · rename_i c rest hp
    obtain ⟨u, hu, hc⟩ := exec_bellStep c { s with pending := rest }
    obtain rfl : u = t := Host.Outcome.next.inj (hu.symm.trans h)
    obtain (hk | hz) | ⟨ht, short, rfl⟩ | ⟨hs, hm, period, dom, lvl, oos, atPeriod, atPs, rfl⟩ := hc
    · exact .inl hk
    · exact .inr (.inr (.inr hz))
    · exact .inr (.inl ⟨ht, short, rest, hp⟩)
    · exact .inr (.inr (.inl ⟨hs, hm, period, dom, lvl, oos, atPeriod, atPs, rest, hp⟩))

end Sys2Proof.Machine

/-! Messages and sessions: what an OPEN binds, and how a SEND is judged on a bound and on an unbound QP (R333, R337, R338, R347, R348). -/

namespace Sys2Proof.Machine

/-! ### Counters and records sent (R340, R370) -/

theorem State.reg_setReg_self (s : State) (o : Nat) (v : DWord) : (s.setReg o v).reg o = v := by
  simp [State.reg, State.setReg]

theorem State.reg_bump_ne (s : State) {o k : Nat} (n : Nat) (h : k ≠ o) : (s.bump o n).reg k = s.reg k := by
  simp [State.reg, State.bump, State.setReg, Tab.find?_put_ne _ _ h]

/-- What a counter counts to depends on its own value only. -/
theorem State.reg_bump_congr {s t : State} {o : Nat} (n : Nat) (h : t.reg o = s.reg o) : (t.bump o n).reg o = (s.bump o n).reg o := by
  rw [State.bump, State.bump, State.reg_setReg_self, State.reg_setReg_self, h]

@[simp] theorem State.writeSlot_ses (s : State) (qp : Nat) (r : Ring) (l : List Byte) : (s.writeSlot qp r l).ses = s.ses := rfl
@[simp] theorem State.writeSlot_qps (s : State) (qp : Nat) (r : Ring) (l : List Byte) : (s.writeSlot qp r l).qps = s.qps := rfl
@[simp] theorem State.writeSlot_ledger (s : State) (qp : Nat) (r : Ring) (l : List Byte) : (s.writeSlot qp r l).ledger = s.ledger := rfl

@[simp] theorem State.journal_ses (s : State) (e : LEntry) : (s.journal e).ses = s.ses := rfl
@[simp] theorem State.journal_qps (s : State) (e : LEntry) : (s.journal e).qps = s.qps := rfl
@[simp] theorem State.journal_nextLsn (s : State) (e : LEntry) : (s.journal e).ledger.nextLsn = s.ledger.nextLsn + 1 := rfl

@[simp] theorem State.find?_setSes_self (s : State) (id : Nat) (x : Session) : (s.setSes id x).ses.find? id = some x :=
  Tab.find?_put_self _ _ _

/-! ### Sequence numbers over records and events (R330, R337) -/

/-- Every session there is has the NEXT_SEQ it had. -/
def State.sameSeqs (s t : State) : Prop := ∀ id, (t.ses.find? id).map (·.nextSeq) = (s.ses.find? id).map (·.nextSeq)

/-- Records and events leave the ledger and the sessions' NEXT_SEQ. -/
def State.reports (s t : State) : Prop := t.ledger = s.ledger ∧ s.sameSeqs t

/-- No command is journalled, and the sessions' NEXT_SEQ stay. -/
def State.journalsNone (s t : State) : Prop := t.ledger.nextLsn = s.ledger.nextLsn ∧ s.sameSeqs t

theorem State.sameSeqs.trans {s t u : State} (h : s.sameSeqs t) (g : t.sameSeqs u) : s.sameSeqs u := fun id => (g id).trans (h id)

theorem State.reports.refl (s : State) : s.reports s := ⟨rfl, fun _ => rfl⟩

theorem State.reports.trans {s t u : State} (h : s.reports t) (g : t.reports u) : s.reports u :=
  ⟨g.1.trans h.1, h.2.trans g.2⟩

theorem State.journalsNone.refl (s : State) : s.journalsNone s := ⟨rfl, fun _ => rfl⟩

theorem State.journalsNone.trans {s t u : State} (h : s.journalsNone t) (g : t.journalsNone u) : s.journalsNone u :=
  ⟨g.1.trans h.1, h.2.trans g.2⟩

theorem State.reports.journalsNone {s t : State} (h : s.reports t) : s.journalsNone t := ⟨congrArg Ledger.nextLsn h.1, h.2⟩

/-- A session written back with its NEXT_SEQ. -/
theorem State.setSes_sameSeqs {s : State} {id : Nat} {x y : Session} (hx : s.ses.find? id = some x)
    (hy : y.nextSeq = x.nextSeq := by rfl) : s.sameSeqs (s.setSes id y) := fun k => by
  by_cases hk : k = id
  · rw [hk, State.find?_setSes_self, hx, Option.map_some, Option.map_some, hy]
  · simp only [State.setSes, Tab.find?_put_ne _ _ hk]

theorem State.setSes_reports {s : State} {id : Nat} {x y : Session} (hx : s.ses.find? id = some x)
    (hy : y.nextSeq = x.nextSeq := by rfl) : s.reports (s.setSes id y) := ⟨rfl, State.setSes_sameSeqs hx hy⟩

theorem State.setAllots_reports (s : State) (m : Tab Allot) : s.reports { s with allots := m } := ⟨rfl, fun _ => rfl⟩

theorem State.send_reports (s : State) (o : Out) : s.reports (s.send o) := ⟨rfl, fun _ => rfl⟩

theorem State.writeSlot_reports (s : State) (qp : Nat) (r : Ring) (l : List Byte) : s.reports (s.writeSlot qp r l) :=
  ⟨rfl, fun _ => rfl⟩

theorem State.reports_foldl {α : Type} {f : State → α → State} (hf : ∀ (s : State) (a : α), s.reports (f s a)) (l : List α)
    (s : State) : s.reports (l.foldl f s) :=
  List.foldlRecOn l f (State.reports.refl s) fun t h a _ => h.trans (hf t a)

theorem State.postEvent_reports (s : State) (id j : Nat) (e : Event) : s.reports (s.postEvent id j e) := by
  unfold State.postEvent
  split
  · exact .refl s
  next x hx =>
    dsimp only
    split
    · exact ((State.setSes_reports hx).trans (State.send_reports _ _)).trans (State.writeSlot_reports _ _ _ _)
    · exact State.setSes_reports hx

/-- Delivering an event posts it to rings, and does nothing else. -/
theorem State.deliver_induction {P : State → Prop} {e : Event} (hpost : ∀ (t : State) (id j : Nat), P t → P (t.postEvent id j e))
    {s : State} (hs : P s) (d : Dest) : P (s.deliver e d) := by
  cases d with
  | allot a =>
    dsimp only [State.deliver]
    split
    · exact hs
    · exact hpost s _ _ hs
  | session id =>
    dsimp only [State.deliver]
    split
    · exact hs
    · split
      · exact hs
      · exact hpost s _ _ hs
  | sessions =>
    refine List.foldlRecOn s.ses _ hs fun t ht x _ => ?_
    split
    · exact ht
    · exact hpost t _ _ ht

theorem State.deliver_reports (s : State) (e : Event) (d : Dest) : s.reports (s.deliver e d) :=
  State.deliver_induction (fun t id j h => h.trans (t.postEvent_reports id j e)) (.refl s) d

theorem State.raiseEvent_reports (s : State) (e : Event) (l : List Dest) : s.reports (s.raiseEvent e l) := by
  unfold State.raiseEvent
  dsimp only
  split <;> exact State.reports_foldl (fun t d => t.deliver_reports e d) l _

theorem State.reportLimited_reports (s : State) (id : Nat) : s.reports (s.reportLimited id) := by
  unfold State.reportLimited
  split
  · exact .refl s
  next x hx =>
    exact (State.setSes_reports hx).trans (State.reports_foldl (fun t e => t.raiseEvent_reports e _) _ _)

theorem State.raiseLimited_reports (s : State) (id code : Nat) (payload : List (Nat × Nat)) :
    s.reports (s.raiseLimited id code payload) := by
  refine (s.reportLimited_reports id).trans ?_
  unfold State.raiseLimited
  dsimp only
  split
  · exact .refl _
  next x hx =>
    split
    · exact (State.setSes_reports hx).trans (State.raiseEvent_reports _ _ _)
    · exact State.setSes_reports hx

theorem State.writeRecord_reports (s : State) (id : Nat) (e : LEntry) (status : Byte) (reack journalled : Bool) :
    s.reports (s.writeRecord id e status reack journalled) := by
  unfold State.writeRecord
  split
  · exact .refl s
  next x hx => exact ((State.setSes_reports hx).trans (State.send_reports _ _)).trans (State.writeSlot_reports _ _ _ _)

theorem State.looseRecord_reports (s : State) (id : Nat) (e : LEntry) (status : Byte) (reack : Bool) :
    s.reports (s.looseRecord id e status reack) := by
  unfold State.looseRecord
  split
  · exact .refl s
  next x hx =>
    dsimp only
    generalize ht : (if 0x10 ≤ status.toNat ∧ status.toNat ≤ 0x15 then s.bump (0x90000 + 0x4050) else s) = t
    have counted : s.reports t ∧ t.ses = s.ses := by
      rw [← ht]
      split <;> exact ⟨.refl s, rfl⟩
    refine counted.1.trans ?_
    split
    · exact t.writeRecord_reports _ _ _ _ _
    · exact State.setSes_reports (counted.2 ▸ hx)

theorem State.sayNo_reports (s : State) (id : Nat) (e : LEntry) (status : Byte) (code : Nat) (payload : List (Nat × Nat)) :
    s.reports (s.sayNo id e status code payload) :=
  (s.looseRecord_reports id e status false).trans (State.raiseLimited_reports _ _ _ _)

theorem State.flushHeld_reports (id fuel : Nat) : ∀ s : State, s.reports (s.flushHeld id fuel) := by
  induction fuel with
  | zero => exact .refl
  | succ fuel ih =>
    intro s
    unfold State.flushHeld
    split
    · exact .refl s
    next x hx =>
      split
      · exact .refl s
      · split
        · exact ((State.setSes_reports hx).trans (State.writeRecord_reports _ _ _ _ _ _)).trans (ih _)
        · exact .refl s

/-! ### Sequence numbers over commands taken up (R339, R345) -/

theorem State.updEntry_journalsNone (s : State) (lsn : Nat) (f : LEntry → LEntry) : s.journalsNone (s.updEntry lsn f) := by
  unfold State.updEntry
  split <;> exact .refl s

theorem State.finishOne_journalsNone (s : State) (lsn status detail : Nat) (result : BitVec 192) :
    s.journalsNone (s.finishOne lsn status detail result) := by
  unfold State.finishOne
  dsimp only
  generalize hu : s.updEntry lsn _ = u
  have entered : s.journalsNone u := hu ▸ s.updEntry_journalsNone lsn _
  refine entered.trans ?_
  split
  · exact .refl _
  next i e he =>
    split
    · exact .refl _
    next x hx =>
      generalize hv : ({ u with allots := _ } : State) = v
      have released : u.reports v := hv ▸ u.setAllots_reports _
      have hvx : v.ses.find? e.ses.toNat = some x := by rw [← hv]; exact hx
      exact ((released.trans (State.setSes_reports hvx)).trans (State.flushHeld_reports _ _ _)).journalsNone

theorem State.takeUp_journalsNone (s : State) (id : Nat) (held : Bool) (lsn : Nat) : s.journalsNone (s.takeUp id held lsn).1 := by
  unfold State.takeUp
  split
  next i e x he hx =>
    split
    · exact .refl s
    · split
      · exact .refl s
      · split
        · exact s.finishOne_journalsNone _ _ _ _
        · exact ((State.setSes_reports hx).trans (State.setAllots_reports _ _)).journalsNone
  · exact .refl s

theorem State.dispatch_journalsNone (s : State) (id : Nat) : s.journalsNone (s.dispatch id) := by
  unfold State.dispatch
  split
  · exact .refl s
  next x hx =>
    exact List.foldlRecOn (motive := fun y : State × Bool => s.journalsNone y.1) x.imm _ (.refl s)
      fun y h lsn _ => h.trans (y.1.takeUp_journalsNone id y.2 lsn)

/-- An accepted command is journalled, and its session expects the next SEQ (R337 row 8). -/
theorem State.accept_next (s : State) (id : Nat) (x : Session) (m : List Byte) :
    (s.accept id x m).ledger.nextLsn = s.ledger.nextLsn + 1 ∧
      ((s.accept id x m).ses.find? id).map (·.nextSeq) = some (BitVec.ofNat 32 (leAt m 8 4) + 1) := by
  obtain ⟨hlsn, hseq⟩ := State.dispatch_journalsNone ((s.journal (entryOfMsg m id x.epoch)).setSes id
    { x with held := x.held + 1, nextSeq := BitVec.ofNat 32 (leAt m 8 4) + 1, imm := x.imm ++ [s.ledger.nextLsn] }) id
  refine ⟨hlsn, (hseq id).trans ?_⟩
  rw [State.find?_setSes_self, Option.map_some]

/-! ### OPEN (R333, R347, R348) -/

theorem State.openOn_idle {s : State} {qp : Nat} {q : Qp} (hq : s.qps.find? qp = some q) (ho : q.opening = none) :
    s.openOn qp = s := by
  simp [State.openOn, hq, ho]

/-- The OPEN that waits on a QP is taken from it, to be executed. -/
def State.takeOpening (s : State) (qp : Nat) (q : Qp) : State := { s with qps := s.qps.put qp { q with opening := none } }

/-- The QP whose OPEN is executed is bound to a session. -/
def State.bindQp (s : State) (qp : Nat) (q : Qp) (id : Nat) : State :=
  { s with qps := s.qps.put qp { q with opening := none, ses := some id } }

/-- An OPEN that has bound a session is journalled, and its completion and what waits for the session are written (R345, R348). -/
def State.confirmOpen (s : State) (id : Nat) (e : LEntry) : State :=
  (List.range 17).foldl (fun s j => s.ringRoom id j)
    ((((s.journal e).writeRecord id { e with lsn := s.ledger.nextLsn } 0 false false).flushHeld id 65536).endIfDone id)

@[simp] theorem State.takeOpening_ledger (s : State) (qp : Nat) (q : Qp) : (s.takeOpening qp q).ledger = s.ledger := rfl

@[simp] theorem State.bindQp_ledger (s : State) (qp : Nat) (q : Qp) (id : Nat) : (s.bindQp qp q id).ledger = s.ledger := rfl

theorem State.openOn_refused {s : State} {qp d : Nat} {q : Qp} {m : List Byte} (hq : s.qps.find? qp = some q)
    (ho : q.opening = some m) (hd : s.openFault q m = some d) : s.openOn qp = (s.takeOpening qp q).refuseOpen qp m d := by
  simp only [State.openOn, hq, ho]
  split
  next d' hd' =>
    obtain rfl : d = d' := Option.some.inj (hd.symm.trans hd')
    rfl
  next hf => exact nomatch hd.symm.trans hf

theorem State.openOn_binds {s : State} {qp : Nat} {q : Qp} {m : List Byte} (hq : s.qps.find? qp = some q)
    (ho : q.opening = some m) (hf : s.openFault q m = none) {b : State × Nat × Word}
    (hb : (s.takeOpening qp q).bindSession qp m = b) : ∃ e, s.openOn qp = (b.1.bindQp qp q b.2.1).confirmOpen b.2.1 e := by
  subst hb
  simp only [State.openOn, hq, ho]
  split
  next d hd => exact nomatch hf.symm.trans hd
  next => exact ⟨_, rfl⟩

/-- A refused OPEN sends its record, and counts a wrong token. -/
theorem State.refuseOpen_leaves (s : State) (qp : Nat) (m : List Byte) (d : Nat) :
    (s.refuseOpen qp m d).ses = s.ses ∧ (s.refuseOpen qp m d).ledger = s.ledger ∧ (s.refuseOpen qp m d).qps = s.qps := by
  simp only [State.refuseOpen, State.writeSlot_ses, State.writeSlot_ledger, State.writeSlot_qps]
  split <;> simp

/-- A session as a new OPEN on `qp` makes it, and as its first completion leaves it: nothing is held back for it. -/
structure Session.isNew (x : Session) (qp grant : Nat) : Prop where
  attached : x.st = .attached
  bound : x.qp = qp
  granted : x.grant = grant
  first : x.nextSeq = 1
  noneHeld : x.heldRecs = []
  noRings : x.erings = []
  stays : x.ending = false

theorem State.bindSession_new (s : State) (qp : Nat) {m : List Byte} (hm : (leAt m 49 1).testBit 0 = false) :
    ∃ y, s.bindSession qp m = (s.drawn.setSes s.freeSession y, s.freeSession, 0) ∧ y.isNew qp (s.grantFor' m) := by
  unfold State.bindSession
  dsimp only
  rw [hm]
  exact ⟨_, rfl, rfl, rfl, rfl, rfl, rfl, rfl, rfl⟩

theorem State.writeRecord_new {s : State} {id qp grant : Nat} {x : Session} (hx : s.ses.find? id = some x) (hn : x.isNew qp grant)
    (e : LEntry) (status : Byte) (reack journalled : Bool) :
    ∃ y, (s.writeRecord id e status reack journalled).ses.find? id = some y ∧ y.isNew qp grant := by
  obtain ⟨hst, hqp, hg, hseq, hrec, her, hend⟩ := hn
  unfold State.writeRecord
  rw [hx]
  exact ⟨_, State.find?_setSes_self _ _ _, hst, hqp, hg, hseq, hrec, her, hend⟩

@[simp] theorem State.writeRecord_qps (s : State) (id : Nat) (e : LEntry) (status : Byte) (reack journalled : Bool) :
    (s.writeRecord id e status reack journalled).qps = s.qps := by
  unfold State.writeRecord
  split <;> simp

theorem State.flushHeld_new {s : State} {id qp grant : Nat} {x : Session} (hx : s.ses.find? id = some x) (hn : x.isNew qp grant)
    (fuel : Nat) : s.flushHeld id fuel = s := by
  cases fuel with
  | zero => rfl
  | succ fuel => simp [State.flushHeld, hx, hn.noneHeld]

theorem State.endIfDone_new {s : State} {id qp grant : Nat} {x : Session} (hx : s.ses.find? id = some x) (hn : x.isNew qp grant) :
    s.endIfDone id = s := by
  simp [State.endIfDone, hx, hn.stays]

theorem State.ringRoom_new {s : State} {id qp grant : Nat} {x : Session} (hx : s.ses.find? id = some x) (hn : x.isNew qp grant)
    (j : Nat) : s.ringRoom id j = s := by
  have hring : (x.ering j).waiting = [] ∧ (x.ering j).lost = 0 := by simp [Session.ering, hn.noRings]
  have hflush : s.flushRing id j 257 = s := by simp [State.flushRing, hx, hring]
  simp [State.ringRoom, hflush, hx, hring]

theorem State.confirmOpen_new {s : State} {id qp grant : Nat} {x : Session} (hx : s.ses.find? id = some x) (hn : x.isNew qp grant)
    (e : LEntry) : (s.confirmOpen id e).ledger.nextLsn = s.ledger.nextLsn + 1 ∧ (s.confirmOpen id e).qps = s.qps ∧
      ∃ y, (s.confirmOpen id e).ses.find? id = some y ∧ y.isNew qp grant := by
  obtain ⟨y, hy, hyn⟩ := State.writeRecord_new (s := s.journal e) hx hn { e with lsn := s.ledger.nextLsn } 0 false false
  have written : s.confirmOpen id e = (s.journal e).writeRecord id { e with lsn := s.ledger.nextLsn } 0 false false := by
    rw [State.confirmOpen, State.flushHeld_new hy hyn, State.endIfDone_new hy hyn]
    exact List.foldl_fixed' (State.ringRoom_new hy hyn) _
  obtain ⟨hledger, -⟩ := (s.journal e).writeRecord_reports id { e with lsn := s.ledger.nextLsn } 0 false false
  rw [written, hledger, State.writeRecord_qps]
  exact ⟨s.journal_nextLsn e, s.journal_qps e, y, hy, hyn⟩

/-- An OPEN of a new session that is not refused journals itself and binds the session to its QP (R348). -/
theorem State.openOn_new {s : State} {qp : Nat} {q : Qp} {m : List Byte} (hq : s.qps.find? qp = some q) (ho : q.opening = some m)
    (hf : s.openFault q m = none) (hm : (leAt m 49 1).testBit 0 = false) :
    (s.openOn qp).ledger.nextLsn = s.ledger.nextLsn + 1 ∧ ((s.openOn qp).qps.find? qp).bind (·.ses) = some s.freeSession ∧
      ∃ x, (s.openOn qp).ses.find? s.freeSession = some x ∧ x.isNew qp (s.grantFor' m) := by
  obtain ⟨y, hb, hy⟩ := (s.takeOpening qp q).bindSession_new qp hm
  obtain ⟨e, he⟩ := State.openOn_binds hq ho hf hb
  have hid : (s.takeOpening qp q).freeSession = s.freeSession := rfl
  have hgrant : (s.takeOpening qp q).grantFor' m = s.grantFor' m := rfl
  simp only [hid] at he
  rw [hgrant] at hy
  obtain ⟨hlsn, hqps, hses⟩ := State.confirmOpen_new
    (s := ((s.takeOpening qp q).drawn.setSes s.freeSession y).bindQp qp q s.freeSession) (Tab.find?_put_self _ _ _) hy e
  rw [he]
  refine ⟨?_, ?_, hses⟩
  · rw [hlsn, State.bindQp_ledger, State.setSes_ledger, State.drawn_ledger, State.takeOpening_ledger]
  · rw [hqps, State.bindQp, Tab.find?_put_self, Option.bind_some]

/-! ### Frames of a QP (R320, R370) -/

theorem State.frameIn_takes {s : State} {h : Nat} {f : Frame} (hup : s.hpUp h = true) (hfcs : f.fcsBad = false)
    (hlen : f.bytes ≤ 9216) (n : Nat) (k : State → State) : s.frameIn h f n k = k (s.rxFrame h n) := by
  simp [State.frameIn, hup, hfcs, hlen]

theorem execSend_tooLong {s : State} {qp : Nat} {q : Qp} (hq : s.qps.find? qp = some q) {f : Frame} (hup : s.hpUp q.port = true)
    (hfcs : f.fcsBad = false) (hlen : 9216 < f.bytes) (msg : List Byte) : execSend ⟨qp, f⟩ msg s = .next s := by
  simp [execSend, State.qpFrame, State.frameIn, hq, hup, hfcs, hlen]

theorem execSend_otherVlan {s : State} {qp : Nat} {q : Qp} (hq : s.qps.find? qp = some q) {f : Frame} (hup : s.hpUp q.port = true)
    (hfcs : f.fcsBad = false) (hlen : f.bytes ≤ 9216) (hv : f.vlan ≠ q.vlan) (msg : List Byte) :
    execSend ⟨qp, f⟩ msg s = .next (s.rxFrame q.port) := by
  simp [execSend, State.qpFrame, hq, State.frameIn_takes hup hfcs hlen, hv]

/-- A SEND that its QP takes, with no OPEN before it, is counted and judged. -/
theorem execSend_takes {s : State} {qp : Nat} {q : Qp} (hq : s.qps.find? qp = some q) {f : Frame} (hup : s.hpUp q.port = true)
    (ht : q.takes f) (msg : List Byte) : execSend ⟨qp, f⟩ msg s = .next ((s.rxFrame q.port).sendOn qp msg) := by
  obtain ⟨hfcs, hlen, hv, hce⟩ := ht
  simp [execSend, State.qpFrame, hq, State.frameIn_takes hup hfcs hlen, hv, hce]

/-! ### SEND on an unbound QP (R338) -/

section Unbound

variable {s : State} {qp : Nat} {q : Qp} (hq : s.qps.find? qp = some q) (hs : q.ses = none)
include hq hs

theorem State.sendOn_open (ho : q.opening = none) {m : List Byte} (hm : openOk m = true) :
    s.sendOn qp m = { s with qps := s.qps.put qp { q with opening := some m } } := by
  simp [State.sendOn, State.openOn_idle hq ho, hq, hs, hm]

theorem State.sendOn_stray (ho : q.opening = none) {m : List Byte} (hm : openOk m = false) :
    s.sendOn qp m = (s.bump (hpBase q.port + 0x58)).disconnect qp := by
  simp [State.sendOn, State.openOn_idle hq ho, hq, hs, hm]

/-- The device disconnects an unbound QP: of the sessions only one that has ended with it changes (R331, R338). -/
theorem State.disconnect_unbound : (s.disconnect qp).qps = s.qps.del qp ∧ (s.disconnect qp).out = .disconnect qp :: s.out ∧
    (s.disconnect qp).ledger = s.ledger ∧ (s.disconnect qp).regs = (s.txOn qp 1).regs ∧
    (s.disconnect qp).ses = s.ses.mapVals fun _ x => if x.ending ∧ x.qp = qp then { x with st := .detached, qp := 0 } else x := by
  have hq' : (s.txOn qp 1).qps.find? qp = some q := hq
  simp only [State.disconnect, State.qpDown, hq', hs]
  exact ⟨rfl, rfl, rfl, rfl, rfl⟩

/-- A stray message counts itself and disconnects the QP, with no record written (R338). -/
theorem State.sendOn_stray_leaves (ho : q.opening = none) {m : List Byte} (hm : openOk m = false) :
    (s.sendOn qp m).qps = s.qps.del qp ∧ (s.sendOn qp m).out = .disconnect qp :: s.out ∧ (s.sendOn qp m).ledger = s.ledger ∧
      (s.sendOn qp m).reg (hpBase q.port + 0x58) = (s.bump (hpBase q.port + 0x58)).reg (hpBase q.port + 0x58) ∧
      ∀ id x, s.ses.find? id = some x → x.qp ≠ qp → (s.sendOn qp m).ses.find? id = some x := by
  rw [State.sendOn_stray hq hs ho hm]
  obtain ⟨hqps, hout, hledger, hregs, hses⟩ := State.disconnect_unbound (s := s.bump (hpBase q.port + 0x58)) hq hs
  refine ⟨hqps, hout, hledger, ?_, fun id x hx hne => ?_⟩
  · have hport : ((s.bump (hpBase q.port + 0x58)).qps.get {} qp).port = q.port := by simp [Tab.get, hq]
    have hother : hpBase q.port + 0x58 ≠ 0x90028 + 0x1000 * q.port := by
      simp only [hpBase, hostBase, wideBlock]
      omega
    rw [State.reg, hregs, State.txOn, hport]
    exact State.reg_bump_ne _ _ hother
  · simp [hses, Tab.find?_mapVals, hx, hne]

end Unbound

/-! ### SEND on a bound QP (R337) -/

section Bound

variable {s : State} {qp id : Nat} {q : Qp} {x : Session} (hq : s.qps.find? qp = some q) (ho : q.opening = none)
  (hs : q.ses = some id) (hx : s.ses.find? id = some x) {m : List Byte} (hm : x.firstBad id m = none)
  (he : leAt m 4 2 = x.epoch.toNat)
include hq ho hs hx hm he

/-- The SEQ expected, with a credit left (R337 row 8). -/
theorem State.sendOn_next (hseq : BitVec.ofNat 32 (leAt m 8 4) = x.nextSeq) (hheld : x.held < x.grant) :
    s.sendOn qp m = s.accept id x m := by
  simp [State.sendOn, State.openOn_idle hq ho, hq, hs, hx, State.judgeSend, hm, he, entryOfMsg, hseq, hheld]

/-- A SEQ later than the one expected is a gap (R337). -/
theorem State.sendOn_gap (h1 : 1 ≤ (BitVec.ofNat 32 (leAt m 8 4) - x.nextSeq).toNat)
    (h2 : (BitVec.ofNat 32 (leAt m 8 4) - x.nextSeq).toNat < 2 ^ 31) :
    ∃ e payload, s.sendOn qp m = s.sayNo id e 0x10 evSessionGap payload := by
  simp only [State.sendOn, State.openOn_idle hq ho, hq, hs, hx, State.judgeSend, hm, he, entryOfMsg]
  rw [if_neg (by simp), if_neg (by omega), if_pos h1]
  exact ⟨_, _, rfl⟩

end Bound

/-! ### The statement -/

/-- Settles O40: an OPEN is refused before it binds anything, or is confirmed with nothing else to write; a SEND is judged by the row of
R337 or of R338 that its QP and SEQ select, and only its acceptance reaches the ledger. -/
theorem sessionMessages : Obligations.SessionMessages := by
  unfold Obligations.SessionMessages
  intro qp q s hq
  refine ⟨fun m ho => ⟨fun d hd => ?refused, fun hf hm => ?bound⟩,
    fun msg f hup hfcs => ⟨fun hlen => ?long, fun hlen hv => ?vlan⟩,
    fun msg f hup ht ho => ⟨fun hs hok => ?opened, fun hs hbad => ?stray,
      fun id x hs hx hm he => ⟨fun hseq hheld => ?next, fun h1 h2 => ?gap⟩⟩⟩
  case refused =>
    obtain ⟨hses, hledger, hqps⟩ := (s.takeOpening qp q).refuseOpen_leaves qp m d
    refine ⟨_, rfl, ?_⟩
    rw [State.openOn_refused hq ho hd]
    exact ⟨hses, hledger, by rw [hqps]; exact Tab.find?_put_self _ _ _⟩
  case bound =>
    obtain ⟨hlsn, hqp, x, hx, hn⟩ := State.openOn_new hq ho hf hm
    exact ⟨_, rfl, hlsn, hqp, x, hx, hn.attached, hn.bound, hn.granted, hn.first⟩
  case long => exact execSend_tooLong hq hup hfcs hlen msg
  case vlan => exact execSend_otherVlan hq hup hfcs hlen hv msg
  case opened =>
    refine ⟨_, execSend_takes hq hup ht msg, ?_⟩
    rw [State.sendOn_open (s := s.rxFrame q.port) hq hs ho hok]
    exact Tab.find?_put_self _ _ _
  case stray =>
    refine ⟨_, execSend_takes hq hup ht msg, ?_⟩
    obtain ⟨hqps, hout, hledger, hreg, hses⟩ := State.sendOn_stray_leaves (s := s.rxFrame q.port) hq hs ho hbad
    have hother : hpBase q.port + 0x58 ≠ hpBase q.port + 0x20 := by omega
    exact ⟨hqps, hout, hledger, hreg.trans (State.reg_bump_congr _ (s.reg_bump_ne _ hother)), hses⟩
  case next =>
    refine ⟨_, execSend_takes hq hup ht msg, ?_⟩
    rw [State.sendOn_next (s := s.rxFrame q.port) hq ho hs hx hm he hseq hheld, ← hseq]
    exact State.accept_next _ id x msg
  case gap =>
    refine ⟨_, execSend_takes hq hup ht msg, ?_⟩
    obtain ⟨e, payload, hgap⟩ := State.sendOn_gap (s := s.rxFrame q.port) hq ho hs hx hm he h1 h2
    obtain ⟨hledger, hseqs⟩ := (s.rxFrame q.port).sayNo_reports id e 0x10 evSessionGap payload
    rw [hgap]
    exact ⟨hledger, (hseqs id).trans (congrArg _ hx)⟩

end Sys2Proof.Machine

/-! The key guard: what a write of UNLOCK does, and how a guarded write finds its block (R486, R490, R494, R497 to R500). -/

namespace Sys2Proof.Machine

/-! ### Reaching a block, and the arm consumed (R486, R488, R498) -/

theorem blockOf_parish {par r : Nat} (hpar : par < 78) (hr : r < 0x10000) : blockOf (parishBase par + r) = some (parishBase par) := by
  have hlow : 0x400000 ≤ parishBase par + r := Nat.le_add_right_of_le (Nat.le_add_right _ _)
  have hhigh : parishBase par + r < 0x8E0000 := by unfold parishBase; omega
  have hbase : (parishBase par + r) / 0x10000 * 0x10000 = parishBase par := by unfold parishBase; omega
  unfold blockOf
  rw [if_neg (by omega), if_neg (by omega), if_neg (by omega), if_neg (by omega), if_pos ⟨hlow, hhigh⟩, hbase]

theorem State.reaches_session {s : State} {id : BitVec 12} {o b : Nat} (hup : s.up = true) (hm : s.mgmt id = true)
    (hb : blockOf o = some b) : s.reaches (.session id) o = true := by
  simp [State.reaches, hup, hm, hb]

theorem State.reaches_steward {s : State} {o b : Nat} (hup : s.up = true) (hb : blockOf o = some b) :
    s.reaches .steward o = true := by
  simp [State.reaches, hup, hb]

/-- A guard's fields say nothing of which units are in service. -/
@[simp] theorem State.absent_consumeArm (s : State) (path : RegPath) (b o : Nat) : (s.consumeArm path b).absent o = s.absent o := by
  cases path <;> rfl

@[simp] theorem State.posted_consumeArm (s : State) (path : RegPath) (b : Nat) : (s.consumeArm path b).posted = s.posted := by
  cases path <;> rfl

@[simp] theorem State.guard_consumeArm_session (s : State) (id : BitVec 12) (b : Nat) :
    (s.consumeArm (.session id) b).guard b = { s.guard b with armed := false } :=
  s.guard_setGuard b _

/-! ### Guarded writes of immediate blocks (R490, R493, R497, R498) -/

/-- A write that reaches a register in service consumes the arm; the guard decides whether it takes effect or sets NOT_ARMED. -/
theorem State.gate_reached {s : State} {path : RegPath} {o b : Nat} (hr : s.reaches path o = true) (hb : blockOf o = some b)
    (ha : s.absent o = false) (rwk : Bool) :
    s.gate path o rwk =
      let t := s.consumeArm path b
      if !rwk || s.keyed path b then (t, true) else (t.setGuard b { t.guard b with notArmed := true }, false) := by
  simp [State.gate, hr, hb, ha]

/-- A core's guarded write takes effect nowhere (R487). -/
theorem State.gate_core_guarded (s : State) (p : Pos) (o : Nat) : (s.gate (.core p) o true).2 = false := by
  unfold State.gate
  split
  · rfl
  · dsimp only
    split <;> rfl

theorem State.not_takesPost_core_guarded (s : State) (p : Pos) (o : Nat) : ¬ s.takesPost (.core p) o true :=
  fun h => Bool.false_ne_true (h.keyed rfl)

/-! ### Guarded writes of posted blocks (R494, R498) -/

/-- A session's guarded write of a posted block in service consumes the arm; a write pending drops it with WRITE_LOST, and the guard
of a block that is not armed drops it with NOT_ARMED. -/
theorem State.postWrite_session {s : State} {id : BitVec 12} {o b : Nat} (hr : s.reaches (.session id) o = true)
    (hb : blockOf o = some b) (ha : s.absent o = false) (v : DWord) (done : State → State) :
    s.postWrite (.session id) o v true done =
      let t := s.consumeArm (.session id) b
      if s.posted.find? b ≠ none then t.orReg (statusOff b) 2
      else if s.keyed (.session id) b then { t with posted := t.posted.put b { offset := o, value := v } }
      else t.setGuard b { t.guard b with notArmed := true } := by
  have hopen : State.coreIgnored (.session id) o = false := rfl
  cases hp : s.posted.find? b <;> cases hk : s.keyed (.session id) b <;> simp [State.postWrite, hr, hb, ha, hopen, hp, hk]

theorem State.keyed_session_eq_false {s : State} {b : Nat} (id : BitVec 12)
    (h : (s.guard b).armed = false ∨ (s.guard b).locked = true) : s.keyed (.session id) b = false := by
  rcases h with h | h <;> simp [State.keyed, h]

/-! ### UNLOCK (R487, R489, R498 to R500) -/

/-- A session's UNLOCK reaches the guard of a block in service. -/
theorem exec_unlock_session {s : State} {id : BitVec 12} {b : BitVec 24} (hr : s.reaches (.session id) (b.toNat + 0xFF8) = true)
    (hb : blockOf (b.toNat + 0xFF8) = some b.toNat) (ha : s.absent (b.toNat + 0xFF8) = false) (v : DWord) :
    exec (.unlock (.session id) b v) s = .next (s.unlockWrite (.session id) b.toNat v) := by
  have hopen : State.coreIgnored (.session id) (b.toNat + 0xFF8) = false := rfl
  change execUnlock (.session id) b v s = _
  simp [execUnlock, hr, hb, ha, hopen]

section UnlockWrite

variable {s : State} {b : Nat} (hl : (s.guard b).locked = false) (id : BitVec 12)
include hl

/-- What an UNLOCK does to a guard that is not locked: the key arms it, the sixteenth wrong key locks it, another counts. -/
theorem State.unlockWrite_unlocked (v : DWord) :
    s.unlockWrite (.session id) b v =
      if v = 0x6B71 then s.setGuard b { s.guard b with armed := true, armedBy := id }
      else if 15 ≤ (s.guard b).faults then
        (s.setGuard b { s.guard b with armed := false, locked := true, faults := 16 }).raise evKeyLockout none [(b, 4)] [.sessions]
      else s.setGuard b { s.guard b with armed := false, faults := (s.guard b).faults + 1 } :=
  if_neg (by simp [hl])

theorem State.unlockWrite_key : s.unlockWrite (.session id) b 0x6B71 = s.setGuard b { s.guard b with armed := true, armedBy := id } :=
  (State.unlockWrite_unlocked hl id _).trans (if_pos rfl)

variable {v : DWord} (hv : v ≠ 0x6B71)
include hv

theorem State.unlockWrite_wrong (hf : (s.guard b).faults < 15) :
    s.unlockWrite (.session id) b v = s.setGuard b { s.guard b with armed := false, faults := (s.guard b).faults + 1 } :=
  ((State.unlockWrite_unlocked hl id v).trans (if_neg hv)).trans (if_neg hf.not_ge)

theorem State.unlockWrite_lockout (hf : 15 ≤ (s.guard b).faults) :
    s.unlockWrite (.session id) b v =
      (s.setGuard b { s.guard b with armed := false, locked := true, faults := 16 }).raise evKeyLockout none [(b, 4)] [.sessions] :=
  ((State.unlockWrite_unlocked hl id v).trans (if_neg hv)).trans (if_pos hf)

end UnlockWrite

@[simp] theorem State.guard_raise (s : State) (code : Nat) (al : Option Nat) (payload : List (Nat × Nat)) (l : List Dest) (count b : Nat) :
    (s.raise code al payload l count).guard b = s.guard b := by
  obtain ⟨_, _, _, _, _, _, -, h⟩ := s.raise_eq code al payload l count
  rw [h]
  rfl

/-- A core's UNLOCK arms nothing: it is ignored, and at most CORE_WRITE_IGNORED shows it (R487). -/
theorem exec_unlock_core (p : Pos) (b : BitVec 24) (v : DWord) (s : State) :
    exec (.unlock (.core p) b v) s = .next s ∨ exec (.unlock (.core p) b v) s = .next (s.orReg (statusOff b.toNat) 4) := by
  change execUnlock (.core p) b v s = _ ∨ execUnlock (.core p) b v s = _
  unfold execUnlock
  dsimp only
  split
  · exact .inl rfl
  · split
    · exact .inr rfl
    · split <;> exact .inl rfl

/-! ### The statement -/

/-- Settles O58: the guard of the block decides each path's write alone, and a session's write consumes the arm before it is judged. -/
theorem keyGuard : Obligations.KeyGuard := by
  unfold Obligations.KeyGuard
  intro id s hup hm
  refine ⟨fun b v hb ha hl => ?unlock, fun o b hb ha => ?immediate, fun par hi v ha => ?posted,
    fun p o => ⟨s.gate_core_guarded p o, s.not_takesPost_core_guarded p o⟩, fun p b v => ?core⟩
  case unlock =>
    rw [exec_unlock_session (s.reaches_session hup hm hb) hb ha]
    refine ⟨fun hv => ?key, fun hv hf => ?wrong, fun hv hf => ?lockout⟩
    case key => rw [hv, State.unlockWrite_key hl]
    case wrong => rw [State.unlockWrite_wrong hl id hv hf]
    case lockout =>
      refine ⟨_, rfl, ?_⟩
      rw [State.unlockWrite_lockout hl id hv hf.ge]
      exact ⟨by simp, by simp, State.raise_raises _ _ _ _ _ _⟩
  case immediate =>
    have hgate := s.gate_reached (s.reaches_session hup hm hb) hb ha
    refine ⟨hgate false, fun harm hl => ?armed, fun harm => ?unarmed, s.gate_reached (s.reaches_steward hup hb) hb ha true⟩
    case armed => simp [hgate, State.keyed, harm, hl, State.consumeArm]
    case unarmed =>
      simp only [hgate, s.keyed_session_eq_false id (.inl harm), State.guard_consumeArm_session]
      rfl
  case posted =>
    have hb : blockOf (parishBase par + (if hi then 0x1508 else 0x1500)) = some (parishBase par) :=
      blockOf_parish par.isLt (by split <;> decide)
    have hexec := fun done => State.postWrite_session (s.reaches_session hup hm hb) hb ha v done
    refine ⟨fun hbusy => congrArg Host.Outcome.next ?busy, fun hfree hg => congrArg Host.Outcome.next ?unarmed⟩
    case busy => exact (hexec _).trans (if_pos hbusy)
    case unarmed =>
      refine (hexec _).trans ?_
      simp only [hfree, s.keyed_session_eq_false id hg, State.guard_consumeArm_session]
      rfl
  case core =>
    rcases exec_unlock_core p b v s with h | h
    · exact ⟨_, h, rfl⟩
    · exact ⟨_, h, rfl⟩

end Sys2Proof.Machine

section
/-! SUPPORT. Bits of words: what a bit is after bits were replaced. -/

namespace Sys2Proof
/-- Bit `j` after `len` bits from `lo` were replaced. -/
theorem bit_setBits {n : Nat} (w : BitVec n) (lo len v j : Nat) :
    bit (setBits w lo len v) j = (decide (j < n) && if lo ≤ j ∧ j < lo + len then v.testBit (j - lo) else bit w j) := by
  have hw : w.toNat = 2 ^ lo * (2 ^ len * (w.toNat >>> lo / 2 ^ len) + w.toNat >>> lo % 2 ^ len) + w.toNat % 2 ^ lo := by
    rw [Nat.div_add_mod, Nat.shiftRight_eq_div_pow, Nat.div_add_mod]
  have hs : w.toNat - (w.toNat >>> lo % 2 ^ len) <<< lo + (v % 2 ^ len) <<< lo =
      2 ^ lo * (2 ^ len * (w.toNat >>> lo / 2 ^ len) + v % 2 ^ len) + w.toNat % 2 ^ lo := by
    simp only [Nat.shiftLeft_eq]
    conv_lhs => enter [1, 1]; rw [hw]
    simp only [Nat.mul_add, Nat.mul_comm _ (2 ^ lo)]
    omega
  have hlo : w.toNat % 2 ^ lo < 2 ^ lo := Nat.mod_lt _ (Nat.two_pow_pos lo)
  have hv : v % 2 ^ len < 2 ^ len := Nat.mod_lt _ (Nat.two_pow_pos len)
  simp only [bit, setBits, BitVec.toNat_ofNat, Nat.testBit_mod_two_pow, hs, Nat.testBit_two_pow_mul_add _ hlo,
    Nat.testBit_two_pow_mul_add _ hv, Nat.testBit_shiftRight, Nat.testBit_div_two_pow]
  congr 1
  by_cases h1 : j < lo
  · simp [h1, Nat.not_le.2 h1]
  · by_cases h2 : j < lo + len
    · have : j - lo < len := by omega
      simp [h1, h2, this, Nat.not_lt.1 h1]
    · have : ¬ j - lo < len := by omega
      simp [h1, h2, this]
      congr 1; omega
/-- Bit `j` after bit `k` was set. -/
theorem bit_setBit {n : Nat} (w : BitVec n) (k j : Nat) (b : Bool) :
    bit (setBit w k b) j = (decide (j < n) && if j = k then b else bit w j) := by
  rw [setBit, bit_setBits]
  congr 1
  by_cases h : j = k
  · subst h; cases b <;> simp
  · rw [if_neg h, if_neg (by omega)]

theorem bit_of_le {n : Nat} (w : BitVec n) {j : Nat} (h : n ≤ j) : bit w j = false :=
  Nat.testBit_lt_two_pow (w.isLt.trans_le (Nat.pow_le_pow_right (by omega) h))
end Sys2Proof
end

section
/-! The fuses burn one way (R410, R411, R438, R439). Nearly every command keeps them, by Laws/Keeps.lean; what is left are the
commands that start or end a programming, advance the rollback counters, or remove the power. -/

open Sys2Proof Sys2Proof.Machine

namespace Sys2Proof.Machine

/-! ### The relation -/

theorem Fuses.kept.refl (f : Fuses) : f.kept f := by
  constructor <;> simp

theorem Fuses.kept.trans {f g h : Fuses} (a : f.kept g) (b : g.kept h) : f.kept h where
  keys k hk := b.keys k (a.keys k hk)
  owner0 hp := ⟨(b.owner0 (a.owner0 hp).1).1, (b.owner0 (a.owner0 hp).1).2.trans (a.owner0 hp).2⟩
  owner1 hp := ⟨(b.owner1 (a.owner1 hp).1).1, (b.owner1 (a.owner1 hp).1).2.trans (a.owner1 hp).2⟩
  revoked0 hr := b.revoked0 (a.revoked0 hr)
  revoked1 hr := b.revoked1 (a.revoked1 hr)
  rollFw := a.rollFw.trans b.rollFw
  rollCfg := a.rollCfg.trans b.rollCfg
  infield := a.infield.trans b.infield
  order := by simp [a.order, b.order]
  maps := by simp [a.maps, b.maps]

/-- Fuses that differ in the pending command only. -/
theorem Fuses.kept_busy (f : Fuses) (o : Option FuseOp) : f.kept { f with busy := o } := by
  constructor <;> simp

/-- From steady fuses, `t` holds all that `s` held, and they are steady again. -/
def State.burnsOneWay (s t : State) : Prop := s.fuses.steady → s.fuses.kept t.fuses ∧ t.fuses.steady

/-- The fuses are the same. -/
theorem State.burnsOneWay.of_eq {s t : State} (h : t.fuses = s.fuses) : s.burnsOneWay t := fun hs => by
  rw [h]; exact ⟨.refl _, hs⟩

theorem State.burnsOneWay.trans {s t u : State} (a : s.burnsOneWay t) (b : t.burnsOneWay u) : s.burnsOneWay u := fun hs =>
  ⟨(a hs).1.trans (b (a hs).2).1, (b (a hs).2).2⟩

theorem State.burnsOneWay.after {s t u : State} (b : t.burnsOneWay u) (h : t.fuses = s.fuses) : s.burnsOneWay u :=
  (State.burnsOneWay.of_eq h).trans b

/-- The pending programming is forgotten: by the loss of power, or as it ends in failure. -/
theorem State.burnsOneWay.of_idle {s t : State} (h : t.fuses = { s.fuses with busy := none }) : s.burnsOneWay t := fun _ => by
  rw [h]; exact ⟨s.fuses.kept_busy none, fun _ _ hb => nomatch hb⟩

theorem State.burnsOneWay.ite {s t u : State} {c : Prop} [Decidable c] (a : s.burnsOneWay t) (b : s.burnsOneWay u) :
    s.burnsOneWay (if c then t else u) := by
  split <;> assumption

/-! ### Commands -/

/-- The command answers a next state, on the way to which the fuses burn one way. -/
def State.burnsTo (s : State) (o : Host.Outcome State Fault Refusal) : Prop := ∃ t, o = .next t ∧ s.burnsOneWay t

theorem State.burnsTo.of_keeps {s : State} {o : Host.Outcome State Fault Refusal}
    (h : ∃ t, o = .next t ∧ t.fuses = s.fuses ∧ t.bell.count = s.bell.count) : s.burnsTo o :=
  let ⟨t, ht, hf, _⟩ := h
  ⟨t, ht, .of_eq hf⟩

/-- A fuse command begun waits for its pulse; an owner slot it is to program is not programmed (R410). -/
theorem State.burnsTo.of_maySetBusy {s : State} {o : Host.Outcome State Fault Refusal}
    (h : ∃ t, o = .next t ∧ s.maySetBusy t) : s.burnsTo o := by
  obtain ⟨t, ht, _, hf | ⟨op, hf, hop⟩⟩ := h
  · exact ⟨t, ht, .of_eq hf⟩
  · refine ⟨t, ht, fun _ => ?_⟩
    rw [hf]
    exact ⟨s.fuses.kept_busy _, fun k x hb => hop k x (Option.some.inj hb)⟩

theorem bit_setBit_of_bit {n : Nat} (v : BitVec n) (k j : Nat) (h : bit v j = true) : bit (setBit v k true) j = true := by
  have hj : j < n := by
    by_contra hn
    rw [bit_of_le v (Nat.le_of_not_lt hn)] at h
    cases h
  rw [bit_setBit]
  split <;> simp [hj, h]

/-- What a command programs is kept with the rest, where an owner slot to be programmed is not programmed yet. -/
theorem Fuses.kept_program (f : Fuses) (op : FuseOp)
    (h : ∀ k x, op = .programOwner k x → (f.owner k).programmed = false) : f.kept { f.program op with busy := none } := by
  cases op with
  | appendSite w => constructor <;> simp [Fuses.program]
  | revokeFw k => constructor <;> simp +contextual [Fuses.program, bit_setBit_of_bit]
  | programOwner k x =>
    have hp := h k x rfl
    by_cases hk : k = 0 <;> simp only [Fuses.owner, hk, if_true, if_false] at hp <;>
      constructor <;> simp [Fuses.program, Fuses.setOwner, Fuses.owner, hk, hp]
  | revokeOwner k => by_cases hk : k = 0 <;> constructor <;> simp [Fuses.program, Fuses.setOwner, Fuses.owner, hk]

theorem execFuseProgrammingDone_burnsOneWay (ok : Bool) (s : State) : s.burnsTo (execFuseProgrammingDone ok s) := by
  refine ⟨_, rfl, ?_⟩
  split
  · exact .of_eq rfl
  · rename_i op hop
    cases ok with
    | true => exact fun hs => ⟨s.fuses.kept_program op fun k x hx => hs k x (by rw [hop, hx]), fun _ _ hb => nomatch hb⟩
    | false => exact .of_idle rfl

theorem execBellTick_burnsOneWay (short : Bool) (s : State) : s.burnsTo (execBellTick short s) := by
  refine ⟨_, rfl, .of_eq ?_⟩
  split
  · rfl
  · dsimp only
    split <;> simp

theorem execMarker_burnsOneWay (count : DWord) (period : BitVec 18) (dom : Half) (lvl : BitVec 3) (oos : Bool)
    (atPeriod atPs : Nat) (s : State) : s.burnsTo (execMarker count period dom lvl oos atPeriod atPs s) := by
  refine ⟨_, rfl, .of_eq ?_⟩
  split
  · rfl
  · split
    · simp
    · unfold State.joinDomain
      (repeat' split) <;> simp

/-! ### Loss of power -/

theorem State.allOff_burnsOneWay (s : State) : s.burnsOneWay s.allOff := .of_idle rfl
theorem State.serviceEnds_burnsOneWay (s : State) : s.burnsOneWay s.serviceEnds := .of_idle rfl

theorem execPowerEnFall_burnsOneWay (s : State) : s.burnsTo (execPowerEnFall s) := ⟨_, rfl, .of_idle rfl⟩

theorem execUndervoltageLockout_burnsOneWay (s : State) : s.burnsTo (execUndervoltageLockout s) :=
  ⟨_, rfl, .ite (.of_idle rfl) (.of_eq rfl)⟩

theorem execResetNFall_burnsOneWay (s : State) : s.burnsTo (execResetNFall s) :=
  ⟨_, rfl, .ite (.of_idle rfl) (.of_eq rfl)⟩

theorem execHubSectorLost_burnsOneWay (h : Fin 16) (cause : BitVec 1) (s : State) : s.burnsTo (execHubSectorLost h cause s) := by
  refine ⟨_, rfl, .ite (.of_eq rfl) ?_⟩
  have hr : s.burnsOneWay (if cause = 1 then s.failRegs (hubRail h) else s) := .ite (.of_eq (by simp)) (.of_eq rfl)
  refine hr.trans ?_
  generalize (if cause = 1 then s.failRegs (hubRail h) else s) = t
  exact .ite t.serviceEnds_burnsOneWay (.ite (.of_eq (by simp)) (.of_eq rfl))

theorem State.railLost_burnsOneWay (s : State) (rail cause : Nat) : s.burnsOneWay (s.railLost rail cause) := by
  have hk : s.burnsOneWay (s.otherRailFault rail cause).serviceEnds :=
    (State.serviceEnds_burnsOneWay _).after (by simp)
  unfold State.railLost
  refine .ite (.of_eq rfl) (.ite (.of_eq (by simp)) (.ite s.serviceEnds_burnsOneWay (.ite hk (.ite (.ite ?_ (.of_eq rfl))
    (.ite (.of_eq (by simp)) (.ite (.of_eq ?_) (.of_eq (by simp))))))))
  · exact .of_eq (by simp)
  · refine ((foldl_keeps _ _ _ fun t i => ?_).1.trans (by simp))
    dsimp only
    split <;> simp

theorem execRailFault_burnsOneWay (rail : Fin 112) (o : RailObs) (s : State) : s.burnsTo (execRailFault rail o s) := by
  refine ⟨_, rfl, .ite (.of_eq rfl) ?_⟩
  exact .trans (.ite (.of_eq (by simp)) (.of_eq rfl)) (State.railLost_burnsOneWay _ _ _)

theorem execRegulatorLoss_burnsOneWay (rail : Fin 112) (second : Bool) (s : State) :
    s.burnsTo (execRegulatorLoss rail second s) := by
  refine ⟨_, rfl, .ite (.of_eq rfl) ?_⟩
  exact .trans (t := s.failReg rail second) (.of_eq (by simp)) (.ite (State.railLost_burnsOneWay _ _ _) (.of_eq rfl))

/-! ### Starts -/

/-- The rollback counters only advance (R411). -/
theorem State.advanceRollback_burnsOneWay (s : State) : s.burnsOneWay s.advanceRollback := by
  unfold State.advanceRollback
  split
  · exact .of_eq rfl
  · intro hs
    refine ⟨?_, hs⟩
    constructor <;> simp

theorem State.reportReady_burnsOneWay (s : State) (o : StartObs) : s.burnsOneWay (s.reportReady o) := by
  unfold State.reportReady
  lift_lets
  extract_lets ended causes cause counted go measured boot timed reeve done
  have hc : s.burnsOneWay counted := .of_eq (by simp [counted, ended])
  have hm : counted.burnsOneWay measured := .trans (.trans (t := go counted _) (.of_eq rfl) (State.advanceRollback_burnsOneWay _))
    (.of_eq (State.measure_keeps _).1)
  have hd : s.burnsOneWay done := (hc.trans hm).trans (.of_eq rfl)
  exact .ite (hc.trans (.of_eq rfl)) (.ite hd (hd.trans (.of_eq (State.raise_keeps ..).1)))

theorem State.withRas_fuses (s : State) (r : Ras) : ({ s with ras := r } : State).fuses = s.fuses := rfl

theorem State.coldField_burnsOneWay (s : State) (o : StartObs) : s.burnsOneWay (s.coldField o) := by
  have hs := (State.reportReady_burnsOneWay (((s.startField o).knownAnswer o).coldStacks o).buildGeometry o).after
    (s := s) (by simp)
  unfold State.coldField
  dsimp only
  generalize ((((s.startField o).knownAnswer o).coldStacks o).buildGeometry.reportReady o) = ready at hs ⊢
  refine .ite (hs.trans (.of_eq ?_)) (hs.trans (.of_eq (State.reportUvlo_keeps _).1))
  exact (State.reportUvlo_keeps _).1.trans ((State.appendPpr_keeps ..).1.trans ((State.appendWear_keeps ..).1.trans
    (State.withRas_fuses ..)))

theorem State.slotWait_burnsOneWay (s : State) (o : StartObs) : s.burnsOneWay (s.slotWait o) := by
  unfold State.slotWait
  dsimp only
  split
  · exact .ite ((State.coldField_burnsOneWay _ o).after rfl) (.of_eq rfl)
  · exact .ite (State.coldField_burnsOneWay _ o) (.of_eq rfl)

theorem State.coldParts_burnsOneWay (s : State) (o : StartObs) : s.burnsOneWay (s.coldParts o) := by
  have hp : (((((((s.loadMaps o).applyClockPlan.startSectors o).startHostPorts o).startPorts o).refusePort).reachPrimary
      o).startGuests o false).fuses = s.fuses := by simp
  unfold State.coldParts
  dsimp only
  generalize (((((((s.loadMaps o).applyClockPlan.startSectors o).startHostPorts o).startPorts o).refusePort).reachPrimary
      o).startGuests o false) = t at hp ⊢
  exact .ite (.of_eq (by simp [hp])) ((State.slotWait_burnsOneWay _ o).after (by simp [hp]))

theorem State.coldStart_burnsOneWay (s : State) (o : StartObs) : s.burnsOneWay (s.coldStart o) := by
  unfold State.coldStart
  dsimp only
  refine .ite (.of_eq (by simp)) ?_
  have hp (t : State) (h : t.fuses = s.fuses) : (t.pickImage o o.straps.img).fuses = s.fuses := by simp [h]
  exact .ite (.of_eq (hp _ (by simp))) ((State.coldParts_burnsOneWay _ o).after (hp _ (by simp)))

theorem execResetNRise_burnsOneWay (o : StartObs) (s : State) : s.burnsTo (execResetNRise o s) :=
  ⟨_, rfl, .ite (.of_eq rfl) ((State.coldStart_burnsOneWay _ o).after rfl)⟩

theorem execResetReleaseImplied_burnsOneWay (o : StartObs) (s : State) : s.burnsTo (execResetReleaseImplied o s) :=
  ⟨_, rfl, .ite (s.coldStart_burnsOneWay o) (.of_eq rfl)⟩

theorem execStartupSlotWait_burnsOneWay (o : StartObs) (s : State) : s.burnsTo (execStartupSlotWait o s) :=
  ⟨_, rfl, .ite ((State.coldField_burnsOneWay _ o).after rfl) (.of_eq rfl)⟩

/-- The entries of the ledger that fail their check are recovered or lost; the fuses stay. -/
theorem State.checkEntries_fuses (s : State) (l : List Nat) : (l.foldl State.checkEntry s).fuses = s.fuses :=
  (foldl_keeps l _ s State.checkEntry_keeps).1

theorem State.finishRestart_burnsOneWay (s : State) (o : StartObs) : s.burnsOneWay (s.finishRestart o) := by
  unfold State.finishRestart
  lift_lets
  extract_lets old check picked new stays bell started guested ras counted checked boot
  have hp : picked.fuses = s.fuses := by simp [picked]
  have hs : started.fuses = picked.fuses := by simp [started]
  have hg : guested.fuses = started.fuses := by simp [guested]
  have hc : counted.fuses = guested.fuses := State.withRas_fuses guested _
  have hk (t : State) : (check t).fuses = t.fuses := State.checkEntries_fuses t _
  have hm : checked.fuses = counted.fuses := by simp [checked, hk]
  clear_value check picked started guested counted checked boot
  have hall : counted.fuses = s.fuses := by rw [hc, hg, hs, hp]
  refine .ite (.of_eq hp) (.ite (.of_eq ?_) ?_)
  · rw [(State.appendOwed_keeps _ _).1, ← hall, ← hm]
  · have hr : (((check (counted.warmStacks o)).startField o).knownAnswer o).buildGeometry.fuses = s.fuses := by simp [hk, hall]
    exact ((State.reportReady_burnsOneWay _ o).after hr).trans (.of_eq (State.appendOwed_keeps _ _).1)

theorem execWarmRestart_burnsOneWay (o : StartObs) (s : State) : s.burnsTo (execWarmRestart o s) :=
  ⟨_, rfl, .ite (s.finishRestart_burnsOneWay o)
    (.ite ((State.finishRestart_burnsOneWay _ o).after (by simp)) (.of_eq (by simp)))⟩

/-! ### Every command -/

theorem exec_burnsOneWay (c : Instr) (s : State) : s.burnsTo (exec c s) := by
  cases hset : maySetFusesOrBell c with
  | false => exact .of_keeps (exec_keeps c s hset)
  | true =>
    cases c with
    | powerEnFall => exact execPowerEnFall_burnsOneWay s
    | undervoltageLockout => exact execUndervoltageLockout_burnsOneWay s
    | resetNFall => exact execResetNFall_burnsOneWay s
    | hubSectorLost h cause => exact execHubSectorLost_burnsOneWay h cause s
    | railFault rail o => exact execRailFault_burnsOneWay rail o s
    | regulatorLoss rail second => exact execRegulatorLoss_burnsOneWay rail second s
    | resetNRise o => exact execResetNRise_burnsOneWay o s
    | resetReleaseImplied o => exact execResetReleaseImplied_burnsOneWay o s
    | startupSlotWait o => exact execStartupSlotWait_burnsOneWay o s
    | warmRestart o => exact execWarmRestart_burnsOneWay o s
    | bellTick short => exact execBellTick_burnsOneWay short s
    | marker count period dom lvl oos atPeriod atPs => exact execMarker_burnsOneWay count period dom lvl oos atPeriod atPs s
    | fuseProgrammingDone ok => exact execFuseProgrammingDone_burnsOneWay ok s
    | appendSite path => exact .of_maySetBusy (execAppendSite_maySetBusy path s)
    | revokeFwKey path key => exact .of_maySetBusy (execRevokeFwKey_maySetBusy path key s)
    | programOwner path slot => exact .of_maySetBusy (execProgramOwner_maySetBusy path slot s)
    | revokeOwner path slot => exact .of_maySetBusy (execRevokeOwner_maySetBusy path slot s)
    | registerWrite path o v => exact .of_maySetBusy (execRegisterWrite_maySetBusy path o v s)
    | rdmaWrite qp rkey va data => exact .of_maySetBusy (execRdmaWrite_maySetBusy qp rkey va data s)
    | read id => exact .of_maySetBusy (execRead_maySetBusy id s)
    | write id => exact .of_maySetBusy (execWrite_maySetBusy id s)
    | _ => nomatch hset

theorem step_burnsOneWay (s : State) : s.burnsTo (step s) := by
  unfold step
  split
  · exact ⟨s, rfl, .of_eq rfl⟩
  · rename_i c rest _
    obtain ⟨t, ht, hb⟩ := exec_burnsOneWay c { s with pending := rest }
    exact ⟨t, ht, hb⟩

end Sys2Proof.Machine

/-- Settles O57: a step runs one command, and each burns the fuses one way. -/
theorem fusesBurnOneWay : Obligations.FusesBurnOneWay := by
  unfold Obligations.FusesBurnOneWay
  intro s t hs ht
  obtain ⟨u, hu, hb⟩ := step_burnsOneWay s
  rw [hu] at ht
  cases ht
  exact hb hs

end

section
/-! Scalar and predicate instructions and the register file (R42, R43, R47, R48, R52, R72, R75). -/

open Sys2Proof Sys2Proof.Machine

namespace Sys2Proof.Machine

/-! ### Registers (R42, R43, R52) -/

@[simp] theorem Core.sreg_zero (c : Core) : c.sreg 0 = 0 := by simp [Core.sreg]
@[simp] theorem Core.spois_zero (c : Core) : c.spois 0 = false := by simp [Core.spois]
@[simp] theorem Core.pred_zero (c : Core) : c.pred 0 = true := by simp [Core.pred]
@[simp] theorem Core.setS_zero (c : Core) (v : Word) (b : Bool) : c.setS 0 v b = c := by simp [Core.setS]
@[simp] theorem Core.setP_zero (c : Core) (b : Bool) : c.setP 0 b = c := by simp [Core.setP]

theorem Core.setS_of_ne (c : Core) {r : BitVec 5} (hr : r ≠ 0) (v : Word) (b : Bool) :
    c.setS r v b = { c with s := c.s.set r.toNat v, sp := setBit c.sp r.toNat b } := if_neg hr

theorem Core.setP_of_ne (c : Core) {i : BitVec 3} (hi : i ≠ 0) (w : Bool) :
    c.setP i w = { c with p := setBit c.p i.toNat w } := if_neg hi

theorem Core.sreg_of_ne (c : Core) {r : BitVec 5} (hr : r ≠ 0) : c.sreg r = c.s[r.toNat] := if_neg hr

theorem Core.spois_of_ne (c : Core) {r : BitVec 5} (hr : r ≠ 0) : c.spois r = bit c.sp r.toNat := by
  rw [Core.spois, decide_eq_true hr, Bool.true_and]

theorem Core.pred_of_ne (c : Core) {i : BitVec 3} (hi : i ≠ 0) : c.pred i = bit c.p i.toNat := by
  rw [Core.pred, decide_eq_false hi, Bool.false_or]

theorem Core.sreg_setS (c : Core) {r : BitVec 5} (hr : r ≠ 0) (q : BitVec 5) (v : Word) (b : Bool) :
    (c.setS r v b).sreg q = if q = r then v else c.sreg q := by
  rw [c.setS_of_ne hr]
  by_cases hq : q = r
  · subst hq
    rw [Core.sreg_of_ne _ hr, if_pos rfl, Vector.getElem_set_self]
  · have hn : r.toNat ≠ q.toNat := fun h => hq (BitVec.eq_of_toNat_eq h.symm)
    simp only [Core.sreg, Vector.getElem_set_ne _ _ hn, hq, if_false]

theorem Core.spois_setS (c : Core) {r : BitVec 5} (hr : r ≠ 0) (q : BitVec 5) (v : Word) (b : Bool) :
    (c.setS r v b).spois q = if q = r then b else c.spois q := by
  rw [c.setS_of_ne hr]
  by_cases hq : q = r
  · subst hq
    rw [Core.spois_of_ne _ hr, bit_setBit, if_pos rfl, if_pos rfl, decide_eq_true q.isLt, Bool.true_and]
  · have hn : q.toNat ≠ r.toNat := fun h => hq (BitVec.eq_of_toNat_eq h)
    simp only [Core.spois, bit_setBit, hn, hq, if_false, decide_eq_true q.isLt, Bool.true_and]

theorem Core.pred_setP (c : Core) {i : BitVec 3} (hi : i ≠ 0) (j : BitVec 3) (w : Bool) :
    (c.setP i w).pred j = if j = i then w else c.pred j := by
  have hj8 : j.toNat < 8 := j.isLt
  rw [c.setP_of_ne hi]
  by_cases hj : j = i
  · subst hj
    rw [Core.pred_of_ne _ hi, bit_setBit, if_pos rfl, if_pos rfl, decide_eq_true hj8, Bool.true_and]
  · have hn : j.toNat ≠ i.toNat := fun h => hj (BitVec.eq_of_toNat_eq h)
    simp only [Core.pred, bit_setBit, hn, hj, if_false, decide_eq_true hj8, Bool.true_and]

@[simp] theorem Core.vreg_setV (c : Core) (i : BitVec 4) (x : VReg) (m : BitVec 4) : (c.setV i x m).vreg i = x := by
  simp [Core.vreg, Core.setV]
@[simp] theorem Core.vpois_setV (c : Core) (i : BitVec 4) (x : VReg) (m : BitVec 4) : (c.setV i x m).vpois i = m := by
  simp [Core.vpois, Core.setV]

theorem Core.vreg_setV_ne (c : Core) {i j : BitVec 4} (h : j ≠ i) (x : VReg) (m : BitVec 4) :
    (c.setV i x m).vreg j = c.vreg j := by
  have hn : i.toNat ≠ j.toNat := fun e => h (BitVec.eq_of_toNat_eq e.symm)
  simp [Core.vreg, Core.setV, hn]

theorem Core.vpois_setV_ne (c : Core) {i j : BitVec 4} (h : j ≠ i) (x : VReg) (m : BitVec 4) :
    (c.setV i x m).vpois j = c.vpois j := by
  have hn : i.toNat ≠ j.toNat := fun e => h (BitVec.eq_of_toNat_eq e.symm)
  simp [Core.vpois, Core.setV, hn]

/-! ### Instructions of a ready core -/

variable {s : State} {p : Pos}

/-- Equal states are equal outcomes. -/
theorem next_congr {t u : State} (h : t = u) : (.next t : Host.Outcome State Fault Refusal) = .next u := congrArg _ h

/-- A check with nothing to find. -/
theorem Check.clean_empty : Check.clean {} := by simp [Check.clean]

/-- An instruction that reads no vector register waits for none. -/
theorem Check.unblocked_of_noReads {k : Check} (c : Core) (h : k.reads = []) : k.unblocked c := by
  simp [Check.unblocked, h]

theorem aluR_on {f : FmtR} (h : s.ready p f.pr) (h0 : f.rsv = 0) (func : BitVec 6) (op : Word → Word → Word) :
    aluR p func f op s = s.wroteS p f.rd (op ((s.core p).sreg f.ra) ((s.core p).sreg f.rb))
      ((s.core p).spois f.ra || (s.core p).spois f.rb) :=
  runCore_on _ _ _ h (by simp [Check.clean, rsvR, h0]) (Check.unblocked_of_noReads _ rfl)

theorem aluI_on {f : FmtI} (h : s.ready p f.pr) (f3 : BitVec 3) (op : Word → Word → Word) (v : Word) :
    aluI p f3 f op v s = s.wroteS p f.rd (op ((s.core p).sreg f.ra) v) ((s.core p).spois f.ra) :=
  runCore_on _ _ _ h Check.clean_empty (Check.unblocked_of_noReads _ rfl)

/-- The distance of an immediate shift: imm11 is wider than the five bits taken of it. -/
theorem shamt_uimmI (f : FmtI) : shamt (uimmI f) = f.imm.toNat % 32 := by
  have := f.imm.isLt
  simp only [shamt, uimmI, BitVec.toNat_setWidth]
  omega

theorem branchOn_on {f : FmtB} (h : s.ready p f.pr) (ha : (s.core p).spois f.ra = false) (hb : (s.core p).spois f.rb = false)
    (cond : BitVec 3) (test : Word → Word → Bool) :
    branchOn p cond f test s = s.retire p { s.core p with
      pc := if test ((s.core p).sreg f.ra) ((s.core p).sreg f.rb) then pcAdd (s.core p).pc f.off.toInt else (s.core p).pc + 1 } := by
  refine (runCore_on _ _ _ h (by simp [Check.clean, ha, hb]) (Check.unblocked_of_noReads _ rfl)).trans ?_
  cases test ((s.core p).sreg f.ra) ((s.core p).sreg f.rb) <;> rfl

theorem pcmp_on {f : FmtR} (h : s.ready p f.pr) (h0 : f.rsv = 0) (h1 : 1 ≤ f.rd.toNat) (h8 : f.rd.toNat < 8)
    (ha : (s.core p).spois f.ra = false) (hb : (s.core p).spois f.rb = false) (func : BitVec 6) (test : Word → Word → Bool) :
    pcmp p func f test s = s.wroteP p f.rd (test ((s.core p).sreg f.ra) ((s.core p).sreg f.rb)) :=
  runCore_on _ _ _ h (by simpa [Check.clean, ha, hb] using predWord_false h0 h1 h8) (Check.unblocked_of_noReads _ rfl)

theorem predOp_on {f : FmtR} (h : s.ready p f.pr) (h0 : f.rsv = 0) (h1 : 1 ≤ f.rd.toNat) (h8 : f.rd.toNat < 8)
    (ha : f.ra.toNat < 8) (hb : f.rb.toNat < 8) (func : BitVec 6) (op : Bool → Bool → Bool) :
    predOp p func f op s = s.wroteP p f.rd (op ((s.core p).pred (f.ra.setWidth 3)) ((s.core p).pred (f.rb.setWidth 3))) := by
  have hx : decide (f.ra.toNat ≥ 8 ∨ f.rb.toNat ≥ 8) = false := by simp; omega
  refine runCore_on _ _ _ h ?_ (Check.unblocked_of_noReads _ rfl)
  rw [hx]
  simpa [Check.clean] using predWord_false h0 h1 h8

/-- The checks of an access that a register allows. -/
theorem accessChecks_clean {c : Core} {r : BitVec 5} {ea n al : Nat} (h : accessible c r ea n al) (store : Bool)
    (hs : store = true → regionOf ea n ≠ .bank) : ∀ x ∈ accessChecks c r ea n al store, x.1 = false := by
  obtain ⟨hp, hw, hr, ha⟩ := h
  have hwide : overWide (c.sreg r) = false := decide_eq_false (by omega)
  cases store <;> simp_all [accessChecks]

/-- Data SRAM is not read-only. -/
theorem regionOf_ne_bank {ea n : Nat} (h : ea + n ≤ 0x18000) : regionOf ea n ≠ .bank := by
  simp [regionOf, h]

theorem scalarLoad_on {f : FmtI} (h : s.ready p f.pr) {n : Nat}
    (ha : accessible (s.core p) f.ra (scalarEa (s.core p) f) n n) (f3 : BitVec 3) (conv : Nat → Word) :
    scalarLoad p f3 f n conv s =
      let ea := scalarEa (s.core p) f
      let t := s.touchLocal p (wordI 0x4 f3 f) ea n
      t.wroteS p f.rd (conv (leNat ((t.core p).localBytes ea n))) ((t.core p).localPoison ea n) := by
  dsimp only
  unfold scalarLoad
  refine runWide_on (k := fun c => { on := accessChecks c f.ra (scalarEa (s.core p) f) n n false }) _ _ _ h ?_
    (Check.unblocked_of_noReads _ rfl)
  simpa [Check.clean] using accessChecks_clean ha false (by simp)

theorem scalarStore_on {f : FmtI} (h : s.ready p f.pr) {n : Nat}
    (ha : accessible (s.core p) f.ra (scalarEa (s.core p) f) n n) (hd : scalarEa (s.core p) f + n ≤ 0x18000) (f3 : BitVec 3) :
    scalarStore p f3 f n s =
      let ea := scalarEa (s.core p) f
      let t := s.touchSram p (wordI 0x4 f3 f) ea n
      t.retire p ((t.core p).storeNarrow ea (leBytes n ((t.core p).sreg f.rd).toNat) ((t.core p).spois f.rd)).next := by
  dsimp only
  unfold scalarStore
  refine runWide_on (k := fun c => { on := accessChecks c f.ra (scalarEa (s.core p) f) n n true }) _ _ _ h ?_
    (Check.unblocked_of_noReads _ rfl)
  simpa [Check.clean] using accessChecks_clean ha true fun _ => regionOf_ne_bank hd

end Sys2Proof.Machine

/-- Settles O1: a step looks at nothing but the front of the queue. -/
theorem stepRunsFrontCommand : Obligations.StepRunsFrontCommand := by
  unfold Obligations.StepRunsFrontCommand
  exact ⟨fun _ _ _ => rfl, fun s h => by simp [step, h]⟩

/-- Settles O3: each write is read back, and the others are read past it. -/
theorem registerWrites : Obligations.RegisterWrites := by
  unfold Obligations.RegisterWrites
  intro c r q v b
  refine ⟨c.setS_zero v b, c.sreg_zero, c.spois_zero, fun hr => ⟨?_, ?_⟩, fun hq => ?_, fun i j w =>
    ⟨c.pred_zero, c.setP_zero w, fun hi => ?_, fun hj => ?_⟩, fun i j x m =>
    ⟨c.vreg_setV i x m, c.vpois_setV i x m, fun hj => ⟨c.vreg_setV_ne hj x m, c.vpois_setV_ne hj x m⟩⟩⟩
  · rw [c.sreg_setS hr, if_pos rfl]
  · rw [c.spois_setS hr, if_pos rfl]
  · by_cases hr : r = 0
    · rw [hr, c.setS_zero]
      exact ⟨rfl, rfl⟩
    · rw [c.sreg_setS hr, c.spois_setS hr, if_neg hq, if_neg hq]
      exact ⟨rfl, rfl⟩
  · rw [c.pred_setP hi, if_pos rfl]
  · by_cases hi : i = 0
    · rw [hi, c.setP_zero]
    · rw [c.pred_setP hi, if_neg hj]

/-- Settles O2: every form runs through `aluR` or `aluI` with its operation, LUH and LLO write rd alone. -/
theorem scalarAluResults : Obligations.ScalarAluResults := by
  unfold Obligations.ScalarAluResults
  intro p s
  refine ⟨fun f h h0 => ?registers, fun f h => ?immediates, fun f h => ?long⟩
  case registers =>
    intro a b put
    have run (func : BitVec 6) (op : Word → Word → Word) {v : Word} (hv : op a b = v) :
        Host.Outcome.next (aluR p func f op s) = put v := by rw [aluR_on h h0, ← hv]
    have hmul : opMul a b = a * b := BitVec.eq_of_toNat_eq (by simp [opMul])
    have hdivu : opDivu a b = if b = 0 then 0xFFFFFFFF else a / b := by
      unfold opDivu
      split
      · rfl
      · exact BitVec.eq_of_toNat_eq (by simp [Nat.mod_eq_of_lt (Nat.lt_of_le_of_lt (Nat.div_le_self _ _) a.isLt)])
    have hremu : opRemu a b = if b = 0 then a else a % b := by
      unfold opRemu
      split
      · rfl
      · exact BitVec.eq_of_toNat_eq (by simp [Nat.mod_eq_of_lt (Nat.lt_of_le_of_lt (Nat.mod_le _ _) a.isLt)])
    exact ⟨run 0x0 _ rfl, run 0x1 _ rfl, run 0x2 _ rfl, run 0x3 _ rfl, run 0x4 _ rfl, run 0x5 _ rfl, run 0x6 _ rfl, run 0x7 _ rfl,
      run 0x8 _ rfl, run 0x9 _ rfl, run 0xa _ rfl, run 0xb _ rfl, run 0x10 _ hmul, run 0x11 _ rfl, run 0x12 _ rfl, run 0x18 _ rfl,
      run 0x19 _ hdivu, run 0x1a _ rfl, run 0x1b _ hremu⟩
  case immediates =>
    intro a se ze put
    have run (f3 : BitVec 3) (op : Word → Word → Word) (w : Word) {v : Word} (hv : op a w = v) :
        Host.Outcome.next (aluI p f3 f op w s) = put v := by rw [aluI_on h, ← hv]
    have hd := shamt_uimmI f
    exact ⟨run 0 _ _ rfl, run 1 _ _ rfl, run 2 _ _ rfl, run 3 _ _ rfl, run 4 _ _ rfl, run 5 _ _ (by simp only [opSll, hd]),
      run 6 _ _ (by simp only [opSrl, hd]), run 7 _ _ (by simp only [opSra, hd])⟩
  case long =>
    have run (w : Word) (eff : Core → Core) :
        s.runCore p w f.pr (fun _ => {}) eff = s.retire p (eff (s.core p)) :=
      runCore_on _ _ _ h Check.clean_empty (Check.unblocked_of_noReads _ rfl)
    exact ⟨next_congr (run _ _), next_congr (run _ _)⟩

/-- Settles O4: the checks of an access that a register allows find nothing, and the bytes move. -/
theorem scalarMemory : Obligations.ScalarMemory := by
  unfold Obligations.ScalarMemory
  intro p f s h
  exact ⟨fun ha => next_congr (scalarLoad_on h ha 0 _), fun ha => next_congr (scalarLoad_on h ha 2 _),
    fun ha => next_congr (scalarLoad_on h ha 3 _), fun ha hd => next_congr (scalarStore_on h ha hd 1),
    fun ha hd => next_congr (scalarStore_on h ha hd 4)⟩

/-- Settles O5: with no operand poisoned a branch tests them, LOOP counts, and the jumps link. -/
theorem branches : Obligations.Branches := by
  unfold Obligations.Branches
  intro p s
  refine ⟨fun f h ha => ⟨fun hb => ?branch, fun hb => ?loop⟩, fun f h => ?jal, fun f h h0 ha => ?jalr⟩
  case branch =>
    have run (cond : BitVec 3) (test : Word → Word → Bool) := next_congr (branchOn_on h ha hb cond test)
    exact ⟨run 0 _, run 1 _, run 2 _, run 3 _, run 4 _, run 5 _⟩
  case loop =>
    refine next_congr ((runCore_on _ _ _ h (by simp [Check.clean, ha, hb])
      (Check.unblocked_of_noReads _ rfl)).trans (congrArg _ ?_))
    by_cases hz : (s.core p).sreg f.ra - 1 = 0
    · simp only [hz, ne_eq, not_true_eq_false, if_false, Core.next, Core.setS]
      split <;> rfl
    · simp only [hz, ne_eq, not_false_eq_true, if_true]
  case jal => exact next_congr (runCore_on _ _ _ h (by simp [Check.clean]) (Check.unblocked_of_noReads _ rfl))
  case jalr => exact next_congr (runCore_on _ _ _ h (by simp [Check.clean, rsvR, h0, ha]) (Check.unblocked_of_noReads _ rfl))

/-- Settles O7: the destination is p1 to p7, the operands are in order, and pd takes the outcome. -/
theorem predicateResults : Obligations.PredicateResults := by
  unfold Obligations.PredicateResults
  intro p f s h h0 h1 h8
  refine ⟨fun ha hb => ?compare, fun ha hb => ?set, fun ha hb => ?combine, fun ha hb => ?negate⟩
  case compare =>
    have run (func : BitVec 6) (test : Word → Word → Bool) := next_congr (pcmp_on h h0 h1 h8 ha hb func test)
    exact ⟨run 0 _, run 1 _, run 2 _, run 3 _, run 4 _, run 5 _⟩
  case set =>
    refine next_congr (runCore_on _ _ _ h ?_ (Check.unblocked_of_noReads _ rfl))
    simpa [Check.clean, ha, hb] using predWord_false h0 h1 h8
  case combine =>
    have run (func : BitVec 6) (op : Bool → Bool → Bool) := next_congr (predOp_on h h0 h1 h8 ha hb func op)
    exact ⟨run 0x9 _, run 0xa _, run 0xb _⟩
  case negate =>
    have hx : decide (f.ra.toNat ≥ 8 ∨ f.rb ≠ 0) = false := by simp [hb]; omega
    refine next_congr (runCore_on _ _ _ h ?_ (Check.unblocked_of_noReads _ rfl))
    rw [hx]
    simpa [Check.clean] using predWord_false h0 h1 h8

end

section
/-! Lane instructions, reductions, conversion, vector memory and moves (R43, R54 to R57). -/

open Sys2Proof Sys2Proof.Machine

namespace Sys2Proof

/-! ### Bits of masks -/

theorem bit_or {n : Nat} (x y : BitVec n) (k : Nat) : bit (x ||| y) k = (bit x k || bit y k) := BitVec.getLsbD_or
theorem bit_and {n : Nat} (x y : BitVec n) (k : Nat) : bit (x &&& y) k = (bit x k && bit y k) := BitVec.getLsbD_and
theorem bit_not {n : Nat} (x : BitVec n) (k : Nat) : bit (~~~ x) k = (decide (k < n) && !bit x k) := BitVec.getLsbD_not

/-- A mask of four bits is not zero exactly when a bit of it is set. -/
theorem mask4_ne_zero_iff (x : BitVec 4) : x ≠ 0 ↔ ∃ k : Fin 4, bit x k = true := by
  revert x
  decide

/-- The bits of a mask of four given by what each stands for. -/
theorem bit_mask4 (P : Nat → Prop) [DecidablePred P] (q : Fin 4) :
    bit (BitVec.ofNat 4 (((List.range 4).map fun q => if P q then 2 ^ q else 0).sum)) q = decide (P q) := by
  have hl : List.range 4 = [0, 1, 2, 3] := rfl
  simp only [hl, List.map_cons, List.map_nil]
  by_cases h0 : P 0 <;> by_cases h1 : P 1 <;> by_cases h2 : P 2 <;> by_cases h3 : P 3 <;>
    simp only [h0, h1, h2, h3, if_true, if_false] <;> fin_cases q <;>
    simp only [h0, h1, h2, h3, decide_true, decide_false] <;> rfl

end Sys2Proof

namespace Sys2Proof.Machine

variable {s : State} {p : Pos}

/-! ### Lane instructions (R43, R54) -/

/-- The fields and MODE bits a function does not use are zero. -/
theorem vecWord_clean {f : FmtV} {b c : Bool} {m : BitVec 3} (hb : b = false → f.vb = 0) (hc : c = false → f.vc = 0)
    (hm : f.mode &&& ~~~m = 0) : ∀ x ∈ vecWord f b c m, x.1 = false := by
  cases b <;> cases c <;> simp_all [vecWord]

/-- Saturation is the only MODE bit set, or none is. -/
theorem mode_saturation {m : BitVec 3} (h : m = 0 ∨ m = 4) : m &&& ~~~(4 : BitVec 3) = 0 := by
  rcases h with rfl | rfl <;> rfl

theorem mode_zero {m : BitVec 3} (h : m = 0) : m &&& ~~~(0 : BitVec 3) = 0 := by
  subst h; rfl

/-- A comparison is named by the low two MODE bits. -/
theorem mode_compare {m : BitVec 3} (h : m.toNat < 4) : m &&& ~~~(3 : BitVec 3) = 0 := by
  revert m
  decide

theorem Check.unblocked_iff {k : Check} {c : Core} : k.unblocked c ↔ ∀ r ∈ k.reads, c.accrdPending r.toNat = false := Iff.rfl

theorem vec2_on {f : FmtV} (h : s.ready p f.pr) (ha : (s.core p).accrdPending f.va.toNat = false)
    (hb : (s.core p).accrdPending f.vb.toNat = false) (hc : f.vc = 0) {m : BitVec 3} (hm : f.mode &&& ~~~m = 0)
    (vf : BitVec 5) (op : Word → Word → Word × Flg) :
    vec2 p vf f m op s = s.wroteLanes p f.vd
      ((List.range 16).map fun i => op (lane ((s.core p).vreg f.va) i) (lane ((s.core p).vreg f.vb) i))
      ((s.core p).vpois f.va ||| (s.core p).vpois f.vb) :=
  runCore_on _ _ _ h (by simpa [Check.clean] using vecWord_clean (by simp) (fun _ => hc) hm)
    (by simp [Check.unblocked_iff, ha, hb])

theorem vec1_on {f : FmtV} (h : s.ready p f.pr) (ha : (s.core p).accrdPending f.va.toNat = false) (hb : f.vb = 0)
    (hc : f.vc = 0) {m : BitVec 3} (hm : f.mode &&& ~~~m = 0) (vf : BitVec 5) (op : Word → Word × Flg) :
    vec1 p vf f m op s = s.wroteLanes p f.vd ((List.range 16).map fun i => op (lane ((s.core p).vreg f.va) i))
      ((s.core p).vpois f.va) := by
  have hl (v : VReg) : (lanes v).map op = (List.range 16).map fun i => op (lane v i) := by
    simp only [lanes, List.map_map, Function.comp_def]
  refine (runCore_on _ _ _ h (by simpa [Check.clean] using vecWord_clean (fun _ => hb) (fun _ => hc) hm)
    (by simp [Check.unblocked_iff, ha])).trans ?_
  dsimp only [State.wroteLanes]
  rw [hl]

theorem vecReduce_on {f : FmtV} (h : s.ready p f.pr) (ha : (s.core p).accrdPending f.va.toNat = false) (hb : f.vb = 0)
    (hc : f.vc = 0) {m : BitVec 3} (hm : f.mode &&& ~~~m = 0) (vf : BitVec 5) (op : Word → Word → Word × Flg) :
    vecReduce p vf f m op s =
      let r := treeReduce op (lanes ((s.core p).vreg f.va))
      s.retire p (((s.core p).flag r.2).setV f.vd (ofLanes [r.1]) (allQuarters (decide ((s.core p).vpois f.va ≠ 0)))).next :=
  runCore_on _ _ _ h (by simpa [Check.clean] using vecWord_clean (fun _ => hb) (fun _ => hc) hm)
    (by simp [Check.unblocked_iff, ha])

/-! ### The poison of a conversion (R55) -/

theorem bit_quartersOf (lo len : Nat) (q : Fin 4) :
    bit (quartersOf lo len) q = decide (lo < 128 * (q.val + 1) ∧ 128 * q.val < lo + len) :=
  bit_mask4 (fun q => lo < 128 * (q + 1) ∧ 128 * q < lo + len) q

theorem bit_quartersCovered (lo len : Nat) (q : Fin 4) :
    bit (quartersCovered lo len) q = decide (lo ≤ 128 * q.val ∧ 128 * (q.val + 1) ≤ lo + len) :=
  bit_mask4 (fun q => lo ≤ 128 * q ∧ 128 * (q + 1) ≤ lo + len) q

/-- Towards FP32 a quarter takes the poison of each quarter of va that its four lanes are read from. -/
theorem bit_widenPoison (pa : BitVec 4) (lo b : Nat) (q : Fin 4) :
    bit (widenPoison pa lo b) q = true ↔
      ∃ k : Fin 4, bit pa k = true ∧ lo + 4 * b * q.val < 128 * (k.val + 1) ∧ 128 * k.val < lo + 4 * b * (q.val + 1) := by
  have hq : lo + 4 * b * (q.val + 1) = lo + 4 * b * q.val + 4 * b := by ring
  refine (Bool.eq_iff_iff.1 (bit_mask4 (fun q => pa &&& quartersOf (lo + 4 * b * q) (4 * b) ≠ 0) q)).trans ?_
  rw [decide_eq_true_iff, mask4_ne_zero_iff, hq]
  exact exists_congr fun k => by rw [bit_and, Bool.and_eq_true, bit_quartersOf, decide_eq_true_iff]

/-- Packing, a quarter takes the poison of each quarter of va of whose lanes it holds one. -/
theorem bit_narrowPoison (pa : BitVec 4) (lo b : Nat) (q : Fin 4) :
    bit (narrowPoison pa lo b) q = true ↔
      ∃ i : Fin 16, bit pa (i.val / 4) = true ∧ lo + b * i.val < 128 * (q.val + 1) ∧ 128 * q.val < lo + b * (i.val + 1) := by
  refine (Bool.eq_iff_iff.1 (bit_mask4 (fun q =>
    ((List.range 16).any fun i => bit (quartersOf (lo + b * i) b) q && bit pa (i / 4)) = true) q)).trans ?_
  simp only [decide_eq_true_iff, List.any_eq_true, List.mem_range, Bool.and_eq_true, bit_quartersOf]
  constructor
  · rintro ⟨i, hi, ⟨h1, h2⟩, hp⟩
    exact ⟨⟨i, hi⟩, hp, h1, by rwa [Nat.mul_succ, ← Nat.add_assoc]⟩
  · rintro ⟨i, hp, h1, h2⟩
    exact ⟨i.val, i.isLt, ⟨h1, by rwa [Nat.mul_succ, ← Nat.add_assoc] at h2⟩, hp⟩

theorem cvtGroup_eq (f : FmtV) : f.vb.toNat * 2 + (if bit f.mode 1 then 1 else 0) = cvtGroup f := by
  unfold cvtGroup b2n
  rfl

/-- The checks of a conversion between lanes and a format and group that exist. -/
theorem cvtWord_clean {f : FmtV} {el : Elem} (hg : cvtGroup f < cvtGroups el.width) (rs : List (BitVec 4)) :
    Check.clean { word := [((some el).isNone || decide (cvtGroup f ≥ cvtGroups (((some el).map Elem.width).getD 4)), .fmt)],
                  reads := rs } := by
  simpa [Check.clean] using hg

theorem execVcvt_widen {f : FmtV} (h : s.ready p f.pr) (ha : (s.core p).accrdPending f.va.toNat = false) {el : Elem}
    (he : cvtElem f.vc.toNat = some el) (hg : cvtGroup f < cvtGroups el.width) (hm : bit f.mode 0 = false) :
    let lo := 16 * el.width * cvtGroup f
    execVcvt p f s = .next (s.retire p ((s.core p).setV f.vd
      (ofLanes ((List.range 16).map fun i => el.toFp32 (bits ((s.core p).vreg f.va) (lo + el.width * i) el.width)))
      (widenPoison ((s.core p).vpois f.va) lo el.width)).next) := by
  unfold execVcvt
  rw [he]
  refine next_congr ((runCore_on _ _ _ h (cvtWord_clean hg _) (by simp [Check.unblocked_iff, hm, ha])).trans ?_)
  simp only [hm]
  rfl

theorem execVcvt_narrow {f : FmtV} (h : s.ready p f.pr) (ha : (s.core p).accrdPending f.va.toNat = false)
    (hd : (s.core p).accrdPending f.vd.toNat = false) {el : Elem} (he : cvtElem f.vc.toNat = some el)
    (hg : cvtGroup f < cvtGroups el.width) (hm : bit f.mode 0 = true) :
    let lo := 16 * el.width * cvtGroup f
    let r := (lanes ((s.core p).vreg f.va)).map (el.ofFp32 (bit f.mode 2))
    execVcvt p f s = .next (s.retire p (((s.core p).flag (r.foldl (fun a x => a.or x.2) {})).setV f.vd
      (setBits ((s.core p).vreg f.vd) lo (16 * el.width) (packCodes el.width (r.map (·.1))))
      (narrowPoison ((s.core p).vpois f.va) lo el.width |||
        ((s.core p).vpois f.vd &&& ~~~ quartersCovered lo (16 * el.width)))).next) := by
  unfold execVcvt
  rw [he]
  refine next_congr ((runCore_on _ _ _ h (cvtWord_clean hg _) (by simp [Check.unblocked_iff, hm, ha, hd])).trans ?_)
  simp only [hm]
  rfl

/-! ### Vector memory and moves (R57) -/

theorem execVld_on {f : FmtVM} (h : s.ready p f.pr) (ha : accessible (s.core p) f.ra (vecEa (s.core p) f) 64 16) :
    execVld p f s =
      let ea := vecEa (s.core p) f
      let t := s.touchLocal p (wordVM 0 f) ea 64
      .next (t.retire p ((t.core p).setV f.vd (ofBytes ((t.core p).localBytes ea 64)) ((t.core p).quarterPoison ea)).next) := by
  refine next_congr (runWide_on (k := fun c => { on := accessChecks c f.ra (vecEa (s.core p) f) 64 16 false }) _ _ _ h ?_
    (Check.unblocked_of_noReads _ rfl))
  simpa [Check.clean] using accessChecks_clean ha false (by simp)

theorem execVst_on {f : FmtVM} (h : s.ready p f.pr) (ha : accessible (s.core p) f.ra (vecEa (s.core p) f) 64 16)
    (hd : vecEa (s.core p) f + 64 ≤ 0x18000) (hv : (s.core p).accrdPending f.vd.toNat = false) :
    execVst p f s = .next (s.retire p ((s.core p).storeWords (vecEa (s.core p) f) (vbytes ((s.core p).vreg f.vd))
      (fun i => bit ((s.core p).vpois f.vd) (i / 2))).next) := by
  refine next_congr (runCore_on (k := fun c => { on := accessChecks c f.ra (vecEa (s.core p) f) 64 16 true, reads := [f.vd] })
    _ _ _ h ?_ (by simp [Check.unblocked_iff, hv]))
  simpa [Check.clean] using accessChecks_clean ha true fun _ => regionOf_ne_bank hd

end Sys2Proof.Machine

/-- Settles O8: a function of lanes runs through `vec2` or `vec1` with its operation, once its unused fields are zero. -/
theorem vectorLanes : Obligations.VectorLanes := by
  unfold Obligations.VectorLanes
  intro p f s h ha hb hc
  refine ⟨fun h0 hm => ?arithmetic, fun h0 hm => ?logic, fun h0 hm => ?compare, fun h1 h0 hm => ?abs, fun h1 h0 hm => ?unary,
    fun hm => ?fma, fun hm => ?select⟩
  case arithmetic =>
    have run := fun vf op => next_congr (vec2_on h ha hb h0 (mode_saturation hm) vf op)
    exact ⟨run 0x00 _, run 0x01 _, run 0x02 _⟩
  case logic =>
    have run := fun vf op => next_congr (vec2_on h ha hb h0 (mode_zero hm) vf op)
    exact ⟨run 0x04 _, run 0x05 _, run 0x11 _, run 0x12 _, run 0x13 _, run 0x14 _, run 0x15 _⟩
  case compare => exact next_congr (vec2_on h ha hb h0 (mode_compare hm) 0x0D _)
  case abs => exact next_congr (vec1_on h ha h1 h0 (mode_zero hm) 0x06 _)
  case unary =>
    have run := fun vf op => next_congr (vec1_on h ha h1 h0 (mode_saturation hm) vf op)
    exact ⟨run 0x08 _, run 0x09 _, run 0x0A _⟩
  case fma =>
    exact next_congr (runCore_on _ _ _ h
      (by simpa [Check.clean] using vecWord_clean (b := true) (c := true) (by simp) (by simp) (mode_saturation hm))
      (by simp [Check.unblocked_iff, ha, hb, hc]))
  case select =>
    exact next_congr (runCore_on _ _ _ h
      (by simpa [Check.clean] using vecWord_clean (b := true) (c := true) (by simp) (by simp) (mode_zero hm))
      (by simp [Check.unblocked_iff, ha, hb, hc]))

/-- Settles O9: reductions run through `vecReduce`; a conversion's poison is read off its mask; the moves touch one register. -/
theorem vectorMoves : Obligations.VectorMoves := by
  unfold Obligations.VectorMoves
  intro p s
  refine ⟨fun f h ha => ⟨fun h1 h0 hm => ?redsum, fun h1 h0 hm => ?redmax, fun el he => ?convert⟩,
    fun f h => ⟨fun hacc => ?vld, fun hacc hd hv => ?vst, fun h0 => ?vbcast, fun h16 hv => ?moves⟩⟩
  case redsum => exact next_congr (vecReduce_on h ha h1 h0 (mode_saturation hm) 0x0B _)
  case redmax => exact next_congr (vecReduce_on h ha h1 h0 (mode_zero hm) 0x0C _)
  case convert =>
    rw [cvtGroup_eq]
    intro b group lo hg
    refine ⟨fun hm => ⟨_, execVcvt_widen h ha he hg hm, bit_widenPoison _ _ _⟩, fun hm hd =>
      ⟨_, execVcvt_narrow h ha hd he hg hm, fun q => ?_⟩⟩
    rw [bit_or, Bool.or_eq_true, bit_narrowPoison, bit_and, bit_not, bit_quartersCovered, Bool.and_eq_true]
    exact or_congr Iff.rfl (and_congr_right fun _ => by
      rw [decide_eq_true q.isLt, Bool.true_and, Bool.not_eq_true', decide_eq_false_iff_not])
  case vld => exact execVld_on h hacc
  case vst => exact execVst_on h hacc hd hv
  case vbcast => exact next_congr (runCore_on _ _ _ h (by simp [Check.clean, h0]) (Check.unblocked_of_noReads _ rfl))
  case moves =>
    have hw : laneRsv f = false := decide_eq_false (by omega)
    have run (w : Word) (eff : Core → Core) :
        s.runCore p w f.pr (fun _ => { word := [(laneRsv f, .reserved)], reads := [f.vd] }) eff = s.retire p (eff (s.core p)) :=
      runCore_on _ _ _ h (by simp [Check.clean, hw]) (by simp [Check.unblocked_iff, hv])
    have hi : f.off.toNat % 16 = f.off.toNat := Nat.mod_eq_of_lt h16
    exact ⟨next_congr ((run _ _).trans (by rw [hi])), next_congr ((run _ _).trans (by rw [hi]; rfl))⟩

end

section
/-! The matrix engine: issue, interlocks, the issue quota and the accumulator tiles (R43, R58 to R62, R92, R93, R374). -/

open Sys2Proof Sys2Proof.Machine

namespace Sys2Proof.Machine

variable {s : State} {p : Pos}

/-! ### Issue (R58 to R62) -/

theorem Core.mqPush_of_room {c : Core} (h : c.mq.length < 4) (m : MCmd) :
    c.mqPush m = { c with mq := c.mq ++ [m], pc := c.pc + 1 } := if_pos h

theorem execWld_on {f : FmtM} (h : s.ready p f.pr) (h0 : f.rsv = 0) {m : MFmt} (hm : mfmt f.a.toNat = some m)
    (hacc : f.acc = 0) (hb : f.b.toNat % 4 = 0) (hsb : f.sb = 0) (hsp : bit f.b 2 = true → sparseOk f.a.toNat = true)
    (hp : (s.core p).spois f.sa = false) (hw : ((s.core p).sreg f.sa).toNat < 2 ^ 18)
    (hr : regionOf ((s.core p).sreg f.sa).toNat (m.blockBytes (bit f.b 2)) ≠ .nowhere) :
    execWld p f s = .next (s.retire p ((s.core p).mqPush (.wld f.w f.a (bit f.b 2) ((s.core p).sreg f.sa)))) := by
  refine next_congr (runCore_on _ _ _ h ?_ (by simp [Check.unblocked]))
  have ho : overWide ((s.core p).sreg f.sa) = false := decide_eq_false (by omega)
  cases hbit : bit f.b 2 <;> simp_all [Check.clean]

theorem execMma_sram {f : FmtM} (h : s.ready p f.pr) (h0 : f.rsv = 0) (hb : f.b = 0) {x : BitVec 4 × Bool} {m : MFmt}
    (hx : (s.core p).bufFmt f.w = some x) (hm : mfmt x.1.toNat = some m)
    (hpa : (s.core p).spois f.sa = false) (hpb : (s.core p).spois f.sb = false)
    (hw : ((s.core p).sreg f.sa).toNat < 2 ^ 18) (hal : ((s.core p).sreg f.sb).toNat % 16 = 0)
    (hrow : actBytes m x.2 ≤ ((s.core p).sreg f.sb).toNat)
    (hr : regionOf ((s.core p).sreg f.sa).toNat (tileSpan m x.2 (f.a.toNat + 1) ((s.core p).sreg f.sb).toNat) ≠ .nowhere) :
    execMma p f s = .next (s.retire p ((s.core p).mqPush
      (.mma f.acc f.w (f.a.toNat + 1) f.b ((s.core p).sreg f.sa) ((s.core p).sreg f.sb) false))) := by
  refine next_congr (runCore_on _ _ _ h ?_ (by simp [Check.unblocked]))
  have ho : overWide ((s.core p).sreg f.sa) = false := decide_eq_false (by omega)
  simp [Check.clean, h0, hb, hx, hm, hpa, hpb, ho, hr, hal, hrow]

theorem execMma_queue {f : FmtM} (h : s.ready p f.pr) (h0 : f.rsv = 0) (hb : f.b.toNat ≥ 4)
    (hq : bit ((s.core p).qcfg[f.b.toNat % 4]) 0 = true)
    {x : BitVec 4 × Bool} {m : MFmt} (hx : (s.core p).bufFmt f.w = some x) (hm : mfmt x.1.toNat = some m)
    (h6 : m.el.width = 6 → f.a.toNat % 2 = 1) :
    execMma p f s = .next (s.retire p ((s.core p).mqPush
      (.mma f.acc f.w (f.a.toNat + 1) f.b ((s.core p).sreg f.sa) ((s.core p).sreg f.sb) false))) := by
  refine next_congr (runCore_on _ _ _ h ?_ (by simp [Check.unblocked]))
  have hop : 1 ≤ f.b.toNat → 3 < f.b.toNat := by omega
  have hrows : m.el.width = 6 → (f.a.toNat + 1) % 2 = 0 := by omega
  simpa [Check.clean, h0, hb, hq, hx, hm] using And.intro hop hrows

theorem execMma_queue_off {f : FmtM} (h : s.readyOff p f.pr) (h0 : f.rsv = 0) (hb : f.b.toNat ≥ 4)
    (hq : bit ((s.core p).qcfg[f.b.toNat % 4]) 0 = true)
    {x : BitVec 4 × Bool} {m : MFmt} (hx : (s.core p).bufFmt f.w = some x) (hm : mfmt x.1.toNat = some m)
    (h6 : m.el.width = 6 → f.a.toNat % 2 = 1) :
    execMma p f s = .next (s.retire p ((s.core p).mqPush (.mma f.acc f.w (f.a.toNat + 1) f.b 0 0 true))) := by
  refine next_congr ((runCore_off _ _ _ h ?_).trans ?_)
  · have hop : 1 ≤ f.b.toNat → 3 < f.b.toNat := by omega
    have hrows : m.el.width = 6 → (f.a.toNat + 1) % 2 = 0 := by omega
    simpa [h0, hb, hq, hx, hm] using And.intro hop hrows
  · simp [hb]

theorem execMsync_on {f : FmtM} (h : s.ready p f.pr) (h0 : f.rsv = 0) (hw : f.w = 0) (hsa : f.sa = 0) (hsb : f.sb = 0)
    (hacc : f.acc = 0) (ha : f.a = 0) (hb : f.b = 0) :
    execMsync p f s = .next (s.setCore p
      (if (s.core p).engineIdle then (s.core p).next else { s.core p with wait := .msync })) :=
  next_congr (runWide_on _ _ _ h (by simp [Check.clean, accRsv, h0, hw, hsa, hsb, hacc, ha, hb]) (by simp [Check.unblocked]))

/-! ### Starting commands (R58, R374) -/

theorem splitPipe_append {load : Bool} {before after : List MCmd} {m : MCmd} (hb : ∀ x ∈ before, x.isLoad ≠ load)
    (hm : m.isLoad = load) : splitPipe load (before ++ m :: after) = some (before, m, after) := by
  induction before with
  | nil => simp [splitPipe, hm]
  | cons x t ih =>
    have ht := ih fun y hy => hb y (List.mem_cons_of_mem _ hy)
    simp [splitPipe, hb x List.mem_cons_self, ht]

theorem splitPipe_isLoad {load : Bool} {l before after : List MCmd} {m : MCmd} (h : splitPipe load l = some (before, m, after)) :
    m.isLoad = load := by
  induction l generalizing before with
  | nil => simp [splitPipe] at h
  | cons x t ih =>
    unfold splitPipe at h
    split at h
    next hx =>
      simp only [Option.some.injEq, Prod.mk.injEq] at h
      obtain ⟨-, rfl, -⟩ := h
      exact hx
    next =>
      obtain ⟨⟨b, m', a⟩, hy, he⟩ := Option.map_eq_some_iff.1 h
      simp only [Prod.mk.injEq] at he
      obtain ⟨-, rfl, rfl⟩ := he
      exact ih hy

/-- Nothing of the row pipe starts while an MMA runs. -/
theorem mayStart_false_of_running {c : Core} (h : c.mrun.isSome = true) {before : List MCmd} {m : MCmd}
    (hm : m.isLoad = false) : c.mayStart before m = false := by
  have hn : c.mrun.isNone = false := by rw [← Option.not_isSome, h]; rfl
  cases m with
  | wld => simp [MCmd.isLoad] at hm
  | mma => simp only [Core.mayStart, hn, Bool.false_and]
  | accz | accrd | accwr => simp only [Core.mayStart, hn]

theorem startMatrix_row_of_running (h : (s.core p).mrun.isSome = true) : s.startMatrix p false = s := by
  unfold State.startMatrix
  dsimp only
  split
  next => rfl
  next before m after hs => rw [mayStart_false_of_running h (splitPipe_isLoad hs), Bool.false_and, if_neg Bool.false_ne_true]

theorem issueRows_of_idle (h : (s.core p).mrun = none) : s.issueRows p = s := by
  unfold State.issueRows
  simp only [h]

theorem execMatrixCommandStart_eq {pipe : Pipe} (h : pipe = .row → (s.core p).mrun = none) :
    execMatrixCommandStart p pipe s = .next (s.startMatrix p (decide (pipe = .load))) := by
  cases pipe with
  | load => rfl
  | row =>
    unfold execMatrixCommandStart
    simp only [issueRows_of_idle (h rfl)]
    rfl

theorem startMatrix_of_split {load : Bool} {before after : List MCmd} {m : MCmd} (hq : (s.core p).mq = before ++ m :: after)
    (hb : ∀ x ∈ before, x.isLoad ≠ load) (hm : m.isLoad = load) :
    s.startMatrix p load =
      if (s.core p).mayStart before m && s.quotaLets p m then (s.mqTake p (before ++ after)).runMatrix p m else s := by
  unfold State.startMatrix
  simp only [hq, splitPipe_append hb hm]

theorem MFmt.beats_pos (m : MFmt) : 0 < m.beats := by
  unfold MFmt.beats
  split_ifs <;> omega

theorem rowsNow_one {beats : Nat} (hb : 0 < beats) :
    s.rowsNow p beats 1 = 1 ↔ (s.parish p.parish).gEff = 256 ∨ beats ≤ s.allowance p.parish - (s.core p).rowBeats := by
  unfold State.rowsNow
  split_ifs with hg
  · simp [hg]
  · simp only [hg, false_or, min_eq_left_iff]
    exact Nat.one_le_div_iff hb

/-- The quota holds a command only if it is an MMA whose first row does not fit. -/
theorem quotaLets_of {m : MCmd} (h : ∀ acc buf rows src a b w (y : MFmt), m = .mma acc buf rows src a b false →
      (s.core p).w[buf.toNat] = some w → mfmt w.fmt.toNat = some y →
      (s.parish p.parish).gEff = 256 ∨ y.beats ≤ s.allowance p.parish - (s.core p).rowBeats) : s.quotaLets p m = true := by
  unfold State.quotaLets
  split
  next acc buf rows src a b =>
    split
    next y hy =>
      obtain ⟨w, hw, hf⟩ := Option.bind_eq_some_iff.1 hy
      exact decide_eq_true ((rowsNow_one y.beats_pos).2 (h _ _ _ _ _ _ _ y rfl hw hf))
    next => rfl
  next => rfl

theorem quotaLets_mma {acc : BitVec 2} {buf : BitVec 1} {rows : Nat} {src : BitVec 3} {a b : Word} {w : WBuf} {y : MFmt}
    (hw : (s.core p).w[buf.toNat] = some w) (hf : mfmt w.fmt.toNat = some y) :
    s.quotaLets p (.mma acc buf rows src a b false) = decide (s.rowsNow p y.beats 1 = 1) := by
  simp only [State.quotaLets, hw, hf, Option.bind_some]

/-! ### The rows of a started MMA (R58, R374) -/

theorem issueRows_run {acc : BitVec 2} {buf : BitVec 1} {rows : Nat} {src : BitVec 3} {a b : Word} {w : WBuf} {y : MFmt} {r : MRun}
    (hr : (s.core p).mrun = some r) (hc : r.cmd = .mma acc buf rows src a b false) (hn : r.need ≤ r.got.length)
    (hw : (s.core p).w[buf.toNat] = some w) (hf : mfmt w.fmt.toNat = some y) :
    ((s.issueRows p).core p).mrun =
      let n := s.rowsNow p y.beats (rows - r.done)
      if r.done + n < rows then some { r with done := r.done + n } else none := by
  unfold State.issueRows
  simp only [hr, hc, if_neg (Nat.not_lt.2 hn), hw, hf, Option.bind_some, Option.map_some, State.core_updCore]

/-! ### Lanes of a register and words of a tile (R43) -/

theorem foldr_lanes (v : VReg) (n k : Nat) :
    ((List.range' k n).map (lane v)).foldr (fun w a => w.toNat + 2 ^ 32 * a) 0 = v.toNat / 2 ^ (32 * k) % 2 ^ (32 * n) := by
  induction n generalizing k with
  | zero => simp [Nat.mod_one]
  | succ n ih =>
    have hl : (lane v k).toNat = v.toNat / 2 ^ (32 * k) % 2 ^ 32 := by
      simp [lane, bits, Nat.shiftRight_eq_div_pow]
    rw [List.range'_succ, List.map_cons, List.foldr_cons, ih, hl, Nat.mul_succ 32 n, Nat.mul_succ 32 k, Nat.pow_add 2 (32 * k),
      ← Nat.div_div_eq_div_mul, Nat.add_comm (32 * n), Nat.pow_add 2 32, Nat.mod_mul]

theorem ofLanes_lanes (v : VReg) : ofLanes (lanes v) = v := by
  refine BitVec.eq_of_toNat_eq ?_
  rw [ofLanes, lanes, List.range_eq_range', foldr_lanes]
  rw [BitVec.toNat_ofNat, Nat.mul_zero, Nat.pow_zero, Nat.div_one, Nat.mod_mod]
  exact Nat.mod_eq_of_lt v.isLt

/-- Word `k` of a tile, zero beyond its end. -/
def tileAt (t : Vector Word 128) (k : Nat) : Word := (t.toList[k]?).getD 0

theorem tileAt_setIfInBounds (t : Vector Word 128) {j : Nat} (hj : j < 128) (w : Word) (k : Nat) :
    tileAt (t.setIfInBounds j w) k = if k = j then w else tileAt t k := by
  have hl : (t.setIfInBounds j w).toList = t.toList.set j w := by
    simp [Vector.setIfInBounds, Vector.toList]
  have hlen : j < t.toList.length := by simpa using hj
  rw [tileAt, hl]
  by_cases hk : k = j
  · rw [if_pos hk, hk, List.getElem?_set_self hlen, Option.getD_some]
  · rw [if_neg hk, List.getElem?_set_ne (Ne.symm hk), tileAt]

/-- Words `base` to `base + n - 1` written one after another. -/
theorem tileAt_foldl_set (f : Nat → Word) (base : Nat) {n : Nat} (hb : base + n ≤ 128) (t : Vector Word 128) (k : Nat) :
    tileAt ((List.range n).foldl (fun (t : Vector Word 128) i => t.setIfInBounds (base + i) (f i)) t) k =
      if base ≤ k ∧ k < base + n then f (k - base) else tileAt t k := by
  induction n with
  | zero => rw [if_neg (by omega)]; rfl
  | succ n ih =>
    rw [List.range_succ, List.foldl_append, List.foldl_cons, List.foldl_nil, tileAt_setIfInBounds _ (by omega), ih (by omega)]
    by_cases hk : k = base + n
    · rw [if_pos hk, if_pos (by omega), hk, Nat.add_sub_cancel_left]
    · rw [if_neg hk]
      exact if_congr (by omega) rfl rfl

/-- Words `base` to `base + n - 1` each replaced by what `g` makes of it, one after another, with flags gathered. -/
theorem tileAt_foldl_update (g : Nat → Word → Word × Flg) (base : Nat) {n : Nat} (hb : base + n ≤ 128) (t : Vector Word 128 × Flg)
    (k : Nat) :
    tileAt ((List.range n).foldl (fun (t : Vector Word 128 × Flg) i =>
        (t.1.setIfInBounds (base + i) (g i (tileAt t.1 (base + i))).1, t.2.or (g i (tileAt t.1 (base + i))).2)) t).1 k =
      if base ≤ k ∧ k < base + n then (g (k - base) (tileAt t.1 k)).1 else tileAt t.1 k := by
  induction n with
  | zero => rw [if_neg (by omega)]; rfl
  | succ n ih =>
    rw [List.range_succ, List.foldl_append, List.foldl_cons, List.foldl_nil, tileAt_setIfInBounds _ (by omega)]
    by_cases hk : k = base + n
    · rw [if_pos hk, if_pos (by omega), hk, Nat.add_sub_cancel_left, ← hk, ih (by omega), if_neg (by omega)]
    · rw [if_neg hk, ih (by omega)]
      exact if_congr (by omega) rfl rfl

/-! ### What a command leaves in the tiles (R43, R59, R61, R92, R93) -/

theorem lane_of_tileAt {t : Vector Word 128} {base : Nat} (hb : base + 16 ≤ 128) {v : VReg}
    (h : ∀ i, i < 16 → tileAt t (base + i) = lane v i) : (t.toList.drop base).take 16 = lanes v := by
  refine List.ext_getElem (by simp [lanes]; omega) fun i h1 h2 => ?_
  have hi : i < 16 := by simpa [lanes] using h2
  have hlen : base + i < t.toList.length := by simp; omega
  have ht := h i hi
  rw [tileAt, List.getElem?_eq_getElem hlen, Option.getD_some] at ht
  simpa [lanes] using ht

theorem accrdDone_accwrDone (c : Core) (acc : BitVec 2) (pair : BitVec 3) (v : VReg) (q vd : BitVec 4) :
    ((c.accwrDone acc pair v q).accrdDone acc pair vd).vreg vd = v := by
  have hpair : 16 * pair.toNat + 16 ≤ 128 := by omega
  refine (Core.vreg_setV _ _ _ _).trans ?_
  rw [lane_of_tileAt hpair (v := v), ofLanes_lanes]
  intro i hi
  simp only [Core.accwrDone, Vector.getElem_set_self]
  rw [tileAt_foldl_set (lane v) _ hpair, if_pos (by omega), Nat.add_sub_cancel_left]

/-- The contribution of a row to a column of its tile. -/
def rowGroup (b : WBuf) (m : MFmt) (scales row : List Byte) (i col : Nat) : Num × Flg :=
  if b.sparse then sparseGroup m b.block row scales i col else denseGroup m b.block row scales i col

theorem tileAt_mmaRow (b : WBuf) (m : MFmt) (scales row : List Byte) {i : Nat} (hi : i < 16) (t : Vector Word 128 × Flg) (k : Nat) :
    tileAt (mmaRow b m scales row i t).1 k =
      if 8 * i ≤ k ∧ k < 8 * i + 8 then (accumulate (tileAt t.1 k) (rowGroup b m scales row i (k - 8 * i))).1 else tileAt t.1 k :=
  tileAt_foldl_update (fun col w => accumulate w (rowGroup b m scales row i col)) (8 * i) (by omega) t k

theorem tileAt_mmaRows (b : WBuf) (m : MFmt) (scales : List Byte) (rowAt : Nat → List Byte) (i : Nat) {n : Nat} (hn : i + n ≤ 16)
    (t : Vector Word 128) {row col : Nat} (hc : col < 8) :
    tileAt (mmaRows b m scales rowAt i n t).1 (8 * row + col) =
      if i ≤ row ∧ row < i + n then (accumulate (tileAt t (8 * row + col)) (rowGroup b m scales (rowAt row) row col)).1
      else tileAt t (8 * row + col) := by
  unfold mmaRows
  induction n with
  | zero => rw [if_neg (by omega)]; rfl
  | succ n ih =>
    rw [List.range_succ, List.foldl_append, List.foldl_cons, List.foldl_nil, tileAt_mmaRow _ _ _ _ (by omega), ih (by omega)]
    by_cases hr : row = i + n
    · have hk : 8 * (i + n) + col - 8 * (i + n) = col := by omega
      subst hr
      rw [if_pos (by omega), if_neg (by omega), if_pos (by omega), hk]
    · rw [if_neg (by omega)]
      exact if_congr (by omega) rfl rfl

theorem setBit_self {n : Nat} (w : BitVec n) {k : Nat} (hk : k < n) (b : Bool) : bit (setBit w k b) k = b := by
  rw [bit_setBit, if_pos rfl, decide_eq_true hk, Bool.true_and]

/-! ### MMA from a queue (R53, R61, R64) -/

theorem inQ_setIfInBounds (c : Core) {q : Nat} (hq : q < 4) (l : List Token) (k : Nat) :
    Core.inQ { c with inq := c.inq.setIfInBounds q l } k = if k = q then l else c.inQ k := by
  have hs : (c.inq.setIfInBounds q l).toList = c.inq.toList.set q l := by
    simp [Vector.setIfInBounds, Vector.toList]
  have hlen : q < c.inq.toList.length := by simpa using hq
  simp only [Core.inQ, hs]
  by_cases hk : k = q
  · rw [if_pos hk, hk, List.getElem?_set_self hlen, Option.getD_some]
  · rw [if_neg hk, List.getElem?_set_ne (Ne.symm hk)]

theorem engineTake_mma {c : Core} {r : MRun} {acc : BitVec 2} {buf : BitVec 1} {rows : Nat} {src : BitVec 3} {addr pitch : Word}
    {off : Bool} (hr : c.mrun = some r) (hc : r.cmd = .mma acc buf rows src addr pitch off) :
    let q := src.toNat - 4
    let n := min (r.need - r.got.length) (c.inQ q).length
    c.engineTake = (n, { c with
      inq := c.inq.setIfInBounds q ((c.inQ q).drop n)
      mrun := if off = true ∧ (r.got ++ (c.inQ q).take n).length ≥ r.need then none
        else some { r with got := r.got ++ (c.inQ q).take n } }) := by
  simp only [Core.engineTake, hr, hc]
  rfl

end Sys2Proof.Machine

/-- Settles O10: a command that passes its checks joins the queue; the oldest of its pipe is found by `splitPipe`, and the quota
holds it exactly when its first row does not fit. -/
theorem matrixEngine : Obligations.MatrixEngine := by
  unfold Obligations.MatrixEngine
  intro p s
  refine ⟨fun f h h0 => ⟨fun hq => ⟨fun m hm hacc hb hsb hsp hp hw hr => ?wld, fun x m hb hx hm hpa hpb hw hal hrow hr => ?mma,
      fun x m hb hq hx hm h6 => ?mmaQueue, fun hw ha hb hsa hsb => ?accz, fun hw hsa hsb => ⟨?accrd, fun hv => ?accwr⟩⟩,
      fun hw hsa hsb hacc ha hb => ?msync⟩,
    fun f x m h h0 hb hroom hq hx hm h6 => ?discard, fun hw hq hr => ?msyncDone, fun pipe before after m hq hrun hb hl hmay hquota => ?start,
    fun acc buf rows src a b w y before after hq hrun hb hw hf hg hleft => ?held,
    fun acc buf rows src a b w y r hr hc hn hw hf hd => ?rows⟩
  case wld => exact (execWld_on h h0 hm hacc hb hsb hsp hp hw hr).trans (by rw [Core.mqPush_of_room hq])
  case mma => exact (execMma_sram h h0 hb hx hm hpa hpb hw hal hrow hr).trans (by rw [Core.mqPush_of_room hq, hb])
  case mmaQueue => exact (execMma_queue h h0 hb ‹_› hx hm h6).trans (by rw [Core.mqPush_of_room ‹_›])
  case accz =>
    exact next_congr ((runCore_on _ _ _ h (by simp [Check.clean, h0, hw, ha, hb, hsa, hsb]) (by simp [Check.unblocked])).trans
      (by rw [Core.mqPush_of_room hq]))
  case accrd =>
    exact next_congr ((runCore_on _ _ _ h (by simp [Check.clean, accRsv, h0, hw, hsa, hsb]) (by simp [Check.unblocked])).trans
      (by rw [Core.mqPush_of_room hq]))
  case accwr =>
    exact next_congr ((runCore_on _ _ _ h (by simp [Check.clean, accRsv, h0, hw, hsa, hsb]) (by simp [Check.unblocked, hv])).trans
      (by rw [Core.mqPush_of_room hq]))
  case msync => exact execMsync_on h h0 hw hsa hsb hacc ha hb
  case discard => exact (execMma_queue_off h h0 hb hq hx hm h6).trans (by rw [Core.mqPush_of_room hroom])
  case msyncDone => exact congrArg _ (if_pos ⟨hw, by simp [Core.engineIdle, hq, hr]⟩)
  case start =>
    refine (execMatrixCommandStart_eq hrun).trans ?_
    rw [startMatrix_of_split hq hb hl, hmay, quotaLets_of hquota]
    rfl
  case held =>
    refine (execMatrixCommandStart_eq (pipe := .row) fun _ => hrun).trans ?_
    have hno : ¬ s.rowsNow p y.beats 1 = 1 := by
      rw [rowsNow_one y.beats_pos]
      exact not_or.2 ⟨hg, Nat.not_le.2 hleft⟩
    rw [show decide (Pipe.row = Pipe.load) = false from rfl, startMatrix_of_split (load := false) hq (by simpa using hb) rfl, quotaLets_mma hw hf, decide_eq_false hno, Bool.and_false,
      if_neg Bool.false_ne_true]
  case rows =>
    have hrows := issueRows_run hr hc hn hw hf
    refine ⟨hrows, fun hlt => ?_⟩
    have hrun : ((s.issueRows p).core p).mrun.isSome = true := by
      rw [hrows]
      exact congrArg Option.isSome (if_pos hlt)
    exact congrArg _ (startMatrix_row_of_running hrun)

/-- Settles O11: words of a tile are followed through the rows and columns one after another. -/
theorem accumulatorTiles : Obligations.AccumulatorTiles := by
  unfold Obligations.AccumulatorTiles
  refine ⟨fun c acc other pair vd v q => ⟨?cleared, ?clean, fun ho => ?others, ?back⟩,
    fun c acc other b m scales rowAt i n bad hn => ⟨fun row col hrow hcol => ?tile, fun ho => ?otherTiles, ?poison⟩,
    fun c r acc buf rows src addr pitch off hr hc h4 => ?take,
    fun p s => ⟨fun b fmt sp addr m hm => ?wld, fun r acc buf rows src addr pitch b m hr hc hn hb hm => ⟨fun h4 => ?queue,
      fun h0 hpos => ?sram⟩⟩⟩
  case cleared => exact Vector.getElem_set_self _
  case clean => exact setBit_self _ (by omega) _
  case others =>
    have hne : acc.toNat ≠ other.toNat := fun h => ho (BitVec.eq_of_toNat_eq h.symm)
    exact ⟨Vector.getElem_set_ne acc.isLt other.isLt hne, Vector.getElem_set_ne acc.isLt other.isLt hne⟩
  case back => exact accrdDone_accwrDone c acc pair v q vd
  case tile =>
    simp only [Core.mmaLand, Vector.getElem_set_self]
    exact tileAt_mmaRows b m scales rowAt i hn _ hcol
  case otherTiles => exact Vector.getElem_set_ne acc.isLt other.isLt fun h => ho (BitVec.eq_of_toNat_eq h.symm)
  case poison => exact setBit_self _ (by omega) _
  case take =>
    have hq : src.toNat - 4 < 4 := by omega
    dsimp only
    rw [engineTake_mma hr hc]
    refine ⟨rfl, ?_, fun k hk => ?_, ?_⟩
    · exact (inQ_setIfInBounds { c with mrun := _ } hq _ _).trans (if_pos rfl)
    · exact (inQ_setIfInBounds { c with mrun := _ } hq _ _).trans (if_neg hk)
    · refine if_congr ?_ rfl rfl
      rw [List.length_append, List.length_take]
      exact and_congr_right fun _ => by omega
  case wld =>
    simp only [State.runMatrix, hm, State.core_updCore, Vector.getElem_set_self]
  case queue =>
    have h0 : src ≠ 0 := by rintro rfl; simp at h4
    unfold State.issueRows
    simp only [hr, hc, if_neg (Nat.not_lt.2 hn), hb, hm, Option.bind_some, Option.map_some, State.core_updCore, h0, false_and,
      if_false, List.foldl_nil]
  case sram =>
    unfold State.issueRows
    simp only [hr, hc, if_neg (Nat.not_lt.2 hn), hb, hm, Option.bind_some, Option.map_some, State.core_updCore, h0, true_and,
      if_pos hpos, if_true]

end

section
/-! Queue instructions and the end of their waits (R53, R63, R64). -/

open Sys2Proof Sys2Proof.Machine

namespace Sys2Proof.Machine

variable {s : State} {p : Pos}

/-! ### What a push emits (R53, R63, R64) -/

theorem range_map_last {α : Type} (n : Nat) (g : Bool → α) :
    ((List.range (n + 1)).map fun j => g (true && decide (j + 1 = n + 1))) = List.replicate n (g false) ++ [g true] := by
  have hinit : ((List.range n).map fun j => g (true && decide (j + 1 = n + 1))) = List.replicate n (g false) := by
    refine List.eq_replicate_iff.2 ⟨by simp, fun b hb => ?_⟩
    obtain ⟨j, hj, rfl⟩ := List.mem_map.1 hb
    have hj : j < n := List.mem_range.1 hj
    rw [decide_eq_false (by omega), Bool.and_false]
  rw [List.range_succ, List.map_append, List.map_singleton, hinit, decide_eq_true rfl, Bool.and_true]

/-- A token without data, void. -/
def Core.voidToken (c : Core) (last : Bool) : Token := c.token 0 true false last

/-- The tokens of a vector register's quarters, the last of them marked where `lastToo` says so. -/
def Core.quarterTokens (c : Core) (f : FmtQ) (lastToo : Bool) : List Token :=
  (List.range (f.n1.toNat + 1)).map fun j =>
    { data := BitVec.ofNat 128 (bits (c.vreg f.vr) (128 * j) 128), colour := c.colour, void := false
      poison := bit (c.vpois f.vr) j, last := lastToo && decide (j = f.n1.toNat) }

theorem pushTokens_quarters (c : Core) (f : FmtQ) :
    c.pushTokens .v false f = c.quarterTokens f false ∧ c.pushTokens .last false f = c.quarterTokens f true := by
  constructor
  · rfl
  · simp only [Core.pushTokens, Core.quarterTokens, Core.token, quarter, qn, Nat.add_right_cancel_iff]

theorem pushTokens_void (c : Core) (off : Bool) (f : FmtQ) :
    c.pushTokens .void off f = List.replicate (f.n1.toNat + 1) (c.voidToken false) := by
  simp [Core.pushTokens, Core.voidToken, qn, List.map_const']

theorem pushTokens_off (c : Core) (f : FmtQ) :
    c.pushTokens .v true f = List.replicate (f.n1.toNat + 1) (c.voidToken false) ∧
    c.pushTokens .last true f = List.replicate f.n1.toNat (c.voidToken false) ++ [c.voidToken true] ∧
    c.pushTokens .s true f = [c.voidToken false] := by
  refine ⟨by simp [Core.pushTokens, Core.voidToken, qn, List.map_const'], range_map_last _ _, rfl⟩

theorem pushOrWait_eq (c : Core) (off : Bool) (op : PushOp) (f : FmtQ) :
    c.pushOrWait off op f =
      let l := c.outQ (f.q.toNat % 4)
      if l.length + (c.pushTokens op off f).length ≤ 16 then
        { c with outq := c.outq.setIfInBounds (f.q.toNat % 4) (l ++ c.pushTokens op off f), pc := c.pc + 1 }
      else { c with wait := .push op off f } := by
  unfold Core.pushOrWait Core.push
  dsimp only
  by_cases h : (c.outQ (f.q.toNat % 4)).length + (c.pushTokens op off f).length ≤ 16
  · rw [if_neg (by omega), if_pos h]
    rfl
  · rw [if_pos (by omega), if_neg h]
    rfl

/-! ### The checks of a queue instruction (R63, R64) -/

theorem queueChecks_clean {c : Core} {f : FmtQ} {used wrong : Bool} (h0 : f.rsv = 0) (hu : used = true) (hw : wrong = false)
    (hq : c.qEnabled f.q = true) : ∀ x ∈ (queueChecks c f used wrong).word ++ (queueChecks c f used wrong).always, x.1 = false := by
  simp [queueChecks, h0, hu, hw, hq]

theorem pushInstr_on {f : FmtQ} (h : s.ready p f.pr) (h0 : f.rsv = 0) (hq : (s.core p).qEnabled f.q = true)
    (h4 : f.q.toNat ≥ 4) (qop : BitVec 4) (op : PushOp) {used : Bool} (hu : used = true) {reads : List (BitVec 4)}
    (hr : ∀ r ∈ reads, (s.core p).accrdPending r.toNat = false) :
    pushInstr p qop op f used reads s = s.retire p ((s.core p).pushOrWait false op f) := by
  refine runCore_on (k := fun c => { queueChecks c f used (decide (f.q.toNat < 4)) with reads := reads }) _ _ _ h ?_ hr
  have hc := queueChecks_clean (wrong := decide (f.q.toNat < 4)) h0 hu (decide_eq_false (by omega)) hq
  simpa [Check.clean, queueChecks] using hc

theorem pushInstr_off {f : FmtQ} (h : s.readyOff p f.pr) (h0 : f.rsv = 0) (hq : (s.core p).qEnabled f.q = true)
    (h4 : f.q.toNat ≥ 4) (qop : BitVec 4) (op : PushOp) {used : Bool} (hu : used = true) (reads : List (BitVec 4)) :
    pushInstr p qop op f used reads s = s.retire p ((s.core p).pushOrWait true op f) :=
  runCore_off (k := fun c => { queueChecks c f used (decide (f.q.toNat < 4)) with reads := reads }) _ _ _ h
    (queueChecks_clean h0 hu (decide_eq_false (by omega)) hq)

theorem popInstr_on {f : FmtQ} (h : s.ready p f.pr) (h0 : f.rsv = 0) (hq : (s.core p).qEnabled f.q = true) {wrong : Bool}
    (hw : wrong = false) (w : Word) {used : Bool} (hu : used = true) (on off : Core → Core) :
    s.runCore p w f.pr (fun c => queueChecks c f used wrong) on off = s.retire p (on (s.core p)) := by
  refine runCore_on (k := fun c => queueChecks c f used wrong) _ _ _ h ?_ (Check.unblocked_of_noReads _ rfl)
  simpa [Check.clean, queueChecks] using queueChecks_clean h0 hu hw hq

theorem popInstr_off {f : FmtQ} (h : s.readyOff p f.pr) (h0 : f.rsv = 0) (hq : (s.core p).qEnabled f.q = true)
    (h4 : f.q.toNat < 4) (w : Word) {used : Bool} (hu : used = true) (on off : Core → Core) :
    s.runCore p w f.pr (fun c => queueChecks c f used (decide (f.q.toNat ≥ 4))) on off = s.retire p (off (s.core p)) :=
  runCore_off (k := fun c => queueChecks c f used (decide (f.q.toNat ≥ 4))) _ _ _ h
    (queueChecks_clean h0 hu (decide_eq_false (by omega)) hq)

/-! ### Pops (R53, R63, R64) -/

theorem popOrWait_vec (c : Core) {f : FmtQ} (h4 : f.q.toNat < 4) :
    c.popOrWait false true f =
      let l := c.inQ f.q.toNat
      if f.n1.toNat < l.length then
        (({ c with inq := c.inq.setIfInBounds f.q.toNat (l.drop (f.n1.toNat + 1)) }.setP f.pd
          ((l.take (f.n1.toNat + 1)).all fun t => !t.void)).popQuarters f.vr (l.take (f.n1.toNat + 1))).next
      else { c with wait := .pop true false f } := by
  unfold Core.popOrWait Core.pop
  simp only [Nat.mod_eq_of_lt h4, if_true, qn]
  by_cases h : f.n1.toNat < (c.inQ f.q.toNat).length
  · rw [if_neg (by omega), if_pos h]
    rfl
  · rw [if_pos (by omega), if_neg h]
    rfl

theorem popOrWait_scalar (c : Core) {f : FmtQ} (h4 : f.q.toNat < 4) :
    c.popOrWait false false f = match c.inQ f.q.toNat with
      | [] => { c with wait := .pop false false f }
      | t :: rest => (({ c with inq := c.inq.setIfInBounds f.q.toNat rest }.setP f.pd (!t.void)).setS f.rs
          (if t.void then 0 else t.data.setWidth 32) t.poison).next := by
  have hv (t : Token) : BitVec.ofNat 32 (bits t.value 0 32) = if t.void then 0 else t.data.setWidth 32 := by
    refine BitVec.eq_of_toNat_eq ?_
    cases ht : t.void <;> simp [Token.value, bits, ht]
  unfold Core.popOrWait Core.pop
  simp only [Nat.mod_eq_of_lt h4]
  cases hl : c.inQ f.q.toNat with
  | nil => rfl
  | cons t rest => simp [hv]

theorem popOrWait_off (c : Core) {f : FmtQ} (h4 : f.q.toNat < 4) (vec : Bool) :
    c.popOrWait true vec f =
      let n := if vec then f.n1.toNat + 1 else 1
      let l := c.inQ f.q.toNat
      if n ≤ l.length then { c with inq := c.inq.setIfInBounds f.q.toNat (l.drop n), pc := c.pc + 1 }
      else { c with wait := .pop vec true f } := by
  unfold Core.popOrWait Core.pop
  simp only [Nat.mod_eq_of_lt h4, if_true, qn]
  by_cases h : (if vec = true then f.n1.toNat + 1 else 1) ≤ (c.inQ f.q.toNat).length
  · rw [if_neg (by omega), if_pos h]
    rfl
  · rw [if_pos (by omega), if_neg h]
    rfl

/-! ### The end of a wait (R64) -/

theorem Core.setP_wait (c : Core) (i : BitVec 3) (w : Bool) : (c.setP i w).wait = c.wait := by
  unfold Core.setP
  split <;> rfl

theorem Core.setS_wait (c : Core) (r : BitVec 5) (v : Word) (b : Bool) : (c.setS r v b).wait = c.wait := by
  unfold Core.setS
  split <;> rfl

theorem pop_wait {c d : Core} {vec off : Bool} {f : FmtQ} (h : c.pop vec off f = some d) : d.wait = c.wait := by
  unfold Core.pop at h
  dsimp only at h
  split_ifs at h
  · exact Option.some.inj h ▸ rfl
  · exact Option.some.inj h ▸ Core.setP_wait _ _ _
  · exact Option.some.inj h ▸ rfl
  · split at h
    · exact Option.some.inj h ▸ (Core.setS_wait _ _ _ _).trans (Core.setP_wait _ _ _)
    · exact Option.some.inj h ▸ Core.setP_wait _ _ _

theorem push_wait {c d : Core} {op : PushOp} {off : Bool} {f : FmtQ} (h : c.push op off f = some d) : d.wait = c.wait := by
  unfold Core.push at h
  dsimp only at h
  split_ifs at h
  exact Option.some.inj h ▸ rfl

theorem execQueueWaitEnd_of {d : Core} (hw : (s.core p).wait ≠ .none) (hr : (s.core p).queueRetry = d) (hd : d.wait = .none) :
    execQueueWaitEnd p s = .next (s.retire p d) := by
  unfold execQueueWaitEnd
  dsimp only
  rw [hr, if_pos ⟨hd, hw⟩]

end Sys2Proof.Machine

/-- Settles O12: the checks let the instruction run, and its push or pop is done at once or waited for. -/
theorem queueInstructions : Obligations.QueueInstructions := by
  unfold Obligations.QueueInstructions
  intro p s
  refine ⟨fun f h h0 hq => ⟨fun h4 hpd => ⟨fun hrs hv => ⟨?pushV, ?last⟩, fun hvr hn => ?pushS, fun hvr hrs => ?void⟩,
      fun h4 hrs => ?popV, fun h4 hvr hn => ⟨fun t rest hl => ?popS, fun hl => ?popSWait⟩, fun hvr hn hpd => ?stat⟩,
    fun f h h0 hq => ⟨fun h4 hpd => ⟨fun hrs => ⟨?pushVOff, ?lastOff⟩, fun hvr hn => ?pushSOff, fun hvr hrs => ?voidOff⟩,
      fun h4 => ⟨fun hrs => ?popVOff, fun hvr hn => ?popSOff⟩⟩,
    fun vec off f d hw hd => ?endPop, fun op off f d hw hd => ?endPush⟩
  case pushV =>
    refine next_congr ((pushInstr_on h h0 hq h4 1 .v (by simp [hpd, hrs]) (by simpa using hv)).trans ?_)
    rw [pushOrWait_eq, (pushTokens_quarters _ f).1]
    rfl
  case last =>
    refine next_congr ((pushInstr_on h h0 hq h4 5 .last (by simp [hpd, hrs]) (by simpa using hv)).trans ?_)
    rw [pushOrWait_eq, (pushTokens_quarters _ f).2]
    rfl
  case pushS =>
    refine next_congr ((pushInstr_on h h0 hq h4 3 .s (by simp [hvr, hn, hpd]) (by simp)).trans ?_)
    rw [pushOrWait_eq]
    rfl
  case void =>
    refine next_congr ((pushInstr_on h h0 hq h4 4 .void (by simp [hvr, hpd, hrs]) (by simp)).trans ?_)
    rw [pushOrWait_eq, pushTokens_void]
    rfl
  case popV => exact next_congr ((popInstr_on h h0 hq (decide_eq_false (by omega)) _ (by simp [hrs]) _ _).trans
      (by rw [popOrWait_vec _ h4]))
  case popS => exact next_congr ((popInstr_on h h0 hq (decide_eq_false (by omega)) _ (by simp [hvr, hn]) _ _).trans
      (by rw [popOrWait_scalar _ h4, hl]))
  case popSWait => exact next_congr ((popInstr_on h h0 hq (decide_eq_false (by omega)) _ (by simp [hvr, hn]) _ _).trans
      (by rw [popOrWait_scalar _ h4, hl]))
  case stat => exact next_congr (popInstr_on h h0 hq rfl _ (by simp [hvr, hn, hpd]) _ _)
  case pushVOff =>
    refine next_congr ((pushInstr_off h h0 hq h4 1 .v (by simp [hpd, hrs]) _).trans ?_)
    rw [pushOrWait_eq, (pushTokens_off _ f).1]
    rfl
  case lastOff =>
    refine next_congr ((pushInstr_off h h0 hq h4 5 .last (by simp [hpd, hrs]) _).trans ?_)
    rw [pushOrWait_eq, (pushTokens_off _ f).2.1]
    rfl
  case pushSOff =>
    refine next_congr ((pushInstr_off h h0 hq h4 3 .s (by simp [hvr, hn, hpd]) _).trans ?_)
    rw [pushOrWait_eq, (pushTokens_off _ f).2.2]
    rfl
  case voidOff =>
    refine next_congr ((pushInstr_off h h0 hq h4 4 .void (by simp [hvr, hpd, hrs]) _).trans ?_)
    rw [pushOrWait_eq, pushTokens_void]
    rfl
  case popVOff => exact next_congr ((popInstr_off h h0 hq h4 _ (by simp [hrs]) _ _).trans (by rw [popOrWait_off _ h4]; rfl))
  case popSOff => exact next_congr ((popInstr_off h h0 hq h4 _ (by simp [hvr, hn]) _ _).trans (by rw [popOrWait_off _ h4]; rfl))
  case endPop =>
    exact execQueueWaitEnd_of (by simp [hw]) (by simp only [Core.queueRetry, hw, hd, Option.getD_some]) (pop_wait hd)
  case endPush =>
    exact execQueueWaitEnd_of (by simp [hw]) (by simp only [Core.queueRetry, hw, hd, Option.getD_some]) (push_wait hd)

end

section
/-! Tally instructions, the travel of an operation and the arithmetic of INC and DEC (R65, R257 to R261, R268). -/

open Sys2Proof Sys2Proof.Machine

namespace Sys2Proof.Machine

variable {s : State} {p : Pos}

/-! ### The instructions (R65, R260) -/

theorem tallyChecks_clean {f : FmtT} (h0 : f.rsv = 0) (h1 : f.one = 1 → f.rs = 0) (hi : f.idx.toNat < tallyRange f.lvl.toNat)
    (ho : f.lvl = 2 → s.hubOwner f.idx.toNat = s.allotOf p.parish) {count : Bool} {c : Core}
    (hp : count = true → f.one = 0 → c.spois f.rs = false) : (tallyChecks s p f count c).clean := by
  cases count with
  | false => simp +contextual [tallyChecks, Check.clean, h0, h1, Nat.not_le.2 hi, ho]
  | true => simpa +contextual [tallyChecks, Check.clean, h0, h1, Nat.not_le.2 hi, ho] using hp

/-- The operation reaches its home or leaves for it. -/
theorem issueTally_eq (t : State) (f : FmtT) (op : TallyOp) (n : Nat) :
    t.issueTally p f op n =
      if f.lvl = 0 then t.applyTally { lvl := 0, core := p, idx := f.idx.toNat } op n
      else t.sendTally { src := p, carter := false, lvl := f.lvl, idx := f.idx, op := op, n := n } := by
  unfold State.issueTally
  split_ifs with h
  · rw [tallyHome, h]
    rfl
  · rfl

theorem tallyPost_on {f : FmtT} (h : s.ready p f.pr) (hc : (tallyChecks s p f true (s.core p)).clean) (top : BitVec 3) (op : TallyOp) :
    tallyPost p top op f s =
      (s.issueTally p f op (tallyN (s.core p) f)).retire p ((s.issueTally p f op (tallyN (s.core p) f)).core p).next :=
  runWide_on _ _ _ h hc (Check.unblocked_of_noReads _ rfl)

theorem tallyHold_on {f : FmtT} (h : s.ready p f.pr) {op : TallyOp}
    (hc : (tallyChecks s p f (decide (op ≠ .readVal)) (s.core p)).clean) (top : BitVec 3) :
    tallyHold p top op f s = (s.setCore p { s.core p with wait := .tally op f }).issueTally p f op (tallyN (s.core p) f) :=
  runWide_on _ _ _ h hc (Check.unblocked_of_noReads _ rfl)

/-! ### Values, waiters and errors at a home (R257 to R261) -/

/-- A misuse error changes nothing but allotments, what is reported and what reporting changes. -/
theorem misuse_eq (s : State) (code : Nat) (h : THome) (payload : List (Nat × Nat)) :
    ∃ allots events regs out ses unread pins, s.misuse code h payload = { s with
      allots := allots, events := events, regs := regs, out := out, ses := ses, unreadBoard := unread, pins := pins } := by
  have charge (t : State) (a : Nat) : ∃ allots, t.chargeCur a = { t with allots := allots } := by
    unfold State.chargeCur State.chargeRun
    split <;> exact ⟨_, rfl⟩
  unfold State.misuse
  split
  next => exact ⟨_, _, _, _, _, _, _, rfl⟩
  next a _ =>
    obtain ⟨e, regs, out, ses, unread, pins, -, hr⟩ := s.raise_eq code (some a) payload [.allot a] 1
    dsimp only
    split
    · obtain ⟨allots, hc⟩ := charge s a
      exact ⟨allots, _, _, _, _, _, _, hc⟩
    · rw [State.raiseA, hr]
      exact ⟨_, _, _, _, _, _, _, (charge _ a).choose_spec⟩

theorem misuse_tally (s : State) (code : Nat) {h : THome} (hl : h.lvl = 1 ∨ h.lvl = 2) (payload : List (Nat × Nat)) :
    (s.misuse code h payload).tally h = s.tally h ∧ (s.misuse code h payload).waitersAt h = s.waitersAt h := by
  obtain ⟨_, _, _, _, _, _, _, he⟩ := misuse_eq s code h payload
  rw [he]
  obtain ⟨lvl, core, idx⟩ := h
  rcases hl with rfl | rfl <;> exact ⟨rfl, rfl⟩

theorem setTally_tally (s : State) {h : THome} (hl : h.lvl = 1 ∨ h.lvl = 2) {v : Nat} (hv : v ≤ tallyMax h.lvl) :
    (s.setTally h v).tally h = v := by
  obtain ⟨lvl, core, idx⟩ := h
  unfold State.setTally
  split_ifs with he
  · exact he
  · rcases hl with rfl | rfl
    · have hv : v ≤ 65535 := hv
      simp only [State.tally, State.updParish, State.parish_setParish, Tab.get_put_self]
      exact Nat.mod_eq_of_lt (by omega)
    · have hv : v ≤ 2 ^ 32 - 1 := hv
      simp only [State.tally, Tab.get_put_self]
      exact Nat.mod_eq_of_lt (by omega)

theorem stirTally_waitersAt (s : State) (h k : THome) : (s.stirTally h).waitersAt k = s.waitersAt k := by
  unfold State.stirTally
  split_ifs
  · rfl
  · split <;> rfl

theorem setTally_waitersAt (s : State) {h : THome} (hl : h.lvl = 1 ∨ h.lvl = 2) (v : Nat) :
    (s.setTally h v).waitersAt h = s.waitersAt h := by
  unfold State.setTally
  split_ifs
  · rfl
  · rw [← stirTally_waitersAt s h h]
    obtain ⟨lvl, core, idx⟩ := h
    rcases hl with rfl | rfl
    · simp only [State.waitersAt, State.updParish, State.parish_setParish]
    · rfl

theorem setWaiters_tally (s : State) {h : THome} (hl : h.lvl = 1 ∨ h.lvl = 2) (l : List Waiter) :
    (s.setWaiters h l).tally h = s.tally h := by
  obtain ⟨lvl, core, idx⟩ := h
  rcases hl with rfl | rfl
  · simp only [State.tally, State.setWaiters, State.updParish, State.parish_setParish]
  · rfl

/-- Nothing waits at the home: a release changes no value. -/
theorem release_tally (s : State) {h : THome} (hl : h.lvl = 1 ∨ h.lvl = 2) (hw : s.waitersAt h = []) :
    (s.release h).tally h = s.tally h := by
  unfold State.release
  simp only [hw, List.filter_nil, serveDec, List.append_nil, List.foldl_nil]
  rw [setWaiters_tally _ hl, State.setTally, if_pos rfl]

theorem tallyInc_tally {h : THome} (hl : h.lvl = 1 ∨ h.lvl = 2) (hw : s.waitersAt h = []) (n src : Nat) :
    (s.tallyInc h n src).tally h = min (s.tally h + n) (tallyMax h.lvl) := by
  have h0 : h.lvl ≠ 0 := by omega
  unfold State.tallyInc
  simp only [if_neg h0]
  split_ifs with hm
  · rw [release_tally _ hl, (misuse_tally _ _ hl _).1, setTally_tally _ hl le_rfl, Nat.min_eq_right (by omega)]
    rw [(misuse_tally _ _ hl _).2, setTally_waitersAt _ hl, hw]
  · rw [release_tally _ hl, setTally_tally _ hl (by omega), Nat.min_eq_left (by omega)]
    rw [setTally_waitersAt _ hl, hw]

theorem tally_le_max (s : State) {h : THome} (hl : h.lvl = 1 ∨ h.lvl = 2) : s.tally h ≤ tallyMax h.lvl := by
  obtain ⟨lvl, core, idx⟩ := h
  rcases hl with rfl | rfl
  · have hlt := ((s.parish core.parish).tallies.get 0 idx).isLt
    change _ ≤ 65535
    simp only [State.tally]
    omega
  · have hlt := (s.hub.get 0 idx).isLt
    change _ ≤ 2 ^ 32 - 1
    simp only [State.tally]
    omega

theorem tallyDec_tally {h : THome} (hl : h.lvl = 1 ∨ h.lvl = 2) (n src : Nat) :
    (s.tallyDec h n src).tally h = if n ≤ s.tally h then s.tally h - n else s.tally h := by
  have hmax := tally_le_max s hl
  unfold State.tallyDec
  by_cases hn : n ≤ s.tally h
  · rw [if_neg (by omega), if_pos hn, setTally_tally _ hl (by omega)]
  · rw [if_pos (by omega), if_neg hn, (misuse_tally _ _ hl _).1]

end Sys2Proof.Machine

/-- Settles O13: the checks let the operation reach its home or leave for it; a value goes through the release of its waiters. -/
theorem tallyInstructions : Obligations.TallyInstructions := by
  unfold Obligations.TallyInstructions
  intro p s
  refine ⟨fun f h h0 h1 hi ho => ⟨fun hp => ⟨?inc, ?dec, ?wait, ?waitDec⟩, ?read⟩,
    fun carter lvl m hm => ⟨fun hr => ?arrives, ?bad⟩, fun m => ⟨rfl, Tab.get_put_self _ _ _ _⟩, fun op f v hw => ?answer,
    fun h n src hl hw => ⟨?incValue, ?decValue⟩⟩
  case inc | dec =>
    refine congrArg _ ((tallyPost_on h (tallyChecks_clean h0 h1 hi ho fun _ => hp) _ _).trans ?_)
    rw [issueTally_eq]
    rfl
  case wait | waitDec =>
    refine congrArg _ ((tallyHold_on h (tallyChecks_clean h0 h1 hi ho fun _ => hp) _).trans ?_)
    rw [issueTally_eq]
    rfl
  case read =>
    refine congrArg _ ((tallyHold_on h (tallyChecks_clean h0 h1 hi ho fun hc => ?_) _).trans ?_)
    · simp at hc
    · rw [issueTally_eq]
      rfl
  case arrives =>
    have hf := List.find?_some hm
    obtain ⟨-, -, hl⟩ := of_decide_eq_true hf
    refine congrArg Host.Outcome.next ?_
    simp only [hm, Bool.false_eq_true, if_false, hr, if_true, hl]
  case bad =>
    refine congrArg Host.Outcome.next ?_
    simp only [hm, if_true]
    rfl
  case answer =>
    refine congrArg Host.Outcome.next ?_
    simp only [hw, Bool.not_eq_true']
    rfl
  case incValue =>
    rw [tallyInc_tally hl hw]
    obtain ⟨lvl, core, idx⟩ := h
    rcases hl with rfl | rfl <;> rfl
  case decValue => exact tallyDec_tally hl n src

end

section
/-! Launches of the carter, the top-k unit, RAND and SAMPLE (R66 to R70, R210). -/

open Sys2Proof Sys2Proof.Machine

namespace Sys2Proof.Machine

variable {s : State} {p : Pos}

/-! ### Launches (R66, R210) -/

theorem launchPlace_false {c : Core} {f : FmtD} (hp : c.spois f.ra = false) (hw : (c.sreg f.ra).toNat < 2 ^ 18)
    (ha : descPlace (c.sreg f.ra).toNat = true) (hal : (c.sreg f.ra).toNat % 16 = 0) : ∀ x ∈ launchPlace c f, x.1 = false := by
  have ho : overWide (c.sreg f.ra) = false := decide_eq_false (by omega)
  simp [launchPlace, hp, ho, ha, hal]

/-- A descriptor that passes its checks where its words read without an error goes to the end of its channel. -/
theorem launch_on {f : FmtD} (h : s.ready p f.pr) (h0 : f.rsv = 0) (hd : f.rd = 0)
    (hplace : ∀ x ∈ launchPlace (s.core p) f, x.1 = false)
    (ht : ∀ w, s.touchLocal p w ((s.core p).sreg f.ra).toNat 48 = s)
    (hk : ∀ x ∈ descChecks s p (s.core p) ((s.core p).sreg f.ra).toNat, x.1 = false) (dop : BitVec 2) (ch : Chan)
    (hroom : ((s.core p).chan ch).running.length + ((s.core p).chan ch).waiting.length < 4) :
    s.launch p dop ch f = s.retire p ((s.core p).setChan ch { (s.core p).chan ch with
      waiting := ((s.core p).chan ch).waiting ++ [descOf ((s.core p).descWords ((s.core p).sreg f.ra).toNat)] }).next := by
  have hw : ∀ x ∈ launchRsv f, x.1 = false := by simp [launchRsv, h0, hd]
  have hon : (s.core p).judge f.pr { word := launchRsv f, on := launchPlace (s.core p) f } = .on := by
    refine judge_on h (fun x hx => ?_) (Check.unblocked_of_noReads _ rfl)
    simp only [List.append_nil, List.mem_append] at hx
    exact hx.elim (hw x) (hplace x)
  have hany : (launchPlace (s.core p) f).any (·.1) = false := List.any_eq_false.2 fun x hx => by rw [hplace x hx]; simp
  unfold State.launch
  simp only [hon, h.thawed, Bool.false_eq_true, if_false, ht]
  refine (runWide_on (k := fun c => { word := launchRsv f, on := launchPlace c f ++
    (if (launchPlace c f).any (fun x => x.1) then [] else descChecks s p c ((s.core p).sreg f.ra).toNat) }) _ _ _ h (fun x hx => ?_)
    (Check.unblocked_of_noReads _ rfl)).trans ?_
  · simp only [List.append_nil, List.mem_append, hany, Bool.false_eq_true, if_false] at hx
    exact hx.elim (hw x) fun hx => hx.elim (hplace x) (hk x)
  · rw [if_neg (by omega)]

/-! ### Class 0xE (R67) -/

/-- The fields and MODE bits a function does not use are zero. -/
theorem tkWord_clean {f : FmtV} {d a b : Bool} {m : BitVec 3} (hd : d = false → f.vd = 0) (ha : a = false → f.va = 0)
    (hb : b = false → f.vb = 0) (hc : f.vc = 0) (hm : f.mode &&& ~~~m = 0) : ∀ x ∈ tkWord f d a b m, x.1 = false := by
  have hd' : (!d && decide (f.vd ≠ 0)) = false := by cases d <;> simp [hd]
  have ha' : (!a && decide (f.va ≠ 0)) = false := by cases a <;> simp [ha]
  have hb' : (!b && decide (f.vb ≠ 0)) = false := by cases b <;> simp [hb]
  rw [tkWord, hd', ha', hb', hm, hc]
  simp

/-- A function of the class whose unused fields are zero runs. -/
theorem tk_on {f : FmtV} (h : s.ready p f.pr) {d a b : Bool} {m : BitVec 3} (hw : ∀ x ∈ tkWord f d a b m, x.1 = false)
    {reads : List (BitVec 4)} (hr : ∀ r ∈ reads, (s.core p).accrdPending r.toNat = false) (w : Word) (eff : Core → Core) :
    s.runCore p w f.pr (fun _ => { word := tkWord f d a b m, reads := reads }) eff = s.retire p (eff (s.core p)) :=
  runCore_on _ _ _ h (by simpa [Check.clean] using hw) hr

end Sys2Proof.Machine

/-- Settles O14: the checks of a descriptor let its launch through, and DSTAT reads both channels. -/
theorem carterLaunch : Obligations.CarterLaunch := by
  unfold Obligations.CarterLaunch
  intro p f s h h0
  refine ⟨fun hd hp hw ha hal ht hk => ?launch, fun hra => ?dstat⟩
  case launch =>
    have run := launch_on h h0 hd (launchPlace_false hp hw ha hal) ht hk
    exact ⟨fun hroom => congrArg _ (run 0 .load hroom), fun hroom => congrArg _ (run 1 .store hroom)⟩
  case dstat => exact next_congr (runCore_on _ _ _ h (by simp [Check.clean, hra, h0]) (by simp [Check.unblocked]))

/-- Settles O15: each function of the class runs once its unused fields are zero. -/
theorem topkClass : Obligations.TopkClass := by
  unfold Obligations.TopkClass
  intro p f s h hc
  refine ⟨fun hd hm hk => ?init, fun hm => ⟨fun hd hb hv => ?push, fun ha => ?read, fun hb hv => ?draw⟩⟩
  case init =>
    have hm1 : f.mode &&& ~~~(1 : BitVec 3) = 0 := by
      generalize f.mode = m at hm
      revert m
      decide
    have hw := tkWord_clean (f := f) (d := false) (a := true) (b := true) (fun _ => hd) (by simp) (by simp) hc hm1
    refine next_congr (runCore_on _ _ _ h (fun x hx => ?_) (by simp [Check.unblocked]))
    have hk64 : decide (tkK f ≥ 64) = false := decide_eq_false (by unfold tkK; omega)
    simp only [hk64, List.append_nil, List.mem_append, List.mem_singleton] at hx
    rcases hx with hx | rfl
    · exact hw x hx
    · rfl
  case push =>
    exact next_congr (tk_on h (tkWord_clean (fun _ => hd) (by simp) (fun _ => hb) hc (mode_zero hm)) (by simpa using hv) _ _)
  case read =>
    have hw := tkWord_clean (f := f) (d := true) (a := false) (b := true) (by simp) (fun _ => ha) (by simp) hc (mode_zero hm)
    exact ⟨next_congr (tk_on h hw (by simp) _ _), next_congr (tk_on h hw (by simp) _ _)⟩
  case draw =>
    have hw := tkWord_clean (f := f) (d := true) (a := true) (b := false) (by simp) (by simp) (fun _ => hb) hc (mode_zero hm)
    exact ⟨next_congr (tk_on h hw (by simpa using hv) _ _), next_congr (tk_on h hw (by simpa using hv) _ _)⟩

end

section
/-! Core exceptions and predication (R44 to R46, R53, R80 to R82, R464). -/

open Sys2Proof Sys2Proof.Machine

namespace Sys2Proof.Machine

variable {s : State} {p : Pos}

/-! ### What an exception leaves (R80, R82, R464) -/

@[simp] theorem failRun_cores (s : State) (a : Nat) (r : Option RunId) : (s.failRun a r).cores = s.cores := by
  unfold State.failRun State.haltNext State.chargeRun
  cases r <;> dsimp only <;> split <;> rfl

theorem raise_allot (s : State) (code : Nat) (al : Option Nat) (payload : List (Nat × Nat)) (l : List Dest) (count a : Nat) :
    (s.raise code al payload l count).allot a = s.allot a := by
  obtain ⟨e, regs, out, ses, unread, pins, -, hr⟩ := s.raise_eq code al payload l count
  rw [hr]
  rfl

/-- A state in which the cores are those of `s` and an allotment is as in `s` but for what its run has noted. -/
structure State.notesOnly (s t : State) (a : Nat) : Prop where
  cores : t.cores = s.cores
  st : (t.allot a).st = (s.allot a).st
  exec : (t.allot a).exec.isSome = (s.allot a).exec.isSome

theorem raiseA_notesOnly (s : State) (code a : Nat) (payload : List (Nat × Nat)) : s.notesOnly (s.raiseA code a payload) a :=
  ⟨s.raise_cores _ _ _ _ _, by rw [State.raiseA, raise_allot], by rw [State.raiseA, raise_allot]⟩

theorem note_notesOnly (s : State) (a kind key : Nat) (r : Option RunId) : s.notesOnly (s.note a kind key r) a := by
  refine ⟨rfl, ?_, ?_⟩ <;> simp [State.note, State.updExec, State.updAllot]

theorem State.notesOnly.trans {s t u : State} {a : Nat} (h : s.notesOnly t a) (g : t.notesOnly u a) : s.notesOnly u a :=
  ⟨g.cores.trans h.cores, g.st.trans h.st, g.exec.trans h.exec⟩

theorem observe_eq (s : State) (a : Nat) (record : List (Nat × Nat)) (r : Option RunId) :
    ∃ t, s.observe a true record r = t.failRun a r ∧ s.notesOnly t a := by
  have hb : s.notesOnly (s.bump (0x60100 + 8 * a)) a := ⟨rfl, rfl, rfl⟩
  unfold State.observe
  dsimp only
  generalize s.bump (0x60100 + 8 * a) = t at hb
  rw [if_pos rfl]
  refine ⟨_, rfl, ?_⟩
  split
  · exact hb
  · exact (hb.trans (raiseA_notesOnly t _ a _)).trans (note_notesOnly _ a _ _ r)

/-- An exception halts the core, reports, and fails the run the core executes. -/
theorem except_eq (s : State) (w : Word) (k : Cause) {a : Nat} (ha : s.allotOf p.parish = some a) :
    ∃ t, s.except p w k = t.failRun a (s.coreRun p) ∧ (s.setCore p { s.core p with mode := .halted }).notesOnly t a := by
  by_cases hk : k = .poison
  · subst hk
    obtain ⟨record, he⟩ := s.except_poison_eq p w ha
    rw [he]
    exact observe_eq _ a record _
  · have ha' : (s.setCore p { s.core p with mode := .halted }).allotOf p.parish = some a := ha
    unfold State.except
    dsimp only
    rw [ha', s.coreRun_halt p]
    simp only [if_neg hk]
    exact ⟨_, rfl, raiseA_notesOnly _ _ _ _⟩

theorem except_core (s : State) (w : Word) (k : Cause) {a : Nat} (ha : s.allotOf p.parish = some a) (q : Pos) :
    (s.except p w k).core q = (s.setCore p { s.core p with mode := .halted }).core q := by
  obtain ⟨t, he, hn⟩ := except_eq s w k ha
  exact State.core_congr (by rw [he, failRun_cores, hn.cores]) q

/-- A failed run's allotment is to halt by fault, unless it is to halt for another cause already. -/
theorem failRun_haltAt {a : Nat} (h : (s.allot a).st = .running) (r : Option RunId) :
    ∃ y, ((s.failRun a r).allot a).haltAt = some y ∧ y ≠ .haltCmd ∧ y ≠ .close := by
  have hst : ((s.chargeRun a r).allot a).st = .running := by
    cases r <;> simp [State.chargeRun, State.updExec, State.updAllot, h]
  simp only [State.failRun, State.haltNext, hst, if_true, State.updAllot, State.allot_setAllot]
  split
  next => exact ⟨.fault, rfl, by simp, by simp⟩
  next => exact ⟨.fault, rfl, by simp, by simp⟩
  next y h1 h2 _ => exact ⟨y, rfl, h1, h2⟩
  next => exact ⟨.fault, rfl, by simp, by simp⟩

theorem charge_invalid (e : Exec) (r : RunId) : (e.charge r).invalid.contains r = true := by
  unfold Exec.charge
  split
  next h => exact h
  next => simp

theorem failRun_exec {a : Nat} {e : Exec} (h : (s.allot a).exec = some e) (r : RunId) :
    ((s.failRun a (some r)).allot a).exec = some (e.charge r) := by
  have hc : ((s.chargeRun a (some r)).allot a).exec = some (e.charge r) := by
    simp [State.chargeRun, State.updExec, State.updAllot, h]
  rw [← hc, State.failRun, State.haltNext]
  split <;> simp [State.updAllot]

/-! ### Word faults and unassigned text (R45, R46, R82) -/

/-- A core that could issue and whose word reads from the text region. -/
structure State.fetches (s : State) (p : Pos) : Prop where
  thawed : s.frozen p = false
  issues : (s.core p).canIssue = true
  clean : (s.core p).active.ue.contains ((s.core p).pc / 2) = false
  inText : (s.core p).pc < 1536

theorem State.fetches.fetchFaults_false (h : s.fetches p) {pr : Pred} (hp : ¬ (pr.pn = 1 ∧ pr.ps = 0)) :
    ∀ x ∈ (s.core p).fetchFaults pr, x.1 = false := by
  intro x hx
  simp only [Core.fetchFaults, List.mem_cons, List.not_mem_nil, or_false] at hx
  rcases hx with rfl | rfl | rfl
  · simp only [h.clean, Bool.and_false]
  · simpa using h.inText
  · simpa using hp

/-- The one condition that holds beside conditions of fetching, none of which does, is reported. -/
theorem firstCause_append_single {l : List (Bool × Cause)} (h : ∀ x ∈ l, x.1 = false) (c : Cause) :
    firstCause (l ++ [(true, c)]) = some c := by
  refine firstCause_eq (by simp) fun x hx ht => ?_
  rcases List.mem_append.1 hx with hx | hx
  · simp [h x hx] at ht
  · rw [List.mem_singleton.1 hx]

theorem State.fetches.add_reserved (h : s.fetches p) {f : FmtR} (ha : (s.core p).assigned = true)
    (hp : ¬ (f.pr.pn = 1 ∧ f.pr.ps = 0)) (h0 : f.rsv ≠ 0) :
    execAdd p f s = .next (s.except p (wordR 0x1 0 f) .reserved) := by
  have hw : rsvR f = true := decide_eq_true h0
  have hj : (s.core p).judge f.pr { word := [(rsvR f, .reserved)] } = .fault .reserved := by
    have hf := firstCause_append_single (h.fetchFaults_false hp) .reserved
    simp [Core.judge, h.issues, ha, hw, hf]
  refine next_congr ?_
  simp [aluR, State.runCore, h.thawed, hj, Core.fetched, ha]

/-- Text with an unassigned class or operation code is reported whatever command issues it (log entry 24). -/
theorem State.fetches.runCore_opcode (h : s.fetches p) (ha : (s.core p).assigned = false)
    (hp : ¬ (bits (s.core p).text 31 1 = 1 ∧ bits (s.core p).text 28 3 = 0)) (w : Word) (pr : Pred) (k : Core → Check)
    (eff off : Core → Core) : s.runCore p w pr k eff off = s.except p (s.core p).text .opcode := by
  have hpr : ¬ (BitVec.ofNat 1 (bits (s.core p).text 31 1) = 1 ∧ BitVec.ofNat 3 (bits (s.core p).text 28 3) = 0) := by
    have h1 : bits (s.core p).text 31 1 < 2 := Nat.mod_lt _ (by decide)
    have h3 : bits (s.core p).text 28 3 < 8 := Nat.mod_lt _ (by decide)
    rintro ⟨hn, hs⟩
    have hn' : bits (s.core p).text 31 1 % 2 = 1 := congrArg BitVec.toNat hn
    have hs' : bits (s.core p).text 28 3 % 8 = 0 := congrArg BitVec.toNat hs
    omega
  have hf : firstCause (s.core p).unassignedFaults = some .opcode := firstCause_append_single (h.fetchFaults_false hpr) .opcode
  have hj : (s.core p).judge pr (k (s.core p)) = .fault .opcode := by
    simp [Core.judge, h.issues, ha, hf]
  simp [State.runCore, h.thawed, hj, Core.fetched, ha]

/-! ### Predicated off (R44, R53) -/

theorem rsvR_false {f : FmtR} (h0 : f.rsv = 0) : rsvR f = false := decide_eq_false (not_not.2 h0)

/-- An instruction on its core alone, predicated off, goes on to the next. -/
theorem runCore_skips {pr : Pred} (h : s.readyOff p pr) (w : Word) {k : Core → Check} (eff : Core → Core)
    (hk : ∀ x ∈ (k (s.core p)).word ++ (k (s.core p)).always, x.1 = false) : s.runCore p w pr k eff = s.skipCore p :=
  runCore_off w eff Core.next h hk

/-- An instruction that may hold its core does too. -/
theorem runHold_skips {pr : Pred} (h : s.readyOff p pr) (w : Word) {k : Core → Check} (eff : Core → Core)
    (hk : ∀ x ∈ (k (s.core p)).word ++ (k (s.core p)).always, x.1 = false) : s.runHold p w pr k eff = s.skipCore p :=
  runWide_off w _ _ h hk

theorem scalarLoad_skips {f : FmtI} (h : s.readyOff p f.pr) (f3 : BitVec 3) (n : Nat) (conv : Nat → Word) :
    scalarLoad p f3 f n conv s = s.skipCore p  := by
  unfold scalarLoad
  exact runWide_off (k := fun c => { on := accessChecks c f.ra (scalarEa (s.core p) f) n n false }) _ _ (fun s => s.skipCore p) h (by simp)

theorem scalarStore_skips {f : FmtI} (h : s.readyOff p f.pr) (f3 : BitVec 3) (n : Nat) :
    scalarStore p f3 f n s = s.skipCore p  := by
  unfold scalarStore
  exact runWide_off (k := fun c => { on := accessChecks c f.ra (scalarEa (s.core p) f) n n true }) _ _ (fun s => s.skipCore p) h (by simp)

end Sys2Proof.Machine

/-- Settles O16: an exception fails the run its core executes; word faults are judged before the predicate; the rest skips. -/
theorem coreExceptions : Obligations.CoreExceptions := by
  unfold Obligations.CoreExceptions
  intro p s
  refine ⟨fun w k a ha hrun => ⟨?mode, ?pc, ?halt, fun r e hr he => ?charged, fun q hq => ?others⟩,
    fun f h1 h2 h3 h4 => ⟨fun has hpr h0 => ?reserved, fun hun hpr => ?opcode⟩,
    fun f h h0 => ?formR, fun f h => ?formI, fun f h => ?formVM, fun f h => ?branch⟩
  case mode => rw [except_core s w k ha, State.core_setCore]
  case pc => rw [except_core s w k ha, State.core_setCore]
  case halt =>
    obtain ⟨t, he, hn⟩ := except_eq s w k ha
    rw [he]
    exact failRun_haltAt (hn.st.trans hrun) _
  case charged =>
    obtain ⟨t, ht, hn⟩ := except_eq s w k ha
    have hsome : (t.allot a).exec.isSome = true := hn.exec.trans (congrArg Option.isSome he)
    obtain ⟨e', he'⟩ := Option.isSome_iff_exists.1 hsome
    rw [ht, hr]
    exact ⟨_, failRun_exec he' r, charge_invalid e' r⟩
  case others => rw [except_core s w k ha, State.core_setCore_ne _ _ hq]
  case reserved => exact State.fetches.add_reserved ⟨h1, h2, h3, h4⟩ has hpr h0
  case opcode =>
    have run := State.fetches.runCore_opcode (s := s) (p := p) ⟨h1, h2, h3, h4⟩ hun hpr
    exact ⟨congrArg _ (run _ _ _ _ _), congrArg _ (run _ _ _ _ _)⟩
  case formR =>
    have hw : ∀ x ∈ ([(rsvR f, .reserved)] : List (Bool × Cause)) ++ [], x.1 = false := by simp [rsvR_false h0]
    exact ⟨congrArg _ (runCore_skips h _ _ hw), congrArg _ (runCore_skips h _ _ hw), congrArg _ (runHold_skips h _ _ hw),
      congrArg _ (runCore_skips h _ _ hw), congrArg _ (runHold_skips h _ _ hw), congrArg _ (runHold_skips h _ _ hw)⟩
  case formI =>
    exact ⟨congrArg _ (runCore_skips h _ _ (by simp)), congrArg _ (scalarLoad_skips h _ _ _), congrArg _ (scalarStore_skips h _ _)⟩
  case formVM =>
    exact ⟨congrArg _ (runWide_off (k := fun c => { on := accessChecks c f.ra _ 64 16 false }) _ _ _ h (by simp)),
      congrArg _ (runCore_skips (k := fun c => { on := accessChecks c f.ra _ 64 16 true, reads := [f.vd] }) h _ _ (by simp))⟩
  case branch => exact congrArg _ (runCore_skips h _ _ (by simp))

end

section
/-! Frames of instructions: what each path of a scalar, lane or memory instruction leaves unchanged (R39, R43, R47, R54, R57, R72). -/

open Sys2Proof Sys2Proof.Machine

namespace Sys2Proof.Machine

/-! ### Outside the core -/

/-- What an instruction's path can write beside its effect: cores, counts of parishes, allotments, strikes, the marks of R272, and
what reporting an event changes. -/
def State.reportsOnly (s t : State) : Prop :=
  ∃ cores parishes allots ras stirred fresh regs events out ses unread pins, t = { s with
    cores := cores, parishes := parishes, allots := allots, ras := ras, stirred := stirred, fresh := fresh, regs := regs,
    events := events, out := out, ses := ses, unreadBoard := unread, pins := pins }

theorem State.reportsOnly.refl (s : State) : s.reportsOnly s := ⟨_, _, _, _, _, _, _, _, _, _, _, _, rfl⟩

theorem State.reportsOnly.trans {s t u : State} : s.reportsOnly t → t.reportsOnly u → s.reportsOnly u := by
  rintro ⟨_, _, _, _, _, _, _, _, _, _, _, _, rfl⟩ ⟨_, _, _, _, _, _, _, _, _, _, _, _, rfl⟩
  exact ⟨_, _, _, _, _, _, _, _, _, _, _, _, rfl⟩

/-- Nothing that a frame speaks of changes but at core `p`. -/
structure State.onlyCore (s t : State) (p : Pos) : Prop where
  cores : ∀ q : Pos, q.id ≠ p.id → t.core q = s.core q
  tallies : ∀ par, (t.parish par).tallies = (s.parish par).tallies
  rest : s.reportsOnly t

variable {s t u : State} {p : Pos}

theorem State.onlyCore.memory (h : s.onlyCore t p) : s.sameImage t := by
  obtain ⟨_, _, _, _, _, _, _, _, _, _, _, _, rfl⟩ := h.rest
  exact ⟨⟨rfl, rfl, rfl⟩, rfl⟩

theorem State.onlyCore.hub (h : s.onlyCore t p) : t.hub = s.hub := by
  obtain ⟨_, _, _, _, _, _, _, _, _, _, _, _, rfl⟩ := h.rest
  rfl

theorem State.onlyCore.mesh (h : s.onlyCore t p) : t.xroads = s.xroads := by
  obtain ⟨_, _, _, _, _, _, _, _, _, _, _, _, rfl⟩ := h.rest
  rfl

theorem State.onlyCore.refl (s : State) (p : Pos) : s.onlyCore s p := ⟨fun _ _ => rfl, fun _ => rfl, .refl s⟩

theorem State.onlyCore.trans (h : s.onlyCore t p) (g : t.onlyCore u p) : s.onlyCore u p :=
  ⟨fun q hq => (g.cores q hq).trans (h.cores q hq), fun par => (g.tallies par).trans (h.tallies par), h.rest.trans g.rest⟩

theorem setCore_onlyCore (s : State) (p : Pos) (c : Core) : s.onlyCore (s.setCore p c) p :=
  ⟨fun _ hq => s.core_setCore_ne c hq, fun _ => rfl, ⟨_, _, _, _, _, _, _, _, _, _, _, _, rfl⟩⟩

theorem retire_onlyCore (s : State) (p : Pos) (c : Core) : s.onlyCore (s.retire p c) p :=
  ⟨fun _ hq => s.core_retire_ne c hq, fun _ => rfl, ⟨_, _, _, _, _, _, _, _, _, _, _, _, rfl⟩⟩

theorem raise_onlyCore (s : State) (p : Pos) (code : Nat) (al : Option Nat) (payload : List (Nat × Nat)) (l : List Dest) (count : Nat) :
    s.onlyCore (s.raise code al payload l count) p := by
  obtain ⟨e, regs, out, ses, unread, pins, -, hr⟩ := s.raise_eq code al payload l count
  rw [hr]
  exact ⟨fun _ _ => rfl, fun _ => rfl, ⟨_, _, _, _, _, _, _, _, _, _, _, _, rfl⟩⟩

theorem raiseA_onlyCore (s : State) (p : Pos) (code a : Nat) (payload : List (Nat × Nat)) : s.onlyCore (s.raiseA code a payload) p :=
  raise_onlyCore s p _ _ _ _ _

theorem setAllots_onlyCore (s : State) (p : Pos) (m : Tab Allot) : s.onlyCore { s with allots := m } p :=
  ⟨fun _ _ => rfl, fun _ => rfl, ⟨_, _, _, _, _, _, _, _, _, _, _, _, rfl⟩⟩

theorem setRas_onlyCore (s : State) (p : Pos) (r : Ras) : s.onlyCore { s with ras := r } p :=
  ⟨fun _ _ => rfl, fun _ => rfl, ⟨_, _, _, _, _, _, _, _, _, _, _, _, rfl⟩⟩

theorem setReg_onlyCore (s : State) (p : Pos) (o : Nat) (v : DWord) : s.onlyCore (s.setReg o v) p :=
  ⟨fun _ _ => rfl, fun _ => rfl, ⟨_, _, _, _, _, _, _, _, _, _, _, _, rfl⟩⟩

theorem onlyCore_ite {c : Prop} [Decidable c] (ht : s.onlyCore t p) (hu : s.onlyCore u p) : s.onlyCore (if c then t else u) p := by
  split
  · exact ht
  · exact hu

theorem onlyCore_foldl {α : Type} (f : State → α → State) (hf : ∀ (s : State) (a : α), s.onlyCore (f s a) p) (l : List α) :
    ∀ s : State, s.onlyCore (l.foldl f s) p := by
  induction l with
  | nil => exact fun s => .refl s p
  | cons a t ih => exact fun s => (hf s a).trans (ih _)

theorem failRun_onlyCore (s : State) (p : Pos) (a : Nat) (r : Option RunId) : s.onlyCore (s.failRun a r) p := by
  have hc : s.onlyCore (s.chargeRun a r) p := by
    cases r with
    | none => exact .refl s p
    | some r => exact setAllots_onlyCore s p _
  refine hc.trans ?_
  unfold State.failRun State.haltNext
  exact onlyCore_ite (setAllots_onlyCore _ p _) (.refl _ p)

theorem observe_onlyCore (s : State) (p : Pos) (a : Nat) (ends : Bool) (record : List (Nat × Nat)) (r : Option RunId) :
    s.onlyCore (s.observe a ends record r) p := by
  have hb : s.onlyCore (s.bump (0x60100 + 8 * a)) p := setReg_onlyCore s p _ _
  unfold State.observe
  dsimp only
  generalize s.bump (0x60100 + 8 * a) = t at hb
  have hn : s.onlyCore (if t.noted a evPoisonConsumed 0 r then t
      else (t.raiseA evPoisonConsumed a record).note a evPoisonConsumed 0 r) p :=
    onlyCore_ite hb (hb.trans ((raise_onlyCore t p _ _ _ _ _).trans (setAllots_onlyCore _ p _)))
  exact onlyCore_ite (hn.trans (failRun_onlyCore _ p a r)) hn

theorem except_onlyCore (s : State) (p : Pos) (w : Word) (k : Cause) : s.onlyCore (s.except p w k) p := by
  have hh := setCore_onlyCore s p { s.core p with mode := .halted }
  unfold State.except
  dsimp only
  split
  · exact hh
  · exact onlyCore_ite (hh.trans (observe_onlyCore _ p _ _ _ _))
      (hh.trans ((raise_onlyCore _ p _ _ _ _ _).trans (failRun_onlyCore _ p _ _)))

theorem raiseDataUe_onlyCore (s : State) (p : Pos) (w : Word) : s.onlyCore (s.raiseDataUe p w) p := by
  unfold State.raiseDataUe
  exact onlyCore_ite (.refl s p) (raise_onlyCore s p _ _ _ _ _)

theorem softDead_onlyCore (s : State) (p : Pos) (par : Fin 78) (col : Fin 80) (phys : Nat) (i : Option Nat) :
    s.onlyCore (s.softDead par col phys i) p := by
  have hr : s.onlyCore (if s.ras.repairs.contains { parish := par, col := col, row := phys } then s
      else { s with ras := { s.ras with repairs := s.ras.repairs ++ [{ parish := par, col := col, row := phys }] } }) p :=
    onlyCore_ite (.refl s p) (setRas_onlyCore s p _)
  unfold State.softDead
  dsimp only
  split
  · exact hr
  · exact hr.trans ((setRas_onlyCore _ p _).trans (raise_onlyCore _ p _ _ _ _ _))

theorem strikeSite_onlyCore (s : State) (p : Pos) (lost : Bool) : s.onlyCore (s.strikeSite p lost) p := by
  unfold State.strikeSite
  exact onlyCore_ite ((setRas_onlyCore s p _).trans (softDead_onlyCore _ p _ _ _ _)) (setRas_onlyCore s p _)

theorem checkCe_onlyCore (s : State) (p : Pos) : s.onlyCore (s.checkCe p) p := by
  unfold State.checkCe
  exact onlyCore_ite
    ((setCore_onlyCore s p _).trans ((raise_onlyCore _ p _ _ _ _ _).trans (strikeSite_onlyCore _ p _))) (.refl s p)

theorem countCe_onlyCore (s : State) (p : Pos) (n : Nat) :
    s.onlyCore (s.updParish p.parish fun x => { x with sramCe := x.sramCe + n }) p := by
  refine ⟨fun _ _ => rfl, fun par => ?_, ⟨_, _, _, _, _, _, _, _, _, _, _, _, rfl⟩⟩
  by_cases h : par = p.parish
  · rw [h, State.updParish, State.parish_setParish]
  · rw [State.updParish, State.parish_setParish_ne _ _ h]

theorem touchSram_onlyCore (s : State) (p : Pos) (w : Word) (a n : Nat) : s.onlyCore (s.touchSram p w a n) p := by
  unfold State.touchSram
  refine State.onlyCore.trans ?_ (checkCe_onlyCore _ p)
  refine State.onlyCore.trans ?_ (onlyCore_foldl _ (fun s _ => raiseDataUe_onlyCore s p w) _ _)
  exact onlyCore_ite (setCore_onlyCore s p _) ((setCore_onlyCore s p _).trans (countCe_onlyCore _ p _))

theorem touchBank_onlyCore (s : State) (p : Pos) (w : Word) (a n : Nat) : s.onlyCore (s.touchBank p w a n) p := by
  unfold State.touchBank
  exact (setCore_onlyCore s p _).trans (onlyCore_foldl _ (fun s _ => raiseDataUe_onlyCore s p w) _ _)

theorem touchLocal_onlyCore (s : State) (p : Pos) (w : Word) (a n : Nat) : s.onlyCore (s.touchLocal p w a n) p := by
  unfold State.touchLocal
  split
  · exact touchSram_onlyCore s p w a n
  · exact touchBank_onlyCore s p w a n
  · exact .refl s p

/-! ### In the core -/

/-- What a core keeps: every byte of data SRAM outside `n` from `ea`, tallies, queues, tiles and buffers, and every register but
one scalar register and at most one vector register. -/
structure Core.framed (c d : Core) (rd : BitVec 5) (vd : Option (BitVec 4)) (ea n : Nat) : Prop where
  sram : ∀ k, k < ea ∨ ea + n ≤ k → d.byte k = c.byte k
  tallies : d.t = c.t
  queues : d.inq = c.inq ∧ d.outq = c.outq
  tiles : d.acc = c.acc ∧ d.w = c.w
  scalars : ∀ r, r ≠ rd → d.sreg r = c.sreg r ∧ d.spois r = c.spois r
  vectors : ∀ r, vd ≠ some r → d.vreg r = c.vreg r ∧ d.vpois r = c.vpois r

variable {c d e : Core} {rd : BitVec 5} {vd : Option (BitVec 4)} {ea n : Nat}

theorem Core.framed.refl (c : Core) : c.framed c rd vd ea n :=
  ⟨fun _ _ => rfl, rfl, ⟨rfl, rfl⟩, ⟨rfl, rfl⟩, fun _ _ => ⟨rfl, rfl⟩, fun _ _ => ⟨rfl, rfl⟩⟩

theorem Core.framed.trans (h : c.framed d rd vd ea n) (g : d.framed e rd vd ea n) : c.framed e rd vd ea n :=
  ⟨fun k hk => (g.sram k hk).trans (h.sram k hk), g.tallies.trans h.tallies,
    ⟨g.queues.1.trans h.queues.1, g.queues.2.trans h.queues.2⟩, ⟨g.tiles.1.trans h.tiles.1, g.tiles.2.trans h.tiles.2⟩,
    fun r hr => ⟨(g.scalars r hr).1.trans (h.scalars r hr).1, (g.scalars r hr).2.trans (h.scalars r hr).2⟩,
    fun r hr => ⟨(g.vectors r hr).1.trans (h.vectors r hr).1, (g.vectors r hr).2.trans (h.vectors r hr).2⟩⟩

/-- A core whose SRAM and registers are the same is framed. -/
theorem Core.framed_of_eq (h1 : d.sram = c.sram ∧ d.sramInit = c.sramInit) (h2 : d.t = c.t) (h3 : d.inq = c.inq ∧ d.outq = c.outq)
    (h4 : d.acc = c.acc ∧ d.w = c.w) (h5 : d.s = c.s ∧ d.sp = c.sp) (h6 : d.v = c.v ∧ d.vp = c.vp) : c.framed d rd vd ea n := by
  refine ⟨fun k _ => ?_, h2, h3, h4, fun r _ => ⟨?_, ?_⟩, fun r _ => ⟨?_, ?_⟩⟩
  · simp only [Core.byte, Core.sramDefault, h1]
  · simp only [Core.sreg, h5]
  · simp only [Core.spois, h5]
  · simp only [Core.vreg, h6]
  · simp only [Core.vpois, h6]

theorem Core.setS_framed (c : Core) (rd : BitVec 5) (v : Word) (b : Bool) : c.framed (c.setS rd v b) rd vd ea n := by
  by_cases hr : rd = 0
  · rw [hr, Core.setS_zero]
    exact .refl c
  · have scalars (r : BitVec 5) (h : r ≠ rd) :
        (c.setS rd v b).sreg r = c.sreg r ∧ (c.setS rd v b).spois r = c.spois r :=
      ⟨by rw [Core.sreg_setS _ hr, if_neg h], by rw [Core.spois_setS _ hr, if_neg h]⟩
    rw [Core.setS_of_ne _ hr] at scalars ⊢
    exact ⟨fun _ _ => rfl, rfl, ⟨rfl, rfl⟩, ⟨rfl, rfl⟩, scalars, fun _ _ => ⟨rfl, rfl⟩⟩

theorem Core.setV_framed (c : Core) (v : BitVec 4) (x : VReg) (m : BitVec 4) : c.framed (c.setV v x m) rd (some v) ea n :=
  ⟨fun _ _ => rfl, rfl, ⟨rfl, rfl⟩, ⟨rfl, rfl⟩, fun _ _ => ⟨rfl, rfl⟩, fun r h =>
    have hne : r ≠ v := fun e => h (congrArg some e.symm)
    ⟨Core.vreg_setV_ne c hne x m, Core.vpois_setV_ne c hne x m⟩⟩

theorem Core.next_framed (c : Core) : c.framed c.next rd vd ea n :=
  Core.framed_of_eq ⟨rfl, rfl⟩ rfl ⟨rfl, rfl⟩ ⟨rfl, rfl⟩ ⟨rfl, rfl⟩ ⟨rfl, rfl⟩

theorem Core.flag_framed (c : Core) (f : Flg) : c.framed (c.flag f) rd vd ea n :=
  Core.framed_of_eq ⟨rfl, rfl⟩ rfl ⟨rfl, rfl⟩ ⟨rfl, rfl⟩ ⟨rfl, rfl⟩ ⟨rfl, rfl⟩

theorem Core.touch_framed (c : Core) (a m : Nat) : c.framed (c.touch a m).1 rd vd ea n :=
  Core.framed_of_eq ⟨rfl, rfl⟩ rfl ⟨rfl, rfl⟩ ⟨rfl, rfl⟩ ⟨rfl, rfl⟩ ⟨rfl, rfl⟩

/-! ### The state's frame -/

/-- Nothing a frame speaks of changes but what `Core.framed` allows at core `p`. -/
structure State.framed (s t : State) (p : Pos) (rd : BitVec 5) (vd : Option (BitVec 4)) (ea n : Nat) : Prop where
  rest : s.onlyCore t p
  core : (s.core p).framed (t.core p) rd vd ea n

theorem State.framed.trans (h : s.framed t p rd vd ea n) (g : t.framed u p rd vd ea n) : s.framed u p rd vd ea n :=
  ⟨h.rest.trans g.rest, h.core.trans g.core⟩

theorem State.framed.refl (s : State) : s.framed s p rd vd ea n := ⟨.refl s p, .refl _⟩

theorem State.framed.spelled (h : s.framed t p rd vd ea n) : s.keepsBut t p ea n ∧ s.keepsS t p rd ∧ s.keepsV t p vd :=
  ⟨⟨h.rest.cores, fun k => congrFun h.rest.memory.memByte k, h.core.sram, ⟨h.core.tallies, h.rest.hub, h.rest.tallies⟩,
    h.core.queues, h.rest.mesh⟩, h.core.scalars, h.core.tiles.1, h.core.tiles.2, h.core.vectors⟩

theorem retire_framed (h : (s.core p).framed d rd vd ea n) : s.framed (s.retire p d) p rd vd ea n :=
  ⟨retire_onlyCore s p d, by rwa [State.core_retire]⟩

theorem framed_of_cores (hr : s.onlyCore t p) (hc : t.cores = s.cores) : s.framed t p rd vd ea n :=
  ⟨hr, by rw [State.core_congr hc]; exact .refl _⟩

theorem setCore_framed (h : (s.core p).framed d rd vd ea n) : s.framed (s.setCore p d) p rd vd ea n :=
  ⟨setCore_onlyCore s p d, by rwa [State.core_setCore]⟩

theorem halted_framed (c : Core) : c.framed { c with mode := .halted } rd vd ea n :=
  Core.framed_of_eq ⟨rfl, rfl⟩ rfl ⟨rfl, rfl⟩ ⟨rfl, rfl⟩ ⟨rfl, rfl⟩ ⟨rfl, rfl⟩

theorem except_framed (s : State) (p : Pos) (w : Word) (k : Cause) : s.framed (s.except p w k) p rd vd ea n := by
  refine ⟨except_onlyCore s p w k, ?_⟩
  have hc : (s.except p w k).core p = { s.core p with mode := .halted } := by
    cases ha : s.allotOf p.parish with
    | none =>
      have ha' : (s.setCore p { s.core p with mode := .halted }).allotOf p.parish = none := ha
      simp only [State.except, ha', State.core_setCore]
    | some a => rw [except_core s w k ha, State.core_setCore]
  rw [hc]
  exact halted_framed _

theorem runCore_framed {k : Core → Check} {eff : Core → Core} (w : Word) (pr : Pred)
    (h : (s.core p).framed (eff (s.core p)) rd vd ea n) : s.framed (s.runCore p w pr k eff) p rd vd ea n := by
  rcases runCore_cases s p w pr k eff Core.next with he | ⟨v, x, he⟩ | he | he <;> rw [he]
  · exact .refl s
  · exact except_framed s p v x
  · exact retire_framed h
  · exact retire_framed (Core.next_framed _)

theorem runWide_framed {k : Core → Check} {eff : State → State} (w : Word) (pr : Pred) (h : s.framed (eff s) p rd vd ea n) :
    s.framed (s.runWide p w pr k eff fun s => s.skipCore p) p rd vd ea n := by
  rcases runWide_cases s p w pr k eff fun s => s.skipCore p with he | ⟨v, x, he⟩ | he | he <;> rw [he]
  · exact .refl s
  · exact except_framed s p v x
  · exact h
  · exact retire_framed (Core.next_framed _)

/-! ### Errors met on a read (R74, R75) -/

theorem foldl_raiseDataUe_cores (p : Pos) (w : Word) (l : List Nat) :
    ∀ t : State, (l.foldl (fun t _ => t.raiseDataUe p w) t).cores = t.cores := by
  induction l with
  | nil => exact fun _ => rfl
  | cons x l ih => exact fun t => (ih _).trans (t.raiseDataUe_cores p w)

theorem checkCe_framed (s : State) (p : Pos) : s.framed (s.checkCe p) p rd vd ea n := by
  refine ⟨checkCe_onlyCore s p, ?_⟩
  unfold State.checkCe
  dsimp only
  split
  · rw [State.core_congr (State.strikeSite_cores _ _ _), State.core_congr (State.raise_cores _ _ _ _ _ _), State.core_setCore]
    exact Core.framed_of_eq ⟨rfl, rfl⟩ rfl ⟨rfl, rfl⟩ ⟨rfl, rfl⟩ ⟨rfl, rfl⟩ ⟨rfl, rfl⟩
  · exact .refl _

theorem touchSram_framed (s : State) (p : Pos) (w : Word) (a m : Nat) : s.framed (s.touchSram p w a m) p rd vd ea n := by
  unfold State.touchSram
  dsimp only
  refine State.framed.trans ?_ (checkCe_framed _ p)
  refine State.framed.trans ?_
    (framed_of_cores (onlyCore_foldl _ (fun s _ => raiseDataUe_onlyCore s p w) _ _) (foldl_raiseDataUe_cores p w _ _))
  have touched : s.framed (s.setCore p ((s.core p).touch a m).1) p rd vd ea n := setCore_framed (Core.touch_framed _ a m)
  split
  · exact touched
  · exact touched.trans (framed_of_cores (countCe_onlyCore _ p _) rfl)

theorem touchBank_framed (s : State) (p : Pos) (w : Word) (a m : Nat) : s.framed (s.touchBank p w a m) p rd vd ea n := by
  unfold State.touchBank
  dsimp only
  refine State.framed.trans (setCore_framed ?_)
    (framed_of_cores (onlyCore_foldl _ (fun s _ => raiseDataUe_onlyCore s p w) _ _) (foldl_raiseDataUe_cores p w _ _))
  split <;> exact Core.framed_of_eq ⟨rfl, rfl⟩ rfl ⟨rfl, rfl⟩ ⟨rfl, rfl⟩ ⟨rfl, rfl⟩ ⟨rfl, rfl⟩

theorem touchLocal_framed (s : State) (p : Pos) (w : Word) (a m : Nat) : s.framed (s.touchLocal p w a m) p rd vd ea n := by
  unfold State.touchLocal
  split
  · exact touchSram_framed s p w a m
  · exact touchBank_framed s p w a m
  · exact .refl s

/-! ### Stores (R72, R76) -/

theorem Core.setBytes_eq (l : List Byte) : ∀ (c : Core) (a : Nat), ∃ m, c.setBytes a l = { c with sram := m } := by
  induction l with
  | nil => exact fun c a => ⟨c.sram, rfl⟩
  | cons b t ih =>
    intro c a
    obtain ⟨m, hm⟩ := ih (c.setByte a b) (a + 1)
    refine ⟨m, ?_⟩
    rw [Core.setBytes, hm, Core.setByte]
    split <;> rfl

theorem Core.setBytes_framed (c : Core) (a : Nat) (l : List Byte) : c.framed (c.setBytes a l) rd vd a l.length := by
  have hb := fun k hk => Core.byte_setBytes_out l c a k hk
  obtain ⟨m, hm⟩ := Core.setBytes_eq l c a
  rw [hm] at hb ⊢
  exact ⟨hb, rfl, ⟨rfl, rfl⟩, ⟨rfl, rfl⟩, fun _ _ => ⟨rfl, rfl⟩, fun _ _ => ⟨rfl, rfl⟩⟩

theorem Core.setPoison_framed (c : Core) (w : Nat) (b : Bool) : c.framed (c.setPoison w b) rd vd ea n :=
  Core.framed_of_eq ⟨rfl, rfl⟩ rfl ⟨rfl, rfl⟩ ⟨rfl, rfl⟩ ⟨rfl, rfl⟩ ⟨rfl, rfl⟩

theorem Core.storeNarrow_framed (c : Core) (a : Nat) (l : List Byte) (poison : Bool) :
    c.framed (c.storeNarrow a l poison) rd vd a l.length := by
  unfold Core.storeNarrow
  dsimp only
  split
  · exact (Core.setBytes_framed c a l).trans (Core.setPoison_framed _ _ _)
  · exact Core.setBytes_framed c a l

theorem Core.setPoisons_framed (f : Nat → Nat) (g : Nat → Bool) (l : List Nat) :
    ∀ c : Core, c.framed (l.foldl (fun c i => c.setPoison (f i) (g i)) c) rd vd ea n := by
  induction l with
  | nil => exact .refl
  | cons i t ih => exact fun c => (Core.setPoison_framed c _ _).trans (ih _)

theorem Core.storeWords_framed (c : Core) (a : Nat) (l : List Byte) (poison : Nat → Bool) :
    c.framed (c.storeWords a l poison) rd vd a l.length := by
  unfold Core.storeWords
  refine ((Core.setBytes_framed c a l).trans ?_).trans (Core.setPoisons_framed _ _ _ _)
  exact Core.framed_of_eq ⟨rfl, rfl⟩ rfl ⟨rfl, rfl⟩ ⟨rfl, rfl⟩ ⟨rfl, rfl⟩ ⟨rfl, rfl⟩

/-! ### The instructions (R43, R47, R54, R57) -/

theorem setS_next_framed (c : Core) (rd : BitVec 5) (v : Word) (b : Bool) : c.framed (c.setS rd v b).next rd vd ea n :=
  (Core.setS_framed c rd v b).trans (Core.next_framed _)

/-- What a lane instruction leaves of its core. -/
theorem setV_next_framed (c : Core) (g : Flg) (v : BitVec 4) (x : VReg) (m : BitVec 4) :
    c.framed ((c.flag g).setV v x m).next rd (some v) ea n :=
  (Core.flag_framed c g).trans ((Core.setV_framed _ v x m).trans (Core.next_framed _))

theorem aluR_framed (f : FmtR) (func : BitVec 6) (op : Word → Word → Word) :
    s.framed (aluR p func f op s) p f.rd none ea n := by
  unfold aluR
  exact runCore_framed _ _ (setS_next_framed _ _ _ _)

theorem aluI_framed (f : FmtI) (f3 : BitVec 3) (op : Word → Word → Word) (v : Word) :
    s.framed (aluI p f3 f op v s) p f.rd none ea n := by
  unfold aluI
  exact runCore_framed _ _ (setS_next_framed _ _ _ _)

theorem scalarLoad_framed (f : FmtI) (f3 : BitVec 3) (m : Nat) (conv : Nat → Word) :
    s.framed (scalarLoad p f3 f m conv s) p f.rd none ea n := by
  unfold scalarLoad
  exact runWide_framed _ _ ((touchLocal_framed s p _ _ _).trans (retire_framed (setS_next_framed _ _ _ _)))

theorem scalarStore_framed (f : FmtI) (f3 : BitVec 3) (m : Nat) :
    s.framed (scalarStore p f3 f m s) p 0 none (scalarEa (s.core p) f) m := by
  unfold scalarStore
  refine runWide_framed _ _ ((touchSram_framed s p _ _ _).trans (retire_framed ?_))
  refine Core.framed.trans ?_ (Core.next_framed _)
  have hst := Core.storeNarrow_framed (rd := 0) (vd := none) ((s.touchSram p (wordI 0x4 f3 f) (scalarEa (s.core p) f) m).core p)
    (scalarEa (s.core p) f) (leBytes m (((s.touchSram p (wordI 0x4 f3 f) (scalarEa (s.core p) f) m).core p).sreg f.rd).toNat)
    (((s.touchSram p (wordI 0x4 f3 f) (scalarEa (s.core p) f) m).core p).spois f.rd)
  rwa [leBytes_length] at hst

theorem execVst_framed (f : FmtVM) (h : execVst p f s = .next t) :
    s.framed t p 0 none (vecEa (s.core p) f) 64 := by
  unfold execVst at h
  obtain rfl := Host.Outcome.next.inj h
  refine runCore_framed _ _ (Core.framed.trans ?_ (Core.next_framed _))
  have hlen : (vbytes ((s.core p).vreg f.vd)).length = 64 := leBytes_length _ _
  have hst := Core.storeWords_framed (rd := 0) (vd := none) (s.core p) (vecEa (s.core p) f) (vbytes ((s.core p).vreg f.vd))
    (fun i => bit ((s.core p).vpois f.vd) (i / 2))
  rwa [hlen] at hst

theorem execCsrr_framed (f : FmtR) (h : execCsrr p f s = .next t) : s.framed t p f.rd none ea n := by
  unfold execCsrr at h
  obtain rfl := Host.Outcome.next.inj h
  refine runWide_framed _ _ ?_
  have same {c d e : Core} {k : Prop} [Decidable k] (h : c.framed d f.rd none ea n) (g : d.framed e f.rd none ea n) :
      c.framed (if k then e else d) f.rd none ea n := by
    split
    · exact h.trans g
    · exact h
  have hs : s.framed (if csrNo f = 8 then s.drawn else s) p f.rd none ea n := by
    split
    · exact framed_of_cores ⟨fun _ _ => rfl, fun _ => rfl, ⟨_, _, _, _, _, _, _, _, _, _, _, _, rfl⟩⟩ rfl
    · exact .refl s
  have hc : (if csrNo f = 8 then s.drawn else s).core p = s.core p := by split <;> rfl
  refine hs.trans (retire_framed ?_)
  rw [hc]
  refine Core.framed.trans (same (same (same (.refl _) ?_) ?_) ?_) (setS_next_framed _ _ _ _)
  all_goals exact Core.framed_of_eq ⟨rfl, rfl⟩ rfl ⟨rfl, rfl⟩ ⟨rfl, rfl⟩ ⟨rfl, rfl⟩ ⟨rfl, rfl⟩

theorem vec2_framed (f : FmtV) (vf : BitVec 5) (m : BitVec 3) (op : Word → Word → Word × Flg) :
    s.framed (vec2 p vf f m op s) p 0 (some f.vd) ea n := by
  unfold vec2
  exact runCore_framed _ _ (setV_next_framed _ _ _ _ _)

theorem vec1_framed (f : FmtV) (vf : BitVec 5) (m : BitVec 3) (op : Word → Word × Flg) :
    s.framed (vec1 p vf f m op s) p 0 (some f.vd) ea n := by
  unfold vec1
  exact runCore_framed _ _ (setV_next_framed _ _ _ _ _)

theorem vecReduce_framed (f : FmtV) (vf : BitVec 5) (m : BitVec 3) (op : Word → Word → Word × Flg) :
    s.framed (vecReduce p vf f m op s) p 0 (some f.vd) ea n := by
  unfold vecReduce
  exact runCore_framed _ _ (setV_next_framed _ _ _ _ _)

theorem execVfma_framed (f : FmtV) (h : execVfma p f s = .next t) : s.framed t p 0 (some f.vd) ea n := by
  unfold execVfma at h
  obtain rfl := Host.Outcome.next.inj h
  exact runCore_framed _ _ (setV_next_framed _ _ _ _ _)

theorem execVsel_framed (f : FmtV) (h : execVsel p f s = .next t) : s.framed t p 0 (some f.vd) ea n := by
  unfold execVsel at h
  obtain rfl := Host.Outcome.next.inj h
  exact runCore_framed _ _ ((Core.setV_framed _ _ _ _).trans (Core.next_framed _))

theorem execVcvt_framed (f : FmtV) (h : execVcvt p f s = .next t) : s.framed t p 0 (some f.vd) ea n := by
  unfold execVcvt at h
  obtain rfl := Host.Outcome.next.inj h
  refine runCore_framed _ _ ?_
  dsimp only
  split
  · exact .refl _
  · split
    · exact (Core.setV_framed _ _ _ _).trans (Core.next_framed _)
    · exact setV_next_framed _ _ _ _ _

theorem execJal_framed (f : FmtU) (half : BitVec 1) (h : execJal p f half s = .next t) : s.framed t p f.rd none ea n := by
  unfold execJal at h
  obtain rfl := Host.Outcome.next.inj h
  refine runCore_framed _ _ ((Core.setS_framed _ f.rd (pcAddr ((s.core p).pc + 1)) false).trans ?_)
  exact Core.framed_of_eq ⟨rfl, rfl⟩ rfl ⟨rfl, rfl⟩ ⟨rfl, rfl⟩ ⟨rfl, rfl⟩ ⟨rfl, rfl⟩

theorem execLuh_framed (f : FmtU) (h : execLuh p f s = .next t) : s.framed t p f.rd none ea n := by
  unfold execLuh at h
  obtain rfl := Host.Outcome.next.inj h
  exact runCore_framed _ _ (setS_next_framed _ _ _ _)

theorem execLlo_framed (f : FmtU) (h : execLlo p f s = .next t) : s.framed t p f.rd none ea n := by
  unfold execLlo at h
  obtain rfl := Host.Outcome.next.inj h
  exact runCore_framed _ _ (setS_next_framed _ _ _ _)

/-- The next state is read off the outcome. -/
theorem framed_of_next (h : s.framed u p rd vd ea n) (he : (.next u : Host.Outcome State Fault Refusal) = .next t) :
    s.framed t p rd vd ea n := Host.Outcome.next.inj he ▸ h

end Sys2Proof.Machine

/-- Settles O18: every path of `runCore` and `runWide` is framed where the effect is, and each effect sets one register. -/
theorem registerFrames : Obligations.RegisterFrames := by
  unfold Obligations.RegisterFrames
  intro p s t
  have spell {rd : BitVec 5} {vd : Option (BitVec 4)} (h : s.framed t p rd vd 0 0) :
      s.keeps t p ∧ s.keepsS t p rd ∧ s.keepsV t p vd := h.spelled
  refine ⟨fun f c hc ht => spell ?alu, fun f c hc ht => spell ?imm, fun f c hc ht => spell ?upper, fun f c hc ht => spell ?lanes⟩
  case alu =>
    simp only [List.mem_cons, List.not_mem_nil, or_false] at hc
    rcases hc with rfl | rfl | rfl | rfl | rfl | rfl | rfl | rfl | rfl | rfl | rfl | rfl | rfl | rfl | rfl | rfl | rfl | rfl | rfl | rfl
    iterate 19 exact framed_of_next (aluR_framed f _ _) ht
    exact execCsrr_framed f ht
  case imm =>
    simp only [List.mem_cons, List.not_mem_nil, or_false] at hc
    rcases hc with rfl | rfl | rfl | rfl | rfl | rfl | rfl | rfl | rfl | rfl | rfl
    iterate 8 exact framed_of_next (aluI_framed f _ _ _) ht
    all_goals exact framed_of_next (scalarLoad_framed f _ _ _) ht
  case upper =>
    simp only [List.mem_cons, List.not_mem_nil, or_false] at hc
    rcases hc with rfl | rfl | rfl | rfl
    · exact execLuh_framed f ht
    · exact execLlo_framed f ht
    · exact execJal_framed f _ ht
    · exact execJal_framed f _ ht
  case lanes =>
    simp only [List.mem_cons, List.not_mem_nil, or_false] at hc
    have two := fun vf m op => framed_of_next (t := t) (vec2_framed (s := s) (p := p) (ea := 0) (n := 0) f vf m op)
    have one := fun vf m op => framed_of_next (t := t) (vec1_framed (s := s) (p := p) (ea := 0) (n := 0) f vf m op)
    have all := fun vf m op => framed_of_next (t := t) (vecReduce_framed (s := s) (p := p) (ea := 0) (n := 0) f vf m op)
    rcases hc with rfl | rfl | rfl | rfl | rfl | rfl | rfl | rfl | rfl | rfl | rfl | rfl | rfl | rfl | rfl | rfl | rfl | rfl | rfl | rfl
    · exact two _ _ _ ht
    · exact two _ _ _ ht
    · exact two _ _ _ ht
    · exact execVfma_framed f ht
    · exact two _ _ _ ht
    · exact two _ _ _ ht
    · exact one _ _ _ ht
    · exact one _ _ _ ht
    · exact one _ _ _ ht
    · exact one _ _ _ ht
    · exact all _ _ _ ht
    · exact all _ _ _ ht
    · exact two _ _ _ ht
    · exact execVsel_framed f ht
    · exact execVcvt_framed f ht
    all_goals exact two _ _ _ ht

/-- Settles O19: a store's bytes are all its path can change of its core's data SRAM. -/
theorem storeFrames : Obligations.StoreFrames := by
  unfold Obligations.StoreFrames
  intro p s t
  refine ⟨fun f => ⟨fun ht => ?word, fun ht => ?half⟩, fun f ht => ?vector⟩
  case word => exact (framed_of_next (scalarStore_framed f _ 4) ht).spelled
  case half => exact (framed_of_next (scalarStore_framed f _ 2) ht).spelled
  case vector => exact (execVst_framed f ht).spelled

end

section
/-! The mesh: transfers, slot advance, SUM, refill and what a link hands over (R110 to R132). -/

open Sys2Proof Sys2Proof.Machine

namespace Sys2Proof.Machine

variable {s : State} {p : Pos}

/-! ### Tokens held early, and counters (R142, R165) -/

theorem enterHold_of_none (h : (s.core p).hold = none) : s.enterHold p = s := by
  unfold State.enterHold
  simp only [h]

/-- A counter of a position changes nothing of its crossroads but the counters, and no core. -/
theorem stat_xroad (s : State) (p : Pos) (n : Nat) :
    ∃ m, (s.stat p n).xroad p = { s.xroad p with stat := m } := ⟨_, State.xroad_setXroad _ _ _⟩

theorem stat_core (s : State) (p : Pos) (n : Nat) (q : Pos) : (s.stat p n).core q = s.core q := rfl

theorem stat_slot (s : State) (p : Pos) (n : Nat) :
    ((s.stat p n).xroad p).slot = (s.xroad p).slot ∧ ((s.stat p n).xroad p).moved = (s.xroad p).moved := by
  obtain ⟨m, hm⟩ := stat_xroad s p n
  rw [hm]
  exact ⟨rfl, rfl⟩

/-! ### Transfer, slot advance and SUM (R110 to R117, R124, R125) -/

theorem execTokenTransfer_moves {out : Dir} {bad : Bool} {s1 s2 : State} {t : Token} {e : Slot}
    (he : (s.core p).slot (s.xroad p).slot = e) (hm : s.meshRuns p = true)
    (h1 : 1 ≤ e.source (dirNo out)) (h5 : e.source (dirNo out) ≤ 5)
    (hl : ((s.xroad p).moved.toList[dirNo out]?).getD 0 < e.len)
    (hi : s.inbound p e (e.source (dirNo out)) = (s1, some t))
    (ho : (s.xroad p).offers e (e.source (dirNo out)) (dirNo out) = true)
    (hd : s1.deliverToken p e (dirNo out) t bad = some s2) :
    execTokenTransfer p out bad s =
      .next ((s2.countMoved p (dirNo out) t).takeFrom p e (e.source (dirNo out)) (dirNo out)) := by
  have hidle : ¬ ((!s.meshRuns p) = true ∨ e.source (dirNo out) = 0 ∨ e.source (dirNo out) = 7 ∨
      ((s.xroad p).moved.toList[dirNo out]?).getD 0 ≥ e.len) := by
    rw [hm]
    simp only [Bool.not_true, Bool.false_eq_true, false_or]
    omega
  have h6 : e.source (dirNo out) ≠ 6 := by omega
  unfold execTokenTransfer
  simp only [he]
  rw [if_neg hidle, if_neg h6]
  simp only [hi, ho, hd, Bool.not_true, Bool.false_eq_true, if_false]

theorem execSlotAdvance_complete {e : Slot} (he : (s.core p).slot (s.xroad p).slot = e) (hm : s.meshRuns p = true)
    (hc : (s.xroad p).complete e = true) (hh : (s.core p).hold = none) :
    leads (execSlotAdvance p s) fun t =>
      (t.xroad p).slot = (if e.wrap ∨ 63 ≤ (s.xroad p).slot then 0 else (s.xroad p).slot + 1) ∧
      (t.xroad p).moved = Vector.replicate 5 0 ∧ t.core p = s.core p := by
  unfold execSlotAdvance
  simp only [hm, enterHold_of_none hh, he, hc, hh, Bool.not_true, Bool.false_eq_true, Option.isSome_none, or_self, if_false, if_true]
  refine ⟨_, rfl, ?_⟩
  have hlast : (e.wrap || decide ((s.xroad p).slot ≥ 63)) = true ↔ (e.wrap = true ∨ 63 ≤ (s.xroad p).slot) := by simp
  simp only [hlast]
  split <;> simp only [stat_slot, stat_core, State.xroad_setXroad, true_and] <;> rfl

theorem execSum_joins {s1 s2 : State} {t u : Token} {e : Slot} (he : (s.core p).slot (s.xroad p).slot = e)
    (hm : s.meshRuns p = true) (ha1 : 1 ≤ e.suma) (hb1 : 1 ≤ e.sumb) (ha5 : e.suma ≤ 5) (hb5 : e.sumb ≤ 5)
    (hout : (s.xroad p).sumOut = []) (hoa : (s.xroad p).offers e e.suma 5 = true) (hob : (s.xroad p).offers e e.sumb 5 = true)
    (hia : s.inbound p e e.suma = (s1, some t)) (hib : s1.inbound p e e.sumb = (s2, some u)) (hcol : t.colour = u.colour) :
    leads (execSum p s) fun z => (z.xroad p).sumOut = sumTokens e.bf16 t u := by
  have hruns : ¬ ((!s.meshRuns p) = true ∨ e.suma = 0 ∨ e.sumb = 0 ∨ e.suma > 5 ∨ e.sumb > 5 ∨
      (!(s.xroad p).sumOut.isEmpty) = true ∨ (!(s.xroad p).offers e e.suma 5) = true ∨
      (!(s.xroad p).offers e e.sumb 5) = true) := by
    rw [hm, hout, hoa, hob]
    simp only [List.isEmpty_nil, Bool.not_true, Bool.false_eq_true, false_or, or_false]
    omega
  unfold execSum
  simp only [he]
  rw [if_neg hruns]
  simp only [hia, hib, hcol, if_true]
  exact ⟨_, rfl, congrArg Xroad.sumOut (State.xroad_setXroad _ _ _)⟩

/-! ### Refill (R129, R132) -/

theorem execRefill_current {q : Fin 4} (hr : ((s.core p).region q).2 ≠ 0) (hs : qRegionSize ((s.core p).inCfg q) ≠ 0)
    (hl : (((s.core p).inq.toList[q.val]?).getD []).length < 16)
    (hc : ((s.core p).spilledAt ((s.core p).inCfg q) ((s.core p).region q).1).colour = (s.core p).colour)
    (ht : ∀ a n, s.touchSram p 0 a n = s) :
    execRefill p q s = .next (((s.setCore p { s.core p with
      spill := (s.core p).spill.setIfInBounds q
        ((((s.core p).region q).1 + 1) % qRegionSize ((s.core p).inCfg q), ((s.core p).region q).2 - 1)
      inq := (s.core p).inq.setIfInBounds q ((((s.core p).inq.toList[q.val]?).getD []) ++
        [(s.core p).spilledAt ((s.core p).inCfg q) ((s.core p).region q).1]) }).engineRuns p).enterHold p) := by
  have hroom : ¬ (((s.core p).region q).2 = 0 ∨ qRegionSize ((s.core p).inCfg q) = 0 ∨
      (((s.core p).inq.toList[q.val]?).getD []).length ≥ 16) := by
    simp only [hr, hs, false_or]
    omega
  unfold execRefill
  simp only [ht, if_neg hroom, hc, if_true]

/-! ### What a link hands over (R110, R111) -/

theorem setXroad_stat_latch (s : State) (q : Pos) (n : Nat) : ((s.stat q n).xroad q).latch = (s.xroad q).latch := by
  obtain ⟨m, hm⟩ := stat_xroad s q n
  rw [hm]

theorem xroad_congr {s t : State} (h : t.xroads = s.xroads) (q : Pos) : t.xroad q = s.xroad q := by
  simp only [State.xroad, h]

/-- A link error leaves the token where it arrived. -/
theorem linkError_latch (s : State) (p q : Pos) (i : Nat) : ((s.linkError p q i).xroad q).latch = (s.xroad q).latch := by
  unfold State.linkError
  dsimp only
  refine Eq.trans ?_ (setXroad_stat_latch s q 26)
  generalize s.stat q 26 = t
  split
  · rfl
  have hraised : ((t.setXroad q { t.xroad q with linkRaised := i :: (t.xroad q).linkRaised }).xroad q).latch = (t.xroad q).latch := by
    rw [State.xroad_setXroad]
  split
  next => exact hraised
  next a _ =>
    refine Eq.trans ?_ hraised
    generalize t.setXroad q { t.xroad q with linkRaised := i :: (t.xroad q).linkRaised } = u
    have same (u v : State) (h : u.onlyCore v p) : (v.xroad q).latch = (u.xroad q).latch := by
      rw [xroad_congr h.mesh]
    refine same u _ ?_
    have hr := raiseA_onlyCore u p evMeshLinkError a [(q.id, 4), (i + 1, 1), (u.physRow p.parish p.col p.row, 1)]
    generalize u.raiseA evMeshLinkError a [(q.id, 4), (i + 1, 1), (u.physRow p.parish p.col p.row, 1)] = v at hr ⊢
    refine hr.trans ?_
    refine onlyCore_ite (.refl _ p) ?_
    have hn : v.onlyCore (v.note a evMeshLinkError ((linkSite q p i).1.id * 4 + (linkSite q p i).2.toNat)) p :=
      setAllots_onlyCore v p _
    refine hn.trans ?_
    split
    · exact onlyCore_ite ((setRas_onlyCore _ p _).trans (softDead_onlyCore _ p _ _ _ _)) (setRas_onlyCore _ p _)
    · exact setRas_onlyCore _ p _

theorem getElem?_setIfInBounds_self {α : Type} {n : Nat} (v : Vector α n) {i : Nat} (hi : i < n) (x : α) :
    (v.setIfInBounds i x).toList[i]? = some x := by
  have hl : i < v.toList.length := by simpa using hi
  have hs : (v.setIfInBounds i x).toList = v.toList.set i x := by simp [Vector.setIfInBounds, Vector.toList]
  rw [hs, List.getElem?_set_self hl]

theorem deliverToken_link {e : Slot} {q : Pos} {u : State} {o : Nat} {k : Token} {bad : Bool} (ho : o < 4)
    (hn : neighbour p o = some q) (hd : s.deliverToken p e o k bad = some u) :
    ((s.xroad q).latch.toList[opposite o]?).getD none = none ∧
    ((u.xroad q).latch.toList[opposite o]?).getD none = some (if bad then { k with poison := true, void := false } else k) := by
  have hi : opposite o < 5 := by
    unfold opposite
    omega
  unfold State.deliverToken at hd
  rw [if_neg (by omega)] at hd
  simp only [hn] at hd
  split at hd
  next => simp at hd
  next hfree =>
    simp only [not_or, Bool.not_eq_true, Option.isSome_eq_false_iff, Option.isNone_iff_eq_none] at hfree
    refine ⟨hfree.2.2, ?_⟩
    rw [← Option.some.inj hd]
    have hput (x : Token) : (((s.setXroad q { s.xroad q with
        latch := (s.xroad q).latch.setIfInBounds (opposite o) (some x) }).xroad q).latch.toList[opposite o]?).getD none = some x := by
      rw [State.xroad_setXroad, getElem?_setIfInBounds_self _ hi, Option.getD_some]
    cases bad with
    | true =>
      simp only [if_true]
      rw [linkError_latch]
      exact hput _
    | false =>
      simp only [Bool.false_eq_true, if_false]
      exact hput k

end Sys2Proof.Machine

/-- Settles O20: each move is followed through its branches; a link error changes no latch. -/
theorem meshMoves : Obligations.MeshMoves := by
  unfold Obligations.MeshMoves
  intro p s
  exact ⟨fun out bad s1 s2 t hm h1 h5 hl hi ho hd => execTokenTransfer_moves rfl hm h1 h5 hl hi ho hd,
    fun hm hc hh => execSlotAdvance_complete rfl hm hc hh,
    fun s1 s2 t u hm ha1 hb1 ha5 hb5 hout hoa hob hia hib hcol =>
      execSum_joins rfl hm ha1 hb1 ha5 hb5 hout hoa hob hia hib hcol,
    fun q hr hs hl hc ht => execRefill_current hr hs hl hc ht,
    fun q u o k bad ho hn hd => deliverToken_link ho hn hd⟩

end

section
/-! SRAM write-back and the swap of banks (R42, R74, R79, R119, R132, R165, R166). -/

open Sys2Proof Sys2Proof.Machine

namespace Sys2Proof.Machine

/-! ### Tokens judged and moved in a core (R128 to R132, R165 to R167) -/

/-- The core differs in its queues, its regions and the data SRAM they lie in only. -/
def Core.movesTokens (c d : Core) : Prop :=
  ∃ inq spill hold sram poison ue ce back, d = { c with
    inq := inq, spill := spill, hold := hold, sram := sram, sramPoison := poison, ue := ue, ce := ce, writeback := back }

theorem Core.movesTokens.refl (c : Core) : c.movesTokens c := ⟨_, _, _, _, _, _, _, _, rfl⟩

theorem Core.movesTokens.trans {c d e : Core} : c.movesTokens d → d.movesTokens e → c.movesTokens e := by
  rintro ⟨_, _, _, _, _, _, _, _, rfl⟩ ⟨_, _, _, _, _, _, _, _, rfl⟩
  exact ⟨_, _, _, _, _, _, _, _, rfl⟩

theorem Core.movesTokens.mrun {c d : Core} (h : c.movesTokens d) : d.mrun = c.mrun := by
  obtain ⟨_, _, _, _, _, _, _, _, rfl⟩ := h
  rfl

theorem setBytes_movesTokens (c : Core) (a : Nat) (l : List Byte) : c.movesTokens (c.setBytes a l) := by
  obtain ⟨m, hm⟩ := Core.setBytes_eq l c a
  rw [hm]
  exact ⟨_, _, _, _, _, _, _, _, rfl⟩

theorem setPoison_movesTokens (c : Core) (w : Nat) (b : Bool) : c.movesTokens (c.setPoison w b) := ⟨_, _, _, _, _, _, _, _, rfl⟩

theorem setPoisons_movesTokens (f : Nat → Nat) (g : Nat → Bool) (l : List Nat) :
    ∀ c : Core, c.movesTokens (l.foldl (fun c i => c.setPoison (f i) (g i)) c) := by
  induction l with
  | nil => exact .refl
  | cons i t ih => exact fun c => (setPoison_movesTokens c _ _).trans (ih _)

theorem storeWords_movesTokens (c : Core) (a : Nat) (l : List Byte) (poison : Nat → Bool) :
    c.movesTokens (c.storeWords a l poison) := by
  have hfix (d : Core) (ue ce back : List Nat) : d.movesTokens { d with ue := ue, ce := ce, writeback := back } :=
    ⟨_, _, _, _, _, _, _, _, rfl⟩
  exact ((setBytes_movesTokens c a l).trans (hfix _ _ _ _)).trans (setPoisons_movesTokens _ _ _ _)

theorem spillAt_movesTokens (c : Core) (cfg : BitVec 128) (k : Nat) (t : Token) : c.movesTokens (c.spillAt cfg k t) := by
  have hfix (d : Core) (ue ce back : List Nat) : d.movesTokens { d with ue := ue, ce := ce, writeback := back } :=
    ⟨_, _, _, _, _, _, _, _, rfl⟩
  have hdata := storeWords_movesTokens c (qRegionBase cfg + 16 * k) (leBytes 16 t.data.toNat) (fun _ => t.poison)
  have hside := fun d : Core => setBytes_movesTokens d (qSideBase cfg + k) [sideByte t]
  exact ((hdata.trans (hside _)).trans (hfix _ _ _ _)).trans (setPoison_movesTokens _ _ _)

theorem accept_movesTokens {c d : Core} {q : Nat} {t : Token} {b : Bool} (h : c.accept q t = some (d, b)) : c.movesTokens d := by
  unfold Core.accept at h
  dsimp only at h
  split_ifs at h
  · rw [← (Prod.mk.inj (Option.some.inj h)).1]
    exact ⟨_, _, _, _, _, _, _, _, rfl⟩
  · rw [← (Prod.mk.inj (Option.some.inj h)).1]
    exact (spillAt_movesTokens c _ _ t).trans ⟨_, _, _, _, _, _, _, _, rfl⟩

variable {s t u : State} {p : Pos}

/-- The core at a position differs so, and its slot is the same. -/
structure State.movesTokens (s t : State) (p : Pos) : Prop where
  core : (s.core p).movesTokens (t.core p)
  slot : (t.xroad p).slot = (s.xroad p).slot

theorem State.movesTokens.refl (s : State) (p : Pos) : s.movesTokens s p := ⟨.refl _, rfl⟩

theorem State.movesTokens.trans (h : s.movesTokens t p) (g : t.movesTokens u p) : s.movesTokens u p :=
  ⟨h.core.trans g.core, g.slot.trans h.slot⟩

theorem movesTokens_foldl {α : Type} (f : State → α → State) (hf : ∀ (s : State) (a : α), s.movesTokens (f s a) p) (l : List α) :
    ∀ s : State, s.movesTokens (l.foldl f s) p := by
  induction l with
  | nil => exact fun s => .refl s p
  | cons a t ih => exact fun s => (hf s a).trans (ih _)

theorem setCore_movesTokens {d : Core} (h : (s.core p).movesTokens d) : s.movesTokens (s.setCore p d) p :=
  ⟨by rwa [State.core_setCore], rfl⟩

theorem movesTokens_of_cores (hc : t.cores = s.cores) (hx : t.xroads = s.xroads) : s.movesTokens t p :=
  ⟨by rw [State.core_congr hc]; exact .refl _, by rw [xroad_congr hx]⟩

theorem stat_movesTokens (s : State) (p : Pos) (n : Nat) : s.movesTokens (s.stat p n) p :=
  ⟨by rw [stat_core]; exact .refl _, (stat_slot s p n).1⟩

/-- Residue is counted and charged; it leaves the core (R167). -/
theorem discardToken_movesTokens (s : State) (p : Pos) (q : Nat) (t : Token) : s.movesTokens (s.discardToken p q t) p := by
  unfold State.discardToken
  dsimp only
  split
  next => exact .refl s p
  next a _ =>
    split
    next => split
            next => exact .refl s p
            next =>
              split
              · exact movesTokens_of_cores (State.raise_cores _ _ _ _ _ _) (raise_onlyCore _ p _ _ _ _ _).mesh
              · exact movesTokens_of_cores rfl rfl
    next => exact .refl s p

/-- With no MMA started the engine takes nothing. -/
theorem engineRuns_movesTokens (h : (s.core p).mrun = none) : s.movesTokens (s.engineRuns p) p := by
  have ht : (s.core p).engineTake = (0, s.core p) := by simp only [Core.engineTake, h]
  unfold State.engineRuns
  simp only [ht, if_true]
  rw [issueRows_of_idle (by rw [State.core_setCore, h])]
  exact setCore_movesTokens (.refl _)

theorem acceptToken_movesTokens {q : Nat} {k : Token} (hm : (s.core p).mrun = none) (h : s.acceptToken p q k = some t) :
    s.movesTokens t p := by
  unfold State.acceptToken at h
  obtain ⟨⟨d, b⟩, hd, rfl⟩ := Option.map_eq_some_iff.1 h
  have hc := accept_movesTokens hd
  have hs : s.movesTokens ((s.setCore p d).engineRuns p) p :=
    (setCore_movesTokens hc).trans (engineRuns_movesTokens (by rw [State.core_setCore, hc.mrun, hm]))
  dsimp only
  split
  · exact hs.trans (stat_movesTokens _ p _)
  · exact hs

theorem enterHold_movesTokens (hm : (s.core p).mrun = none) : s.movesTokens (s.enterHold p) p := by
  have hrel : s.movesTokens (s.setCore p { s.core p with hold := none }) p :=
    setCore_movesTokens ⟨_, _, _, _, _, _, _, _, rfl⟩
  have hm' : ((s.setCore p { s.core p with hold := none }).core p).mrun = none := by rw [State.core_setCore, hm]
  unfold State.enterHold
  dsimp only
  split
  next => exact .refl s p
  next q k _ =>
    split_ifs
    · exact .refl s p
    · split
      next t ht => exact (hrel.trans (acceptToken_movesTokens hm' ht)).trans (movesTokens_of_cores rfl rfl)
      next => exact .refl s p
    · exact hrel.trans (discardToken_movesTokens _ p _ k)

theorem judgeQueues_movesTokens (s : State) (p : Pos) : s.movesTokens (s.judgeQueues p) p := by
  refine movesTokens_foldl _ (fun s q => ?_) _ s
  refine State.movesTokens.trans (setCore_movesTokens ⟨_, _, _, _, _, _, _, _, rfl⟩)
    (movesTokens_foldl _ (fun s t => discardToken_movesTokens s p q t) _ _)

theorem judgeSpill_movesTokens (s : State) (p : Pos) (old : Vector (BitVec 128) 8) : s.movesTokens (s.judgeSpill p old) p := by
  refine movesTokens_foldl _ (fun s q => ?_) _ s
  dsimp only
  split_ifs
  · exact .refl s p
  · exact .refl s p
  · exact State.movesTokens.trans (setCore_movesTokens ⟨_, _, _, _, _, _, _, _, rfl⟩)
      (movesTokens_foldl _ (fun s t => discardToken_movesTokens s p q t) _ _)

/-! ### The swap (R42, R79) -/

/-- The core with its shadow bank ACTIVE and the other EMPTY. -/
def Core.turned (c : Core) : Core :=
  if c.activeB then { c with bankB := {}, bankA := { c.shadow with st := .active }, activeB := false }
  else { c with bankA := {}, bankB := { c.shadow with st := .active }, activeB := true }

theorem Core.turned_active (c : Core) : c.turned.active = { c.shadow with st := .active } ∧ c.turned.shadow = {} := by
  unfold Core.turned
  split <;> exact ⟨rfl, rfl⟩

/-- The core has entered its shadow bank, at slot 0. -/
def State.entered (s : State) (p : Pos) : State :=
  let u := s.setCore p ((s.core p).turned.enter { (s.core p).shadow with st := .active })
  u.setXroad p (u.xroad p).restart

/-- A late swap is noted in the books of the bank's run. -/
def State.bookLate (s : State) (p : Pos) (b : Bank) : State :=
  match s.allotOf p.parish with
  | some a => if b.late then
      s.updExec a fun e =>
        let k := e.books.get {} b.run
        { e with lateSwap := true, books := e.books.put b.run { k with lateCores := k.lateCores + 1 } }
    else s
  | none => s

theorem bookLate_movesTokens (s : State) (p : Pos) (b : Bank) : s.movesTokens (s.bookLate p b) p := by
  unfold State.bookLate
  split
  · split
    · exact movesTokens_of_cores rfl rfl
    · exact .refl _ p
  · exact .refl _ p

theorem execBankSwap_eq (hs : s.maySwap p = true) (hue : ∀ i < 4, (s.core p).shadow.ue.contains (0x1AA0 / 8 + i) = false) :
    execBankSwap p s = .next (((((s.entered p).judgeSpill p (s.core p).qcfg).judgeQueues p).enterHold p).bookLate p
      (s.core p).shadow) := by
  have hentry : ((List.range 4).any fun i => (s.core p).shadow.ue.contains (0x1AA0 / 8 + i)) = false :=
    List.any_eq_false.2 fun i hi => by rw [hue i (List.mem_range.1 hi)]; simp
  unfold execBankSwap
  rw [if_neg (by simp [hs])]
  lift_lets
  extract_lets c b old n turned entered slotted spilled held late entry
  have hentry : entry = false := hentry
  have hheld : (((s.entered p).judgeSpill p (s.core p).qcfg).judgeQueues p).enterHold p = held := rfl
  rw [hentry, if_neg Bool.false_ne_true, hheld]
  simp only [late]
  clear_value held
  rfl

/-- A swap whose entry block reads leaves the entered core but for its tokens, at slot 0. -/
theorem entered_movesTokens (s : State) (p : Pos) (old : Vector (BitVec 128) 8) (b : Bank) :
    (s.entered p).movesTokens (((((s.entered p).judgeSpill p old).judgeQueues p).enterHold p).bookLate p b) p := by
  have hj := (judgeSpill_movesTokens (s.entered p) p old).trans (judgeQueues_movesTokens _ p)
  have hm : ((s.entered p).core p).mrun = none := congrArg Core.mrun (State.core_setCore _ _ _)
  exact (hj.trans (enterHold_movesTokens (hj.core.mrun.trans hm))).trans (bookLate_movesTokens _ p b)

theorem enter_sreg (c : Core) (b : Bank) (r : BitVec 5) :
    (c.enter b).sreg r = (if r.toNat < 16 then 0 else BitVec.ofNat 32 (b.nat (0x1AC0 + 4 * (r.toNat - 16)) 4)) := by
  by_cases hr : r = 0
  · subst hr
    rw [Core.sreg_zero]
    rfl
  · rw [Core.sreg_of_ne _ hr]
    exact Vector.getElem_ofFn _

theorem enter_spois (c : Core) (b : Bank) (r : BitVec 5) : (c.enter b).spois r = false := by
  simp [Core.spois, Core.enter, bit]

theorem enter_tally (c : Core) (b : Bank) (i : Fin 16) : (c.enter b).t[i] = BitVec.ofNat 16 (b.nat (0x1A80 + 2 * i) 2) := by
  refine (Vector.getElem_ofFn _).trans ?_
  simp

end Sys2Proof.Machine

/-- Settles O21: judging the queues, the regions and the token held moves tokens only, so the registers are those the swap set. -/
theorem bankSwap : Obligations.BankSwap := by
  unfold Obligations.BankSwap
  intro p s
  refine ⟨fun addr => rfl, fun hs hue => ?_⟩
  refine ⟨_, execBankSwap_eq hs hue, ?_⟩
  obtain ⟨hcore, hslot⟩ := entered_movesTokens s p (s.core p).qcfg (s.core p).shadow
  generalize ((((s.entered p).judgeSpill p (s.core p).qcfg).judgeQueues p).enterHold p).bookLate p (s.core p).shadow = t at *
  have hturned := Core.turned_active (s.core p)
  have he : (s.entered p).core p = (s.core p).turned.enter { (s.core p).shadow with st := .active } := State.core_setCore _ _ _
  have h0 : ((s.entered p).xroad p).slot = 0 := congrArg Xroad.slot (State.xroad_setXroad _ _ _)
  rw [he] at hcore
  generalize (s.core p).turned = c at hcore hturned
  have hreg := enter_sreg c { (s.core p).shadow with st := .active }
  have hpois := enter_spois c { (s.core p).shadow with st := .active }
  have htally := enter_tally c { (s.core p).shadow with st := .active }
  obtain ⟨inq, spill, hold, sram, poison, ue, ce, back, he⟩ := hcore
  rw [he]
  exact ⟨rfl, hturned.1, congrArg Bank.st hturned.2, rfl, rfl, rfl, rfl, rfl, rfl, fun r => ⟨hreg r, hpois r⟩, htally,
    rfl, rfl, rfl, rfl, rfl, rfl, rfl, rfl, rfl, rfl, rfl, hslot.trans h0⟩

end

section
/-! Writes of posted blocks and their effects (R141, R203, R221, R224, R266, R404, R494). -/

open Sys2Proof Sys2Proof.Machine

namespace Sys2Proof.Machine

variable {s : State}

/-! ### Offsets of parishes and stacks (R485) -/

theorem blockOf_mc {m r : Nat} (hm : m < 64) (hr : r < 0x4000) : blockOf (mcBase m + r) = some (mcBase m) := by
  have hbase : (mcBase m + r) / 0x4000 * 0x4000 = mcBase m := by unfold mcBase; omega
  have hlow : 0x200000 ≤ mcBase m + r := Nat.le_add_right_of_le (Nat.le_add_right _ _)
  have hhigh : mcBase m + r < 0x300000 := by unfold mcBase; omega
  unfold blockOf
  rw [if_neg (by omega), if_neg (by omega), if_neg (by omega), if_pos ⟨hlow, hhigh⟩, hbase]

theorem parishOfOff_parish {par r : Nat} (hpar : par < 78) (hr : r < 0x10000) : parishOfOff (parishBase par + r) = some par := by
  have hin : 0x400000 ≤ parishBase par + r ∧ parishBase par + r < 0x8E0000 := by unfold parishBase; omega
  have hq : (parishBase par + r - 0x400000) / 0x10000 = par := by unfold parishBase; omega
  rw [parishOfOff, if_pos hin, hq]

theorem parishOfOff_mc {m r : Nat} (hm : m < 64) (hr : r < 0x4000) : parishOfOff (mcBase m + r) = none :=
  if_neg (by unfold mcBase; omega)

theorem stackOfOff_mc {m r : Nat} (hm : m < 64) (hr : r < 0x4000) : stackOfOff (mcBase m + r) = some m := by
  have hin : 0x200000 ≤ mcBase m + r ∧ mcBase m + r < 0x300000 := by unfold mcBase; omega
  have hq : (mcBase m + r - 0x200000) / 0x4000 = m := by unfold mcBase; omega
  rw [stackOfOff, if_pos hin, hq]

/-! ### Taking a write (R494) -/

theorem post_takes {path : RegPath} {o : Nat} {rwk : Bool} (h : s.takesPost path o rwk) (v : DWord) :
    s.post path o v rwk = s.postedWith path o v := by
  have hok : (!rwk || s.keyed path ((blockOf o).getD 0)) = true := by
    cases rwk with
    | false => rfl
    | true => exact h.keyed rfl
  have hreach : ¬ (!s.reaches path o) = true := by simp [h.reached]
  have hign : ¬ State.coreIgnored path o = true := by simp [h.allowed]
  have habs : ¬ (s.consumeArm path ((blockOf o).getD 0)).absent o = true := by simp [h.there]
  have hfree : (s.consumeArm path ((blockOf o).getD 0)).posted.find? ((blockOf o).getD 0) = none := by
    rw [State.posted_consumeArm, h.free]
  unfold State.post State.postWrite
  simp only [if_neg hreach, if_neg hign, if_neg habs, hfree, hok, Option.isSome_none, Bool.false_eq_true, false_and, if_false,
    Bool.not_true]
  rfl

/-! ### Effects leave the pending writes of the blocks (R494) -/

@[simp] theorem State.raise_posted (s : State) (code : Nat) (al : Option Nat) (payload : List (Nat × Nat)) (l : List Dest)
    (count : Nat) : (s.raise code al payload l count).posted = s.posted := by
  obtain ⟨_, _, _, _, _, _, _, h⟩ := s.raise_eq code al payload l count
  rw [h]

theorem State.foldl_posted {α : Type} (f : State → α → State) (hf : ∀ (s : State) (a : α), (f s a).posted = s.posted)
    (l : List α) : ∀ s : State, (l.foldl f s).posted = s.posted := by
  induction l with
  | nil => exact fun _ => rfl
  | cons a t ih => exact fun s => (ih _).trans (hf s a)

theorem State.onlyCore.posted {s t : State} {p : Pos} (h : s.onlyCore t p) : t.posted = s.posted := by
  obtain ⟨_, _, _, _, _, _, _, _, _, _, _, _, he⟩ := h.rest
  rw [he]

theorem State.ite_posted {c : Prop} [Decidable c] {t u : State} (ht : t.posted = s.posted) (hu : u.posted = s.posted) :
    (if c then t else u).posted = s.posted := by
  split
  · exact ht
  · exact hu

theorem degrade_posted (s : State) (n : Nat) : (s.degrade n).posted = s.posted := by
  unfold State.degrade
  exact State.ite_posted (State.ite_posted (State.raise_posted _ _ _ _ _ _) rfl) rfl

theorem checkGrade_posted (s : State) : s.checkGrade.posted = s.posted := State.ite_posted rfl (degrade_posted s 1)

theorem mapColumn_posted (s : State) (par : Fin 78) (col : Fin 80) {f : State → State}
    (hf : ∀ s : State, (f s).posted = s.posted) : (s.mapColumn par col f).posted = s.posted :=
  (State.foldl_posted (fun t (r : Fin 96) => t.moved { parish := par, col := col, row := r }) (fun _ _ => rfl) _ (f s)).trans (hf s)

theorem orReg_posted (s : State) (o : Nat) (v : DWord) : (s.orReg o v).posted = s.posted := rfl

theorem w1c_posted (s : State) (o : Nat) (m v : DWord) : (s.w1c o m v).posted = s.posted := rfl

theorem selectWrite_posted (s : State) (o n rows : Nat) (v : DWord) : (s.selectWrite o n rows v).posted = s.posted :=
  State.ite_posted rfl rfl

theorem deadmapWrite_posted (s : State) (par : Fin 78) (col : Fin 80) (hi : Bool) (v : DWord) :
    (s.deadmapWrite par col hi v).posted = s.posted := by
  unfold State.deadmapWrite
  dsimp only
  have hmap := mapColumn_posted s par col
    (f := fun s => s.setReg (parishBase par + 0x1000 + 0x10 * col.val + (if hi then 8 else 0))
      (if hi then BitVec.ofNat 64 (bits v 0 36) else v)) fun _ => rfl
  generalize (s.mapColumn par col fun s => s.setReg (parishBase par + 0x1000 + 0x10 * col.val + (if hi then 8 else 0))
      (if hi then BitVec.ofNat 64 (bits v 0 36) else v)) = t at hmap ⊢
  exact State.ite_posted (orReg_posted s _ _) (State.ite_posted ((checkGrade_posted _).trans hmap) hmap)

theorem fallowWrite_posted (s : State) (par : Fin 78) (hi : Bool) (v : DWord) : (s.fallowWrite par hi v).posted = s.posted := by
  unfold State.fallowWrite
  refine State.ite_posted rfl ((checkGrade_posted _).trans (State.foldl_posted _ (fun s c => ?_) _ s))
  exact State.ite_posted rfl (mapColumn_posted s par c fun _ => rfl)

theorem carterWrite_posted (s : State) (p : Pos) (l : List (Nat × Option Byte × Bool)) : (s.carterWrite p l).posted = s.posted := by
  refine State.foldl_posted _ (fun s w => ?_) _ s
  exact State.ite_posted rfl (touchSram_onlyCore s p 0 (8 * w) 8).posted

theorem deliverBytes_posted (s : State) (p : Pos) (serial q : Nat) (l : List (Option Byte × Bool × Bool)) :
    (s.deliverBytes p serial q l).posted = s.posted := by
  unfold State.deliverBytes
  split
  · rfl
  · exact carterWrite_posted _ _ _

theorem carterSkip_posted (s : State) (p : Pos) (ch : Chan) (l : Latch) (fill : Nat) :
    (s.carterSkip p ch l fill).posted = s.posted := by
  unfold State.carterSkip
  dsimp only
  split
  · split
    · exact deliverBytes_posted _ _ _ _ _
    · rfl
  · rfl

theorem carterCtl_posted (s : State) (par : Fin 78) (v : DWord) : (s.carterCtl par v).posted = s.posted := by
  unfold State.carterCtl
  dsimp only
  split
  · rfl
  · split
    · rfl
    · split
      · rfl
      · rfl
      · exact State.ite_posted rfl (carterSkip_posted s _ _ _ _)
      · rfl

theorem stirTally_posted (s : State) (h : THome) : (s.stirTally h).posted = s.posted := by
  unfold State.stirTally
  refine State.ite_posted rfl ?_
  split <;> rfl

theorem setTally_posted (s : State) (h : THome) (v : Nat) : (s.setTally h v).posted = s.posted := by
  unfold State.setTally
  refine State.ite_posted rfl ?_
  dsimp only
  split <;> exact stirTally_posted s h

theorem release_posted (s : State) (h : THome) : (s.release h).posted = s.posted := by
  have hset (t : State) (l : List Waiter) : (t.setWaiters h l).posted = t.posted := by
    unfold State.setWaiters
    split <;> rfl
  exact (State.foldl_posted (fun s (w : Waiter) => s.updCore w.core (Core.answered · 0)) (fun _ _ => rfl) _ _).trans
    ((hset _ _).trans (setTally_posted s h _))

theorem parishTallyWrite_posted (s : State) (par : Fin 78) (i : Nat) (v : DWord) : (s.parishTallyWrite par i v).posted = s.posted :=
  State.ite_posted rfl ((release_posted _ _).trans (setTally_posted s _ _))

theorem blankCores_posted (l : List Pos) (s : State) :
    (l.foldl (fun u (p : Pos) => u.setCore p { sramInit := u.fresh + 1 }) s).drawn.posted = s.posted :=
  State.foldl_posted (fun u (p : Pos) => u.setCore p { sramInit := u.fresh + 1 }) (fun _ _ => rfl) l s

theorem loseField_posted (s : State) (par : Fin 78) : (s.loseField par).posted = s.posted := by
  unfold State.loseField
  dsimp only
  rw [blankCores_posted]

theorem railCtlWrite_posted (s : State) (par : Fin 78) (v : DWord) : (s.railCtlWrite par v).posted = s.posted := by
  unfold State.railCtlWrite
  exact State.ite_posted (State.ite_posted rfl (loseField_posted _ par))
    (State.ite_posted rfl (State.ite_posted (degrade_posted _ 0) rfl))

theorem applyParish_posted (s : State) (par : Fin 78) (r : Nat) (v : DWord) : (s.applyParish par r v).posted = s.posted := by
  have hmap : (if h : (r - 0x1000) / 16 < 80 then s.deadmapWrite par ⟨(r - 0x1000) / 16, h⟩ (decide (r % 16 = 8)) v else s).posted =
      s.posted := by
    split
    · exact deadmapWrite_posted s _ _ _ _
    · rfl
  unfold State.applyParish
  have hw (m : DWord) := w1c_posted s (parishBase par + r) m v
  have hclear : (if bit v 0 then s.clearStats par else s).posted = s.posted := State.ite_posted rfl rfl
  exact State.ite_posted hmap <| State.ite_posted (fallowWrite_posted s _ _ _) <| State.ite_posted (hw _) <|
    State.ite_posted (selectWrite_posted s _ _ _ _) <| State.ite_posted hclear <|
    State.ite_posted (selectWrite_posted s _ _ _ _) <| State.ite_posted (carterCtl_posted s _ _) <| State.ite_posted (hw _) <|
    State.ite_posted (parishTallyWrite_posted s _ _ _) <| State.ite_posted (hw _) <|
    State.ite_posted (railCtlWrite_posted s _ _) <| State.ite_posted (hw _) rfl

theorem applyMc_posted (s : State) (m r : Nat) (v : DWord) : (s.applyMc m r v).posted = s.posted := by
  have hclear : (mcCounters.foldl (fun (s : State) c => s.setReg (mcBase m + c) 0) s).posted = s.posted :=
    State.foldl_posted (fun (s : State) c => s.setReg (mcBase m + c) 0) (fun _ _ => rfl) mcCounters s
  unfold State.applyMc
  exact State.ite_posted (State.ite_posted rfl rfl) (State.ite_posted (State.ite_posted rfl rfl) (State.ite_posted (State.ite_posted hclear rfl) rfl))

theorem applyPosted_posted (s : State) (o : Nat) (v : DWord) : (s.applyPosted o v).posted = s.posted := by
  unfold State.applyPosted
  refine State.ite_posted rfl ?_
  split
  · split
    · exact applyParish_posted s _ _ _
    · rfl
  · exact applyMc_posted s _ _ _
  · rfl

/-! ### BUSY (R203, R492) -/

theorem bit_ofNat_zero (n : Nat) : bit (BitVec.ofNat 64 n) 0 = decide (n % 2 = 1) := by
  have hm : n % 2 ^ 64 % 2 = n % 2 := by omega
  simp only [bit, BitVec.toNat_ofNat, Nat.testBit_zero, hm]

/-- BUSY is the low bit of a block's status. -/
theorem blockStatus_mod (s : State) (b : Nat) : s.blockStatus b % 2 = b2n (s.posted.find? b).isSome := by
  unfold State.blockStatus
  cases (s.posted.find? b).isSome <;> simp only [b2n, if_true, Bool.false_eq_true, if_false] <;> omega

theorem decide_b2n (b : Bool) : decide (b2n b = 1) = b := by cases b <;> rfl

theorem regRead_parishStatus {par : Nat} (hp : par < 78) (ha : s.absent (parishBase par + 8) = false) :
    s.regRead (parishBase par + 8) = fieldsOf [(0, 3, s.blockStatus (parishBase par))] := by
  unfold State.regRead
  simp only [blockOf_parish hp (r := 8) (by decide), parishOfOff_parish hp (r := 8) (by decide), ha, Nat.add_sub_cancel_left]
  rfl

theorem regRead_mcStatus {m : Nat} (hm : m < 64) (ha : s.absent (mcBase m + 8) = false) :
    s.regRead (mcBase m + 8) =
      fieldsOf [(0, 2, s.blockStatus (mcBase m)), (2, 1, b2n (s.mc m).online), (3, 1, b2n (s.mc m).hot)] := by
  unfold State.regRead
  simp only [blockOf_mc hm (r := 8) (by decide), parishOfOff_mc hm (r := 8) (by decide), stackOfOff_mc hm (r := 8) (by decide), ha,
    Nat.add_sub_cancel_left]
  rfl

/-! ### Effects (R221, R266, R404) -/

theorem parishTallyWrite_value {par : Fin 78} {i : Nat} (hr : s.isRunning (s.allotOf par) = false)
    (hw : (s.parish par).waiters.get [] i = []) (v : DWord) :
    (((s.parishTallyWrite par i v).parish par).tallies.get 0 i).toNat = bits v 0 16 := by
  have hlt : bits v 0 16 < 2 ^ 16 := Nat.mod_lt _ (by decide)
  have hmax : bits v 0 16 ≤ tallyMax 1 := Nat.le_of_lt_succ hlt
  let h : THome := { lvl := 1, core := { parish := par, col := 0, row := 0 }, idx := i }
  have hset : (s.setTally h (bits v 0 16)).tally h = bits v 0 16 := setTally_tally s (.inl rfl) hmax
  have hrel := release_tally (s.setTally h (bits v 0 16)) (h := h) (.inl rfl)
    ((setTally_waitersAt s (.inl rfl) _).trans hw)
  unfold State.parishTallyWrite
  rw [hr, if_neg Bool.false_ne_true]
  exact hrel.trans hset

theorem mem_redoOf {l : List Latch} {n : Nat} {k : Piece} : k ∈ redoOf l n ↔ ∃ f ∈ l, f.serial = n ∧ f.piece = k := by
  simp [redoOf, and_assoc]

theorem chan_updChan (s : State) (p : Pos) (ch : Chan) (f : Channel → Channel) :
    ((s.updChan p ch f).core p).chan ch = f ((s.core p).chan ch) := by
  cases ch <;> simp [State.updChan, Core.chan, Core.setChan]

theorem degrade_parish (s : State) (n par : Nat) : (s.degrade n).parish par = s.parish par := by
  have hr (t : State) (code : Nat) (al : Option Nat) (payload : List (Nat × Nat)) (l : List Dest) (count : Nat) :
      (t.raise code al payload l count).parish par = t.parish par := by
    obtain ⟨_, _, _, _, _, _, _, h⟩ := t.raise_eq code al payload l count
    rw [h]
    rfl
  unfold State.degrade
  split
  · dsimp only
    split
    · exact hr _ _ _ _ _ _
    · rfl
  · rfl

end Sys2Proof.Machine

/-- Settles O22: a write a block takes goes to its pending writes, where no effect looks; BUSY is read off them. -/
theorem postedWrites : Obligations.PostedWrites := by
  unfold Obligations.PostedWrites
  intro s path par
  have hpar := par.isLt
  have clear24 {o : Nat} (ho : o < 2 ^ 24) : (BitVec.ofNat 24 o).toNat = o := Nat.mod_eq_of_lt ho
  refine ⟨fun col hi v h => ?deadmap, fun hi v h => ?fallow, fun v h => ?rail, fun idx v h => ?tally,
    fun h => ⟨?resume, fun fill => ?skip, fun all => ?abort⟩, fun v h => ?clear, fun m v h => ?clearMc,
    fun block w hw => ⟨?done, ?gone⟩, fun ha => ?busy, fun m ha => ?busyMc⟩
  case deadmap => exact congrArg _ (post_takes h v)
  case fallow =>
    have ho : parishBase par + (if hi then 0x1508 else 0x1500) = (parishBase par + if hi then 0x1508 else 0x1500) := rfl
    exact congrArg _ (post_takes h v)
  case rail => exact congrArg _ (post_takes h v)
  case tally => exact congrArg _ (post_takes h v)
  case resume => exact congrArg _ (post_takes h 1)
  case skip => exact congrArg _ (post_takes h _)
  case abort =>
    refine congrArg _ ((post_takes h _).trans ?_)
    cases all <;> rfl
  case clear =>
    have ho := clear24 (o := parishBase par + 0x1538) (by unfold parishBase; omega)
    refine congrArg Host.Outcome.next ?_
    simp only [ho, parishOfOff_parish hpar (r := 0x1538) (by decide), decide_true, if_true]
    exact post_takes h v
  case clearMc =>
    have ho := clear24 (o := mcBase m + 0xF0) (by unfold mcBase; omega)
    refine congrArg Host.Outcome.next ?_
    simp only [ho, parishOfOff_mc m.isLt (r := 0xF0) (by decide), stackOfOff_mc m.isLt (r := 0xF0) (by decide), decide_true, if_true]
    exact post_takes h v
  case done =>
    refine congrArg Host.Outcome.next ?_
    simp only [State.postedDone, hw]
  case gone => exact (congrArg (Tab.find? · block.toNat) (applyPosted_posted _ _ _)).trans (Tab.find?_del_self _ _)
  case busy =>
    rw [regRead_parishStatus hpar ha, fieldsOf, bit_ofNat_zero, ← decide_b2n (s.posted.find? (parishBase par)).isSome,
      ← blockStatus_mod]
    simp only [List.map_cons, List.map_nil, List.sum_cons, List.sum_nil]
    exact decide_eq_decide.2 (by omega)
  case busyMc =>
    rw [regRead_mcStatus m.isLt ha, fieldsOf, bit_ofNat_zero, ← decide_b2n (s.posted.find? (mcBase m)).isSome, ← blockStatus_mod]
    simp only [List.map_cons, List.map_nil, List.sum_cons, List.sum_nil]
    exact decide_eq_decide.2 (by omega)

/-- Settles O23: each effect is read off the function that applies it. -/
theorem postedEffects : Obligations.PostedEffects := by
  unfold Obligations.PostedEffects
  intro s par v
  refine ⟨fun i hi hr hw => parishTallyWrite_value hr hw v, fun p l hp hl => ?resume, fun hv ha hon => ?dark, fun hv a ha => ?refused⟩
  case resume =>
    have hc : s.carterCtl par 1 = s.updChan p (selChan (s.reg (parishBase par + 0x2000))) fun x => x.goOn (l :: x.failed) := by
      simp only [State.carterCtl, hp, hl]
      rfl
    intro x y
    have hy : y = x.goOn (l :: x.failed) := by simp only [y, hc, chan_updChan]; rfl
    rw [hy]
    refine ⟨rfl, rfl, rfl, rfl, fun r hr => ⟨_, List.mem_map_of_mem hr, rfl, fun k => ?_⟩⟩
    rw [List.mem_append, mem_redoOf, or_comm]
  case dark =>
    have hw : s.railCtlWrite par v =
        (s.setParish par { s.parish par with railOn := false, dark := true, droop := false, ballast := 0 }).degrade 0 := by
      simp [State.railCtlWrite, hv, ha, hon]
    rw [hw, degrade_parish, State.parish_setParish]
    exact ⟨rfl, rfl⟩
  case refused => simp [State.railCtlWrite, hv, ha]

end

section
/-! What the operations that units share leave as it was: accesses to device memory, reports, and the end of a command
(R198 to R203, R337, R339, R345, R367). -/

open Sys2Proof Sys2Proof.Machine

namespace Sys2Proof.Machine

variable {s t u : State}

/-! ### Reports only add events (R367) -/

theorem raises_of_suffix_left {code : Nat} (h : s.events <:+ t.events) (g : t.raises u code) : s.raises u code := by
  obtain ⟨l, hl⟩ := h
  obtain ⟨m, hm, e, he, hc⟩ := g
  exact ⟨m ++ l, by rw [hm, ← hl, List.append_assoc], e, List.mem_append_left _ he, hc⟩

theorem raises_of_suffix_right {code : Nat} (h : s.raises t code) (g : t.events <:+ u.events) : s.raises u code := by
  obtain ⟨l, hl, e, he, hc⟩ := h
  obtain ⟨m, hm⟩ := g
  exact ⟨m ++ l, by rw [← hm, hl, List.append_assoc], e, List.mem_append_right _ he, hc⟩

theorem raise_suffix (s : State) (code : Nat) (al : Option Nat) (payload : List (Nat × Nat)) (l : List Dest) (count : Nat) :
    s.events <:+ (s.raise code al payload l count).events := by
  obtain ⟨e, regs, out, ses, unread, pins, -, hr⟩ := s.raise_eq code al payload l count
  rw [hr]
  exact ⟨[e], rfl⟩

theorem foldl_suffix {α : Type} (f : State → α → State) (hf : ∀ (s : State) (a : α), s.events <:+ (f s a).events) (l : List α) :
    ∀ s : State, s.events <:+ (l.foldl f s).events := by
  induction l with
  | nil => exact fun s => List.suffix_rfl
  | cons a t ih => exact fun s => (hf s a).trans (ih _)

/-! ### Accesses to device memory (R194, R198 to R200) -/

/-- What an access to device memory can change: bytes and their errors, controllers, rows listed for repair, and what
reporting an event changes. -/
def State.memoryOnly (s t : State) : Prop :=
  ∃ mem poison ue ce mcs ras store due regs fresh out ses unread pins l, t = { s with
    mem := mem, memPoison := poison, memUe := ue, memCe := ce, mcs := mcs, ras := ras, store := store,
    boot := { s.boot with pprDue := due }, regs := regs, fresh := fresh, out := out, ses := ses, unreadBoard := unread,
    pins := pins, events := l ++ s.events }

theorem State.memoryOnly.refl (s : State) : s.memoryOnly s := ⟨_, _, _, _, _, _, _, _, _, _, _, _, _, _, [], rfl⟩

theorem State.memoryOnly.trans : s.memoryOnly t → t.memoryOnly u → s.memoryOnly u := by
  rintro ⟨_, _, _, _, _, _, _, _, _, _, _, _, _, _, l, rfl⟩ ⟨_, _, _, _, _, _, _, _, _, _, _, _, _, _, m, rfl⟩
  exact ⟨_, _, _, _, _, _, _, _, _, _, _, _, _, _, m ++ l, by rw [List.append_assoc]⟩

theorem State.memoryOnly.suffix (h : s.memoryOnly t) : s.events <:+ t.events := by
  obtain ⟨_, _, _, _, _, _, _, _, _, _, _, _, _, _, l, rfl⟩ := h
  exact ⟨l, rfl⟩

theorem State.memoryOnly.allots (h : s.memoryOnly t) : t.allots = s.allots := by
  obtain ⟨_, _, _, _, _, _, _, _, _, _, _, _, _, _, _, rfl⟩ := h
  rfl

theorem State.memoryOnly.allot (h : s.memoryOnly t) (a : Nat) : t.allot a = s.allot a := by
  rw [State.allot, State.allot, h.allots]

theorem memoryOnly_ite {c : Prop} [Decidable c] (ht : s.memoryOnly t) (hu : s.memoryOnly u) :
    s.memoryOnly (if c then t else u) := by
  split
  · exact ht
  · exact hu

theorem memoryOnly_foldl {α : Type} (f : State → α → State) (hf : ∀ (s : State) (a : α), s.memoryOnly (f s a)) (l : List α) :
    ∀ s : State, s.memoryOnly (l.foldl f s) := by
  induction l with
  | nil => exact .refl
  | cons a t ih => exact fun s => (hf s a).trans (ih _)

theorem setReg_memoryOnly (s : State) (o : Nat) (v : DWord) : s.memoryOnly (s.setReg o v) :=
  ⟨_, _, _, _, _, _, _, _, _, _, _, _, _, _, [], rfl⟩

theorem bump_memoryOnly (s : State) (o n : Nat) : s.memoryOnly (s.bump o n) := setReg_memoryOnly s _ _

theorem drawn_memoryOnly (s : State) : s.memoryOnly s.drawn := ⟨_, _, _, _, _, _, _, _, _, _, _, _, _, _, [], rfl⟩

theorem setRas_memoryOnly (s : State) (r : Ras) : s.memoryOnly { s with ras := r } :=
  ⟨_, _, _, _, _, _, _, _, _, _, _, _, _, _, [], rfl⟩

theorem setMc_memoryOnly (s : State) (m : Nat) (x : Stack) : s.memoryOnly (s.setMc m x) :=
  ⟨_, _, _, _, _, _, _, _, _, _, _, _, _, _, [], rfl⟩

theorem setMemPoison_memoryOnly (s : State) (w : Nat) (b : Bool) : s.memoryOnly (s.setMemPoison w b) :=
  ⟨_, _, _, _, _, _, _, _, _, _, _, _, _, _, [], rfl⟩

theorem setErrors_memoryOnly (s : State) (ue ce : List Nat) : s.memoryOnly { s with memUe := ue, memCe := ce } :=
  ⟨_, _, _, _, _, _, _, _, _, _, _, _, _, _, [], rfl⟩

theorem raise_memoryOnly (s : State) (code : Nat) (al : Option Nat) (payload : List (Nat × Nat)) (l : List Dest) (count : Nat) :
    s.memoryOnly (s.raise code al payload l count) := by
  obtain ⟨e, regs, out, ses, unread, pins, -, hr⟩ := s.raise_eq code al payload l count
  rw [hr]
  exact ⟨_, _, _, _, _, _, _, _, _, _, _, _, _, _, [e], rfl⟩

theorem appendFails_memoryOnly (s : State) (k : Nat) (a b : Bool) : s.memoryOnly (s.appendFails k a b) := by
  have fails (ok : Bool) (t : State) (d : Nat) :
      t.memoryOnly (if ok then t else t.raise evRecordAppendFail none [(k, 2), (d, 1)] []) :=
    memoryOnly_ite (.refl t) (raise_memoryOnly t _ _ _ _ _)
  exact (fails a s 0).trans (fails b _ 1)

/-- The rows listed for repair are written, or due at the end of a restart (R364). -/
theorem listRows_memoryOnly (s : State) (l : List (Nat × Word)) : s.memoryOnly (s.listRows l) := by
  unfold State.listRows State.appendPpr
  dsimp only
  split
  · exact ⟨_, _, _, _, _, _, _, _, _, _, _, _, _, _, [], rfl⟩
  · refine State.memoryOnly.trans ?_ (appendFails_memoryOnly _ _ _ _)
    exact ⟨_, _, _, _, _, _, _, _, _, _, _, _, _, _, [], rfl⟩

theorem strikeRow_memoryOnly (s : State) (m : Nat) (r : Word) : s.memoryOnly (s.strikeRow m r) := by
  have hs := setRas_memoryOnly s (s.ras.strike 3 m 0 r.toNat 0 false).1
  unfold State.strikeRow
  exact memoryOnly_ite hs (hs.trans (listRows_memoryOnly _ _))

theorem checkRows_memoryOnly (s : State) (m : Nat) : s.memoryOnly (s.checkRows m) := by
  unfold State.checkRows
  exact (setMc_memoryOnly s m _).trans
    (memoryOnly_foldl _ (fun t r => (raise_memoryOnly t _ _ _ _ _).trans (strikeRow_memoryOnly _ _ _)) _ _)

theorem touchWord_memoryOnly (s : State) (source core : Nat) (al : Option Nat) (w : Nat) :
    s.memoryOnly (s.touchWord source core al w) := by
  unfold State.touchWord
  refine memoryOnly_ite ?_ (memoryOnly_ite ?_ (.refl s))
  · have hs := setErrors_memoryOnly s (s.memUe.filter (· ≠ w)) (s.memCe.filter (· ≠ w))
    exact (((hs.trans (setMemPoison_memoryOnly _ w true)).trans (bump_memoryOnly _ _ _)).trans (setReg_memoryOnly _ _ _)).trans
      (raise_memoryOnly _ _ _ _ _ _)
  · have hs := setErrors_memoryOnly s s.memUe (s.memCe.filter (· ≠ w))
    exact (((hs.trans (bump_memoryOnly _ _ _)).trans (setRas_memoryOnly _ _)).trans (setMc_memoryOnly _ _ _)).trans
      (checkRows_memoryOnly _ _)

theorem touchMem_memoryOnly (s : State) (source core : Nat) (al : Option Nat) (k n : Nat) :
    s.memoryOnly (s.touchMem source core al k n) :=
  memoryOnly_foldl _ (fun t w => touchWord_memoryOnly t source core al w) _ s

theorem activate_memoryOnly (s : State) (k : Nat) : s.memoryOnly (s.activate k) := by
  have hb := bump_memoryOnly s (mcBase (k / 2 ^ 36) + 0x78) 1
  unfold State.activate
  exact memoryOnly_ite
    (((hb.trans (setMc_memoryOnly _ _ _)).trans (drawn_memoryOnly _)).trans (bump_memoryOnly _ _ _))
    (hb.trans (setMc_memoryOnly _ _ _))

theorem access_memoryOnly (s : State) (k : Nat) : s.memoryOnly (s.access k) :=
  ((activate_memoryOnly s k).trans (bump_memoryOnly _ _ _)).trans (drawn_memoryOnly _)

theorem setMemByte_memoryOnly (s : State) (k : Nat) (v : Byte) : s.memoryOnly (s.setMemByte k v) :=
  memoryOnly_ite ⟨_, _, _, _, _, _, _, _, _, _, _, _, _, _, [], rfl⟩ ⟨_, _, _, _, _, _, _, _, _, _, _, _, _, _, [], rfl⟩

theorem setMemBytes_memoryOnly (l : List Byte) : ∀ (s : State) (k : Nat), s.memoryOnly (s.setMemBytes k l) := by
  induction l with
  | nil => exact fun s _ => .refl s
  | cons b l ih => exact fun s k => (setMemByte_memoryOnly s k b).trans (ih _ _)

theorem countPoison_memoryOnly (s : State) (al : Option Nat) (n : Nat) : s.memoryOnly (s.countPoison al n) := by
  cases al with
  | none => exact .refl s
  | some a => exact memoryOnly_ite (.refl s) (bump_memoryOnly s _ _)

theorem storeMem_memoryOnly (s : State) (source core : Nat) (al : Option Nat) (k : Nat) (data : List Byte) (poison : List Bool) :
    s.memoryOnly (s.storeMem source core al k data poison) := by
  have hmark (t : State) (w : Nat) (b : Bool) : t.memoryOnly ((t.clearErrors w).setMemPoison w b) :=
    (setErrors_memoryOnly t _ _).trans (setMemPoison_memoryOnly _ _ _)
  unfold State.storeMem
  refine ((((memoryOnly_foldl _ (fun t w => touchWord_memoryOnly t source core al w) _ s).trans
    (setMemBytes_memoryOnly data _ k)).trans (memoryOnly_foldl _ (fun t w => hmark t w false) _ _)).trans
    (memoryOnly_foldl _ (fun t r => ?_) _ _)).trans (countPoison_memoryOnly _ _ _)
  exact (hmark t (2 * r.1) true).trans (hmark _ (2 * r.1 + 1) true)

theorem readRange_memoryOnly (s : State) (source core : Nat) (al : Option Nat) (d n : Nat) :
    s.memoryOnly (s.readRange source core al d n) :=
  memoryOnly_foldl _ (fun t _ => memoryOnly_ite
    (((access_memoryOnly t _).trans (touchMem_memoryOnly _ _ _ _ _ _)).trans (bump_memoryOnly _ _ _)) (.refl t)) _ s

theorem writeRange_memoryOnly (s : State) (source : Nat) (al : Option Nat) (d : Nat) (l : List Byte) (bad : Nat → Bool) :
    s.memoryOnly (s.writeRange source al d l bad) :=
  memoryOnly_foldl _ (fun t _ => memoryOnly_ite
    (((access_memoryOnly t _).trans (storeMem_memoryOnly _ _ _ _ _ _ _)).trans (bump_memoryOnly _ _ _)) (.refl t)) _ s

theorem viewWrite_memoryOnly (s : State) (d : Nat) (l : List Byte) (al : Option Nat) : s.memoryOnly (s.viewWrite d l al) := by
  unfold State.viewWrite
  split
  · exact writeRange_memoryOnly s _ _ _ _ _
  · exact .refl s

/-! ### A command ends, and those that waited are taken up (R339, R345) -/

/-- Where the end of a command leaves an allotment: its queue and its active command apart, as it was. -/
def Allot.queueOnly (x y : Allot) : Prop := ∃ queue active seq, y = { x with queue := queue, active := active, lastSeq := seq }

theorem Allot.queueOnly.refl (x : Allot) : x.queueOnly x := ⟨_, _, _, rfl⟩

theorem Allot.queueOnly.trans {x y z : Allot} : x.queueOnly y → y.queueOnly z → x.queueOnly z := by
  rintro ⟨_, _, _, rfl⟩ ⟨_, _, _, rfl⟩
  exact ⟨_, _, _, rfl⟩

theorem queueOnly_ite {c : Prop} [Decidable c] {x y z : Allot} (hy : x.queueOnly y) (hz : x.queueOnly z) :
    x.queueOnly (if c then y else z) := by
  split
  · exact hy
  · exact hz

/-- The sessions that are there were there, and none has begun to close. -/
def State.closingKept (s t : State) : Prop := ∀ y ∈ t.ses, ∃ x ∈ s.ses, x.1 = y.1 ∧ x.2.closing = y.2.closing

theorem State.closingKept.refl (s : State) : s.closingKept s := fun y hy => ⟨y, hy, rfl, rfl⟩

theorem State.closingKept.trans (h : s.closingKept t) (g : t.closingKept u) : s.closingKept u := fun z hz => by
  obtain ⟨y, hy, h1, h2⟩ := g z hz
  obtain ⟨x, hx, h3, h4⟩ := h y hy
  exact ⟨x, hx, h3.trans h1, h4.trans h2⟩

theorem closingKept_of_ses (h : t.ses = s.ses) : s.closingKept t := fun y hy => ⟨y, h ▸ hy, rfl, rfl⟩

theorem mem_of_find? {α : Type} {k : Nat} {v : α} : ∀ {t : Tab α}, t.find? k = some v → (k, v) ∈ t
  | (j, u) :: t, h => by
    simp only [Tab.find?] at h
    split at h
    next hj => simp [hj, Option.some.inj h]
    next => exact List.mem_cons_of_mem _ (mem_of_find? h)

theorem putSes_closingKept {id : Nat} {x y : Session} (hx : s.ses.find? id = some x) (ht : t.ses = s.ses.put id y)
    (hy : y.closing = x.closing) : s.closingKept t := fun z hz => by
  rw [ht] at hz
  rcases Tab.mem_put hz with rfl | hz
  · exact ⟨(id, x), mem_of_find? hx, rfl, hy.symm⟩
  · exact ⟨z, hz, rfl, rfl⟩

theorem closingKept_foldl {α : Type} (f : State → α → State) (hf : ∀ (s : State) (a : α), s.closingKept (f s a)) (l : List α) :
    ∀ s : State, s.closingKept (l.foldl f s) := by
  induction l with
  | nil => exact .refl
  | cons a t ih => exact fun s => (hf s a).trans (ih _)

theorem postEvent_closingKept (s : State) (id j : Nat) (e : Event) : s.closingKept (s.postEvent id j e) := by
  unfold State.postEvent
  split
  · exact .refl s
  next x hx =>
    dsimp only
    split
    · exact putSes_closingKept hx rfl rfl
    · exact putSes_closingKept hx rfl rfl

theorem deliver_closingKept (s : State) (e : Event) (d : Dest) : s.closingKept (s.deliver e d) :=
  State.deliver_induction (fun t id j h => h.trans (postEvent_closingKept t id j e)) (.refl s) d

theorem raiseEvent_closingKept (s : State) (e : Event) (l : List Dest) : s.closingKept (s.raiseEvent e l) := by
  unfold State.raiseEvent
  dsimp only
  split
  all_goals
    refine State.closingKept.trans ?_ (closingKept_foldl _ (fun t d => deliver_closingKept t e d) l _)
    exact closingKept_of_ses rfl

theorem raise_closingKept (s : State) (code : Nat) (al : Option Nat) (payload : List (Nat × Nat)) (l : List Dest) (count : Nat) :
    s.closingKept (s.raise code al payload l count) := raiseEvent_closingKept s _ _

/-- What the end of a command changes: the ledger, the sessions' records, the queues of allotments, and what is sent. -/
structure State.commandsOnly (s t : State) : Prop where
  rest : ∃ ledger allots ses out regs, t = { s with ledger := ledger, allots := allots, ses := ses, out := out, regs := regs }
  allot : ∀ a, (s.allot a).queueOnly (t.allot a)
  closing : s.closingKept t

theorem State.commandsOnly.refl (s : State) : s.commandsOnly s := ⟨⟨_, _, _, _, _, rfl⟩, fun _ => .refl _, .refl s⟩

theorem State.commandsOnly.trans (h : s.commandsOnly t) (g : t.commandsOnly u) : s.commandsOnly u := by
  refine ⟨?_, fun a => (h.allot a).trans (g.allot a), h.closing.trans g.closing⟩
  obtain ⟨_, _, _, _, _, rfl⟩ := h.rest
  obtain ⟨_, _, _, _, _, rfl⟩ := g.rest
  exact ⟨_, _, _, _, _, rfl⟩

theorem commandsOnly_foldl {α : Type} (f : State → α → State) (hf : ∀ (s : State) (a : α), s.commandsOnly (f s a)) (l : List α) :
    ∀ s : State, s.commandsOnly (l.foldl f s) := by
  induction l with
  | nil => exact .refl
  | cons a t ih => exact fun s => (hf s a).trans (ih _)

theorem setSes_commandsOnly {id : Nat} {x y : Session} (hx : s.ses.find? id = some x) (hy : y.closing = x.closing) :
    s.commandsOnly (s.setSes id y) :=
  ⟨⟨_, _, _, _, _, rfl⟩, fun _ => .refl _, putSes_closingKept hx rfl hy⟩

theorem writeSlot_commandsOnly (s : State) (qp : Nat) (r : Ring) (l : List Byte) : s.commandsOnly (s.writeSlot qp r l) :=
  ⟨⟨_, _, _, _, _, rfl⟩, fun _ => .refl _, closingKept_of_ses rfl⟩

theorem send_commandsOnly (s : State) (o : Out) : s.commandsOnly (s.send o) :=
  ⟨⟨_, _, _, _, _, rfl⟩, fun _ => .refl _, closingKept_of_ses rfl⟩

theorem writeRecord_commandsOnly (s : State) (id : Nat) (e : LEntry) (status : Byte) (reack journalled : Bool) :
    s.commandsOnly (s.writeRecord id e status reack journalled) := by
  unfold State.writeRecord
  split
  · exact .refl s
  next x hx =>
    dsimp only
    refine State.commandsOnly.trans ?_ (writeSlot_commandsOnly _ _ _ _)
    refine State.commandsOnly.trans ?_ (send_commandsOnly _ _)
    exact setSes_commandsOnly hx rfl

theorem flushHeld_commandsOnly (id : Nat) : ∀ (fuel : Nat) (s : State), s.commandsOnly (s.flushHeld id fuel)
  | 0, s => .refl s
  | fuel + 1, s => by
    unfold State.flushHeld
    split
    · exact .refl s
    next x hx =>
      split
      · exact .refl s
      · split
        · refine State.commandsOnly.trans ?_ (flushHeld_commandsOnly id fuel _)
          refine State.commandsOnly.trans ?_ (writeRecord_commandsOnly _ _ _ _ _ _)
          exact setSes_commandsOnly hx rfl
        · exact .refl s

theorem updEntry_commandsOnly (s : State) (lsn : Nat) (f : LEntry → LEntry) : s.commandsOnly (s.updEntry lsn f) := by
  unfold State.updEntry
  split
  · exact ⟨⟨_, _, _, _, _, rfl⟩, fun _ => .refl _, closingKept_of_ses rfl⟩
  · exact .refl s

/-- Every allotment changes within its queue where each of the table does. -/
theorem mapAllots_commandsOnly (s : State) (f : Nat → Allot → Allot) (hf : ∀ (a : Nat) (x : Allot), x.queueOnly (f a x)) :
    s.commandsOnly { s with allots := s.allots.mapVals f } := by
  refine ⟨⟨_, _, _, _, _, rfl⟩, fun a => ?_, closingKept_of_ses rfl⟩
  simp only [State.allot, Tab.get, Tab.find?_mapVals]
  cases s.allots.find? a with
  | none => exact .refl _
  | some x => exact hf a x

theorem finishOne_commandsOnly (s : State) (lsn status detail : Nat) (result : BitVec 192) :
    s.commandsOnly (s.finishOne lsn status detail result) := by
  unfold State.finishOne
  dsimp only
  generalize hu : s.updEntry lsn _ = u
  refine State.commandsOnly.trans (t := u) (hu ▸ updEntry_commandsOnly s lsn _) ?_
  split
  · exact .refl u
  next i e he =>
    generalize hv : ({ u with allots := _ } : State) = v
    refine State.commandsOnly.trans (t := v) (hv ▸ mapAllots_commandsOnly u _ fun a x => ?_) ?_
    · refine Allot.queueOnly.trans (y := if x.active = some lsn then { x with active := none } else x) ?_ ?_
      · exact queueOnly_ite ⟨_, _, _, rfl⟩ (.refl _)
      · exact queueOnly_ite ⟨_, _, _, rfl⟩ (.refl _)
    · split
      · exact .refl v
      next x hx =>
        have hvx : v.ses.find? e.ses.toNat = some x := by rw [← hv]; exact hx
        refine State.commandsOnly.trans ?_ (flushHeld_commandsOnly _ _ _)
        exact setSes_commandsOnly hvx rfl

theorem setAllot_commandsOnly {a : Nat} {y : Allot} (h : (s.allot a).queueOnly y) : s.commandsOnly (s.setAllot a y) := by
  refine ⟨⟨_, _, _, _, _, rfl⟩, fun b => ?_, closingKept_of_ses rfl⟩
  by_cases hb : b = a
  · rw [hb, s.allot_setAllot]
    exact h
  · rw [State.allot_setAllot_ne s y hb]
    exact .refl _

theorem takeUp_commandsOnly (s : State) (id : Nat) (held : Bool) (lsn : Nat) : s.commandsOnly (s.takeUp id held lsn).1 := by
  unfold State.takeUp
  split
  next i e x he hx =>
    split_ifs
    · exact .refl s
    · exact .refl s
    · split
      · exact finishOne_commandsOnly s _ _ _ _
      · refine State.commandsOnly.trans ?_ (setAllot_commandsOnly ⟨_, _, _, rfl⟩)
        exact setSes_commandsOnly hx rfl
  · exact .refl s

theorem dispatch_commandsOnly (s : State) (id : Nat) : s.commandsOnly (s.dispatch id) := by
  unfold State.dispatch
  split
  · exact .refl s
  next x hx =>
    exact List.foldlRecOn (motive := fun y : State × Bool => s.commandsOnly y.1) x.imm _ (.refl s)
      fun y h lsn _ => h.trans (takeUp_commandsOnly y.1 id y.2 lsn)

theorem dispatchAll_commandsOnly (s : State) : s.commandsOnly s.dispatchAll :=
  commandsOnly_foldl _ dispatch_commandsOnly _ s

theorem finish_commandsOnly (s : State) (lsn status detail : Nat) (result : BitVec 192) :
    s.commandsOnly (s.finish lsn status detail result) :=
  (finishOne_commandsOnly s lsn status detail result).trans (dispatchAll_commandsOnly _)

end Sys2Proof.Machine

end

section
/-! Fills, deadlines and ends of the runs of a program (R83, R147 to R151, R158, R163, R171 to R174, R272 to R274). -/

open Sys2Proof Sys2Proof.Machine

namespace Sys2Proof.Machine

variable {s t u : State} {a : Nat}

/-! ### What the rules about allotments read and write -/

@[simp] theorem allot_updAllot (s : State) (a : Nat) (f : Allot → Allot) : (s.updAllot a f).allot a = f (s.allot a) :=
  s.allot_setAllot a _

@[simp] theorem allot_updExec (s : State) (a : Nat) (f : Exec → Exec) :
    (s.updExec a f).allot a = { s.allot a with exec := (s.allot a).exec.map f } := s.allot_setAllot a _

@[simp] theorem raiseA_allot (s : State) (code b : Nat) (payload : List (Nat × Nat)) : (s.raiseA code b payload).allot a = s.allot a :=
  raise_allot s _ _ _ _ _ a

theorem drawn_allot (s : State) : s.drawn.allot a = s.allot a := rfl

theorem strikeSite_memoryOnly (s : State) (p : Pos) (lost : Bool) : s.memoryOnly (s.strikeSite p lost) := by
  unfold State.strikeSite State.softDead State.raiseSuspect
  dsimp only
  refine State.memoryOnly.trans (setRas_memoryOnly s (s.ras.strike 1 p.parish p.col (s.physRow p.parish p.col p.row) 0 (!lost)).1) ?_
  refine memoryOnly_ite ?_ (.refl _)
  split
  · exact memoryOnly_ite (.refl _) (setRas_memoryOnly _ _)
  · refine State.memoryOnly.trans ?_ (raise_memoryOnly _ _ _ _ _ _)
    exact (memoryOnly_ite (.refl _) (setRas_memoryOnly _ _)).trans (setRas_memoryOnly _ _)

theorem State.memoryOnly.core (h : s.memoryOnly t) (p : Pos) : t.core p = s.core p := by
  obtain ⟨_, _, _, _, _, _, _, _, _, _, _, _, _, _, _, rfl⟩ := h
  rfl

/-- A fold reaches what one element of its list brings about and every element keeps. -/
theorem foldl_reaches {α β : Type} {f : β → α → β} {P Q : β → Prop} (keepP : ∀ b x, P b → P (f b x)) (keepQ : ∀ b x, Q b → Q (f b x))
    {x : α} (reach : ∀ b, P b → Q (f b x)) {l : List α} (hx : x ∈ l) {b : β} (hb : P b) : Q (l.foldl f b) := by
  obtain ⟨l₁, l₂, rfl⟩ := List.append_of_mem hx
  rw [List.foldl_append, List.foldl_cons]
  exact List.foldlRecOn l₂ f (reach _ (List.foldlRecOn l₁ f hb fun b h x _ => keepP b x h)) fun b h x _ => keepQ b x h

/-! ### The end of the program's RUN (R151, R163, R353, R354) -/

theorem Allot.queueOnly.exec {x y : Allot} (h : x.queueOnly y) : y.exec = x.exec := by
  obtain ⟨_, _, _, rfl⟩ := h
  rfl

theorem Allot.queueOnly.st {x y : Allot} (h : x.queueOnly y) : y.st = x.st := by
  obtain ⟨_, _, _, rfl⟩ := h
  rfl

theorem leaveRunning_allot (s : State) : s.leaveRunning.allot a = s.allot a := by
  unfold State.leaveRunning
  split <;> rfl

theorem reportLate_allot (s : State) (b i : Nat) : (s.reportLate b i).allot a = s.allot a := by
  unfold State.reportLate
  split
  · rfl
  · dsimp only
    split
    · rfl
    · exact (drawn_allot _).trans (raiseA_allot s _ _ _)

theorem reportLive_allot (s : State) (b : Nat) : (s.reportLive b).allot a = s.allot a := by
  unfold State.reportLive
  split
  · rfl
  · exact List.foldlRecOn (motive := fun t : State => t.allot a = s.allot a) _ _ rfl
      fun t h k _ => (reportLate_allot t b _).trans h

theorem deferEnds_exec (s : State) :
    ((s.deferEnds a).allot a).exec = (s.allot a).exec.map fun e => { e with deferred := false, capDeferred := false } := by
  simp only [State.deferEnds, allot_updAllot]

/-- The RUN completes: its allotment has no run, and is HALTED or LOADED (R353). -/
theorem completeRun_ends {e : Exec} (h : (s.allot a).exec = some e) (status detail : Nat) (halted : Bool) (first : Option Nat) :
    ((s.completeRun a status detail halted first).allot a).st = (if halted then .halted else .loaded) ∧
      ((s.completeRun a status detail halted first).allot a).exec = none := by
  have hl : ((if halted then s.reportLive a else s).allot a) = s.allot a := by
    split
    · exact reportLive_allot s a
    · rfl
  have he := (deferEnds_exec (a := a) (if halted then s.reportLive a else s)).trans (by rw [hl, h, Option.map_some])
  unfold State.completeRun
  dsimp only
  generalize State.deferEnds (if halted then s.reportLive a else s) a = u at he ⊢
  rw [he]
  dsimp only
  generalize hv : u.setAllot a _ = v
  have hst : (v.allot a).st = (if halted then .halted else .loaded) ∧ (v.allot a).exec = none := by
    rw [← hv, State.allot_setAllot]
    exact ⟨rfl, rfl⟩
  have hq := (finish_commandsOnly v e.lsn status detail
    ((u.allot a).runResult { e with deferred := false, capDeferred := false } halted
      (first.getD ((u.allot a).firstInvalid { e with deferred := false, capDeferred := false })))).allot a
  rw [leaveRunning_allot, hq.st, hq.exec]
  exact hst

theorem finishHalts_queueOnly (s : State) (a : Nat) (effect : Bool) :
    ({ s.allot a with halts := [] } : Allot).queueOnly ((s.finishHalts a effect).allot a) := by
  have ha := allot_updAllot s a fun x => { x with halts := [] }
  unfold State.finishHalts
  rw [← ha]
  refine (commandsOnly_foldl _ (fun t lsn => ?_) _ _).allot a
  split <;> exact finish_commandsOnly _ _ _ _ _

theorem finishHalts_st (s : State) (a : Nat) (effect : Bool) : ((s.finishHalts a effect).allot a).st = (s.allot a).st :=
  (finishHalts_queueOnly s a effect).st

theorem finishHalts_exec (s : State) (a : Nat) (effect : Bool) : ((s.finishHalts a effect).allot a).exec = (s.allot a).exec :=
  (finishHalts_queueOnly s a effect).exec

/-- A halt by a fault leaves the allotment HALTED with no run (R163, R464). -/
theorem doHalt_fault {e : Exec} (hst : (s.allot a).st = .running) (he : (s.allot a).exec = some e) :
    ((s.doHalt a .fault).allot a).st = .halted ∧ ((s.doHalt a .fault).allot a).exec = none := by
  unfold State.doHalt
  simp only [he, hst, ne_eq, not_true_eq_false, if_false]
  rw [finishHalts_st, finishHalts_exec]
  exact completeRun_ends (e := _) (by rw [allot_updExec, he]; rfl) _ _ true _

/-! ### Deadlines (R163) -/

/-- A state of the deadline checks: reports and the marks of overruns apart it is as before, and each run marked anew was
reported. -/
structure State.overran (s u : State) (a : Nat) (e : Exec) (l : List RunId) : Prop where
  allot : ∃ probing overrun, u.allot a =
    { s.allot a with probing := probing, exec := some { e with overrun := overrun, overran := l } }
  parishes : u.parishes = s.parishes
  bell : u.bell = s.bell
  suffix : s.events <:+ u.events
  told : ∀ r ∈ l, r ∈ e.overran ∨ ((u.allot a).probing = true ∧ s.raises u evSectionOverrun)

theorem State.overran.fieldTick {e : Exec} {l : List RunId} (h : s.overran u a e l) : u.fieldTick a = s.fieldTick a := by
  obtain ⟨b, v, hx⟩ := h.allot
  simp only [State.fieldTick, hx, State.parish, h.parishes, State.tick, h.bell]
  rfl

theorem overran_refl {e : Exec} (he : (s.allot a).exec = some e) : s.overran s a e e.overran :=
  ⟨⟨(s.allot a).probing, e.overrun, by rw [← he]⟩, rfl, rfl, List.suffix_rfl, fun _ hr => .inl hr⟩

/-- Marked and reported now. -/
theorem overran_marked {e : Exec} {l : List RunId} (h : s.overran u a e l) (r : RunId) (payload : List (Nat × Nat)) :
    s.overran (((u.updAllot a fun x => { x with probing := true }).updExec a fun e =>
      { e with overrun := true, overran := r :: e.overran }).raiseA evSectionOverrun a payload) a e (r :: l) := by
  obtain ⟨b, v, hx⟩ := h.allot
  generalize hw : (u.updAllot a fun x => { x with probing := true }).updExec a _ = w
  have hwa : w.allot a = { s.allot a with probing := true, exec := some { e with overrun := true, overran := r :: l } } := by
    rw [← hw, allot_updExec, allot_updAllot, hx]
    rfl
  have hs : s.events <:+ w.events := by
    rw [← hw]
    exact h.suffix
  have hp : w.parishes = s.parishes := by rw [← hw]; exact h.parishes
  have hb : w.bell = s.bell := by rw [← hw]; exact h.bell
  obtain ⟨k, regs, out, ses, unread, pins, hk, hr⟩ := w.raise_eq evSectionOverrun (some a) payload [.allot a] 1
  have hra := raiseA_allot (a := a) w evSectionOverrun a payload
  refine ⟨⟨true, true, hra.trans hwa⟩, ?_, ?_, hs.trans (raise_suffix w _ _ _ _ _), fun q _ =>
    .inr ⟨by rw [hra, hwa], raises_of_suffix_left hs (w.raise_raises _ _ _ _ _)⟩⟩
  · rw [State.raiseA, hr]
    exact hp
  · rw [State.raiseA, hr]
    exact hb

/-- The check of a run at its deadline marks it, once (R163). -/
theorem overrunAt_overran {e : Exec} {l : List RunId} (h : s.overran u a e l) (i k : Nat) (r : RunId) :
    s.overran (u.overrunAt a i k r) a e (if l.contains r ∨ k < (s.allot a).deadlineTick e r then l else r :: l) := by
  obtain ⟨b, v, hx⟩ := h.allot
  have hd : ({ s.allot a with probing := b, exec := some { e with overrun := v, overran := l } } : Allot).deadlineTick
      { e with overrun := v, overran := l } r = (s.allot a).deadlineTick e r := rfl
  unfold State.overrunAt
  simp only [hx, hd]
  split
  next => exact h
  next => exact overran_marked h r _

theorem overrunAt_keeps {e : Exec} (h : ∃ l, s.overran u a e l) (i k : Nat) (r : RunId) : ∃ l, s.overran (u.overrunAt a i k r) a e l :=
  let ⟨_, hl⟩ := h
  ⟨_, overrunAt_overran hl i k r⟩

/-- A run due that has not been reported is marked and reported by the tick's check (R163). -/
theorem overruns_reported {e : Exec} (he : (s.allot a).exec = some e) {i : Nat} {r : RunId} {l : List (Nat × RunId)}
    (hm : (i, r) ∈ l) (hd : (s.allot a).deadlineTick e r ≤ s.fieldTick a) (hn : e.overran.contains r = false) :
    let t := l.foldl (fun (u : State) q => u.overrunAt a q.1 (u.fieldTick a) q.2) s
    (t.allot a).probing = true ∧ s.raises t evSectionOverrun := by
  obtain ⟨l', h, hr⟩ := foldl_reaches (P := fun u => ∃ l, s.overran u a e l) (Q := fun u => ∃ l, s.overran u a e l ∧ r ∈ l)
    (f := fun (u : State) q => u.overrunAt a q.1 (u.fieldTick a) q.2) (fun u q h => overrunAt_keeps h _ _ _)
    (fun u q h => by
      obtain ⟨l, hl, hr⟩ := h
      refine ⟨_, overrunAt_overran hl _ _ _, ?_⟩
      split
      · exact hr
      · exact List.mem_cons_of_mem _ hr)
    (x := (i, r)) (fun u h => by
      obtain ⟨l, hl⟩ := h
      refine ⟨_, overrunAt_overran hl _ _ _, ?_⟩
      split
      next hc =>
        rcases hc with hc | hc
        · exact List.contains_iff_mem.1 hc
        · rw [hl.fieldTick] at hc
          exact absurd hc (Nat.not_lt.2 hd)
      next => exact List.mem_cons_self) hm ⟨_, overran_refl he⟩
  exact (h.told r hr).resolve_left fun hc => by
    rw [List.contains_iff_mem.2 hc] at hn
    exact absurd hn (by simp)

/-- A halted allotment has no run to check. -/
def State.haltedNow (s : State) (a : Nat) : Prop := (s.allot a).st = .halted ∧ (s.allot a).exec = none

theorem deadlineCheck_haltedNow (h : s.haltedNow a) (i k : Nat) (r : RunId) : (s.deadlineCheck a i k r).haltedNow a := by
  have ho : s.overrunAt a i k r = s := by
    unfold State.overrunAt
    simp only [h.2]
  unfold State.deadlineCheck
  simp only [ho, h.2]
  exact h

theorem deadlineCheck_keeps {e : Exec} (hst : (s.allot a).st = .running) {l : List RunId} (h : s.overran u a e l) (i k : Nat)
    (r : RunId) :
    if (s.allot a).deadlineTick e r + (s.allot a).graceOf r ≤ k then (u.deadlineCheck a i k r).haltedNow a
    else ∃ l', s.overran (u.deadlineCheck a i k r) a e l' := by
  have ho := overrunAt_overran h i k r
  generalize hu : u.overrunAt a i k r = w at ho
  generalize (if l.contains r ∨ k < (s.allot a).deadlineTick e r then l else r :: l) = l' at ho
  obtain ⟨b, v, hx⟩ := ho.allot
  have hd : ({ s.allot a with probing := b, exec := some { e with overrun := v, overran := l' } } : Allot).deadlineTick
      { e with overrun := v, overran := l' } r = (s.allot a).deadlineTick e r := rfl
  have hg : ({ s.allot a with probing := b, exec := some { e with overrun := v, overran := l' } } : Allot).graceOf r =
    (s.allot a).graceOf r := rfl
  unfold State.deadlineCheck
  simp only [hu, hx, hd, hg, ge_iff_le]
  split
  next => exact doHalt_fault (by rw [State.chargeRun, allot_updExec, hx]; exact hst) (by rw [State.chargeRun, allot_updExec, hx]; rfl)
  next => exact ⟨l', ho⟩

/-- A run past its grace halts the allotment at the tick's checks (R163). -/
theorem deadlineChecks_halt {e : Exec} (hst : (s.allot a).st = .running) (he : (s.allot a).exec = some e) {i : Nat} {r : RunId}
    (hm : (i, r) ∈ (s.allot a).unended e) {k : Nat} (hd : (s.allot a).deadlineTick e r + (s.allot a).graceOf r ≤ k) :
    (s.deadlineChecks a k).haltedNow a := by
  unfold State.deadlineChecks
  simp only [he]
  refine foldl_reaches (P := fun u => u.haltedNow a ∨ ∃ l, s.overran u a e l)
    (Q := fun u => u.haltedNow a) (fun u q h => ?_) (fun u q h => ?_) (x := (i, r))
    (fun u h => ?_) hm (.inr ⟨_, overran_refl he⟩)
  · rcases h with h | ⟨l, h⟩
    · exact .inl (deadlineCheck_haltedNow h _ _ _)
    · have hk := deadlineCheck_keeps hst h q.1 k q.2
      split at hk
      · exact .inl hk
      · exact .inr hk
  · exact deadlineCheck_haltedNow h _ _ _
  · rcases h with h | ⟨l, h⟩
    · exact deadlineCheck_haltedNow h _ _ _
    · have hk := deadlineCheck_keeps hst h i k r
      rwa [if_pos hd] at hk

/-! ### The next fill (R148, R158) -/

theorem fillNext_early {g : Prog} {e : Exec} (hg : (s.allot a).prog = some g) (he : (s.allot a).exec = some e)
    (hst : (s.allot a).st = .running) {r : RunId} (hr : e.nextRun g = some r) (hm : e.mayFill = true)
    (hl : e.launched = e.fills.length) (ht : s.fieldTick a < (s.allot a).launchTick e r) :
    s.fillNext a = s.setAllot a { s.allot a with
      colour := (s.allot a).colour + 1, exec := some { e with fills := e.fills ++ [(r, (s.allot a).colour)] } } := by
  unfold State.fillNext
  dsimp only
  split
  case h_2 hn => exact absurd he (hn g e hg)
  next g' e' hg' he' =>
  cases hg.symm.trans hg'
  cases he.symm.trans he'
  rw [hr]
  dsimp only
  rw [if_pos ⟨hst, hm⟩]
  generalize hx : ({ s.allot a with colour := (s.allot a).colour + 1,
                                    exec := some { e with fills := e.fills ++ [(r, (s.allot a).colour)] } } : Allot) = x
  have hn : (e.fills ++ [(r, (s.allot a).colour)])[e.launched]? = some (r, (s.allot a).colour) := by
    rw [hl, List.getElem?_concat_length]
  have hlt : x.launchTick { e with fills := e.fills ++ [(r, (s.allot a).colour)] } r = (s.allot a).launchTick e r := by
    rw [← hx]
    rfl
  have hft : (s.setAllot a x).fieldTick a = s.fieldTick a := by
    rw [State.fieldTick, State.fieldTick, State.allot_setAllot, ← hx]
    rfl
  have hxe : x.exec = some { e with fills := e.fills ++ [(r, (s.allot a).colour)] } := by rw [← hx]
  rw [State.launchDue]
  simp only [State.allot_setAllot, hxe, hn, hlt, hft, if_neg (Nat.not_le.2 ht)]

/-- Before its launch tick a fill launches nothing. -/
theorem execSectionLoaderFill_early {a : Fin 16} {g : Prog} {e : Exec} (hg : (s.allot a).prog = some g)
    (he : (s.allot a).exec = some e) (hst : (s.allot a).st = .running) {r : RunId} (hr : e.nextRun g = some r)
    (hm : e.mayFill = true) (hl : e.launched = e.fills.length) (ht : s.fieldTick a < (s.allot a).launchTick e r) :
    execSectionLoaderFill a s = .next (s.setAllot a { s.allot a with
      colour := (s.allot a).colour + 1, exec := some { e with fills := e.fills ++ [(r, (s.allot a).colour)] } }) := by
  rw [execSectionLoaderFill, fillNext_early hg he hst hr hm hl ht, State.launchAsk, if_neg]
  rintro ⟨hn, -⟩
  simp only [State.allot_setAllot, he, Option.map_some, Option.getD_some] at hn
  exact Nat.lt_irrefl _ hn

/-! ### The quiescence check (R151) -/

/-- An allotment is in the state it was, with a run where it had one, and no session has begun to close. -/
structure State.runStays (s t : State) (a : Nat) : Prop where
  st : (t.allot a).st = (s.allot a).st
  exec : (t.allot a).exec.isSome = (s.allot a).exec.isSome
  closing : s.closingKept t

theorem State.runStays.refl (s : State) (a : Nat) : s.runStays s a := ⟨rfl, rfl, .refl s⟩

theorem State.runStays.trans (h : s.runStays t a) (g : t.runStays u a) : s.runStays u a :=
  ⟨g.st.trans h.st, g.exec.trans h.exec, h.closing.trans g.closing⟩

theorem updExec_runStays (s : State) (a b : Nat) (f : Exec → Exec) : s.runStays (s.updExec b f) a := by
  by_cases hb : a = b
  · subst hb
    exact ⟨by rw [allot_updExec], by rw [allot_updExec, Option.isSome_map], closingKept_of_ses rfl⟩
  · have : (s.updExec b f).allot a = s.allot a := s.allot_setAllot_ne _ hb
    exact ⟨by rw [this], by rw [this], closingKept_of_ses rfl⟩

theorem raiseA_runStays (s : State) (code b : Nat) (payload : List (Nat × Nat)) : s.runStays (s.raiseA code b payload) a :=
  ⟨by rw [raiseA_allot], by rw [raiseA_allot], raise_closingKept s _ _ _ _ _⟩

theorem discardToken_runStays (s : State) (p : Pos) (q : Nat) (k : Token) : s.runStays (s.discardToken p q k) a := by
  unfold State.discardToken
  dsimp only
  split
  next => exact .refl s a
  next b _ =>
    split
    next =>
      split
      next => exact .refl s a
      next r _ =>
        generalize hv : s.updExec b _ = v
        have hs : s.runStays v a := hv ▸ updExec_runStays s a b _
        split
        · exact hs.trans (raiseA_runStays v _ _ _)
        · exact hs
    next => exact .refl s a

theorem quietPosition_runStays (s : State) (c : BitVec 2) (p : Pos) : s.runStays (s.quietPosition c p) a := by
  unfold State.quietPosition
  dsimp only
  split
  · exact .refl s a
  · refine List.foldlRecOn (motive := fun t : State => s.runStays t a) _ _ ?_ fun t h k _ => h.trans (discardToken_runStays t p _ _)
    exact ⟨rfl, rfl, closingKept_of_ses rfl⟩

theorem finishHalts_closingKept (s : State) (a : Nat) (effect : Bool) : s.closingKept (s.finishHalts a effect) := by
  unfold State.finishHalts
  refine State.closingKept.trans (closingKept_of_ses rfl) (commandsOnly_foldl _ (fun t lsn => ?_) _ _).closing
  split <;> exact finish_commandsOnly _ _ _ _ _

theorem leaveRunning_closingKept (s : State) : s.closingKept s.leaveRunning := by
  unfold State.leaveRunning
  split <;> exact closingKept_of_ses rfl

theorem completeRun_closingKept (s : State) (a status detail : Nat) (first : Option Nat) :
    s.closingKept (s.completeRun a status detail false first) := by
  have hd : s.closingKept (s.deferEnds a) := closingKept_of_ses rfl
  unfold State.completeRun
  simp only [Bool.false_eq_true, if_false]
  generalize s.deferEnds a = u at hd ⊢
  split
  next => exact hd
  next e _ =>
    refine State.closingKept.trans ?_ (leaveRunning_closingKept _)
    refine State.closingKept.trans ?_ (finish_commandsOnly _ _ _ _ _).closing
    exact hd

/-- With no session closing there is none to go on with. -/
theorem closeAll_of_none (h : ∀ y ∈ s.ses, y.2.closing = none) : s.closeAll = s := by
  unfold State.closeAll
  refine List.foldlRecOn (motive := fun t : State => t = s) _ _ rfl fun t ht e he => ?_
  rw [ht, h e he]
  rfl

/-- After the last run the RUN completes, and the allotment is LOADED (R151). -/
theorem quiesce_loads {g : Prog} {e : Exec} (hg : (s.allot a).prog = some g) (he : (s.allot a).exec = some e)
    (hst : (s.allot a).st = .running) (hq : e.quiescing g = true) (hh : (s.allot a).haltAt ≠ some .fault) :
    ((s.quiesce a).allot a).st = .loaded ∧ ((s.quiesce a).allot a).exec = none ∧ s.closingKept (s.quiesce a) := by
  have hx : (s.allot a).quiescing = true := by simp only [Allot.quiescing, hg, he, hq]
  unfold State.quiesce
  simp only [hst, hx, hh, ne_eq, not_true_eq_false, Bool.not_true, Bool.false_eq_true, or_self, if_false]
  generalize hv : List.foldl _ s _ = v
  have hs : s.runStays v a := by
    rw [← hv]
    exact List.foldlRecOn (motive := fun t : State => s.runStays t a) _ _ (.refl s a)
      fun t h p _ => h.trans (quietPosition_runStays t _ p)
  obtain ⟨e', he'⟩ := Option.isSome_iff_exists.1 (hs.exec.trans (by rw [he, Option.isSome_some]))
  have hc := completeRun_ends he' 0 0 false none
  rw [finishHalts_st, finishHalts_exec]
  exact ⟨hc.1, hc.2, (hs.closing.trans (completeRun_closingKept v a 0 0 none)).trans (finishHalts_closingKept _ _ _)⟩

/-! ### A core lost (R83, R466) -/

theorem coreLost_ends {p : Pos} (ha : s.allotOf p.parish = some a) (hp : (s.allot a).probing = true)
    (hst : (s.allot a).st = .running) (hl : s.alive p = true) (hd : (s.core p).dead = false) :
    leads (execCoreLost p s) fun t => (t.core p).dead = true ∧ s.raises t evCoreLost ∧ (t.allot a).haltAt ≠ none := by
  unfold execCoreLost
  simp only [ha, hp, hl, hd, Bool.not_false, and_self, if_true]
  refine ⟨_, rfl, ?_⟩
  generalize hv : s.updCore p _ = v
  have hva : v.allot a = s.allot a := by rw [← hv]; rfl
  have hvd : (v.core p).dead = true := by rw [← hv, State.core_updCore]
  have hve : v.events = s.events := by rw [← hv]; rfl
  generalize hw : v.raiseA evCoreLost a [(p.id, 4)] = w
  have hk := strikeSite_memoryOnly w p true
  have hr : s.raises w evCoreLost := by
    rw [← hw]
    exact raises_of_suffix_left (hve ▸ List.suffix_rfl) (v.raise_raises _ _ _ _ _)
  have hwd : w.core p = v.core p := by
    rw [← hw]
    exact State.core_congr (v.raise_cores _ _ _ _ _) p
  generalize w.strikeSite p true = z at hk ⊢
  refine ⟨?_, ?_, ?_⟩
  · rw [State.core_congr (failRun_cores z a _), hk.core, hwd, hvd]
  · have := raises_of_suffix_right hr hk.suffix
    simpa only [State.raises, State.failRun_events] using this
  · have hz : (z.allot a).st = .running := by rw [hk.allot, ← hw, raiseA_allot, hva, hst]
    obtain ⟨y, hy, -⟩ := failRun_haltAt hz (z.allot a).curRun
    rw [hy]
    exact Option.some_ne_none y

/-! ### Signatures compared (R171 to R173) -/

/-- The signatures due to a program's runs, and the runs filled. -/
def Exec.due (e : Exec) : List Nat × List (RunId × BitVec 2) := (e.sigDue, e.fills)

/-- An allotment is in the state it was, and the signatures due to its run are those that were. -/
structure State.dueKept (s t : State) (a : Nat) : Prop where
  st : (t.allot a).st = (s.allot a).st
  due : (t.allot a).exec.map Exec.due = (s.allot a).exec.map Exec.due

theorem State.dueKept.refl (s : State) (a : Nat) : s.dueKept s a := ⟨rfl, rfl⟩

theorem State.dueKept.trans (h : s.dueKept t a) (g : t.dueKept u a) : s.dueKept u a := ⟨g.st.trans h.st, g.due.trans h.due⟩

theorem dueKept_of_allot (h : t.allot a = s.allot a) : s.dueKept t a := ⟨by rw [h], by rw [h]⟩

theorem updExec_dueKept (h : t.allot a = s.allot a) (f : Exec → Exec) (hf : ∀ e, (f e).due = e.due) :
    s.dueKept (t.updExec a f) a := by
  refine ⟨by rw [allot_updExec, h], ?_⟩
  rw [allot_updExec, h, Option.map_map]
  exact congrFun (congrArg Option.map (funext hf)) _

theorem charge_due (e : Exec) (r : RunId) : (e.charge r).due = e.due := by
  unfold Exec.charge
  split <;> rfl

theorem chargeRun_dueKept (s : State) (a : Nat) (r : Option RunId) : s.dueKept (s.chargeRun a r) a := by
  cases r with
  | none => exact .refl s a
  | some r => exact updExec_dueKept rfl _ fun e => charge_due e r

theorem failRun_dueKept (s : State) (a : Nat) (r : Option RunId) : s.dueKept (s.failRun a r) a := by
  refine (chargeRun_dueKept s a r).trans ?_
  unfold State.failRun State.haltNext
  split
  · exact ⟨by rw [allot_updAllot], by rw [allot_updAllot]⟩
  · exact .refl _ a

theorem note_dueKept (s : State) (a kind key : Nat) (r : Option RunId) : s.dueKept (s.note a kind key r) a :=
  updExec_dueKept rfl _ fun _ => rfl

theorem noteLatency_dueKept (s : State) (m : Nat) (ns : Nat) (clean : Bool) : s.dueKept (s.noteLatency m (some a) ns clean) a := by
  unfold State.noteLatency
  dsimp only
  split
  · exact ⟨rfl, rfl⟩
  · generalize hv : State.bump (s.setReg _ _) _ = v
    have hs : s.dueKept v a := hv ▸ ⟨rfl, rfl⟩
    split
    · exact hs
    · exact hs.trans ((dueKept_of_allot (raiseA_allot v _ _ _)).trans (note_dueKept _ _ _ _ _))

theorem noteSlow_dueKept (s t : State) (l : List (Fin 64 × Nat)) : t.dueKept (s.noteSlow t (some a) l) a := by
  unfold State.noteSlow
  refine List.foldlRecOn (motive := fun u : State => t.dueKept u a) _ _ (.refl t a) fun u h e _ => h.trans ?_
  split
  · exact noteLatency_dueKept u _ _ _
  · exact .refl u a

theorem regionReads_dueKept (s : State) (regions : List (Nat × Nat)) (slow : List (Fin 64 × Nat)) :
    s.dueKept (s.regionReads a regions slow) a := by
  unfold State.regionReads
  refine List.foldlRecOn (motive := fun u : State => s.dueKept u a) _ _ (.refl s a) fun u h g _ => h.trans ?_
  split
  · exact (dueKept_of_allot ((readRange_memoryOnly u _ _ _ _ _).allot a)).trans (noteSlow_dueKept u _ slow)
  · exact .refl u a

theorem bump_dueKept (s : State) (o n : Nat) : s.dueKept (s.bump o n) a := ⟨rfl, rfl⟩

theorem mismatch_dueKept (s : State) (r : RunId) (sigs : List DWord) (d : Nat) : s.dueKept (s.mismatch a r sigs d) a := by
  have hb := bump_dueKept (a := a) s 0x60048 1
  unfold State.mismatch
  dsimp only
  generalize s.bump 0x60048 = v at hb ⊢
  refine (hb.trans ?_).trans (dueKept_of_allot (raiseA_allot _ _ _ _))
  exact updExec_dueKept rfl _ fun _ => rfl

theorem chargeSection_dueKept (s : State) (sect : Nat) : s.dueKept (s.chargeSection a sect) a := by
  refine updExec_dueKept rfl _ fun e => ?_
  refine List.foldlRecOn (motive := fun k : Exec => k.due = e.due) e.fills _ rfl fun k h f _ => ?_
  split
  · exact (charge_due k f.1).trans h
  · exact h

/-- Deciding by signature leaves those still due (R173). -/
theorem settleSig_dueKept (s : State) (r : RunId) (third : Bool) (g : DWord) : s.dueKept (s.settleSig a r third g) a := by
  have hsig (t : State) (l : List DWord) : t.dueKept (t.updExec a fun e => { e with sigs := l }) a :=
    updExec_dueKept rfl _ fun _ => rfl
  have hb := bump_dueKept (a := a) s 0x60040 1
  unfold State.settleSig
  split
  · exact .refl s a
  next e _ =>
    dsimp only
    generalize s.bump 0x60040 = v at hb ⊢
    split_ifs
    · exact hsig s [g]
    · exact hb.trans (hsig v [])
    · exact (hb.trans (hsig v _)).trans (mismatch_dueKept _ r _ _)
    · exact ((hb.trans (hsig v [])).trans (mismatch_dueKept _ r _ _)).trans (chargeSection_dueKept _ _)
    · exact (hsig s []).trans (mismatch_dueKept _ r _ _)
    · exact ((hsig s []).trans (mismatch_dueKept _ r _ _)).trans (chargeSection_dueKept _ _)

theorem dueKept_sigDue (h : s.dueKept t a) : (t.allot a).exec.map (·.sigDue) = (s.allot a).exec.map (·.sigDue) := by
  have := congrArg (Option.map Prod.fst) h.due
  rwa [Option.map_map, Option.map_map] at this

/-- An observation point that ends its run has the allotment halt (R464). -/
theorem observe_ends (hst : (s.allot a).st = .running) (record : List (Nat × Nat)) (r : Option RunId) :
    s.dueKept (s.observe a true record r) a ∧ ((s.observe a true record r).allot a).haltAt ≠ none := by
  have hb := bump_dueKept (a := a) s (0x60100 + 8 * a) 1
  unfold State.observe
  simp only [if_true]
  generalize s.bump (0x60100 + 8 * a) = v at hb ⊢
  generalize hw : (if v.noted a evPoisonConsumed 0 r = true then v
    else (v.raiseA evPoisonConsumed a record).note a evPoisonConsumed 0 r) = w
  have hs : s.dueKept w a := by
    rw [← hw]
    split
    · exact hb
    · exact hb.trans ((dueKept_of_allot (raiseA_allot v _ _ _)).trans (note_dueKept _ _ _ _ _))
  obtain ⟨y, hy, -⟩ := failRun_haltAt (hs.st.trans hst) r
  exact ⟨hs.trans (failRun_dueKept w a r), by rw [hy]; exact Option.some_ne_none y⟩

/-- The oldest comparison due is made: the run's signature decides, or poison leaves its section uncompared and the allotment
to halt (R171, R173). -/
theorem signatureCompare_decides {a : Fin 16} {e : Exec} (hst : (s.allot a).st = .running) (he : (s.allot a).exec = some e) {i : Nat}
    {rest : List Nat} {r : RunId} {c : BitVec 2} {sec : Sect} (hd : e.sigDue = i :: rest) (hf : e.fills[i]? = some (r, c))
    (hs : (s.allot a).sectOf r = some sec) (slow : List (Fin 64 × Nat)) :
    leads (execSignatureCompare ⟨a, slow⟩ s) fun t =>
      ((t.allot a).exec.map (·.sigDue)) = some rest ∨
      ((t.allot a).haltAt ≠ none ∧ ((t.allot a).exec.map (·.sigDue)) =
        some (rest.filter fun j => !(e.fills[j]?).any fun f => decide (f.1.sect = r.sect))) := by
  unfold execSignatureCompare
  simp only [he, hd, hf, hs]
  generalize hu : s.updExec a _ = u
  have hua : (u.allot a).st = .running ∧ (u.allot a).exec = some { e with sigDue := rest } := by
    rw [← hu, allot_updExec, he]
    exact ⟨hst, rfl⟩
  generalize hw : u.regionReads a _ slow = w
  have hwa : (w.allot a).st = .running ∧ (w.allot a).exec.map Exec.due = some (rest, e.fills) := by
    have hk := hw ▸ regionReads_dueKept (a := a.val) u _ slow
    exact ⟨hk.st.trans hua.1, hk.due.trans (by rw [hua.2]; rfl)⟩
  refine ⟨_, rfl, ?_⟩
  split
  next =>
    refine .inr ?_
    obtain ⟨k, hk, hkd⟩ := Option.map_eq_some_iff.1 hwa.2
    generalize hv : w.updExec a _ = v
    have hva : (v.allot a).st = .running ∧ (v.allot a).exec.map (·.sigDue) =
        some (rest.filter fun j => !(e.fills[j]?).any fun f => decide (f.1.sect = r.sect)) := by
      rw [← hv, allot_updExec, hk]
      refine ⟨hwa.1, ?_⟩
      rw [← (Prod.mk.inj hkd).1, ← (Prod.mk.inj hkd).2]
      rfl
    obtain ⟨ho, hh⟩ := observe_ends hva.1 (poisonRecord 0xFFFFFFFF 1 0 0 ((s.allot a).secseqOf (some r)) r.num 1 _) _
    exact ⟨hh, (dueKept_sigDue ho).trans hva.2⟩
  next => exact .inl ((dueKept_sigDue (settleSig_dueKept w r sec.third _)).trans (by
    obtain ⟨k, hk, hkd⟩ := Option.map_eq_some_iff.1 hwa.2
    rw [hk, Option.map_some, ← (Prod.mk.inj hkd).1]))

/-! ### DEADLOCK (R272 to R274) -/

theorem deadlock_reported {e : Exec} (hst : (s.allot a).st = .running) (he : (s.allot a).exec = some e) {r : RunId}
    (hr : (s.allot a).curRun = some r) (hd : e.deadlock = false) (hq : s.allQuiet a = true) :
    s.raises (s.deadlock a) evDeadlock ∧ (((s.deadlock a).allot a).exec.map (·.deadlock)) = some true ∧
      ((s.deadlock a).allot a).st = .running ∧ ((s.deadlock a).allot a).probing = true := by
  unfold State.deadlock
  simp only [he, hr, hst, hd, hq, ne_eq, not_true_eq_false, Bool.false_eq_true, Bool.not_true, or_self, if_false]
  generalize hv : (if (s.allot a).snapLen < 64 then s.drawn else _) = v
  have hva : s.events <:+ v.events ∧ (v.allot a).st = .running ∧ (v.allot a).exec = some e := by
    rw [← hv]
    split
    · exact ⟨List.suffix_rfl, hst, he⟩
    · generalize hz : s.drawn.viewWrite _ _ _ = z
      have hw : s.memoryOnly z := (drawn_memoryOnly s).trans (hz ▸ viewWrite_memoryOnly s.drawn _ _ _)
      rw [allot_updAllot, hw.allot]
      exact ⟨hw.suffix, hst, he⟩
  generalize hw : (v.updAllot a fun x => { x with probing := true }).updExec a _ = w
  have hwa : (w.allot a).st = .running ∧ (w.allot a).exec.map (·.deadlock) = some true ∧ (w.allot a).probing = true := by
    rw [← hw, allot_updExec, allot_updAllot, hva.2.2]
    exact ⟨hva.2.1, rfl, rfl⟩
  have hws : s.events <:+ w.events := by
    rw [← hw]
    exact hva.1
  rw [raiseA_allot]
  exact ⟨raises_of_suffix_left hws (w.raise_raises _ _ _ _ _), hwa.2.1, hwa.1, hwa.2.2⟩

end Sys2Proof.Machine

/-- Settles O24: the fill is added where the launch tick lies ahead; the folds over the runs not ended reach the one that is due;
the program's RUN completes at the quiescence check. -/
theorem runsOfAProgram : Obligations.RunsOfAProgram := by
  unfold Obligations.RunsOfAProgram
  intro a s g e
  dsimp only
  intro hg he hst
  refine ⟨fun r hr hm hl ht => execSectionLoaderFill_early hg he hst hr hm hl ht, fun i r hm hd => ⟨fun hn => ?_, fun hk => ?_⟩,
    fun hq hh hc => ?_, fun p ha hp hl hd => coreLost_ends ha hp hst hl hd,
    fun i rest r c sec hd hf hs slow => signatureCompare_decides hst he hd hf hs slow,
    fun r hr hd hq => ⟨_, rfl, deadlock_reported hst he hr hd hq⟩⟩
  · refine ⟨_, rfl, ?_⟩
    simp only [hst, he, if_true]
    exact overruns_reported he hm hd hn
  · refine ⟨_, rfl, ?_⟩
    simp only [hst, if_true]
    exact deadlineChecks_halt hst he hm hk
  · obtain ⟨hl, hx, hk⟩ := quiesce_loads hg he hst hq hh
    refine ⟨_, rfl, ?_⟩
    rw [closeAll_of_none fun y hy => ?_]
    · exact ⟨hl, hx⟩
    · obtain ⟨x, hx, -, hxy⟩ := hk y hy
      exact hxy.symm.trans (hc x hx)

end

section
/-! The bell's tick and wave, calibration, a plane lost, the snapshot's header and the hub tallies (R245 to R248, R266 to R268, R274). -/

open Sys2Proof Sys2Proof.Machine

namespace Sys2Proof.Machine

variable {s t : State}

/-- A write that passes the gate takes effect (R203, R497). -/
theorem writeNow_passes {path : RegPath} {o : Nat} {rwk : Bool} (h : s.gate path o rwk = (t, true)) (eff : State → State) :
    s.writeNow path o rwk eff = eff t := by
  simp only [State.writeNow, h, if_true]

theorem raise_parish (s : State) (code : Nat) (al : Option Nat) (payload : List (Nat × Nat)) (l : List Dest) (count par : Nat) :
    (s.raise code al payload l count).parish par = s.parish par := by
  obtain ⟨_, _, _, _, _, _, _, h⟩ := s.raise_eq code al payload l count
  rw [h]
  rfl

/-- The parish's copy where the wave carries the low bits of its next count (R247). -/
theorem waveCount_fits (bell unit : DWord) : waveCount bell unit ((bell + 1).setWidth 8) = (bell + 1, false) := if_pos rfl

section wave

variable {par : Fin 78} (hh : (s.parish par).hears = true) (hp : (s.planeOpen par 0 false || s.planeOpen par 1 false) = true)
include hh hp

/-- A wave that fits advances the parish's copy with its grants; then the allotment acts, where it has not (R247, R248, R373). -/
theorem bellWave_fits :
    let x := s.parish par
    let granted := (s.setParish par { x with bell := x.bell + 1, grant := x.nextGrant, gPast := x.gOver (s.ticksNs 1)
                                             gSum := 0, gSince := 0 }).newAllowance par
    let u := if x.throttle < 256 then granted.bump (parishBase par + 0x4030) else granted
    s.bellWave par ((x.bell + 1).setWidth 8) = match u.allotOf par with
      | none => (u.judgeQuiet [par]).releaseBellwaits par
      | some a => (if (u.allot a).acted < (x.bell + 1).toNat then u.allotActs a (x.bell + 1).toNat else u).releaseBellwaits par := by
  have hg : ¬ ((!(s.parish par).hears) = true ∨ (!(s.planeOpen par 0 false || s.planeOpen par 1 false)) = true ∨
      ((s.parish par).bell + 1 = (s.parish par).bell ∧ (!false) = true)) := by
    rw [hh, hp]
    simp
  unfold State.bellWave
  simp only [waveCount_fits]
  rw [if_neg hg, if_neg Bool.false_ne_true]
  rfl

end wave

/-- One plane lost while the other is there isolates no parish (R268). -/
theorem losePlane_kept {par : Nat} (hb : (s.parish par).planeB = true) :
    s.losePlane par 0 = s.setParish par { s.parish par with planeA := false } := by
  unfold State.losePlane
  simp only [if_true, hb, true_or, or_true]

/-- A hub tally takes the value written where its owner does not run and nothing waits on it (R266). -/
theorem hubTallyWrite_value {i : Nat} (hr : s.isRunning (s.hubOwner i) = false) (hw : s.hubWait.get [] i = []) (v : DWord) :
    ((s.hubTallyWrite i v).hub.get 0 i).toNat = bits v 0 32 := by
  have hlt : bits v 0 32 < 2 ^ 32 := Nat.mod_lt _ (by decide)
  have hmax : bits v 0 32 ≤ tallyMax 2 := Nat.le_of_lt_succ hlt
  let h : THome := { lvl := 2, core := { parish := 0, col := 0, row := 0 }, idx := i }
  have hset : (s.setTally h (bits v 0 32)).tally h = bits v 0 32 := setTally_tally s (.inr rfl) hmax
  have hrel := release_tally (s.setTally h (bits v 0 32)) (h := h) (.inr rfl)
    ((setTally_waitersAt s (.inr rfl) _).trans hw)
  unfold State.hubTallyWrite
  rw [hr, if_neg Bool.false_ne_true]
  exact hrel.trans hset

end Sys2Proof.Machine

/-- Settles O25: the tick and the wave by their definitions at a count that fits, a plane lost through the event it raises, a hub
tally through the release of its waiters. -/
theorem bellAndCrier : Obligations.BellAndCrier := by
  unfold Obligations.BellAndCrier
  intro s
  refine ⟨fun hg hr => ?tick, fun par hh hp => ?wave, fun par dA dB skew hh => ?calibration, fun par link hb => ?plane,
    fun a h hs => ?snapshot, fun path idx v t hg => ?hub, fun i v hr hw => hubTallyWrite_value hr hw v⟩
  case tick =>
    have hc : ¬ ((!s.pins.pwrGood) = true ∨ (!s.pins.resetN) = true) := by simp [hg, hr]
    exact ⟨next_congr (if_neg hc), next_congr (if_neg hc)⟩
  case wave =>
    have hw := bellWave_fits hh hp
    refine ⟨fun ha => ?_, fun a ha => ?_, fun low => next_congr (if_pos hh)⟩
    · simp only [ha] at hw
      exact next_congr (congrArg (fun v : State => (v.wavesAsk s par).closeAll) hw)
    · simp only [ha] at hw
      exact next_congr (congrArg (fun v : State => (v.wavesAsk s par).closeAll) hw)
  case calibration => exact next_congr (if_pos hh)
  case plane =>
    have hr := s.raise_raises evCrierPlaneDown none
      [((0 : BitVec 1).toNat, 1), (b2n false, 1), (par.val, 1), (link.toNat, 2)] [] 1
    have hx := raise_parish s evCrierPlaneDown none
      [((0 : BitVec 1).toNat, 1), (b2n false, 1), (par.val, 1), (link.toNat, 2)] [] 1 par
    refine ⟨_, rfl, ?_⟩
    simp only [Bool.false_eq_true, if_false]
    generalize s.raise evCrierPlaneDown none _ [] = v at hr hx ⊢
    rw [losePlane_kept (hx ▸ hb), State.parish_setParish, hx]
    exact ⟨rfl, hb, rfl, hr⟩
  case snapshot =>
    refine next_congr ?_
    rw [hs]
  case hub => exact next_congr (writeNow_passes hg _)

end

section
/-! Clock sources: the monitor, edge gaps, switching and the frequency meter (R231 to R239). -/

open Sys2Proof Sys2Proof.Machine

namespace Sys2Proof.Machine

variable {s t : State}

/-! ### What follows a judgement leaves the judgement (R232 to R235) -/

/-- The judgements of the four sources, with the gaps of the window in progress. -/
def Clk.health (c : Clk) : Bool × Bool × Bool × Bool × List Src := (c.refOk, c.monOk, c.tlaneOk, c.synceOk, c.gaps)

theorem ok_of_health {c d : Clk} (h : d.health = c.health) (x : Src) : d.ok x = c.ok x := by
  simp only [Clk.health, Prod.mk.injEq] at h
  obtain ⟨href, hmon, htl, hsy, -⟩ := h
  cases x
  · exact href
  · exact hmon
  · exact htl
  · exact hsy

theorem raise_clk (s : State) (code : Nat) (al : Option Nat) (payload : List (Nat × Nat)) (l : List Dest) (count : Nat) :
    (s.raise code al payload l count).clk = s.clk := by
  obtain ⟨_, _, _, _, _, _, _, h⟩ := s.raise_eq code al payload l count
  rw [h]

theorem raise_boot (s : State) (code : Nat) (al : Option Nat) (payload : List (Nat × Nat)) (l : List Dest) (count : Nat) :
    (s.raise code al payload l count).boot = s.boot := by
  obtain ⟨_, _, _, _, _, _, _, h⟩ := s.raise_eq code al payload l count
  rw [h]

/-- A short pulse marks a tick and sets a flag (R234). -/
theorem shortPulse_keeps (s : State) : s.shortPulse.clk = s.clk ∧ s.shortPulse.boot = s.boot ∧ s.shortPulse.events = s.events := by
  unfold State.shortPulse State.forceSuspect State.countSuspect
  split <;> exact ⟨rfl, rfl, rfl⟩

/-- A forced switch selects its source (R234). -/
theorem forceSwitch_clk (s : State) (x : Src) (short : Bool) : (s.forceSwitch x short).clk =
    { s.clk with sel := x, switching := none, lastForced := true, primaryPending := false } := by
  unfold State.forceSwitch
  cases short
  · rfl
  · exact (shortPulse_keeps _).1

theorem failover_health (s : State) (x : Src) (cause : Nat) (short : Bool) :
    (s.failover x cause short).clk.health = s.clk.health := by
  rw [State.failover, raise_clk, forceSwitch_clk]
  rfl

theorem refDown_health (s : State) (short : Bool) : (s.refDown short).clk.health = s.clk.health := by
  unfold State.refDown
  split
  · split
    · exact failover_health s _ 2 short
    · rfl
  · split <;> rfl

theorem refFault_health (s : State) (short : Bool) : (s.refFault short).clk.health = s.clk.health := by
  unfold State.refFault
  dsimp only
  generalize hv : State.raise (s.clkFault 4) evClockRefFault none _ _ = v
  have hs : v.drawn.clk = s.clk := by
    rw [← hv]
    exact raise_clk (s.clkFault 4) _ _ _ _ _
  split
  · rw [hs]
  · rw [refDown_health, hs]

theorem judgeSelected_health (s : State) (cause : Nat) (short : Bool) : (s.judgeSelected cause short).clk.health = s.clk.health := by
  unfold State.judgeSelected
  dsimp only
  split_ifs
  · rfl
  · rfl
  · exact failover_health s _ _ _
  · rfl

theorem clkFault_clk (s : State) (b : Nat) : (s.clkFault b).clk = s.clk := rfl

theorem monFault_clk (s : State) (ratio : Nat) : (s.monFault ratio).clk = s.clk := raise_clk (s.clkFault 5) _ _ _ _ _

theorem judgeSource_clk (s : State) (x : Src) (limit : Nat) (d : Option Int) (b : Nat) :
    (s.judgeSource x limit d b).clk = s.clk.setOk x (within limit d && !s.clk.gaps.contains x) := by
  unfold State.judgeSource
  dsimp only
  split_ifs <;> rfl

/-! ### The window and the gap (R232, R233) -/

theorem within_ite (c : Bool) (limit : Nat) (d : Option Int) : within limit (if c then d else none) = (c && within limit d) := by
  cases c <;> rfl

theorem monWithin_eq_any (d : Option Int) : monWithin d = d.any fun d => decide (10 * (d.natAbs : Int) ≤ 1000000 + d) := by
  cases d <;> rfl

/-- A window judges each source by its own limit (R232). -/
theorem monitorWindow_judges (o : MonObs) (hp : s.pins.pwrGood = true) : leads (execMonitorWindow o s) fun t =>
    let refGood := within 50000 o.refVsMon && !s.clk.gaps.contains .ref
    let limit := if s.clk.refFailed = true ∨ refGood = false then 50000 else 500
    t.clk.health = (refGood, monWithin o.refVsMon, (s.tlaneRuns && within limit o.tlane) && !s.clk.gaps.contains .tlane,
      (s.synceRuns && within limit o.synce) && !s.clk.gaps.contains .synce, []) := by
  have hlim (b : Bool) : (if (s.clk.refFailed || !b) = true then 50000 else 500) =
      (if s.clk.refFailed = true ∨ b = false then 50000 else 500) := by
    simp
  unfold execMonitorWindow
  simp only [hp, Bool.not_true, Bool.false_eq_true, if_false, hlim]
  refine ⟨_, rfl, ?_⟩
  generalize (within 50000 o.refVsMon && !s.clk.gaps.contains .ref) = refGood
  generalize (if s.clk.refFailed = true ∨ refGood = false then 50000 else 500) = limit
  rw [judgeSelected_health]
  generalize hv : State.judgeSource (s.setReg _ _) .tlane limit _ 0 = v
  have hvc : v.clk = { s.clk with tlaneOk := (s.tlaneRuns && within limit o.tlane) && !s.clk.gaps.contains .tlane } := by
    rw [← hv, judgeSource_clk, within_ite]
    rfl
  generalize hw : State.judgeSource v .synce limit _ 2 = w
  have hwc : w.clk = { v.clk with synceOk := (s.synceRuns && within limit o.synce) && !s.clk.gaps.contains .synce } := by
    rw [← hw, judgeSource_clk, within_ite, hvc]
    rfl
  generalize hz : ({ w with clk := { w.clk with refOk := refGood, monOk := monWithin o.refVsMon, gaps := [] } } : State) = z
  have hzc : z.clk.health = (refGood, monWithin o.refVsMon, (s.tlaneRuns && within limit o.tlane) && !s.clk.gaps.contains .tlane,
      (s.synceRuns && within limit o.synce) && !s.clk.gaps.contains .synce, []) := by
    rw [← hz]
    simp only [Clk.health, hwc, hvc]
  generalize hm : (if (s.clk.monOk && !monWithin o.refVsMon) = true then
    z.monFault (refMonRatio (o.refVsMon.getD (-1000000))) else z) = m
  have hmc : m.clk = z.clk := by
    rw [← hm]
    split
    · exact monFault_clk z _
    · rfl
  split
  · rw [refFault_health, hmc, hzc]
  · rw [hmc, hzc]

theorem setOk_ok (c : Clk) (x : Src) (b : Bool) (l : List Src) : ({ c.setOk x b with gaps := l } : Clk).ok x = b := by
  cases x <;> rfl

/-- A gap in its edges fails a source that has that check (R232). -/
theorem edgeGap_fails (src : Src) (short : Bool) (hp : s.pins.pwrGood = true) (hs : src ≠ .mon) :
    (s.edgeGap src short).clk.ok src = false := by
  have hc : ¬ ((!s.pins.pwrGood) = true ∨ src = .mon) := by simp [hp, hs]
  have hok := setOk_ok s.clk src false (src :: s.clk.gaps)
  unfold State.edgeGap
  dsimp only
  rw [if_neg hc]
  cases src with
  | mon => exact absurd rfl hs
  | ref =>
    dsimp only
    split
    · exact (ok_of_health (refFault_health _ short) .ref).trans hok
    · exact hok
  | tlane => exact (ok_of_health (judgeSelected_health _ 1 short) .tlane).trans hok
  | synce => exact (ok_of_health (judgeSelected_health _ 1 short) .synce).trans hok

/-! ### Switching (R231, R236 to R238) -/

theorem refAfterSwitch_of_ok (h : s.clk.refOk = true) (short : Bool) : s.refAfterSwitch short = s := if_pos (.inl h)

/-- What R235 asks of a failed REF follows a switch only where REF has failed (R238). -/
theorem afterSwitch_of_ok (h : s.clk.refOk = true) (short : Bool) :
    s.afterSwitch short = if s.boot.warmHeld = true ∧ s.honours = true then s.beginRestart else s := by
  rw [State.afterSwitch, refAfterSwitch_of_ok h]

/-- A mux that sticks is forced to its target, or to REF (R236). -/
theorem muxStuck_forces {x : Src} (hx : s.clk.switching = some x) (hr : s.clk.refOk = true) (hw : s.boot.warmHeld = false) (short : Bool) :
    leads (execMuxStuck short s) fun t => t.clk.switching = none ∧
      t.clk.lastForced = true ∧ t.clk.sel = (if s.clk.ok x then x else .ref) ∧ s.raises t evMuxStuck := by
  unfold execMuxStuck
  simp only [hx]
  refine ⟨_, rfl, ?_⟩
  have hb : ((s.clkFault 6).forceSwitch (if s.clk.ok x then x else .ref) short).boot = s.boot ∧
      ((s.clkFault 6).forceSwitch (if s.clk.ok x then x else .ref) short).events = s.events := by
    unfold State.forceSwitch
    cases short
    · exact ⟨rfl, rfl⟩
    · exact ⟨(shortPulse_keeps _).2.1, (shortPulse_keeps _).2.2⟩
  have hc := forceSwitch_clk (s.clkFault 6) (if s.clk.ok x then x else .ref) short
  generalize (s.clkFault 6).forceSwitch (if s.clk.ok x then x else .ref) short = v at hb hc ⊢
  generalize hp : ([_, _, _, _] : List (Nat × Nat)) = payload
  have hwc := raise_clk v evMuxStuck none payload [.sessions] 1
  have hwb := raise_boot v evMuxStuck none payload [.sessions] 1
  have hwe := v.raise_raises evMuxStuck none payload [.sessions] 1
  generalize v.raise evMuxStuck none payload [.sessions] 1 = w at hwc hwb hwe ⊢
  have hok : w.clk.refOk = true := by
    rw [hwc, hc]
    exact hr
  have hheld : ¬ (w.boot.warmHeld = true ∧ w.honours = true) := by rw [hwb, hb.1, hw]; simp
  rw [afterSwitch_of_ok hok, if_neg hheld]
  dsimp only
  rw [hwc, hc]
  exact ⟨rfl, rfl, rfl, raises_of_suffix_left (hb.2 ▸ List.suffix_rfl) hwe⟩

/-! ### The frequency meter (R239) -/

theorem reg_setReg_ne (s : State) {o k : Nat} (v : DWord) (h : k ≠ o) : (s.setReg o v).reg k = s.reg k := by
  simp only [State.reg, State.setReg, Tab.find?_put_ne _ _ h]

theorem bit_ofNat_flags {n : Nat} (h : n < 2 ^ 48) :
    bit (BitVec.ofNat 64 (n + fmTimeout + fmDone)) 62 = true ∧ bit (BitVec.ofNat 64 (n + fmTimeout + fmDone)) 63 = true := by
  have ht : n + fmTimeout + fmDone = 2 ^ 62 * 3 + n := by
    unfold fmTimeout fmDone
    omega
  have hb (i : Nat) (hi : 62 ≤ i) : (2 ^ 62 * 3 + n).testBit i = (3 : Nat).testBit (i - 62) := by
    rw [Nat.testBit_two_pow_mul_add _ (by omega), if_neg (by omega)]
  simp only [bit, BitVec.toNat_ofNat, ht, Nat.testBit_mod_two_pow, hb 62 le_rfl, hb 63 (by omega)]
  decide

end Sys2Proof.Machine

/-- Settles O27: the judgement of a window survives what follows it; the other clauses are the branches of their writes. -/
theorem clocks : Obligations.Clocks := by
  unfold Obligations.Clocks
  intro s
  refine ⟨fun o hp => ?window, fun src short hp hs => ⟨_, rfl, edgeGap_fails src short hp hs⟩, fun hpp hok hsw => ?primary,
    fun path v t x hg hx hok hsw hne => ?select, fun x hx hr => ⟨?complete, fun hw short => muxStuck_forces hx hr hw short⟩,
    fun path v t hg hz hgo h0 h4 => ?start, fun hm => ⟨fun count => ?done, ?timeout⟩⟩
  case window =>
    obtain ⟨t, ht, hh⟩ := monitorWindow_judges (s := s) o hp
    refine ⟨t, ht, ?_⟩
    simp only [Clk.health, Prod.mk.injEq] at hh
    obtain ⟨href, hmon, htl, hsy, hgaps⟩ := hh
    exact ⟨href, htl, hsy, hmon.trans (monWithin_eq_any _), hgaps⟩
  case primary =>
    have hc : s.clk.primaryPending = true ∧ s.clk.ok (primarySrc s.boot.cfg) = true ∧ s.clk.switching.isNone = true :=
      ⟨hpp, hok, by rw [hsw]; rfl⟩
    refine ⟨_, next_congr (if_pos hc), rfl, rfl⟩
  case select =>
    refine next_congr ((writeNow_passes hg _).trans ?_)
    unfold State.clkSelectWrite
    have hc : ¬ ((!(t.setReg 0x20008 (BitVec.ofNat 64 (bits v 0 4))).clk.ok x) = true ∨
        (t.setReg 0x20008 (BitVec.ofNat 64 (bits v 0 4))).clk.switching.isSome = true) := by
      simp [hok, hsw]
    simp only [hx]
    exact (if_neg hc).trans (if_neg hne)
  case complete =>
    refine next_congr ?_
    rw [hx]
    exact afterSwitch_of_ok (s := { s with clk := { s.clk with sel := x, switching := none, lastForced := false } }) hr false
  case start =>
    refine ⟨_, next_congr (writeNow_passes hg _), ?_⟩
    have hc : ¬ (bits v 0 4 > 4 ∨ bits v 4 4 > 4) := by omega
    have hb : ¬ (!bit v 63) = true := by simp [hgo]
    unfold State.fmeterWrite
    dsimp only
    rw [if_neg hz, if_neg hb, if_neg hc]
    refine ⟨rfl, State.reg_setReg_self _ _ _, ?_⟩
    exact (reg_setReg_ne (t.setReg 0x20030 _) _ (by decide)).trans (State.reg_setReg_self t _ _)
  case done => exact ⟨_, next_congr (if_pos hm), rfl, State.reg_setReg_self s _ _⟩
  case timeout =>
    have hr := State.reg_setReg_self s (clkBase + 0x38) (BitVec.ofNat 64 (bits s.draw 0 48 + fmTimeout + fmDone))
    have hf := bit_ofNat_flags (n := bits s.draw 0 48) (Nat.mod_lt _ (by decide))
    refine ⟨_, next_congr (if_pos hm), rfl, ?_, ?_⟩
    · exact (congrArg (bit · 62) hr).trans hf.1
    · exact (congrArg (bit · 63) hr).trans hf.2

end

section
/-! Requests at their well, and device memory at its controllers (R178, R181, R191, R198 to R203). -/

open Sys2Proof Sys2Proof.Machine

namespace Sys2Proof.Machine

variable {s t u : State}

/-! ### The first range that holds an address decides (R181) -/

theorem raise_reqs (s : State) (code : Nat) (al : Option Nat) (payload : List (Nat × Nat)) (l : List Dest) (count : Nat) :
    (s.raise code al payload l count).reqs = s.reqs := by
  obtain ⟨_, _, _, _, _, _, _, h⟩ := s.raise_eq code al payload l count
  rw [h]

section wells

variable {r : Req} (hon : (s.parish r.core.parish).railOn = true) (hdark : (s.parish r.core.parish).dark = false)
  (hw : s.wellOf r.core ≠ none)
include hon hdark hw

theorem wellCheck_memory (h : r.addr < 2 * nearBase) (id : Nat) (slow : List (Fin 64 × Nat)) :
    s.wellCheck id r slow = s.wellMem id r := by
  unfold State.wellCheck
  simp only [hon, hdark, Bool.not_true, Bool.or_self, Bool.false_eq_true, if_false, Option.isNone_iff_eq_none, hw, h, if_true]

theorem wellCheck_beyond (h : guestBase + 2 ^ 38 ≤ r.addr) (id : Nat) (slow : List (Fin 64 × Nat)) :
    s.wellCheck id r slow = s.wellRefuse id r 1 := by
  have hmem : ¬ r.addr < 2 * nearBase := by simp only [guestBase, nearBase] at *; omega
  have hcom : ¬ r.addr < directBase := by simp only [guestBase, directBase] at *; omega
  have hdir : ¬ r.addr < directBase + 2 ^ 37 := by simp only [guestBase, directBase] at *; omega
  have hreg : ¬ (registerBase ≤ r.addr ∧ r.addr < registerBase + 2 ^ 24) := by simp only [guestBase, registerBase] at *; omega
  have hgst : ¬ (guestBase ≤ r.addr ∧ r.addr < guestBase + 2 ^ 38) := by omega
  unfold State.wellCheck
  simp only [hon, hdark, Bool.not_true, Bool.or_self, Bool.false_eq_true, if_false, Option.isNone_iff_eq_none, hw, hmem, hcom, hdir,
    hreg, hgst]

end wells

/-- A request beyond its quota is refused, and reported once (R181). -/
theorem windowFault_raises {id : Nat} {r : Req} {a : Nat} (ha : s.allotOf r.core.parish = some a)
    (hn : s.noted a evWindowFault r.core.id (s.coreRun r.core) = false) :
    (s.windowFault id r).reqs.find? id = some { r with stage := .toCarter, status := 2, data := [], poison := [] } ∧
      s.raises (s.windowFault id r) evWindowFault := by
  have ha' : (s.wellRefuse id r 2).allotOf r.core.parish = some a := ha
  have hn' : (s.wellRefuse id r 2).noted a evWindowFault r.core.id ((s.wellRefuse id r 2).coreRun r.core) = false := hn
  have hreq : (s.wellRefuse id r 2).reqs.find? id = some { r with stage := .toCarter, status := 2, data := [], poison := [] } :=
    Tab.find?_put_self _ _ _
  have hev : (s.wellRefuse id r 2).events = s.events := rfl
  unfold State.windowFault
  dsimp only
  generalize s.wellRefuse id r 2 = v at ha' hn' hreq hev ⊢
  have hk := raise_reqs v evWindowFault (some a) [(r.core.id, 4), (r.addr, 8), (chanNo r.ch, 1)] [.allot a] 1
  have hr := v.raise_raises evWindowFault (some a) [(r.core.id, 4), (r.addr, 8), (chanNo r.ch, 1)] [.allot a] 1
  simp only [ha', hn', Bool.false_eq_true, if_false]
  exact ⟨(congrArg (Tab.find? · id) hk).trans hreq, raises_of_suffix_left (hev ▸ List.suffix_rfl) hr⟩

/-! ### Bytes of device memory (R198, R199) -/

theorem memByte_setMemByte_self (s : State) (k : Nat) (v : Byte) : (s.setMemByte k v).memByte k = v := by
  rw [State.memByte, State.setMemByte_memDefault, State.setMemByte_mem]
  split
  next h => rw [Tab.find?_del_self, Option.getD_none, h]
  next => rw [Tab.find?_put_self, Option.getD_some]

theorem memByte_setMemByte_ne (s : State) {k j : Nat} (v : Byte) (h : j ≠ k) : (s.setMemByte k v).memByte j = s.memByte j := by
  rw [State.memByte, State.setMemByte_memDefault, State.setMemByte_mem, State.memByte]
  split
  · rw [Tab.find?_del_ne _ h]
  · rw [Tab.find?_put_ne _ _ h]

theorem memByte_setMemBytes_out (l : List Byte) : ∀ (s : State) (k : Nat) {j : Nat}, j < k ∨ k + l.length ≤ j →
    (s.setMemBytes k l).memByte j = s.memByte j := by
  induction l with
  | nil => exact fun _ _ _ _ => rfl
  | cons b l ih =>
    intro s k j h
    rw [List.length_cons] at h
    rw [State.setMemBytes, ih _ _ (by omega), memByte_setMemByte_ne _ _ (by omega)]

theorem memByte_setMemBytes_in (l : List Byte) : ∀ (s : State) (k : Nat) {i : Nat}, i < l.length →
    (s.setMemBytes k l).memByte (k + i) = (l[i]?).getD 0 := by
  induction l with
  | nil => exact fun _ _ i h => absurd h (Nat.not_lt_zero i)
  | cons b l ih =>
    intro s k i h
    rw [State.setMemBytes]
    cases i with
    | zero => rw [memByte_setMemBytes_out l _ _ (by omega), Nat.add_zero, memByte_setMemByte_self]; rfl
    | succ i =>
      rw [show k + (i + 1) = k + 1 + i by omega, ih _ _ (by simpa using h)]
      rfl

theorem setMemPoison_sameImage (s : State) (w : Nat) (b : Bool) : s.sameImage ((s.clearErrors w).setMemPoison w b) :=
  ⟨⟨rfl, rfl, rfl⟩, rfl⟩

theorem countPoison_sameImage (s : State) (al : Option Nat) (n : Nat) : s.sameImage (s.countPoison al n) := by
  cases al with
  | none => exact .refl s
  | some a => exact State.sameImage_ite (.refl s) (s.bump_sameImage _ _)

/-- A store changes the bytes it writes and no others (R199). -/
theorem storeMem_memByte (s : State) (source core : Nat) (al : Option Nat) (k : Nat) (l : List Byte) (poison : List Bool) :
    (∀ i, i < l.length → (s.storeMem source core al k l poison).memByte (k + i) = (l[i]?).getD 0) ∧
      ∀ j, j < k ∨ k + l.length ≤ j → (s.storeMem source core al k l poison).memByte j = s.memByte j := by
  let touched := ((wordsOf k l.length).filter fun w => !decide (k ≤ 8 * w ∧ 8 * w + 8 ≤ k + l.length)).foldl
    (fun s w => s.touchWord source core al w) s
  have ht : s.sameImage touched := State.sameImage_foldl _ (fun t w => t.touchWord_sameImage source core al w) _ s
  have hs : (touched.setMemBytes k l).sameImage (s.storeMem source core al k l poison) := by
    unfold State.storeMem
    refine State.sameImage.trans ?_ (countPoison_sameImage _ _ _)
    refine State.sameImage.trans ?_ (State.sameImage_foldl _ (fun t r => ?_) _ _)
    · exact State.sameImage_foldl _ (fun t w => setMemPoison_sameImage t w false) _ _
    · exact (setMemPoison_sameImage t (2 * r.1) true).trans (setMemPoison_sameImage _ (2 * r.1 + 1) true)
  rw [hs.memByte]
  refine ⟨fun i hi => memByte_setMemBytes_in l touched k hi, fun j hj => ?_⟩
  rw [memByte_setMemBytes_out l touched k hj, ht.memByte]

/-! ### The controller's answer (R191, R196, R203) -/

/-- What noting a latency can change. -/
def State.latencyOnly (s t : State) : Prop :=
  ∃ regs allots events out ses unread pins, t = { s with
    regs := regs, allots := allots, events := events, out := out, ses := ses, unreadBoard := unread, pins := pins }

theorem setReg_latencyOnly (s : State) (o : Nat) (v : DWord) : s.latencyOnly (s.setReg o v) := ⟨_, _, _, _, _, _, _, rfl⟩

theorem State.latencyOnly.trans : s.latencyOnly t → t.latencyOnly u → s.latencyOnly u := by
  rintro ⟨_, _, _, _, _, _, _, rfl⟩ ⟨_, _, _, _, _, _, _, rfl⟩
  exact ⟨_, _, _, _, _, _, _, rfl⟩

theorem raise_latencyOnly (s : State) (code : Nat) (al : Option Nat) (payload : List (Nat × Nat)) (l : List Dest) (count : Nat) :
    s.latencyOnly (s.raise code al payload l count) := by
  obtain ⟨_, _, _, _, _, _, _, h⟩ := s.raise_eq code al payload l count
  rw [h]
  exact ⟨_, _, _, _, _, _, _, rfl⟩

theorem note_latencyOnly (s : State) (a kind key : Nat) (r : Option RunId) : s.latencyOnly (s.note a kind key r) :=
  ⟨_, _, _, _, _, _, _, rfl⟩

theorem noteLatency_latencyOnly (s : State) (m : Nat) (al : Option Nat) (ns : Nat) (clean : Bool) :
    s.latencyOnly (s.noteLatency m al ns clean) := by
  unfold State.noteLatency
  dsimp only
  split
  · exact setReg_latencyOnly s _ _
  · generalize hv : State.bump (s.setReg _ _) _ = v
    have hs : s.latencyOnly v := hv ▸ (setReg_latencyOnly s _ _).trans (setReg_latencyOnly _ _ _)
    split
    · exact hs
    · split
      · exact hs
      · exact hs.trans ((raise_latencyOnly v _ _ _ _ _).trans (note_latencyOnly _ _ _ _ _))

theorem State.latencyOnly.sameImage (h : s.latencyOnly t) : s.sameImage t := by
  obtain ⟨_, _, _, _, _, _, _, rfl⟩ := h
  exact ⟨⟨rfl, rfl, rfl⟩, rfl⟩

theorem State.latencyOnly.reqs (h : s.latencyOnly t) : t.reqs = s.reqs := by
  obtain ⟨_, _, _, _, _, _, _, rfl⟩ := h
  rfl

theorem State.latencyOnly.rowPoison (h : s.latencyOnly t) (k n : Nat) : t.rowPoison k n = s.rowPoison k n := by
  obtain ⟨_, _, _, _, _, _, _, rfl⟩ := h
  rfl

theorem activate_sameImage (s : State) (k : Nat) : s.sameImage (s.activate k) := by
  refine ⟨s.activate_sameMem k, ?_⟩
  unfold State.activate
  dsimp only
  split <;> rfl

theorem sameImage.memBytes (h : s.sameImage t) (k n : Nat) : t.memBytes k n = s.memBytes k n := by
  simp only [State.memBytes, h.memByte]

/-- A read served answers the bytes and the poison of their rows, and changes none (R198, R199). -/
theorem serveMem_load {r : Req} (hl : r.ch = .load) (id key : Nat) :
    s.sameImage (s.serveMem id r key) ∧ (s.serveMem id r key).reqs.find? id = some
      { r with stage := .toCarter, status := 0, data := s.memBytes key r.piece.len
               poison := (s.serveMem id r key).rowPoison key r.piece.len } := by
  let v := ((s.activate key).touchMem 0 r.core.id (s.allotOf r.core.parish) key r.piece.len).bump (mcBase (key / 2 ^ 36) + 0x68)
    r.piece.len
  have hv : s.sameImage v := ((activate_sameImage s key).trans (State.touchMem_sameImage _ _ _ _ _ _)).trans (State.bump_sameImage _ _ _)
  have he : s.serveMem id r key = v.wellAnswer id r 0 (v.memBytes key r.piece.len) (v.rowPoison key r.piece.len) := by
    unfold State.serveMem
    rw [hl, if_pos rfl]
  rw [he]
  refine ⟨hv.trans ⟨⟨rfl, rfl, rfl⟩, rfl⟩, ?_⟩
  rw [sameImage.memBytes hv]
  exact Tab.find?_put_self _ _ _

/-- A write served stores its bytes and no others (R199). -/
theorem serveMem_store {r : Req} (hl : r.ch = .store) (id key : Nat) :
    (∀ i, i < r.data.length → (s.serveMem id r key).memByte (key + i) = (r.data[i]?).getD 0) ∧
      (∀ k, k < key ∨ key + r.data.length ≤ k → (s.serveMem id r key).memByte k = s.memByte k) ∧
      (s.serveMem id r key).reqs.find? id = some { r with stage := .toCarter, status := 0, data := [], poison := [] } := by
  have hne : ¬ r.ch = .load := by rw [hl]; decide
  have ha := activate_sameImage s key
  obtain ⟨hin, hout⟩ := storeMem_memByte (s.activate key) 1 r.core.id (s.allotOf r.core.parish) key r.data r.poison
  unfold State.serveMem
  rw [if_neg hne]
  refine ⟨hin, fun k hk => (hout k hk).trans (congrFun ha.memByte k), Tab.find?_put_self _ _ _⟩

end Sys2Proof.Machine

/-- Settles O28: an address of memory goes to `wellMem`, one beyond every range is refused; a fault is reported by the first
request of the core's run. -/
theorem wellChecks : Obligations.WellChecks := by
  unfold Obligations.WellChecks
  intro id r s hr hst hon hdark hw slow
  dsimp only
  rw [exec_toWell hr hst]
  refine ⟨fun hm => ?memory, fun hb => next_congr (wellCheck_beyond hon hdark hw hb id slow)⟩
  rw [wellCheck_memory hon hdark hw hm]
  unfold State.wellMem
  refine ⟨fun hv => ?none, fun d a hv ha => ⟨fun hq => ?inside, fun hq hn => ?outside⟩⟩
  case none => rw [hv]; rfl
  case inside => simp only [hv, ha, hq, if_true]
  case outside =>
    simp only [hv, ha, hq, Bool.false_eq_true, if_false]
    exact ⟨_, rfl, windowFault_raises ha hn⟩

/-- Settles O29: serving a request reads or stores its bytes; counting it and noting its latency leave memory and requests. -/
theorem memoryController : Obligations.MemoryController := by
  unfold Obligations.MemoryController
  intro id lat wait r d s hr hst hd
  dsimp only
  have hs : ¬ r.stage ≠ .atMem := not_not.2 hst
  have hexec : exec (.memoryAccess id ⟨lat, wait⟩) s = execMemoryAccess id ⟨lat, wait⟩ s := rfl
  rw [hexec]
  unfold execMemoryAccess
  simp only [hr, if_neg hs, hd]
  refine ⟨fun hh => by simp only [hh, Bool.not_false, if_true], fun hh hu => ?up, fun hh hu => ?down,
    fun k j v => ⟨memByte_setMemByte_self s k v, memByte_setMemByte_ne s v, fun h => s.setMemByte_memWf h k v⟩⟩
  case down =>
    simp only [hh, hu, Bool.not_true, Bool.not_false, Bool.false_eq_true, if_false, if_true]
    rfl
  case up =>
    simp only [hh, hu, Bool.not_true, Bool.false_eq_true, if_false]
    generalize hv : (s.serveMem id r (s.memKey d)).bump _ _ = v
    have hl := noteLatency_latencyOnly v (s.memKey d / 2 ^ 36) (s.allotOf r.core.parish) lat
      (decide (v.memUe.length = s.memUe.length))
    refine ⟨fun hch => ?_, fun hch => ?_⟩
    · obtain ⟨hi, ha⟩ := serveMem_load (s := s) hch id (s.memKey d)
      refine ⟨_, rfl, fun k => ?_, ?_⟩
      · rw [hl.sameImage.memByte, ← hv]
        exact congrFun hi.memByte k
      · rw [hl.reqs, hl.rowPoison, ← hv]
        exact ha
    · obtain ⟨hin, hout, ha⟩ := serveMem_store (s := s) hch id (s.memKey d)
      refine ⟨_, rfl, fun i hi => ?_, fun k hk => ?_, ?_⟩
      · rw [hl.sameImage.memByte, ← hv]
        exact hin i hi
      · rw [hl.sameImage.memByte, ← hv]
        exact hout k hk
      · rw [hl.reqs, ← hv]
        exact ha

end

section
/-! Refresh, scrub, the hourly counts and stacks out of service (R193, R194, R200, R201). -/

open Sys2Proof Sys2Proof.Machine

namespace Sys2Proof.Machine

variable {s t u : State}

/-! ### Stacks one by one -/

/-- A fold that treats each stack on its own leaves one as its own turn does. -/
theorem foldl_at {β : Type} {f : State → Nat → State} (g : State → Nat → β) (hne : ∀ t k j, j ≠ k → g (f t k) j = g t j)
    {P : State → Prop} (hP : ∀ t k, P t → P (f t k)) {l : List Nat} (hl : l.Nodup) {m : Nat} (hm : m ∈ l) (hs : P s) :
    ∃ u, P u ∧ g u m = g s m ∧ g (l.foldl f s) m = g (f u m) m := by
  have hout (l : List Nat) (h : m ∉ l) (t : State) : g (l.foldl f t) m = g t m :=
    List.foldlRecOn (motive := fun v : State => g v m = g t m) l f rfl fun v hv k hk =>
      (hne v k m fun e => h (e ▸ hk)).trans hv
  obtain ⟨l₁, l₂, rfl⟩ := List.append_of_mem hm
  have hd := List.nodup_append.1 hl
  have h₁ : m ∉ l₁ := fun h => hd.2.2 m h m List.mem_cons_self rfl
  have h₂ : m ∉ l₂ := (List.nodup_cons.1 hd.2.1).1
  rw [List.foldl_append, List.foldl_cons]
  exact ⟨l₁.foldl f s, List.foldlRecOn l₁ f hs fun v hv k _ => hP v k hv, hout l₁ h₁ s, hout l₂ h₂ _⟩

theorem foldl_not_at {β : Type} {f : State → Nat → State} (g : State → Nat → β) (hne : ∀ t k j, j ≠ k → g (f t k) j = g t j)
    {l : List Nat} {m : Nat} (hm : m ∉ l) (s : State) : g (l.foldl f s) m = g s m :=
  List.foldlRecOn (motive := fun v : State => g v m = g s m) l f rfl fun v hv k hk =>
    (hne v k m fun e => hm (e ▸ hk)).trans hv

/-! ### Refresh (R193, R194) -/

/-- A stack's turn of a refresh window. -/
def State.refreshStack (second : Bool) (s : State) (m : Nat) : State :=
  if s.stackUp m && (!second || (s.mc m).hot) then s.setMc m { s.mc m with acts := (s.mc m).acts.mapVals fun _ n => n - 32 } else s

theorem refreshStack_mc_ne (second : Bool) (t : State) (k j : Nat) (h : j ≠ k) : (t.refreshStack second k).mc j = t.mc j := by
  unfold State.refreshStack
  split
  · exact t.mc_setMc_ne _ h
  · rfl

theorem refreshStack_boot (second : Bool) (t : State) (k : Nat) : (t.refreshStack second k).boot = t.boot := by
  unfold State.refreshStack
  split <;> rfl

theorem stackUp_congr {m : Nat} (hm : t.mc m = s.mc m) (hb : t.boot = s.boot) : t.stackUp m = s.stackUp m := by
  simp only [State.stackUp, State.sectorUp, hm, hb]

theorem mem_groupStacks {g m : Nat} : m ∈ groupStacks g ↔ m / 8 = g := by
  simp only [groupStacks, List.mem_map, List.mem_range]
  exact ⟨by rintro ⟨i, hi, rfl⟩; omega, fun h => ⟨m % 8, Nat.mod_lt _ (by decide), by omega⟩⟩

theorem groupStacks_nodup (g : Nat) : (groupStacks g).Nodup := List.nodup_range.map fun i j h => by simpa using h

/-- Each stack of the group is as its turn leaves it, and no other changes. -/
theorem refreshWindow_mc (g : Nat) (second : Bool) (m : Nat) :
    ((groupStacks g).foldl (State.refreshStack second) s).mc m = if m / 8 = g then (s.refreshStack second m).mc m else s.mc m := by
  split
  next hm =>
    obtain ⟨u, hb, hu, ht⟩ := foldl_at State.mc (refreshStack_mc_ne second) (P := fun u => u.boot = s.boot)
      (fun t k h => (refreshStack_boot second t k).trans h) (groupStacks_nodup g) (mem_groupStacks.2 hm) rfl
    rw [ht]
    unfold State.refreshStack
    rw [stackUp_congr hu hb, hu]
    split
    · rw [State.mc_setMc, State.mc_setMc]
    · exact hu
  next hm => exact foldl_not_at State.mc (refreshStack_mc_ne second) (fun h => hm (mem_groupStacks.1 h)) s

/-! ### Scrub (R200) -/

/-- The scrubbers are where they were. -/
def State.sameScrub (s t : State) : Prop := ∀ m, (t.mc m).scrubPos = (s.mc m).scrubPos

theorem State.sameScrub.refl (s : State) : s.sameScrub s := fun _ => rfl

theorem State.sameScrub.trans (h : s.sameScrub t) (g : t.sameScrub u) : s.sameScrub u := fun m => (g m).trans (h m)

theorem sameScrub_of_mcs (h : t.mcs = s.mcs) : s.sameScrub t := fun m => by rw [State.mc, State.mc, h]

theorem setMc_sameScrub {k : Nat} {x : Stack} (h : x.scrubPos = (s.mc k).scrubPos) : s.sameScrub (s.setMc k x) := fun m => by
  by_cases hm : m = k
  · rw [hm, State.mc_setMc, h]
  · rw [s.mc_setMc_ne _ hm]

theorem raise_mcs (s : State) (code : Nat) (al : Option Nat) (payload : List (Nat × Nat)) (l : List Dest) (count : Nat) :
    (s.raise code al payload l count).mcs = s.mcs := by
  obtain ⟨_, _, _, _, _, _, _, h⟩ := s.raise_eq code al payload l count
  rw [h]

theorem appendFails_mcs (s : State) (k : Nat) (a b : Bool) : (s.appendFails k a b).mcs = s.mcs := by
  have fails (ok : Bool) (t : State) (d : Nat) :
      (if ok then t else t.raise evRecordAppendFail none [(k, 2), (d, 1)] []).mcs = t.mcs := by
    cases ok
    · exact raise_mcs t _ _ _ _ _
    · rfl
  exact (fails b _ 1).trans (fails a s 0)

theorem strikeRow_mcs (s : State) (m : Nat) (r : Word) : (s.strikeRow m r).mcs = s.mcs := by
  have hlist (t : State) (l : List (Nat × Word)) : (t.listRows l).mcs = t.mcs := by
    unfold State.listRows State.appendPpr
    dsimp only
    split
    · rfl
    · exact appendFails_mcs _ _ _ _
  unfold State.strikeRow
  dsimp only
  split
  · rfl
  · exact hlist _ _

/-- A row over its limit is reported and listed: the controllers are left with the flags set. -/
theorem checkRows_mcs (s : State) (m : Nat) : (s.checkRows m).mcs = (s.setMc m { s.mc m with
    rows := (s.mc m).rows.map fun r => (r.1, r.2.1, decide (windowCount r ≥ (s.reg (mcBase m + 0x38)).toNat)) }).mcs := by
  unfold State.checkRows
  exact List.foldlRecOn (motive := fun v : State => v.mcs = (s.setMc m { s.mc m with
    rows := (s.mc m).rows.map fun r => (r.1, r.2.1, decide (windowCount r ≥ (s.reg (mcBase m + 0x38)).toNat)) }).mcs) _ _ rfl
    fun v h r _ => ((strikeRow_mcs _ m _).trans (raise_mcs v _ _ _ _ _)).trans h

theorem checkRows_sameScrub (s : State) (m : Nat) : s.sameScrub (s.checkRows m) := by
  have hs := sameScrub_of_mcs (checkRows_mcs s m)
  exact State.sameScrub.trans (setMc_sameScrub (by rfl)) hs

theorem trackRow_scrubPos (x : Stack) (loc : Nat) : (x.trackRow loc).scrubPos = x.scrubPos := by
  unfold Stack.trackRow
  split <;> rfl

theorem touchWord_sameScrub (s : State) (source core : Nat) (al : Option Nat) (w : Nat) : s.sameScrub (s.touchWord source core al w) := by
  unfold State.touchWord
  dsimp only
  split_ifs
  · exact sameScrub_of_mcs (raise_mcs _ _ _ _ _ _)
  · refine State.sameScrub.trans ?_ (checkRows_sameScrub _ _)
    refine State.sameScrub.trans (sameScrub_of_mcs (by rfl)) (setMc_sameScrub (trackRow_scrubPos _ _))
  · exact .refl s

theorem touchMem_sameScrub (s : State) (source core : Nat) (al : Option Nat) (k n : Nat) :
    s.sameScrub (s.touchMem source core al k n) :=
  List.foldlRecOn (motive := fun v : State => s.sameScrub v) _ _ (.refl s) fun v h w _ => h.trans (touchWord_sameScrub v source core al w)

theorem activate_sameScrub (s : State) (k : Nat) : s.sameScrub (s.activate k) := by
  have hv : (s.bump (mcBase (k / 2 ^ 36) + 0x78)).mcs = s.mcs := rfl
  unfold State.activate
  dsimp only
  generalize s.bump (mcBase (k / 2 ^ 36) + 0x78) = v at hv ⊢
  have hset (acts : Tab Nat) : s.sameScrub (v.setMc (k / 2 ^ 36) { s.mc (k / 2 ^ 36) with acts := acts }) :=
    (sameScrub_of_mcs hv).trans (setMc_sameScrub (by simp only [State.mc, hv]))
  split
  · exact (hset _).trans (sameScrub_of_mcs rfl)
  · exact hset _

theorem access_sameScrub (s : State) (k : Nat) : s.sameScrub (s.access k) :=
  (activate_sameScrub s k).trans (sameScrub_of_mcs rfl)

/-! ### The hourly counts (R200) -/

/-- A stack's turn at the hour. -/
def State.rollStack (s : State) (m : Nat) : State :=
  match s.mcs.find? m with
  | none => s
  | some x => (s.setMc m { x with
      rows := (x.rows.map fun r => (r.1, 0 :: r.2.1.take 23, r.2.2)).filter fun r => decide (windowCount r ≠ 0) }).checkRows m

theorem execCeHourlyRoll_eq (s : State) : execCeHourlyRoll s = .next ((List.range 64).foldl State.rollStack s) := by
  unfold execCeHourlyRoll
  generalize List.range 64 = l
  rfl

theorem rollStack_find?_ne (t : State) (k j : Nat) (h : j ≠ k) : (t.rollStack k).mcs.find? j = t.mcs.find? j := by
  unfold State.rollStack
  split
  · rfl
  · rw [checkRows_mcs, State.setMc, Tab.find?_put_ne _ _ h, State.setMc, Tab.find?_put_ne _ _ h]

theorem rollStack_rows {m : Nat} {x : Stack} (h : s.mcs.find? m = some x) :
    ((s.rollStack m).mc m).rows.map (fun r => (r.1, r.2.1)) =
      (x.rows.map fun r => (r.1, 0 :: r.2.1.take 23)).filter fun r => decide (r.2.sum ≠ 0) := by
  unfold State.rollStack
  rw [h]
  dsimp only
  rw [State.mc, checkRows_mcs, ← State.mc, State.mc_setMc, State.mc_setMc]
  dsimp only
  rw [List.filter_map, List.filter_map, List.map_map, List.map_map]
  rfl

/-- A stack of the set moves its scrubber on and reads the granule it left (R200). -/
theorem scrubRead_advances {m : Fin 64} {i : Nat} (hi : s.slotOf m = some i) (hup : s.stackUp m = true)
    (hon : bit (s.reg (mcBase m + 0x40)) 0 = true) : leads (execScrubRead m s) fun t =>
      (t.mc m).scrubPos = ((s.mc m).scrubPos + 1) % 2 ^ 27 ∧ ∀ k, t.memByte k = s.memByte k := by
  have hc : ¬ ((!s.stackUp m) = true ∨ (!bit (s.reg (mcBase m + 0x40)) 0) = true) := by simp [hup, hon]
  unfold execScrubRead
  simp only [hi]
  rw [if_neg hc]
  generalize hv : s.setMc m _ = v
  have hpos : (v.mc m).scrubPos = ((s.mc m).scrubPos + 1) % 2 ^ 27 := by rw [← hv, State.mc_setMc]
  have hmem : s.sameImage v := hv ▸ ⟨⟨rfl, rfl, rfl⟩, rfl⟩
  refine ⟨_, rfl, ?_, fun k => ?_⟩
  · exact ((access_sameScrub v _).trans (touchMem_sameScrub _ _ _ _ _ _) m).trans hpos
  · have hs := (v.access_sameImage (2 ^ 36 * m + (s.mc m).scrubPos * 512)).trans (State.touchMem_sameImage _ 4 0xFFFFFFFF
      (v.quotaHolder (deinterleave v.nSet i ((s.mc m).scrubPos * 512))) (2 ^ 36 * m + (s.mc m).scrubPos * 512) 512)
    exact congrFun ((hmem.trans hs).trans (State.bump_sameImage _ _ _)).memByte k

/-! ### Out of service (R201) -/

/-- A cause of DEGRADED_READY leaves the stacks, and of the start's results all but state and cause; it adds events only. -/
theorem degrade_keeps (s : State) (n : Nat) : (s.degrade n).mcs = s.mcs ∧
    (s.degrade n).boot = { s.boot with st := (s.degrade n).boot.st, cause := (s.degrade n).boot.cause } ∧
    s.events <:+ (s.degrade n).events := by
  unfold State.degrade
  split
  · dsimp only
    split
    · refine ⟨raise_mcs _ _ _ _ _ _, ?_, ?_⟩
      · rw [raise_boot]
      · exact List.IsSuffix.trans (by exact List.suffix_rfl) (raise_suffix _ _ _ _ _ _)
    · exact ⟨rfl, rfl, List.suffix_rfl⟩
  · exact ⟨rfl, rfl, List.suffix_rfl⟩

theorem offline_ends {m : Nat} (hon : (s.mc m).online = true) (cause : Nat) :
    ((s.offline m cause).mc m).online = false ∧ (s.offline m cause).stackUp m = false ∧
      (s.offline m cause).boot.set = s.boot.set ∧ s.raises (s.offline m cause) evStackOffline := by
  unfold State.offline
  simp only [hon, Bool.not_true, Bool.false_eq_true, if_false]
  generalize hv : s.setMc m _ = v
  have hoff : (v.mc m).online = false := by rw [← hv, State.mc_setMc]
  have hb : v.boot = s.boot := by rw [← hv]; rfl
  have he : v.events = s.events := by rw [← hv]; rfl
  generalize hl : v.liveAllots.map Dest.allot = l
  have hm := raise_mcs v evStackOffline none [(m, 1), (cause, 1)] l 1
  have hbr := raise_boot v evStackOffline none [(m, 1), (cause, 1)] l 1
  have hr := v.raise_raises evStackOffline none [(m, 1), (cause, 1)] l 1
  generalize v.raise evStackOffline none [(m, 1), (cause, 1)] l 1 = w at hm hbr hr ⊢
  obtain ⟨hdm, hdb, hde⟩ := degrade_keeps w 2
  have hmc : (w.degrade 2).mc m = v.mc m := by rw [State.mc, State.mc, hdm, hm]
  refine ⟨by rw [hmc, hoff], by rw [State.stackUp, hmc, hoff]; rfl, ?_, ?_⟩
  · rw [hdb, hbr, hb]
  · exact raises_of_suffix_left (he ▸ List.suffix_rfl) (raises_of_suffix_right hr hde)

end Sys2Proof.Machine

/-- Settles O31: a window and the hour treat each stack on its own; scrubbing and events leave the scrubbers, the bytes and the
set. -/
theorem memoryUpkeep : Obligations.MemoryUpkeep := by
  unfold Obligations.MemoryUpkeep
  intro s
  refine ⟨fun g second => ?refresh, fun m i hi hup hon => ?scrub, ?roll, fun m cause hon => ?offline⟩
  case refresh =>
    refine ⟨_, rfl, fun m => ⟨fun hg hup hhot => ?_, fun hno => ?_⟩⟩
    · refine (congrArg Stack.acts (refreshWindow_mc g.val second m)).trans ?_
      rw [if_pos hg, State.refreshStack, if_pos, State.mc_setMc]
      cases second
      · simp [hup]
      · simp [hup, hhot rfl]
    · refine (refreshWindow_mc g.val second m).trans ?_
      split
      next hg =>
        rw [State.refreshStack, if_neg]
        rcases hno with h | h | ⟨rfl, h⟩
        · exact absurd hg h
        · simp [h]
        · simp [h]
      next => rfl
  case scrub => exact scrubRead_advances hi hup hon
  case roll =>
    refine ⟨_, execCeHourlyRoll_eq s, fun m x hm hx => ?_⟩
    obtain ⟨u, -, hu, ht⟩ := foldl_at (s := s) (fun (t : State) k => t.mcs.find? k) rollStack_find?_ne (P := fun _ => True)
      (fun _ _ _ => trivial) List.nodup_range (List.mem_range.2 hm) trivial
    have hr := rollStack_rows (hu.trans hx)
    generalize (List.range 64).foldl State.rollStack s = v at ht ⊢
    rw [← hr, State.mc, State.mc, Tab.get, Tab.get, ht]
  case offline => exact ⟨_, rfl, offline_ends hon cause⟩

end

section
/-! A carter channel: start, request, response, halt, completion, drain (R180, R205, R206, R213, R216 to R219, R223). -/

open Sys2Proof Sys2Proof.Machine

namespace Sys2Proof

/-- The value of the bytes of a value. -/
theorem leNat_leBytes : ∀ n v : Nat, leNat (leBytes n v) = v % 256 ^ n
  | 0, v => by simp [leBytes, leNat, Nat.mod_one]
  | n + 1, v => by
    rw [leBytes, leNat, leNat_leBytes n, BitVec.toNat_ofNat, show (256 : Nat) ^ (n + 1) = 256 * 256 ^ n from pow_succ' 256 n, Nat.mod_mul]

theorem leNat_leBytes_of_lt {n v : Nat} (h : v < 256 ^ n) : leNat (leBytes n v) = v := by
  rw [leNat_leBytes, Nat.mod_eq_of_lt h]

end Sys2Proof

namespace Sys2Proof.Machine

variable {s t u : State} {p : Pos}

/-! ### Data SRAM read or written by a carter (R72, R75, R207, R218) -/

/-- The core differs in its data SRAM, with the errors met there, only. -/
def Core.sramOnly (c d : Core) : Prop :=
  ∃ sram poison ue ce back count raised, d = { c with
    sram := sram, sramPoison := poison, ue := ue, ce := ce, writeback := back, ceCount := count, ceRaised := raised }

theorem Core.sramOnly.refl (c : Core) : c.sramOnly c := ⟨_, _, _, _, _, _, _, rfl⟩

theorem Core.sramOnly.trans {c d e : Core} : c.sramOnly d → d.sramOnly e → c.sramOnly e := by
  rintro ⟨_, _, _, _, _, _, _, rfl⟩ ⟨_, _, _, _, _, _, _, rfl⟩
  exact ⟨_, _, _, _, _, _, _, rfl⟩

theorem Core.sramOnly.chan {c d : Core} (h : c.sramOnly d) (ch : Chan) : d.chan ch = c.chan ch := by
  obtain ⟨_, _, _, _, _, _, _, rfl⟩ := h
  cases ch <;> rfl

/-- A core's data SRAM was read or written: requests stay, and only events are added to those there. -/
structure State.sramOnly (s t : State) (p : Pos) : Prop where
  core : (s.core p).sramOnly (t.core p)
  reqs : t.reqs = s.reqs
  nextReq : t.nextReq = s.nextReq
  suffix : s.events <:+ t.events

theorem State.sramOnly.refl (s : State) (p : Pos) : s.sramOnly s p := ⟨.refl _, rfl, rfl, List.suffix_rfl⟩

theorem State.sramOnly.trans (h : s.sramOnly t p) (g : t.sramOnly u p) : s.sramOnly u p :=
  ⟨h.core.trans g.core, g.reqs.trans h.reqs, g.nextReq.trans h.nextReq, h.suffix.trans g.suffix⟩

theorem State.sramOnly.chan (h : s.sramOnly t p) (ch : Chan) : (t.core p).chan ch = (s.core p).chan ch := h.core.chan ch

theorem sramOnly_foldl {α : Type} (f : State → α → State) (hf : ∀ (s : State) (a : α), s.sramOnly (f s a) p) (l : List α) :
    ∀ s : State, s.sramOnly (l.foldl f s) p := by
  induction l with
  | nil => exact fun s => .refl s p
  | cons a t ih => exact fun s => (hf s a).trans (ih _)

theorem sramOnly_ite {c : Prop} [Decidable c] (ht : s.sramOnly t p) (hu : s.sramOnly u p) : s.sramOnly (if c then t else u) p := by
  split
  · exact ht
  · exact hu

theorem setCore_sramOnly {d : Core} (h : (s.core p).sramOnly d) : s.sramOnly (s.setCore p d) p :=
  ⟨by rwa [State.core_setCore], rfl, rfl, List.suffix_rfl⟩

theorem raise_sramOnly (s : State) (p : Pos) (code : Nat) (al : Option Nat) (payload : List (Nat × Nat)) (l : List Dest) (count : Nat) :
    s.sramOnly (s.raise code al payload l count) p := by
  obtain ⟨e, _, _, _, _, _, _, h⟩ := s.raise_eq code al payload l count
  rw [h]
  exact ⟨.refl _, rfl, rfl, [e], rfl⟩

theorem strikeSite_sramOnly (s : State) (p q : Pos) (lost : Bool) : s.sramOnly (s.strikeSite q lost) p := by
  have h := strikeSite_memoryOnly s q lost
  refine ⟨by rw [h.core]; exact .refl _, ?_, ?_, h.suffix⟩
  all_goals
    obtain ⟨_, _, _, _, _, _, _, _, _, _, _, _, _, _, _, h⟩ := h
    rw [h]

theorem raiseDataUe_sramOnly (s : State) (p : Pos) (w : Word) : s.sramOnly (s.raiseDataUe p w) p :=
  sramOnly_ite (.refl s p) (raise_sramOnly s p _ _ _ _ _)

theorem checkCe_sramOnly (s : State) (p : Pos) : s.sramOnly (s.checkCe p) p := by
  unfold State.checkCe
  refine sramOnly_ite ?_ (.refl s p)
  exact ((setCore_sramOnly ⟨_, _, _, _, _, _, _, rfl⟩).trans (raise_sramOnly _ p _ _ _ _ _)).trans (strikeSite_sramOnly _ p p _)

theorem touch_sramOnly (c : Core) (a n : Nat) : c.sramOnly (c.touch a n).1 := ⟨_, _, _, _, _, _, _, rfl⟩

theorem touchSram_sramOnly (s : State) (p : Pos) (w : Word) (a n : Nat) : s.sramOnly (s.touchSram p w a n) p := by
  have hpar (t : State) (f : Parish → Parish) : t.sramOnly (t.updParish p.parish f) p :=
    ⟨.refl _, rfl, rfl, List.suffix_rfl⟩
  unfold State.touchSram
  refine State.sramOnly.trans ?_ (checkCe_sramOnly _ p)
  refine State.sramOnly.trans ?_ (sramOnly_foldl _ (fun t _ => raiseDataUe_sramOnly t p w) _ _)
  exact (setCore_sramOnly (touch_sramOnly _ a n)).trans (sramOnly_ite (.refl _ p) (hpar _ _))

theorem setByte_sramOnly (c : Core) (a : Nat) (v : Byte) : c.sramOnly (c.setByte a v) := by
  unfold Core.setByte
  split <;> exact ⟨_, _, _, _, _, _, _, rfl⟩

theorem setPoison_sramOnly (c : Core) (w : Nat) (b : Bool) : c.sramOnly (c.setPoison w b) := ⟨_, _, _, _, _, _, _, rfl⟩

theorem coreSram_foldl {α : Type} (f : Core → α → Core) (hf : ∀ (c : Core) (a : α), c.sramOnly (f c a)) (l : List α) :
    ∀ c : Core, c.sramOnly (l.foldl f c) := by
  induction l with
  | nil => exact .refl
  | cons a t ih => exact fun c => (hf c a).trans (ih _)

theorem coreSram_ite {b : Prop} [Decidable b] {c d e : Core} (hd : c.sramOnly d) (he : c.sramOnly e) :
    c.sramOnly (if b then d else e) := by
  split
  · exact hd
  · exact he

theorem carterWrite_sramOnly (s : State) (p : Pos) (l : List (Nat × Option Byte × Bool)) : s.sramOnly (s.carterWrite p l) p := by
  unfold State.carterWrite
  refine sramOnly_foldl _ (fun t w => ?_) _ s
  refine (sramOnly_ite (.refl t p) (touchSram_sramOnly t p _ _ _)).trans (setCore_sramOnly ?_)
  refine Core.sramOnly.trans ?_ (setPoison_sramOnly _ _ _)
  have hset (c : Core) : c.sramOnly ((l.filter fun e => decide (e.1 / 8 = w)).foldl (fun c e => match e.2.1 with
      | some v => c.setByte e.1 v
      | none => c) c) :=
    coreSram_foldl _ (fun c e => by
      split
      · exact setByte_sramOnly c _ _
      · exact .refl c) _ c
  exact (hset _).trans (coreSram_ite ⟨_, _, _, _, _, _, _, rfl⟩ (.refl _))

/-! ### Channels of a core -/

theorem chan_setChan (c : Core) (ch : Chan) (x : Channel) : (c.setChan ch x).chan ch = x := by
  cases ch <;> rfl

theorem core_updChan (s : State) (p : Pos) (ch : Chan) (f : Channel → Channel) :
    (s.updChan p ch f).core p = (s.core p).setChan ch (f ((s.core p).chan ch)) := by
  rw [State.updChan, State.core_updCore]

/-- The next waiting descriptor starts (R205). -/
theorem descriptorStart_starts {ch : Chan} (hrun : s.carterRuns p = true) (hi : ((s.core p).chan ch).issuing = true)
    (ha : ∀ r ∈ ((s.core p).chan ch).running, r.issued = true) {d : Desc} {rest : List Desc}
    (hw : ((s.core p).chan ch).waiting = d :: rest) :
    execDescriptorStart p ch s = .next (s.setCore p ((s.core p).setChan ch
      { (s.core p).chan ch with waiting := rest, serial := ((s.core p).chan ch).serial + 1
                                running := ((s.core p).chan ch).running ++ [{ d := d, serial := ((s.core p).chan ch).serial }] })) := by
  unfold execDescriptorStart
  simp only [hrun, hi, List.all_eq_true.2 ha, Bool.and_self, if_true, hw]
  rfl

/-- A request with a credit enters (R180, R207, R213). -/
theorem carterRequest_enters {ch : Chan} (hrun : s.carterRuns p = true) (hi : ((s.core p).chan ch).issuing = true) {r : DescRun}
    {k : Piece} {redo : Bool} (hn : ((s.core p).chan ch).nextPiece = some (r, k, redo)) (ho : r.d.outside k.burst = false)
    (hc : 0 < ((s.core p).chan ch).credits) (hm : s.mayEnter p ch = true) :
    leads (execCarterRequest p ch s) fun t => ((t.core p).chan ch).credits = ((s.core p).chan ch).credits - 1 ∧
      t.nextReq = s.nextReq + 1 ∧ ∃ q, t.reqs.find? s.nextReq = some q ∧ q.core = p ∧ q.ch = ch ∧ q.piece = k ∧
        q.addr = r.d.dpa k ∧ q.stage = .toWell ∧ q.data.length = (if ch = .store then k.len else 0) := by
  have hne : ¬ (((s.core p).chan ch).credits = 0 ∨ (!s.mayEnter p ch) = true) := by
    rw [hm]
    simp only [Bool.not_true, Bool.false_eq_true, or_false]
    omega
  unfold execCarterRequest
  simp only [hrun, hi, Bool.and_self, if_true, hn, ho, Bool.false_eq_true, if_false]
  rw [if_neg hne]
  refine ⟨_, rfl, ?_⟩
  generalize hv : State.updChan (s.updCore p fun c => { c with storeTurn := decide (ch = .load) }) p ch _ = v
  have hvc : ((v.core p).chan ch).credits = ((s.core p).chan ch).credits - 1 := by
    rw [← hv, core_updChan, chan_setChan, State.core_updCore]
    cases ch <;> rfl
  have hvn : v.nextReq = s.nextReq := by rw [← hv]; rfl
  have hw : v.sramOnly (if ch = .store then (r.d.sourceWords (r.d.offset k) k.len).foldl (fun s w => s.touchSram p 0 (8 * w) 8) v
      else v) p :=
    sramOnly_ite (sramOnly_foldl _ (fun t w => touchSram_sramOnly t p 0 _ _) _ v) (.refl v p)
  unfold State.sendPiece
  dsimp only
  generalize (if ch = .store then (r.d.sourceWords (r.d.offset k) k.len).foldl (fun s w => s.touchSram p 0 (8 * w) 8) v else v) = w
    at hw ⊢
  refine ⟨(congrArg Channel.credits (hw.chan ch)).trans hvc, by rw [hw.nextReq, hvn], ?_⟩
  rw [← hvn, ← hw.nextReq]
  refine ⟨_, Tab.find?_put_self _ _ _, rfl, rfl, rfl, rfl, rfl, ?_⟩
  split
  · rw [List.length_map, List.length_map, List.length_range]
  · rfl

/-! ### Completion (R206, R216, R217) -/

theorem statusWord_lt (r : DescRun) : r.statusWord < 256 ^ 8 := by
  have h1 : (if r.aborted = true then 2 else if r.skips > 0 then 1 else 0) ≤ 2 := by split_ifs <;> omega
  have h2 : b2n r.poison ≤ 1 := by cases r.poison <;> decide
  unfold DescRun.statusWord
  generalize (if r.aborted = true then 2 else if r.skips > 0 then 1 else 0) = i at h1
  generalize b2n r.poison = j at h2
  omega

theorem storeWords_bytes (c : Core) (a : Nat) (l : List Byte) (poison : Nat → Bool) :
    (c.storeWords a l poison).bytes a l.length = l := by
  have hb (i : Nat) : ∀ m : List Nat, ∀ d : Core, (m.foldl (fun c i => c.setPoison (a / 8 + i) (poison i)) d).byte i = d.byte i := by
    intro m
    induction m with
    | nil => exact fun _ => rfl
    | cons j m ih => exact fun d => ih _
  refine List.ext_getElem (by simp [Core.bytes]) fun i h1 h2 => ?_
  simp only [Core.bytes, List.getElem_map, List.getElem_range]
  unfold Core.storeWords
  dsimp only
  rw [hb]
  refine (Core.byte_setBytes_in l c a i h2).trans ?_
  rw [List.getElem?_eq_getElem h2]
  rfl

theorem unstall_of_ne {ch : Chan} (h : ∀ f, (s.core p).wait ≠ .carterFull ch f) : s.unstall p ch = s := by
  unfold State.unstall
  split
  next c f hw =>
    rw [if_neg]
    rintro rfl
    exact h f hw
  next => rfl

theorem descriptorComplete_done {ch : Chan} {r : DescRun} {rest : List DescRun} (hr : ((s.core p).chan ch).running = r :: rest)
    (hm : ((s.core p).chan ch).mayComplete r = true) (hb : r.d.tbind = false) (hw : ∀ f, (s.core p).wait ≠ .carterFull ch f)
    (hc : s.carterRuns p = true ∨ (r.aborted = false ∧ (s.core p).drained = false)) :
    leads (execDescriptorComplete p ch s) fun t => ((t.core p).chan ch).running = rest ∧
      (r.d.statEn = true → leNat ((t.core p).bytes r.d.statAddr 8) = r.statusWord) := by
  have hgo : (s.carterRuns p || (!r.aborted && !(s.core p).drained)) = true := by
    rcases hc with h | ⟨h1, h2⟩
    · simp [h]
    · simp [h1, h2]
  unfold execDescriptorComplete
  simp only [hr, hm, hgo, Bool.and_self, if_true]
  refine ⟨_, rfl, ?_⟩
  generalize hv : s.updChan p ch _ = v
  have hvc : (v.core p).chan ch = { (s.core p).chan ch with running := rest } := by
    rw [← hv, core_updChan, chan_setChan]
  have hvw : (v.core p).wait = (s.core p).wait := by
    rw [← hv, core_updChan]
    cases ch <;> rfl
  unfold State.completeDesc
  simp only [hb, Bool.not_false, if_true]
  by_cases hs : r.d.statEn = true
  · rw [if_pos hs]
    have hk := storeWords_movesTokens (v.core p) r.d.statAddr (leBytes 8 r.statusWord) fun _ => false
    have hb := storeWords_bytes (v.core p) r.d.statAddr (leBytes 8 r.statusWord) fun _ => false
    have hcore := State.core_updCore (s := v) p fun c => c.storeWords r.d.statAddr (leBytes 8 r.statusWord) fun _ => false
    rw [leBytes_length] at hb
    generalize v.updCore p _ = w at hcore ⊢
    have hkc : (w.core p).chan ch = (v.core p).chan ch ∧ (w.core p).wait = (v.core p).wait := by
      rw [hcore]
      obtain ⟨_, _, _, _, _, _, _, _, h⟩ := hk
      rw [h]
      exact ⟨by cases ch <;> rfl, rfl⟩
    rw [unstall_of_ne (by rw [hkc.2, hvw]; exact hw)]
    exact ⟨by rw [hkc.1, hvc], fun _ => by rw [hcore, hb, leNat_leBytes_of_lt (statusWord_lt r)]⟩
  · rw [if_neg hs, unstall_of_ne (by rw [hvw]; exact hw)]
    exact ⟨by rw [hvc], fun h => absurd h hs⟩

/-! ### Responses and halts (R180, R218, R219) -/

theorem updRun_credits (x : Channel) (serial : Nat) (f : DescRun → DescRun) : (x.updRun serial f).credits = x.credits := rfl

/-- A change of a channel's descriptors, with its credits. -/
structure State.channelOnly (s t : State) (p : Pos) (ch : Chan) : Prop where
  credits : ((t.core p).chan ch).credits = ((s.core p).chan ch).credits
  reqs : t.reqs = s.reqs
  suffix : s.events <:+ t.events

theorem State.channelOnly.refl (s : State) (p : Pos) (ch : Chan) : s.channelOnly s p ch := ⟨rfl, rfl, List.suffix_rfl⟩

theorem State.channelOnly.trans {ch : Chan} (h : s.channelOnly t p ch) (g : t.channelOnly u p ch) : s.channelOnly u p ch :=
  ⟨g.credits.trans h.credits, g.reqs.trans h.reqs, h.suffix.trans g.suffix⟩

theorem updChan_channelOnly (s : State) (p : Pos) (ch : Chan) (f : Channel → Channel)
    (hf : ∀ x : Channel, (f x).credits = x.credits) : s.channelOnly (s.updChan p ch f) p ch :=
  ⟨by rw [core_updChan, chan_setChan, hf], rfl, List.suffix_rfl⟩

theorem State.sramOnly.channelOnly (h : s.sramOnly t p) (ch : Chan) : s.channelOnly t p ch :=
  ⟨by rw [h.chan], h.reqs, h.suffix⟩

theorem raise_channelOnly (s : State) (p : Pos) (ch : Chan) (code : Nat) (al : Option Nat) (payload : List (Nat × Nat)) (l : List Dest)
    (count : Nat) : s.channelOnly (s.raise code al payload l count) p ch :=
  (raise_sramOnly s p code al payload l count).channelOnly ch

theorem checkHalt_channelOnly (s : State) (p : Pos) (ch : Chan) : s.channelOnly (s.checkHalt p ch) p ch := by
  unfold State.checkHalt
  dsimp only
  split
  · exact .refl s p ch
  · split
    · exact .refl s p ch
    next l _ =>
      have hu : s.channelOnly (s.updChan p ch fun x => { x with
          halted := true, latch := some l, failed := ((s.core p).chan ch).failed.filter (· ≠ l) }) p ch :=
        updChan_channelOnly s p ch _ fun _ => rfl
      exact hu.trans (raise_channelOnly _ p ch _ _ _ _ _)

theorem deliverBytes_channelOnly (s : State) (p : Pos) (serial q : Nat) (l : List (Option Byte × Bool × Bool)) :
    s.channelOnly (s.deliverBytes p serial q l) p .load := by
  unfold State.deliverBytes
  split
  · exact .refl s p _
  next r _ =>
    dsimp only
    refine State.channelOnly.trans ?_ ((carterWrite_sramOnly _ p _).channelOnly _)
    exact updChan_channelOnly s p .load _ fun _ => rfl

/-- What a response does once its request is gone and its credit is back. -/
def State.booked (s : State) (r : Req) : State :=
  if r.status = 0 then
    let s := s.updChan r.core r.ch fun x => x.updRun r.serial fun t => { t with poison := t.poison || r.dirty || r.poison.any (· = true) }
    match r.ch with
    | .store => s.updChan r.core .store fun x => x.updRun r.serial fun t => { t with bytes := t.bytes + r.piece.len }
    | .load =>
      match (s.core r.core).load.running.find? (fun t => t.serial = r.serial) with
      | none => s
      | some t => s.deliverBytes r.core r.serial (t.d.offset r.piece)
          ((r.data.zipIdx).map fun e => (some e.1, (r.poison[(r.addr + e.2) / 16 - r.addr / 16]?).getD false, true))
  else if r.status = 4 then s.updChan r.core r.ch fun x => x.updRun r.serial fun t => { t with aborted := true }
  else s.updChan r.core r.ch fun x => { x with failed := x.failed ++
    [{ serial := r.serial, piece := r.piece, status := r.status, dpa := r.addr }] }

/-- The request is gone, and its channel has the credit back. -/
def State.credited (s : State) (id : Nat) (r : Req) : State :=
  ({ s with reqs := s.reqs.del id } : State).updChan r.core r.ch fun x =>
    { x.updRun r.serial (fun t => { t with outstanding := t.outstanding.erase r.piece }) with credits := x.credits + 1 }

theorem respond_eq (s : State) (id : Nat) (r : Req) : s.respond id r = ((s.credited id r).booked r).checkHalt r.core r.ch := rfl

theorem booked_channelOnly (s : State) (r : Req) : s.channelOnly (s.booked r) r.core r.ch := by
  unfold State.booked
  split
  · have hp := updChan_channelOnly s r.core r.ch
      (fun x => x.updRun r.serial fun t => { t with poison := t.poison || r.dirty || r.poison.any (· = true) }) fun _ => rfl
    refine hp.trans ?_
    dsimp only
    generalize s.updChan r.core r.ch _ = v
    cases r.ch with
    | store => exact updChan_channelOnly v r.core .store _ fun _ => rfl
    | load =>
      dsimp only
      split
      · exact .refl v _ _
      · exact deliverBytes_channelOnly v _ _ _ _
  · split
    · exact updChan_channelOnly s r.core r.ch _ fun _ => rfl
    · exact updChan_channelOnly s r.core r.ch _ fun _ => rfl

/-- A response takes its request away and gives its channel the credit back. -/
theorem respond_reqs (s : State) (id : Nat) (r : Req) : (s.respond id r).reqs = s.reqs.del id := by
  rw [respond_eq, (checkHalt_channelOnly _ _ _).reqs, (booked_channelOnly _ r).reqs]
  rfl

theorem respond_credits (s : State) (id : Nat) (r : Req) :
    (((s.respond id r).core r.core).chan r.ch).credits = ((s.core r.core).chan r.ch).credits + 1 := by
  rw [respond_eq, (checkHalt_channelOnly _ _ _).credits, (booked_channelOnly _ r).credits, State.credited, core_updChan, chan_setChan]
  rfl

theorem respond_suffix (s : State) (id : Nat) (r : Req) : s.events <:+ (s.respond id r).events := by
  rw [respond_eq]
  exact List.IsSuffix.trans (by exact List.suffix_rfl)
    ((booked_channelOnly (s.credited id r) r).suffix.trans (checkHalt_channelOnly _ _ _).suffix)

/-- The first failure of a channel with nothing else outstanding halts it (R219, R225). -/
theorem respond_halts {id : Nat} {r : Req} (h0 : r.status ≠ 0) (h4 : r.status ≠ 4) (hh : ((s.core r.core).chan r.ch).halted = false)
    (hf : ((s.core r.core).chan r.ch).failed = [])
    (ho : ∀ d ∈ ((s.core r.core).chan r.ch).running,
      (if d.serial = r.serial then d.outstanding.erase r.piece else d.outstanding) = []) :
    (((s.respond id r).core r.core).chan r.ch).halted = true ∧ s.raises (s.respond id r) evDmaHalt ∧
      (((s.respond id r).core r.core).chan r.ch).latch =
        some { serial := r.serial, piece := r.piece, status := r.status, dpa := r.addr } := by
  have hbook : (s.credited id r).booked r = (s.credited id r).updChan r.core r.ch fun x => { x with failed := x.failed ++
      [{ serial := r.serial, piece := r.piece, status := r.status, dpa := r.addr }] } := by
    unfold State.booked
    rw [if_neg h0, if_neg h4]
  have hx : ((s.credited id r).core r.core).chan r.ch = { (s.core r.core).chan r.ch with
      running := ((s.core r.core).chan r.ch).running.map fun d =>
        if d.serial = r.serial then { d with outstanding := d.outstanding.erase r.piece } else d
      credits := ((s.core r.core).chan r.ch).credits + 1 } := by
    rw [State.credited, core_updChan, chan_setChan]
    rfl
  have he : (s.credited id r).events = s.events := rfl
  rw [respond_eq, hbook]
  generalize s.credited id r = v at hx he ⊢
  generalize hw : v.updChan r.core r.ch _ = w
  have hwc : (w.core r.core).chan r.ch = { (s.core r.core).chan r.ch with
      running := ((s.core r.core).chan r.ch).running.map fun d =>
        if d.serial = r.serial then { d with outstanding := d.outstanding.erase r.piece } else d
      credits := ((s.core r.core).chan r.ch).credits + 1
      failed := [{ serial := r.serial, piece := r.piece, status := r.status, dpa := r.addr }] } := by
    rw [← hw, core_updChan, chan_setChan, hx, hf]
    rfl
  have hwe : w.events = s.events := by rw [← hw]; exact he
  have hgo : ¬ (((w.core r.core).chan r.ch).halted = true ∨
      ((w.core r.core).chan r.ch).running.any (fun r => !r.outstanding.isEmpty) = true) := by
    rw [hwc]
    dsimp only
    rw [hh]
    simp only [Bool.false_eq_true, false_or, List.any_map, List.any_eq_true, not_exists, not_and, Function.comp]
    intro d hd
    have := ho d hd
    split at this
    next hs => simp [if_pos hs, this]
    next hs => simp [if_neg hs, this]
  unfold State.checkHalt
  dsimp only
  rw [if_neg hgo]
  have hfail : ((w.core r.core).chan r.ch).failed = [{ serial := r.serial, piece := r.piece, status := r.status, dpa := r.addr }] := by
    rw [hwc]
  rw [hfail]
  dsimp only [earliest]
  generalize hz : w.updChan r.core r.ch _ = z
  have hzc : ((z.core r.core).chan r.ch).halted = true ∧ ((z.core r.core).chan r.ch).latch =
      some { serial := r.serial, piece := r.piece, status := r.status, dpa := r.addr } := by
    rw [← hz, core_updChan, chan_setChan]
    exact ⟨rfl, rfl⟩
  have hze : z.events = s.events := by rw [← hz]; exact hwe
  rw [State.core_congr (z.raise_cores _ _ _ _ _)]
  exact ⟨hzc.1, raises_of_suffix_left (hze ▸ List.suffix_rfl) (z.raise_raises _ _ _ _ _), hzc.2⟩

/-! ### The drain's bound (R223, R225) -/

theorem mem_del {α : Type} {m : Tab α} {k : Nat} {e : Nat × α} : e ∈ m.del k ↔ e ∈ m ∧ e.1 ≠ k := by
  simp [Tab.del]

/-- The well answers an outstanding request ABORTED. -/
def State.drainOne (s : State) (e : Nat × Req) : State := s.respond e.1 { e.2 with status := 4 }

theorem drainAll_reqs (l : List (Nat × Req)) : ∀ (s : State) {e : Nat × Req},
    e ∈ (l.foldl State.drainOne s).reqs ↔ e ∈ s.reqs ∧ ∀ d ∈ l, e.1 ≠ d.1 := by
  induction l with
  | nil => simp
  | cons d l ih =>
    intro s e
    rw [List.foldl_cons, ih, State.drainOne, respond_reqs, mem_del, List.forall_mem_cons, and_assoc]

theorem drainAll_suffix (l : List (Nat × Req)) (s : State) : s.events <:+ (l.foldl State.drainOne s).events :=
  foldl_suffix State.drainOne (fun t e => by rw [State.drainOne]; exact respond_suffix t e.1 _) l s

theorem execDmaDrainTimeout_eq {a : Nat} (ha : s.allotOf p.parish = some a) (hst : (s.allot a).st = .halted)
    (ho : ¬ (s.outstandingOf p .load).length + (s.outstandingOf p .store).length = 0) :
    execDmaDrainTimeout p s = .next ((((s.outstandingOf p .load ++ s.outstandingOf p .store).foldl State.drainOne s).updCore p
      fun c => { c with drained := true }).raiseA evDmaDrainTimeout a
        [(p.id, 4), ((s.outstandingOf p .load).length, 1), ((s.outstandingOf p .store).length, 1)]) := by
  unfold execDmaDrainTimeout
  simp only [ha, hst, ne_eq, not_true_eq_false, if_false, if_neg ho]
  rfl

/-- After the bound nothing of a channel is outstanding (R223). -/
theorem drainTimeout_ends {a : Nat} (ha : s.allotOf p.parish = some a) (hst : (s.allot a).st = .halted) {ch : Chan}
    (ho : s.outstandingOf p ch ≠ []) : leads (execDmaDrainTimeout p s) fun t =>
      t.outstandingOf p ch = [] ∧ s.raises t evDmaDrainTimeout := by
  have hmem {c : Chan} {e : Nat × Req} : e ∈ s.outstandingOf p c ↔ e ∈ s.reqs ∧ e.2.core = p ∧ e.2.ch = c := by
    simp [State.outstandingOf]
  have hlen : ¬ (s.outstandingOf p .load).length + (s.outstandingOf p .store).length = 0 := by
    have := List.length_pos_iff.2 ho
    cases ch <;> omega
  refine ⟨_, execDmaDrainTimeout_eq ha hst hlen, ?_⟩
  have hvr {e : Nat × Req} := (drainAll_reqs (s.outstandingOf p .load ++ s.outstandingOf p .store) s (e := e)).1
  have hve := drainAll_suffix (s.outstandingOf p .load ++ s.outstandingOf p .store) s
  generalize List.foldl State.drainOne s (s.outstandingOf p .load ++ s.outstandingOf p .store) = v at hvr hve ⊢
  generalize hw : v.updCore p _ = w
  have hwr : w.reqs = v.reqs := by rw [← hw]; rfl
  have hwe : s.events <:+ w.events := by rw [← hw]; exact hve
  have hr := raise_reqs w evDmaDrainTimeout (some a)
    [(p.id, 4), ((s.outstandingOf p .load).length, 1), ((s.outstandingOf p .store).length, 1)] [.allot a] 1
  refine ⟨?_, raises_of_suffix_left hwe (w.raise_raises _ _ _ _ _)⟩
  rw [State.outstandingOf, State.raiseA, hr, hwr, List.filter_eq_nil_iff]
  intro e he hc
  obtain ⟨hs, hd⟩ := hvr he
  have hc : e.2.core = p ∧ e.2.ch = ch := of_decide_eq_true hc
  refine hd e (List.mem_append.2 ?_) rfl
  cases ch
  · exact .inl (hmem.2 ⟨hs, hc⟩)
  · exact .inr (hmem.2 ⟨hs, hc⟩)

end Sys2Proof.Machine

/-- Settles O32: reading or writing data SRAM leaves channels and requests, so each clause is its rule's own branch. -/
theorem carterChannel : Obligations.CarterChannel := by
  unfold Obligations.CarterChannel
  intro p ch s
  dsimp only
  refine ⟨fun hrun => ⟨fun hi ha d rest hw => descriptorStart_starts hrun hi ha hw,
      fun hi r k redo hn ho hc hm => carterRequest_enters hrun hi hn ho hc hm⟩,
    fun r rest hr hm hb hw => ⟨fun hc => descriptorComplete_done hr hm hb hw hc, fun hrun hc => ?held⟩,
    fun id r hr hp hch hst hopen => ?response, fun a ha hst ho => drainTimeout_ends ha hst ho⟩
  case held =>
    have hno : (s.carterRuns p || (!r.aborted && !(s.core p).drained)) = false := by
      rcases hc with h | h <;> simp [hrun, h]
    refine next_congr ?_
    simp only [hr, hno, Bool.and_false, Bool.false_eq_true, if_false]
  case response =>
    subst hp
    subst hch
    have hexec : (if r.ch = .load then exec (.readResp id) s else exec (.writeAck id) s) =
        .next ((s.respond id r).stir r.core.parish) := by
      cases hch : r.ch
      · exact next_congr (by simp only [hr, hch, hst, hopen, and_self, if_true])
      · exact next_congr (by simp only [hr, hch, hst, hopen, and_self, if_true])
    rw [hexec]
    refine ⟨_, rfl, ?_, respond_credits s id r, fun h0 h4 hh hf ho => ?_⟩
    · exact (congrArg (Tab.find? · id) (respond_reqs s id r)).trans (Tab.find?_del_self _ _)
    · exact respond_halts h0 h4 hh hf ho

end

section
/-! What reset leaves; fuse commands and records; two statements on registers and repairs that fail (R32, R35, R387, R410, R437,
R439, R455, R467, R487). -/

open Sys2Proof Sys2Proof.Machine

namespace Sys2Proof.Machine

variable {s t : State}

/-! ### Reset (R32, R35, R243, R494) -/

theorem reset_mcRegs (m : Fin 64) : State.reset.reg (mcBase m + 0x38) = 8 ∧ State.reset.reg (mcBase m + 0x40) = 0x1801 := by
  revert m
  decide

theorem reset_portReg (p : Fin 64) : State.reset.reg (portBase p + 0x60) = 64 := by
  revert p
  decide

theorem reset_regRead : State.reset.regRead 0x40000 = 0 ∧ State.reset.regRead 0xA00000 = 0 ∧ State.reset.regRead 0xA00088 = 0 := by
  decide

theorem reset_readPwr (p : Nat) : State.reset.readPwr p 0x4000 = 0 ∧ State.reset.readPwr p 0x4010 = 256 := by
  have hp : State.reset.parish p = {} := rfl
  have hs : State.reset.started = false := rfl
  constructor
  · unfold State.readPwr
    rw [hs]
    rfl
  · unfold State.readPwr
    rw [hs, hp, if_neg (by decide), if_pos rfl]
    decide

theorem reset_core (p : Pos) : State.reset.core p = {} := rfl

/-! ### Fuse commands (R410, R439, R455) -/

theorem fuseEntry_congr (h : t.reg 0xA00040 = s.reg 0xA00040) : t.fuseEntry = s.fuseEntry :=
  congrArg (BitVec.setWidth 32) h

theorem ownerHash_congr (h : ∀ i, i < 4 → t.reg (configBase + 0x48 + 8 * i) = s.reg (configBase + 0x48 + 8 * i)) :
    t.ownerHash = s.ownerHash := by
  unfold State.ownerHash
  congr 2
  exact List.map_congr_left fun i hi => by rw [h i (List.mem_range.mp hi)]

/-- The refusal flag of CFG_STATUS reads back. -/
theorem bit_orReg (s : State) (o k : Nat) (hk : k < 64) : bit ((s.orReg o (BitVec.ofNat 64 (2 ^ k))).reg o) k = true := by
  have hpow : (2 ^ k : Nat) % 2 ^ 64 = 2 ^ k := Nat.mod_eq_of_lt (Nat.pow_lt_pow_right (by decide) hk)
  rw [State.orReg, State.reg_setReg_self, bit, BitVec.toNat_or, Nat.testBit_or, BitVec.toNat_ofNat, hpow, Nat.testBit_two_pow_self,
    Bool.or_true]

/-- A fuse command that passes the gate with nothing in progress is refused with its flag, or begun. -/
theorem fuseCmd_outcome {path : RegPath} (hg : s.gate path 0xA00068 true = (t, true)) (hb : t.fuses.busy = none) (word : Nat)
    (refused : State → Bool) (op : State → FuseOp) {r : Bool} {f : FuseOp}
    (hr : refused (t.setReg 0xA00068 (BitVec.ofNat 64 word)) = r) (hf : op (t.setReg 0xA00068 (BitVec.ofNat 64 word)) = f) :
    if r then (s.fuseCmd path word refused op).fuses = t.fuses ∧ bit ((s.fuseCmd path word refused op).reg 0xA00070) 1 = true
    else (s.fuseCmd path word refused op).fuses = { t.fuses with busy := some f } := by
  have hcmd : s.fuseCmd path word refused op = if r then (t.setReg 0xA00068 (BitVec.ofNat 64 word)).orReg 0xA00070 2
      else { t.setReg 0xA00068 (BitVec.ofNat 64 word) with fuses := { t.fuses with busy := some f } } := by
    have hfree : ¬ t.fuses.busy.isSome = true := by simp [hb]
    have hpass := writeNow_passes hg fun s =>
      if s.fuses.busy.isSome then s.orReg cfgStatus cfgCmdWhileBusy
      else
        let s := s.setReg (configBase + 0x68) (BitVec.ofNat 64 word)
        if refused s then s.orReg cfgStatus cfgRefused else { s with fuses := { s.fuses with busy := some (op s) } }
    rw [if_neg hfree] at hpass
    rw [← hr, ← hf]
    exact hpass
  rw [hcmd]
  split
  · exact ⟨rfl, bit_orReg _ 0xA00070 1 (by decide)⟩
  · rfl

/-! ### Records (R387, R437) -/

theorem mem_all_put (d : RecRegion) (r : StoreRec) : r ∈ (d.put r).all := by
  simp [RecRegion.put, RecRegion.all]

theorem mem_all_append (r : StoreRec) : ∀ (fuel : Nat) (d : RecRegion), r ∈ (RecRegion.append r fuel d).all
  | 0, d => mem_all_put d r
  | fuel + 1, d => by
    unfold RecRegion.append
    dsimp only
    split_ifs
    · exact mem_all_append r fuel _
    · exact mem_all_put d r
    · exact mem_all_append r fuel _

/-- What a device's failure to take an append reports: an event, with fuses, store and boot as they were. -/
theorem appendFails_keeps (s : State) (typ : Nat) (a b : Bool) :
    (s.appendFails typ a b).store = s.store ∧ (s.appendFails typ a b).fuses = s.fuses ∧ (s.appendFails typ a b).boot = s.boot := by
  have hraise (s : State) (l : List (Nat × Nat)) : (s.raise evRecordAppendFail none l []).store = s.store ∧
      (s.raise evRecordAppendFail none l []).fuses = s.fuses ∧ (s.raise evRecordAppendFail none l []).boot = s.boot := by
    obtain ⟨_, _, _, _, _, _, _, h⟩ := s.raise_eq evRecordAppendFail none l [] 1
    rw [h]
    exact ⟨rfl, rfl, rfl⟩
  cases a <;> cases b
  · simp [State.appendFails, hraise]
  · simp [State.appendFails, hraise]
  · simp [State.appendFails, hraise]
  · simp [State.appendFails]

theorem appendWear_store (s : State) (trims : List (Nat × Int)) (slack : List (Nat × Nat)) (a b : Bool) :
    (s.appendWear trims slack a b).store = s.store.append (.wear (s.wearNow trims slack)) a b := by
  unfold State.appendWear
  dsimp only
  refine (appendFails_keeps _ 1 a b).1.trans ?_
  split <;> rfl

theorem appendWear_fuses (s : State) (trims : List (Nat × Int)) (slack : List (Nat × Nat)) (a b : Bool) :
    (s.appendWear trims slack a b).fuses = s.fuses := by
  unfold State.appendWear
  dsimp only
  refine (appendFails_keeps _ 1 a b).2.1.trans ?_
  split <;> rfl

theorem appendFails_raises (s : State) (typ : Nat) {a b : Bool} (h : a = false ∨ b = false) :
    s.raises (s.appendFails typ a b) evRecordAppendFail := by
  cases a with
  | true =>
    obtain rfl : b = false := h.resolve_left (by decide)
    exact s.raise_raises _ _ _ _ _
  | false =>
    cases b with
    | true => exact s.raise_raises _ _ _ _ _
    | false => exact raises_of_suffix_right (s.raise_raises _ _ _ _ _) (raise_suffix _ _ _ _ _ _)

theorem appendWear_raises (s : State) (trims : List (Nat × Int)) (slack : List (Nat × Nat)) {a b : Bool} (h : a = false ∨ b = false) :
    s.raises (s.appendWear trims slack a b) evRecordAppendFail := by
  unfold State.appendWear
  dsimp only
  refine raises_of_suffix_left ?_ (appendFails_raises _ 1 h)
  split <;> exact List.suffix_refl _

/-! ### A core's write of SHUTDOWN (R455, R487) -/

/-- A module that is READY, and else as reset leaves it. -/
def State.readied : State := { State.reset with pins := { State.reset.pins with pwrGood := true }, boot := { State.reset.boot with st := .ready } }

/-- A core's write does not reach a register outside its parish. -/
theorem gate_unreached {s : State} {path : RegPath} {o : Nat} (h : s.reaches path o = false) (rwk : Bool) :
    s.gate path o rwk = (s, false) := by
  simp [State.gate, h]

/-- A write that the gate stops leaves what the gate leaves. -/
theorem writeNow_stopped {path : RegPath} {o : Nat} {rwk : Bool} (h : s.gate path o rwk = (t, false)) (eff : State → State) :
    s.writeNow path o rwk eff = t := by
  simp only [State.writeNow, h, Bool.false_eq_true, if_false]

/-- The write of SHUTDOWN draws its two outcomes before its gate is asked, so a core's write, which the gate stops, leaves them
drawn. -/
theorem regWrite_core_shutdown (s : State) (p : Pos) : s.regWrite (.core p) 0xA00080 1 = s.drawn := by
  have hreach : s.drawn.reaches (.core p) 0xA00080 = false := by
    simp [State.reaches, parishOfOff]
  have hstop := writeNow_stopped (gate_unreached hreach true)
    fun t => (t.setReg (configBase + 0x80) 1).shutDown s.sentinels (bit s.draw 0, bit s.draw 1)
  rw [← hstop]
  rfl

/-! ### A soft repair whose report reaches a port that no module has (R467, R480) -/

/-- A row that awaits its soft repair: its bit is in a register of DEADMAP that lies a multiple of 0x1000 beyond the counter of
frames sent of a host port. -/
def strayRepair : Repair := { parish := 0, col := 2, row := 65 }

/-- A module for management only, with that repair, in whose one allotment the report goes to a session on a QP of port 881:
that port's counter of frames sent is the register of the repair's bit. -/
def State.strayPort : State :=
  { State.reset with
      pins := { State.reset.pins with pwrGood := true }
      boot := { State.reset.boot with st := .mgmtOnly }
      ras := { State.reset.ras with repairs := [strayRepair] }
      allots := [(0, { st := .idle, parishes := 1 })]
      ses := [(0, {})]
      qps := [(0, { port := 881 })] }

/-- The two frames of the report, counted in the register, carry the bit of the repair away. -/
theorem applyRepair_strayPort : (State.strayPort.applyRepair strayRepair).rowDead 0 2 65 = false := by decide +kernel

end Sys2Proof.Machine

/-- Settles O53: the fields of the reset state, and its registers by their reset values. -/
theorem resetState : Obligations.ResetState := by
  refine ⟨rfl, rfl, rfl, rfl, rfl, rfl, rfl, rfl, rfl, rfl, ?steady, rfl, rfl, rfl, rfl, reset_mcRegs, reset_portReg,
    reset_regRead.1, reset_regRead.2.1, reset_regRead.2.2, reset_readPwr, fun p => by rw [reset_core]; exact ⟨rfl, rfl, rfl⟩⟩
  case steady => exact fun k h hb => nomatch hb

/-- Settles O56: the gate of FUSE_CMD, the two ends of a programming, and an append to each device that takes it. -/
theorem fusesAndRecords : Obligations.FusesAndRecords := by
  unfold Obligations.FusesAndRecords
  intro s
  refine ⟨fun path t hg hb => ⟨?append, fun k => ⟨?revokeKey, ?program, ?revoke⟩⟩, fun op hop => ⟨?done, ?failed⟩,
    fun l a b => ⟨fun hst => ?kept, fun hst hup => ?wear⟩⟩
  case append =>
    have hentry : (t.setReg 0xA00068 (BitVec.ofNat 64 1)).fuseEntry = t.fuseEntry :=
      fuseEntry_congr (reg_setReg_ne t _ (by decide))
    exact ⟨_, rfl, fuseCmd_outcome hg hb 1 _ _ (by rw [hentry]; rfl) (by rw [hentry])⟩
  case revokeKey => exact ⟨_, rfl, fuseCmd_outcome hg hb _ _ _ rfl rfl⟩
  case program =>
    have hhash : (t.setReg 0xA00068 (BitVec.ofNat 64 (3 + 16 * k.toNat))).ownerHash = t.ownerHash :=
      ownerHash_congr fun i hi => reg_setReg_ne t _ (by rw [show configBase = 0xA00000 from rfl]; omega)
    exact ⟨_, rfl, fuseCmd_outcome hg hb _ _ _ rfl (by rw [hhash])⟩
  case revoke => exact ⟨_, rfl, fuseCmd_outcome hg hb _ _ _ rfl rfl⟩
  case done =>
    refine next_congr ?_
    rw [hop]
    rfl
  case failed =>
    have hend : exec (.fuseProgrammingDone false) s =
        .next ({ s with fuses := { s.fuses with busy := none } }.orReg cfgStatus cfgProgramFail) := by
      refine next_congr ?_
      rw [hop]
      rfl
    exact ⟨_, hend, rfl, bit_orReg _ 0xA00070 2 (by decide)⟩
  case kept => exact next_congr (if_pos hst)
  case wear =>
    have hrun : exec (.wearAppend l a b) s =
        .next (s.appendWear (s.movedTrims l) (l.map fun e => (e.1.val, e.2)) a b) :=
      next_congr ((if_neg hst).trans (if_pos hup))
    refine ⟨_, hrun, ?_⟩
    dsimp only
    rw [appendWear_store, appendWear_fuses]
    refine ⟨rfl, ?recsA, ?recsB, fun h => appendWear_raises s _ _ h, rfl⟩
    case recsA =>
      cases a with
      | true => exact mem_all_append _ 16 _
      | false => rfl
    case recsB =>
      cases b with
      | true => exact mem_all_append _ 16 _
      | false => rfl

/-- Refutes O59: a core's write of 1 to SHUTDOWN (R455), a register of another block, draws the outcomes of the append it does not
make. -/
theorem not_registerEffects : ¬ Obligations.RegisterEffects := by
  unfold Obligations.RegisterEffects
  intro h
  obtain ⟨-, -, -, -, hcore⟩ := h State.readied 1 rfl
  obtain ⟨hother, -⟩ := hcore { parish := 0, col := 0, row := 0 } 0xA00080 rfl
  have hstep : State.readied.regWrite (.core { parish := 0, col := 0, row := 0 }) 0xA00080 1 = State.readied :=
    Host.Outcome.next.inj (hother (by decide))
  rw [regWrite_core_shutdown] at hstep
  exact absurd (congrArg State.fresh hstep) (by decide)

/-- Refutes O60: the frames that carry the report are counted at the port of the session's QP, and no premise says that this is a
port of the module: port 881's counter is the register of DEADMAP that the repair has just written. -/
theorem not_faultSteward : ¬ Obligations.FaultSteward := by
  unfold Obligations.FaultSteward
  intro h
  obtain ⟨hrepair, -⟩ := h State.strayPort
  obtain ⟨t, ht, -, -, hdead⟩ := hrepair 0 strayRepair rfl rfl rfl
  have hrun : t = State.strayPort.applyRepair strayRepair := (Host.Outcome.next.inj ht).symm
  have hset : (State.strayPort.applyRepair strayRepair).rowDead 0 2 65 = true := hrun ▸ hdead (by decide)
  exact absurd hset (by rw [applyRepair_strayPort]; decide)

end

section
/-! What the link layer changes: queues, credits and retry buffers of the ports it works on, and nothing else but what it sends, counts
and reports (R283 to R300, R304). -/

open Sys2Proof Sys2Proof.Machine

namespace Sys2Proof.Machine

variable {s t u : State}

/-! ### What a report sends and counts (R328, R367, R370, R480) -/

/-- What is sent stays sent, and the registers below the counters of events stay. -/
def State.reportsLow (s t : State) : Prop := s.out <:+ t.out ∧ ∀ o, o < 0x60180 → t.reg o = s.reg o

theorem State.reportsLow.trans (h : s.reportsLow t) (g : t.reportsLow u) : s.reportsLow u :=
  ⟨h.1.trans g.1, fun o ho => (g.2 o ho).trans (h.2 o ho)⟩

theorem State.reportsLow.refl (s : State) : s.reportsLow s := ⟨List.suffix_rfl, fun _ _ => rfl⟩

theorem bump_reportsLow (s : State) {o : Nat} (n : Nat) (h : 0x60180 ≤ o) : s.reportsLow (s.bump o n) :=
  ⟨List.suffix_rfl, fun _ hk => State.reg_bump_ne s n (by omega)⟩

theorem send_reportsLow (s : State) (o : Out) : s.reportsLow (s.send o) := ⟨List.suffix_cons o _, fun _ _ => rfl⟩

theorem setSes_reportsLow (s : State) (id : Nat) (x : Session) : s.reportsLow { s with ses := s.ses.put id x } :=
  ⟨List.suffix_rfl, fun _ _ => rfl⟩

theorem postEvent_reportsLow (s : State) (id j : Nat) (e : Event) : s.reportsLow (s.postEvent id j e) := by
  unfold State.postEvent State.writeEvent State.writeSlot State.txOn
  split
  · exact .refl s
  · dsimp only
    split
    · refine State.reportsLow.trans ?_ (bump_reportsLow _ 2 (by omega))
      refine State.reportsLow.trans ?_ (send_reportsLow _ _)
      refine State.reportsLow.trans ?_ (send_reportsLow _ _)
      exact (setSes_reportsLow s id _).trans (send_reportsLow _ _)
    · exact setSes_reportsLow s id _

theorem deliver_reportsLow (s : State) (e : Event) (d : Dest) : s.reportsLow (s.deliver e d) :=
  State.deliver_induction (fun t id j h => h.trans (postEvent_reportsLow t id j e)) (.refl s) d

theorem raise_reportsLow (s : State) (code : Nat) (al : Option Nat) (payload : List (Nat × Nat)) (l : List Dest) (count : Nat) :
    s.reportsLow (s.raise code al payload l count) := by
  have hdest (e : Event) (l : List Dest) (u : State) : u.reportsLow (l.foldl (fun t d => t.deliver e d) u) :=
    List.foldlRecOn l _ (State.reportsLow.refl u) fun t h d _ => h.trans (deliver_reportsLow t e d)
  unfold State.raise State.raiseEvent
  dsimp only
  generalize hv : State.bump _ _ = v
  have hsv : s.reportsLow v := hv ▸ bump_reportsLow { s with events := _ :: s.events } 1 (by omega)
  refine State.reportsLow.trans ?_ (hdest _ l _)
  split
  · exact hsv.trans ⟨List.suffix_cons _ _, fun _ _ => rfl⟩
  · exact hsv

/-! ### What the link layer can change of a state -/

/-- What the wires of the ports and their reports change of a state; the events are added to the log. -/
structure State.wireOnly (s t : State) : Prop where
  rest : ∃ ports regs out clk ses unread pins stopped events,
    t = { s with ports := ports, regs := regs, out := out, clk := clk, ses := ses, unreadBoard := unread, pins := pins,
                 boot := { s.boot with stopped := stopped }, events := events }
  log : s.events <:+ t.events
  sent : s.out <:+ t.out

theorem State.wireOnly.refl (s : State) : s.wireOnly s := ⟨⟨_, _, _, _, _, _, _, _, _, rfl⟩, List.suffix_rfl, List.suffix_rfl⟩

theorem State.wireOnly.trans (h : s.wireOnly t) (g : t.wireOnly u) : s.wireOnly u := by
  refine ⟨?_, h.log.trans g.log, h.sent.trans g.sent⟩
  obtain ⟨_, _, _, _, _, _, _, _, _, rfl⟩ := h.rest
  obtain ⟨_, _, _, _, _, _, _, _, _, rfl⟩ := g.rest
  exact ⟨_, _, _, _, _, _, _, _, _, rfl⟩

/-- What ports, routing and their reports change of a state; the events are added to the log. -/
structure State.linkOnly (s t : State) : Prop where
  rest : ∃ ports regs out clk ses unread pins stopped st cause fabWait fabLocal reqs allots guestReqs fresh events,
    t = { s with ports := ports, regs := regs, out := out, clk := clk, ses := ses, unreadBoard := unread, pins := pins,
                 boot := { s.boot with stopped := stopped, st := st, cause := cause }, fabWait := fabWait, fabLocal := fabLocal,
                 reqs := reqs, allots := allots, guestReqs := guestReqs, fresh := fresh, events := events }
  log : s.events <:+ t.events

theorem State.linkOnly.refl (s : State) : s.linkOnly s :=
  ⟨⟨_, _, _, _, _, _, _, _, _, _, _, _, _, _, _, _, _, rfl⟩, List.suffix_rfl⟩

theorem State.linkOnly.trans (h : s.linkOnly t) (g : t.linkOnly u) : s.linkOnly u := by
  refine ⟨?_, h.log.trans g.log⟩
  obtain ⟨_, _, _, _, _, _, _, _, _, _, _, _, _, _, _, _, _, rfl⟩ := h.rest
  obtain ⟨_, _, _, _, _, _, _, _, _, _, _, _, _, _, _, _, _, rfl⟩ := g.rest
  exact ⟨_, _, _, _, _, _, _, _, _, _, _, _, _, _, _, _, _, rfl⟩

theorem State.wireOnly.linkOnly (h : s.wireOnly t) : s.linkOnly t := by
  refine ⟨?_, h.log⟩
  obtain ⟨_, _, _, _, _, _, _, _, _, rfl⟩ := h.rest
  exact ⟨_, _, _, _, _, _, _, _, _, _, _, _, _, _, _, _, _, rfl⟩

/-- A change of the wires' reports that leaves every port as it is. -/
structure State.still (s t : State) : Prop extends s.wireOnly t where
  ports : t.ports = s.ports

theorem State.still.refl (s : State) : s.still s := ⟨.refl s, rfl⟩

theorem State.still.trans (h : s.still t) (g : t.still u) : s.still u := ⟨h.towireOnly.trans g.towireOnly, g.ports.trans h.ports⟩

theorem still_foldl {α : Type} (f : State → α → State) (hf : ∀ (s : State) (a : α), s.still (f s a)) (l : List α) :
    ∀ s : State, s.still (l.foldl f s) := by
  induction l with
  | nil => exact .refl
  | cons a t ih => exact fun s => (hf s a).trans (ih _)

/-- A change of routing's reports that leaves every port as it is. -/
structure State.aside (s t : State) : Prop extends s.linkOnly t where
  ports : t.ports = s.ports

theorem State.still.aside (h : s.still t) : s.aside t := ⟨h.towireOnly.linkOnly, h.ports⟩

theorem State.aside.refl (s : State) : s.aside s := ⟨.refl s, rfl⟩

theorem State.aside.trans (h : s.aside t) (g : t.aside u) : s.aside u := ⟨h.tolinkOnly.trans g.tolinkOnly, g.ports.trans h.ports⟩

theorem State.aside.port (h : s.aside t) (p : Nat) : t.port p = s.port p := by
  rw [State.port, h.ports, State.port]

theorem aside_foldl {α : Type} (f : State → α → State) (hf : ∀ (s : State) (a : α), s.aside (f s a)) (l : List α) :
    ∀ s : State, s.aside (l.foldl f s) := by
  induction l with
  | nil => exact .refl
  | cons a t ih => exact fun s => (hf s a).trans (ih _)

theorem setReg_still (s : State) (o : Nat) (v : DWord) : s.still (s.setReg o v) :=
  ⟨⟨⟨_, _, _, _, _, _, _, _, _, rfl⟩, List.suffix_rfl, List.suffix_rfl⟩, rfl⟩

theorem bump_still (s : State) (o n : Nat) : s.still (s.bump o n) := setReg_still s _ _

theorem bump_aside (s : State) (o n : Nat) : s.aside (s.bump o n) := (bump_still s o n).aside

theorem send_still (s : State) (o : Out) : s.still (s.send o) :=
  ⟨⟨⟨_, _, _, _, _, _, _, _, _, rfl⟩, List.suffix_rfl, List.suffix_cons o _⟩, rfl⟩

theorem send_aside (s : State) (o : Out) : s.aside (s.send o) := (send_still s o).aside

theorem raise_still (s : State) (code : Nat) (al : Option Nat) (payload : List (Nat × Nat)) (l : List Dest) (count : Nat) :
    s.still (s.raise code al payload l count) := by
  have hsent := (raise_reportsLow s code al payload l count).1
  obtain ⟨e, _, _, _, _, _, _, h⟩ := s.raise_eq code al payload l count
  rw [h] at hsent ⊢
  exact ⟨⟨⟨_, _, _, _, _, _, _, _, _, rfl⟩, List.suffix_cons e _, hsent⟩, rfl⟩

theorem raise_aside (s : State) (code : Nat) (al : Option Nat) (payload : List (Nat × Nat)) (l : List Dest) (count : Nat) :
    s.aside (s.raise code al payload l count) := (raise_still s code al payload l count).aside

theorem deliver_aside (s : State) (e : Event) (d : Dest) : s.aside (s.deliver e d) := by
  obtain ⟨_, _, _, h⟩ := s.deliver_onlyDelivers e d
  rw [h]
  exact ⟨⟨⟨_, _, _, _, _, _, _, _, _, _, _, _, _, _, _, _, _, rfl⟩, List.suffix_rfl⟩, rfl⟩

theorem drawn_aside (s : State) : s.aside s.drawn :=
  ⟨⟨⟨_, _, _, _, _, _, _, _, _, _, _, _, _, _, _, _, _, rfl⟩, List.suffix_rfl⟩, rfl⟩

theorem setAllot_aside (s : State) (a : Nat) (x : Allot) : s.aside (s.setAllot a x) :=
  ⟨⟨⟨_, _, _, _, _, _, _, _, _, _, _, _, _, _, _, _, _, rfl⟩, List.suffix_rfl⟩, rfl⟩

theorem chargeCur_aside (s : State) (a : Nat) : s.aside (s.chargeCur a) := by
  unfold State.chargeCur State.chargeRun
  split
  · exact setAllot_aside s a _
  · exact .refl s

theorem degrade_aside (s : State) (n : Nat) : s.aside (s.degrade n) := by
  unfold State.degrade
  split
  · dsimp only
    split
    · refine State.aside.trans ?_ (raise_aside _ _ _ _ _ _)
      exact ⟨⟨⟨_, _, _, _, _, _, _, _, _, _, _, _, _, _, _, _, _, rfl⟩, List.suffix_rfl⟩, rfl⟩
    · exact ⟨⟨⟨_, _, _, _, _, _, _, _, _, _, _, _, _, _, _, _, _, rfl⟩, List.suffix_rfl⟩, rfl⟩
  · exact .refl s

theorem portDegrade_aside (s : State) (p : Nat) : s.aside (s.portDegrade p) := by
  unfold State.portDegrade
  split
  · exact degrade_aside s 4
  · exact .refl s

theorem unroutable_aside (s : State) (feid typ cause : Nat) (arr : Option Nat) (tag : Nat) :
    s.aside (s.unroutable feid typ cause arr tag) := raise_aside s _ _ _ _ _

/-- The selected source is judged: the mux goes over to REF, or the module stops (R229, R235). -/
theorem judgeSelected_still (s : State) (cause : Nat) : s.still (s.judgeSelected cause false) := by
  have hfail (s : State) (x : Src) (cause : Nat) : s.still (s.failover x cause false) := by
    unfold State.failover State.forceSwitch
    refine State.still.trans ?_ (raise_still _ _ _ _ _ _)
    exact ⟨⟨⟨_, _, _, _, _, _, _, _, _, rfl⟩, List.suffix_rfl, List.suffix_rfl⟩, rfl⟩
  unfold State.judgeSelected State.stopService
  dsimp only
  split_ifs
  · exact .refl s
  · exact ⟨⟨⟨_, _, _, _, _, _, _, _, _, rfl⟩, List.suffix_rfl, List.suffix_rfl⟩, rfl⟩
  · exact hfail s _ _
  · exact .refl s

/-- A gap in the edges of TLANE or SYNCE fails it, and it is judged. -/
theorem edgeGap_still (s : State) {src : Src} (h : src = .tlane ∨ src = .synce) : s.still (s.edgeGap src false) := by
  have hset (c : Clk) (o : Nat) (v : DWord) : s.still ({ s with clk := c }.setReg o v) :=
    ⟨⟨⟨_, _, _, _, _, _, _, _, _, rfl⟩, List.suffix_rfl, List.suffix_rfl⟩, rfl⟩
  unfold State.edgeGap
  dsimp only
  split
  · exact .refl s
  rcases h with rfl | rfl
  · exact (hset _ _ _).trans (judgeSelected_still _ 1)
  · exact (hset _ _ _).trans (judgeSelected_still _ 1)

/-- The time lane lost. -/
theorem timeLane_still (s : State) : s.still s.timeLane := by
  unfold State.timeLane
  split
  · exact .refl s
  · exact edgeGap_still s (.inl rfl)

theorem timeLane_aside (s : State) : s.aside s.timeLane := (timeLane_still s).aside

/-! ### What sending changes of a port -/

/-- What sending changes of a port: its queues, credits and retry buffers; and one that drains may be done. -/
def Port.moves (x y : Port) : Prop :=
  ∃ queued credits ctrl classes h0 n0 h1 n1 st parked,
    y = { x with queued := queued, credits := credits, ctrl := ctrl, sentClasses := classes
                 g0 := { x.g0 with held := h0, sendSeq := n0 }, g1 := { x.g1 with held := h1, sendSeq := n1 }
                 st := st, parkedRed := parked } ∧
    ((st = x.st ∧ parked = x.parkedRed) ∨ (x.st = .draining ∧ st = .disabled))

variable {x y z : Port}

theorem Port.moves.refl (x : Port) : x.moves x := ⟨_, _, _, _, _, _, _, _, _, _, rfl, .inl ⟨rfl, rfl⟩⟩

theorem Port.moves.trans (h : x.moves y) (g : y.moves z) : x.moves z := by
  obtain ⟨_, _, _, _, _, _, _, _, st, parked, rfl, hst⟩ := h
  obtain ⟨_, _, _, _, _, _, _, _, st', parked', rfl, hst'⟩ := g
  refine ⟨_, _, _, _, _, _, _, _, _, _, rfl, ?_⟩
  rcases hst' with ⟨h1, h2⟩ | ⟨h1, h2⟩
  · rcases hst with ⟨g1, g2⟩ | ⟨g1, g2⟩
    · exact .inl ⟨h1.trans g1, h2.trans g2⟩
    · exact .inr ⟨g1, h1.trans g2⟩
  · rcases hst with ⟨g1, -⟩ | ⟨g1, -⟩
    · exact .inr ⟨g1 ▸ h1, h2⟩
    · exact .inr ⟨g1, h2⟩

/-- A port that does not drain keeps its state. -/
theorem Port.moves.st_eq (h : x.moves y) (hx : x.st ≠ .draining) : y.st = x.st := by
  obtain ⟨_, _, _, _, _, _, _, _, _, _, rfl, ⟨hst, -⟩ | ⟨hdr, -⟩⟩ := h
  · exact hst
  · exact absurd hdr hx

/-- What sending leaves of a group. -/
structure Group.keeps (x y : Group) : Prop where
  ok : y.ok = x.ok
  recvSeq : y.recvSeq = x.recvSeq
  lastAck : y.lastAck = x.lastAck
  discarding : y.discarding = x.discarding

theorem Port.moves.group (h : x.moves y) (g : Nat) : (x.group g).keeps (y.group g) := by
  obtain ⟨_, _, _, _, _, _, _, _, _, _, rfl, -⟩ := h
  unfold Port.group
  split <;> exact ⟨rfl, rfl, rfl, rfl⟩

theorem Port.moves.usable (h : x.moves y) (hx : x.st ≠ .draining) : y.usable = x.usable := by
  rw [Port.usable, h.st_eq hx, Port.usable]

/-! ### Sending at one port (R283, R285, R294) -/

/-- A change at one port, which sends. -/
structure State.atPort (p : Nat) (s t : State) : Prop extends s.wireOnly t where
  here : (s.port p).moves (t.port p)
  others : ∀ q, q ≠ p → t.port q = s.port q

theorem State.still.atPort (h : s.still t) (p : Nat) : State.atPort p s t :=
  ⟨h.towireOnly, by rw [h.aside.port]; exact .refl _, fun q _ => h.aside.port q⟩

theorem State.atPort.tolinkOnly {p : Nat} (h : State.atPort p s t) : s.linkOnly t := h.towireOnly.linkOnly

theorem State.atPort.trans {p : Nat} (h : State.atPort p s t) (g : State.atPort p t u) : State.atPort p s u :=
  ⟨h.towireOnly.trans g.towireOnly, h.here.trans g.here, fun q hq => (g.others q hq).trans (h.others q hq)⟩

theorem setPort_wireOnly (s : State) (p : Nat) (x : Port) : s.wireOnly (s.setPort p x) :=
  ⟨⟨_, _, _, _, _, _, _, _, _, rfl⟩, List.suffix_rfl, List.suffix_rfl⟩

theorem setPort_linkOnly (s : State) (p : Nat) (x : Port) : s.linkOnly (s.setPort p x) := (setPort_wireOnly s p x).linkOnly

theorem setPort_atPort {p : Nat} (h : (s.port p).moves x) : State.atPort p s (s.setPort p x) :=
  ⟨setPort_wireOnly s p x, by rw [State.port_setPort]; exact h, fun q hq => State.port_setPort_ne s x hq⟩

theorem takeFlit_moves (x : Port) (q : Queued) : x.moves (x.takeFlit q).1 := by
  unfold Port.takeFlit
  dsimp only
  split <;> exact ⟨_, _, _, _, _, _, _, _, _, _, rfl, .inl ⟨rfl, rfl⟩⟩

theorem fill_moves : ∀ (n : Nat) (x : Port), x.moves (x.fill n).1
  | 0, x => .refl x
  | n + 1, x => by
    unfold Port.fill
    split
    · exact .refl x
    next q _ => exact (takeFlit_moves x q).trans (fill_moves n _)

theorem setGroup_hold_moves (x : Port) (g : Nat) (m : BitVec 10) (items : List LinkItem) (n : Nat) :
    x.moves (x.setGroup g ((x.group g).hold m items n)) := by
  unfold Port.setGroup Port.group Group.hold
  split <;> exact ⟨_, _, _, _, _, _, _, _, _, _, rfl, .inl ⟨rfl, rfl⟩⟩

theorem sendItems_still (s : State) (p : Nat) (l : List LinkItem) : s.still (l.foldl (fun s i => s.sendItem p i) s) :=
  still_foldl (fun s i => s.sendItem p i) (fun s i => send_still s (i.out p)) l s

theorem sendItems_aside (s : State) (p : Nat) (l : List LinkItem) : s.aside (l.foldl (fun s i => s.sendItem p i) s) :=
  (sendItems_still s p l).aside

theorem retryPeak_still (s : State) (p : Nat) (y : Group) : s.still (s.retryPeak p y) := setReg_still s _ _

theorem retryPeak_aside (s : State) (p : Nat) (y : Group) : s.aside (s.retryPeak p y) := (retryPeak_still s p y).aside

theorem formCodeword_atPort {p : Nat} (h : s.formCodeword p = some t) : State.atPort p s t := by
  unfold State.formCodeword at h
  dsimp only at h
  split at h
  · cases h
  next g _ =>
    split_ifs at h
    cases h
    generalize hr : Port.fill _ _ = r
    have hmv : (s.port p).moves r.1 := by
      rw [← hr]
      refine Port.moves.trans (y := { s.port p with ctrl := (s.port p).ctrl.drop 10 }) ?_ (fill_moves _ _)
      exact ⟨_, _, _, _, _, _, _, _, _, _, rfl, .inl ⟨rfl, rfl⟩⟩
    refine State.atPort.trans ?_ ((sendItems_still _ p _).atPort p)
    refine State.atPort.trans ?_ ((retryPeak_still _ p _).atPort p)
    refine State.atPort.trans ?_ ((bump_still _ _ _).atPort p)
    exact setPort_atPort (hmv.trans (setGroup_hold_moves _ g _ _ _))

theorem pumpLoop_atPort (p : Nat) : ∀ (n : Nat) (s : State), State.atPort p s (s.pumpLoop p n)
  | 0, s => (State.still.refl s).atPort p
  | n + 1, s => by
    unfold State.pumpLoop
    split
    · exact (State.still.refl s).atPort p
    next t h => exact (formCodeword_atPort h).trans (pumpLoop_atPort p n t)

theorem pump_atPort (s : State) (p : Nat) : State.atPort p s (s.pump p) := by
  unfold State.pump
  dsimp only
  generalize hn : (s.port p).ctrl.length + _ = n
  have hloop := pumpLoop_atPort p n s
  generalize s.pumpLoop p n = t at hloop
  split
  next h =>
    refine hloop.trans (State.atPort.trans (setPort_atPort ?_) ((timeLane_still _).atPort p))
    exact ⟨_, _, _, _, _, _, _, _, _, _, rfl, .inr ⟨h.1, rfl⟩⟩
  · exact hloop

theorem enqueue_atPort (s : State) (p ch : Nat) (k : FabPkt) : State.atPort p s (s.enqueue p ch k) := by
  unfold State.enqueue
  refine State.atPort.trans (setPort_atPort ?_) (pump_atPort _ p)
  exact ⟨_, _, _, _, _, _, _, _, _, _, rfl, .inl ⟨rfl, rfl⟩⟩

theorem linkOut_atPort (s : State) (p : Nat) (kind : Byte) (args : List Nat) : State.atPort p s (s.linkOut p kind args) := by
  unfold State.linkOut
  dsimp only
  split
  · refine State.atPort.trans (setPort_atPort ?_) (pump_atPort _ p)
    exact ⟨_, _, _, _, _, _, _, _, _, _, rfl, .inl ⟨rfl, rfl⟩⟩
  · exact (State.still.refl s).atPort p

/-! ### Routing: only ports that carry new packets send (R289, R290, R297, R304) -/

/-- A change by routing: ports that lookups use send, and the others stay. -/
structure State.routed (s t : State) : Prop extends s.linkOnly t where
  moved : ∀ q, (s.port q).moves (t.port q)
  idle : ∀ q, (s.port q).usable = false → t.port q = s.port q

theorem State.aside.routed (h : s.aside t) : s.routed t :=
  ⟨h.tolinkOnly, fun q => by rw [h.port]; exact .refl _, fun q _ => h.port q⟩

theorem State.routed.refl (s : State) : s.routed s := (State.aside.refl s).routed

theorem State.routed.trans (h : s.routed t) (g : t.routed u) : s.routed u := by
  refine ⟨h.tolinkOnly.trans g.tolinkOnly, fun q => (h.moved q).trans (g.moved q), fun q hq => ?_⟩
  have ht := h.idle q hq
  rw [g.idle q (by rw [ht]; exact hq), ht]

theorem State.atPort.routed {p : Nat} (h : State.atPort p s t) (hp : (s.port p).usable = true) : s.routed t := by
  refine ⟨h.tolinkOnly, fun q => ?_, fun q hq => h.others q fun hqp => ?_⟩
  · by_cases hqp : q = p
    · rw [hqp]
      exact h.here
    · rw [h.others q hqp]
      exact .refl _
  · rw [hqp, hp] at hq
    cases hq

theorem routed_foldl {α : Type} (f : State → α → State) (hf : ∀ (s : State) (a : α), s.routed (f s a)) (l : List α) :
    ∀ s : State, s.routed (l.foldl f s) := by
  induction l with
  | nil => exact .refl
  | cons a t ih => exact fun s => (hf s a).trans (ih _)

theorem bestOf_mem : ∀ {l : List (Nat × Nat)} {c : Nat × Nat}, s.bestOf l = some c → c ∈ l
  | [], c, h => by cases h
  | d :: l, c, h => by
    unfold State.bestOf at h
    split at h
    · cases h
      exact List.mem_cons_self
    next e he =>
      split_ifs at h
      · cases h
        exact List.mem_cons_of_mem _ (bestOf_mem he)
      · cases h
        exact List.mem_cons_self

theorem adaptive_usable {e : BitVec 128} {k : FabPkt} {c : Nat × Nat} (h : c ∈ s.adaptive e k) : (s.port c.1).usable = true := by
  unfold State.adaptive at h
  obtain ⟨p, hp, hc⟩ := List.mem_flatMap.mp h
  obtain ⟨v, -, hv⟩ := List.mem_map.mp (List.mem_filter.mp hc).1
  have hu := (List.mem_filter.mp hp).2
  rw [← hv]
  exact (Bool.and_eq_true_iff.mp hu).2

/-- A route lookup names a port that may be sent to (R297). -/
theorem routeOf_usable {k : FabPkt} {p ch : Nat} (h : s.routeOf k = .out p ch) : (s.port p).usable = true := by
  unfold State.routeOf at h
  dsimp only at h
  cases hb : s.bestOf (s.adaptive (s.route (pDst k)) k) with
  | some c =>
    simp only [hb] at h
    split_ifs at h
    next he =>
      cases h
      exact (Bool.and_eq_true_iff.mp he).2
    · cases h
      exact adaptive_usable (bestOf_mem hb)
  | none =>
    simp only [hb] at h
    split_ifs at h
    next he =>
      cases h
      exact (Bool.and_eq_true_iff.mp he).2
    next he =>
      cases h
      exact (Bool.and_eq_true_iff.mp he).2

theorem abortReq_aside (s : State) (id : Nat) (r : Req) : s.aside (s.abortReq id r) := by
  have hput (r' : Req) : s.aside { s with reqs := s.reqs.put id r' } :=
    ⟨⟨⟨_, _, _, _, _, _, _, _, _, _, _, _, _, _, _, _, _, rfl⟩, List.suffix_rfl⟩, rfl⟩
  unfold State.abortReq
  dsimp only
  split
  · exact (hput _).trans (chargeCur_aside _ _)
  · exact hput _

theorem guestAnswer_aside (s : State) (site rtag typ status : Nat) (data : List (BitVec 512)) (bytes poison : Nat) :
    s.aside (s.guestAnswer site rtag typ status data bytes poison) := (bump_aside s _ _).trans (send_aside _ _)

theorem noticeHere_aside (s : State) (rtag typ : Nat) : s.aside (s.noticeHere rtag typ) := by
  unfold State.noticeHere
  split
  · exact .refl s
  · split
    · exact abortReq_aside s _ _
    · split
      · exact bump_aside s _ _
      · refine State.aside.trans ?_ (guestAnswer_aside _ _ _ _ _ _ _ _)
        exact ⟨⟨⟨_, _, _, _, _, _, _, _, _, _, _, _, _, _, _, _, _, rfl⟩, List.suffix_rfl⟩, rfl⟩

theorem keepWaiting_aside (s : State) (l : List (Option Nat × FabPkt)) : s.aside { s with fabWait := l } :=
  ⟨⟨⟨_, _, _, _, _, _, _, _, _, _, _, _, _, _, _, _, _, rfl⟩, List.suffix_rfl⟩, rfl⟩

theorem keepLocal_aside (s : State) (l : List FabPkt) : s.aside { s with fabLocal := l } :=
  ⟨⟨⟨_, _, _, _, _, _, _, _, _, _, _, _, _, _, _, _, _, rfl⟩, List.suffix_rfl⟩, rfl⟩

theorem notify_routed (s : State) (k : FabPkt) (reason : Nat) : s.routed (s.notify k reason) := by
  unfold State.notify
  dsimp only
  generalize (if pRsp k = true then pDst k else pSrc k) = dst
  split
  · exact .refl s
  · split
    · exact (noticeHere_aside s _ _).routed
    · split
      next h => exact (enqueue_atPort s _ _ _).routed (routeOf_usable h)
      · exact (keepWaiting_aside s _).routed
      · exact (keepLocal_aside s _).routed
      · exact ((bump_aside s _ _).trans (unroutable_aside _ _ _ _ _ _)).routed

theorem dropLost_routed (s : State) (k : FabPkt) (arr : Option Nat) (ttl : Bool) : s.routed (s.dropLost k arr ttl) :=
  ((bump_aside s _ _).trans (unroutable_aside _ _ _ _ _ _)).routed.trans (notify_routed _ k _)

theorem forward_routed (s : State) (k : FabPkt) (arr : Option Nat) : s.routed (s.forward k arr) := by
  unfold State.forward
  split
  next h => exact (enqueue_atPort s _ _ _).routed (routeOf_usable h)
  · exact (keepWaiting_aside s _).routed
  · exact dropLost_routed s k arr false
  · exact (keepLocal_aside s _).routed

theorem retryWaiting_routed (s : State) : s.routed s.retryWaiting := by
  unfold State.retryWaiting
  dsimp only
  generalize hv : ({ s with fabWait := [] } : State) = v
  have hsv : s.aside v := hv ▸ keepWaiting_aside s []
  have hforward (u : State) (w : Option Nat × FabPkt) : u.routed (u.forward w.2 w.1) := forward_routed u w.2 w.1
  exact hsv.routed.trans (routed_foldl _ hforward s.fabWait v)

theorem forgetWaiting_of_none (h : s.fabWait = []) : ({ s with fabWait := [] } : State) = s := by
  cases s
  cases h
  rfl

theorem retryWaiting_of_none (h : s.fabWait = []) : s.retryWaiting = s := by
  unfold State.retryWaiting
  dsimp only
  rw [h, List.foldl_nil, forgetWaiting_of_none h]

/-! ### A port goes down (R288 to R290) -/

theorem chargeTags_aside (s : State) (l : List FabPkt) : s.aside (s.chargeTags l) := by
  refine aside_foldl _ (fun s n => ?_) _ s
  split
  · exact chargeCur_aside s _
  · exact .refl s

theorem tellTags_aside (s : State) (tags : List Nat) (record : Nat → List (Nat × Nat)) : s.aside (s.tellTags tags record) := by
  refine aside_foldl _ (fun s n => ?_) tags s
  split
  · exact .refl s
  · exact (deliver_aside s _ _).trans (chargeCur_aside _ _)

/-- A port with nothing queued, held or owed. -/
def Port.emptied (x : Port) : Port :=
  { x with queued := [], g0 := {}, g1 := {}, credits := [], ctrl := [], sentClasses := [] }

/-- What a port owes is discarded, with NOTICE over other ports (R289, R290). -/
theorem discardOwed_port {p : Nat} (hp : (s.port p).usable = false) (reason : Nat) :
    s.linkOnly (s.discardOwed p reason) ∧ (s.discardOwed p reason).port p = (s.port p).emptied ∧
      ∀ q, q ≠ p → (s.port q).moves ((s.discardOwed p reason).port q) := by
  unfold State.discardOwed
  dsimp only
  generalize hv : State.bump _ _ _ = v
  have hvl : s.linkOnly v := hv ▸ (setPort_linkOnly s p _).trans (bump_aside _ _ _).tolinkOnly
  have hvp : v.port p = (s.port p).emptied := by
    rw [← hv, (bump_aside _ _ _).port, State.port_setPort]
    rfl
  have hvq : ∀ q, q ≠ p → v.port q = s.port q := fun q hq => by
    rw [← hv, (bump_aside _ _ _).port, State.port_setPort_ne s _ hq]
  have hr := routed_foldl (fun s k => State.notify s k reason) (fun s k => notify_routed s k reason) (s.port p).owed v
  refine ⟨hvl.trans hr.tolinkOnly, ?_, fun q hq => ?_⟩
  · rw [hr.idle p (by rw [hvp]; exact hp), hvp]
  · rw [← hvq q hq]
    exact hr.moved q

/-- A port as it goes down: DOWN, or DISABLED where it is switched off, with nothing queued (R287, R289). -/
def Port.downed (x : Port) (cause : Nat) : Port :=
  { x.unpark with st := if x.en then .down else .disabled, cause := BitVec.ofNat 4 cause, attempts := 0 }.emptied

theorem portDown_keeps (s : State) (p cause : Nat) :
    s.linkOnly (s.portDown p cause) ∧ (s.portDown p cause).port p = (s.port p).downed cause ∧
      s.raises (s.portDown p cause) evPortDown := by
  unfold State.portDown
  dsimp only
  generalize hv : s.updPort p Port.unpark = v
  have hvp : v.port p = (s.port p).unpark := by rw [← hv]; exact State.port_setPort _ _ _
  have hvl : s.linkOnly v := hv ▸ setPort_linkOnly s p _
  generalize hw : v.updPort p _ = w
  have hwp : w.port p =
      { (s.port p).unpark with st := if (s.port p).en then .down else .disabled, cause := BitVec.ofNat 4 cause, attempts := 0 } := by
    rw [← hw]
    refine (State.port_setPort _ _ _).trans ?_
    rw [hvp]
    rfl
  have hwl : v.linkOnly w := hw ▸ setPort_linkOnly v p _
  have hwu : (w.port p).usable = false := by
    rw [hwp, Port.usable]
    cases (s.port p).en <;> rfl
  obtain ⟨hdl, hdp, -⟩ := discardOwed_port hwu noticeDown
  generalize hd : w.discardOwed p noticeDown = d at hdl hdp
  generalize hf : State.tellTags _ _ _ = f
  have hde : s.events <:+ d.events := hvl.log.trans (hwl.log.trans hdl.log)
  have hdf : d.aside f := hf ▸ (raise_aside d _ _ _ _ _).trans (tellTags_aside _ _ _)
  have hraises : s.raises f evPortDown := by
    refine raises_of_suffix_left hde ?_
    rw [← hf]
    exact raises_of_suffix_right (d.raise_raises _ _ _ _ _) (tellTags_aside _ _ _).log
  have hg := portDegrade_aside f p
  have hr := retryWaiting_routed (f.portDegrade p)
  have ht := timeLane_aside (f.portDegrade p).retryWaiting
  refine ⟨?_, ?_, ?_⟩
  · exact hvl.trans (hwl.trans (hdl.trans (hdf.tolinkOnly.trans (hg.tolinkOnly.trans (hr.tolinkOnly.trans ht.tolinkOnly)))))
  · have hfp : (f.portDegrade p).port p = (w.port p).emptied := by rw [hg.port, hdf.port, hdp]
    have hfu : ((f.portDegrade p).port p).usable = false := by rw [hfp]; exact hwu
    rw [ht.port, hr.idle p hfu, hfp, hwp]
    rfl
  · exact raises_of_suffix_right hraises (hg.log.trans (hr.log.trans ht.log))

end Sys2Proof.Machine
end

section
/-! Fabric ports: codewords, acknowledgements and credits; training, draining and groups lost (R282 to R293). -/

open Sys2Proof Sys2Proof.Machine

namespace Sys2Proof.Machine

variable {s t u : State} {x : Port} {p g : Nat}

/-! ### Groups of a port -/

@[simp] theorem group_setGroup (x : Port) (g : Nat) (y : Group) : (x.setGroup g y).group g = y := by
  unfold Port.setGroup Port.group
  split <;> rfl

theorem group_setGroup_ne (x : Port) {g h : Nat} (y : Group) (hgh : (g = 0) ≠ (h = 0)) : (x.setGroup g y).group h = x.group h := by
  unfold Port.setGroup Port.group
  by_cases hg : g = 0 <;> by_cases hh : h = 0 <;> simp_all

/-- The two groups of a port are two. -/
theorem otherGroup_ne (g : BitVec 1) : (g.toNat = 0) ≠ (1 - g.toNat = 0) := by
  have hlt := g.isLt
  intro h
  have := h.to_iff
  omega

theorem setGroup_self (x : Port) (g : Nat) : x.setGroup g (x.group g) = x := by
  unfold Port.setGroup Port.group
  split <;> rfl

/-- What the setting of a group leaves of a port. -/
theorem setGroup_rest (x : Port) (g : Nat) (y : Group) :
    (x.setGroup g y).st = x.st ∧ (x.setGroup g y).queued = x.queued ∧ (x.setGroup g y).ctrl = x.ctrl ∧
      (x.setGroup g y).carries = x.carries := by
  unfold Port.setGroup Port.carries
  split <;> exact ⟨rfl, rfl, rfl, rfl⟩

/-! ### Sending with nothing else to send (R283, R285) -/

theorem choose_of_empty (hq : x.queued = []) : x.choose = none := by
  unfold Port.choose
  rw [hq]
  rfl

theorem fill_of_empty (hq : x.queued = []) : ∀ n : Nat, x.fill n = (x, [], 0)
  | 0 => rfl
  | n + 1 => by
    unfold Port.fill
    rw [choose_of_empty hq]

/-- A port that does not drain sends, and does no more. -/
theorem pump_of_stays (hst : (s.port p).st ≠ .draining) :
    s.pump p = s.pumpLoop p ((s.port p).ctrl.length + ((s.port p).queued.map (·.2.2)).sum) := by
  unfold State.pump
  dsimp only
  generalize hn : (s.port p).ctrl.length + _ = n
  have hloop := (pumpLoop_atPort p n s).here.st_eq hst
  exact if_neg fun h => hst (hloop ▸ h.1)

/-- A port that does not drain and has nothing to send stays. -/
theorem pump_of_empty (hq : (s.port p).queued = []) (hc : (s.port p).ctrl = []) (hst : (s.port p).st ≠ .draining) :
    s.pump p = s := by
  rw [pump_of_stays hst, hq, hc]
  rfl

/-- A control flit alone fills a codeword, where a group has room (R285). -/
theorem formCodeword_control {kind : Byte} {args : List Nat} {i : Nat} (hx : (s.port p).carries = true)
    (hg : (s.port p).sendGroup = some i) (hroom : ((s.port p).group i).held.length < 1024)
    (hc : (s.port p).ctrl = [(kind, args)]) (hq : (s.port p).queued = []) :
    ∃ v : State, s.formCodeword p = some v ∧ v.out = .link p kind args :: s.out := by
  have hfill : ({ s.port p with ctrl := [] } : Port).fill 9 = ({ s.port p with ctrl := [] }, [], 0) :=
    fill_of_empty (x := { s.port p with ctrl := [] }) hq 9
  unfold State.formCodeword
  dsimp only
  rw [hg]
  dsimp only
  rw [if_neg (by simp [hx, hc]; omega), hc]
  simp only [List.take_succ_cons, List.take_nil, List.drop_succ_cons, List.drop_nil, List.length_singleton, List.map_cons,
    List.map_nil, Nat.reduceSub, hfill, List.append_nil]
  exact ⟨_, rfl, rfl⟩

/-- A port with a healthy group, and room in both, sends on one of them. -/
theorem sendGroup_of_ok (hok : (x.group g).ok = true) (h0 : x.g0.held.length < 1024) (h1 : x.g1.held.length < 1024) :
    ∃ i, x.sendGroup = some i ∧ (x.group i).held.length < 1024 := by
  have hany : x.g0.ok = true ∨ x.g1.ok = true := by
    unfold Port.group at hok
    split at hok
    · exact .inl hok
    · exact .inr hok
  unfold Port.sendGroup
  split_ifs with ha hb
  · exact ⟨0, rfl, h0⟩
  · exact ⟨1, rfl, h1⟩
  · rcases hany with h | h
    · exact absurd ⟨h, .inl (by simpa using hb)⟩ ha
    · exact absurd h hb

/-- What a control flit needs to leave a port at once: nothing else to send, and room in both retry buffers. -/
structure Port.sendsAtOnce (x : Port) : Prop where
  ctrl : x.ctrl = []
  queued : x.queued = []
  stays : x.st ≠ .draining
  room0 : x.g0.held.length < 1024
  room1 : x.g1.held.length < 1024

/-- A control flit at a port that has nothing else to send leaves at once. -/
theorem linkOut_atOnce (kind : Byte) (args : List Nat) (hx : (s.port p).carries = true) (hok : ((s.port p).group g).ok = true)
    (h : (s.port p).sendsAtOnce) : (s.linkOut p kind args).out = .link p kind args :: s.out := by
  generalize hx' : ({ s.port p with ctrl := [(kind, args)] } : Port) = x'
  generalize hu : s.setPort p x' = u
  have hport : u.port p = x' := by rw [← hu]; exact State.port_setPort s p x'
  have hlink : s.linkOut p kind args = u.pump p := by
    unfold State.linkOut
    dsimp only
    rw [if_pos hx, h.ctrl, ← hu, ← hx']
    rfl
  have hq : (u.port p).queued = [] := by rw [hport, ← hx']; exact h.queued
  have hc : (u.port p).ctrl = [(kind, args)] := by rw [hport, ← hx']
  have hst : (u.port p).st ≠ .draining := by rw [hport, ← hx']; exact h.stays
  have hgrp : ((u.port p).group g).ok = true := by rw [hport, ← hx']; exact hok
  obtain ⟨i, hi, hroom⟩ := sendGroup_of_ok hgrp (by rw [hport, ← hx']; exact h.room0) (by rw [hport, ← hx']; exact h.room1)
  obtain ⟨v, hv, hout⟩ := formCodeword_control (by rw [hport, ← hx']; exact hx) hi hroom hc hq
  have hpump : u.pump p = v := by
    rw [pump_of_stays hst, hc, hq]
    change u.pumpLoop p 1 = v
    unfold State.pumpLoop
    rw [hv]
    rfl
  rw [hlink, hpump, hout, ← hu]
  rfl

/-- Items sent, the first lowest. -/
theorem sendItems_out (p : Nat) : ∀ (l : List LinkItem) (s : State),
    (l.foldl (fun s i => s.sendItem p i) s).out = (l.map (·.out p)).reverse ++ s.out
  | [], s => rfl
  | i :: l, s => by
    rw [List.foldl_cons, sendItems_out p l]
    simp [State.sendItem, State.send]

/-- Codewords sent again: their flits are counted and go out, and no port changes. -/
theorem resend_ports (s : State) (p : Nat) (l : List Codeword) : (s.resend p l).port p = s.port p :=
  ((bump_aside s _ _).trans (sendItems_aside _ p _)).port p

theorem resend_out (s : State) (p : Nat) (l : List Codeword) :
    (s.resend p l).out = ((l.flatMap (·.items)).map (·.out p)).reverse ++ s.out := sendItems_out p _ _

/-! ### Codewords and acknowledgements (R283, R285) -/

theorem State.port_updPort (s : State) (p : Nat) (f : Port → Port) : (s.updPort p f).port p = f (s.port p) := State.port_setPort _ _ _

/-- An acknowledgement moves LASTACK up to what was received, and leaves the receiving side else. -/
theorem sendAck_keeps (s : State) (p g : Nat) : ({ (s.port p).group g with lastAck := ((s.port p).group g).recvSeq } : Group).keeps
    (((s.sendAck p g).port p).group g) := by
  unfold State.sendAck
  dsimp only
  generalize hv : s.updPort p _ = v
  have hvp : (v.port p).group g = { (s.port p).group g with lastAck := ((s.port p).group g).recvSeq } := by
    rw [← hv, State.port_updPort, group_setGroup]
  rw [← hvp]
  exact (linkOut_atPort v p _ _).here.group g

theorem Port.sendsAtOnce.setGroup (h : x.sendsAtOnce) {y : Group} (hy : y.held = (x.group g).held) : (x.setGroup g y).sendsAtOnce := by
  obtain ⟨hst, hq, hc, -⟩ := setGroup_rest x g y
  refine ⟨by rw [hc, h.ctrl], by rw [hq, h.queued], by rw [hst]; exact h.stays, ?_, ?_⟩
  · unfold Port.setGroup
    split
    next hg =>
      have hgr : x.group g = x.g0 := if_pos hg
      change y.held.length < 1024
      rw [hy, hgr]
      exact h.room0
    · exact h.room0
  · unfold Port.setGroup
    split
    · exact h.room1
    next hg =>
      have hgr : x.group g = x.g1 := if_neg hg
      change y.held.length < 1024
      rw [hy, hgr]
      exact h.room1

theorem sendAck_out (hx : (s.port p).carries = true) (hok : ((s.port p).group g).ok = true) (h : (s.port p).sendsAtOnce) :
    (s.sendAck p g).out = .link p 1 [g, (((s.port p).group g).recvSeq - 1).toNat] :: s.out := by
  unfold State.sendAck
  dsimp only
  generalize hv : s.updPort p _ = v
  have hvp : v.port p = (s.port p).setGroup g { (s.port p).group g with lastAck := ((s.port p).group g).recvSeq } := by
    rw [← hv, State.port_updPort]
  have hvo : v.out = s.out := by rw [← hv]; rfl
  rw [← hvo]
  refine linkOut_atOnce (g := g) 1 _ ?_ ?_ ?_
  · rw [hvp, (setGroup_rest _ _ _).2.2.2]
    exact hx
  · rw [hvp, group_setGroup]
    exact hok
  · rw [hvp]
    exact h.setGroup rfl

variable {port : Fin 64} {err : List (Fin 8 × Nat)}

/-- The symbol errors of a codeword are counted by lane. -/
def State.countsSymbols (s : State) (p g : Nat) (err : List (Fin 8 × Nat)) : State :=
  err.foldl (fun s e => s.bump (portBase p + 0x100 + 8 * (8 * g + e.1.val)) e.2)
    (if (err.map (·.2)).sum = 0 then s.bump (portBase p + 0x20) else (s.bump (portBase p + 0x20)).bump (portBase p + 0x28))

theorem countsSymbols_aside (s : State) (p g : Nat) (err : List (Fin 8 × Nat)) : s.aside (s.countsSymbols p g err) := by
  unfold State.countsSymbols
  refine State.aside.trans ?_ (aside_foldl _ (fun s e => bump_aside s _ _) err _)
  split
  · exact bump_aside s _ _
  · exact (bump_aside s _ _).trans (bump_aside _ _ _)

/-- What a codeword with at most 15 symbol errors does on a healthy group (R283, R285). -/
theorem codeword_readable (hx : (s.port port).carries = true) (hok : ((s.port port).group g).ok = true)
    (herr : (err.map (·.2)).sum ≤ 15) {b : BitVec 1} (hb : b.toNat = g) (l : BitVec 10) (c n : Nat) :
    exec (.codeword port b l err c n) s = .next
      (let v := s.countsSymbols port g err
       let y := { (s.port port).group g with recvSeq := ((s.port port).group g).recvSeq + 1, discarding := false }
       let w := (v.setPort port ((s.port port).setGroup g y)).bump (portBase port + 0x50) (min 10 c + min n (10 - c))
       if l ≠ ((s.port port).group g).recvSeq then v
       else if (y.recvSeq - y.lastAck).toNat ≥ 32 then w.sendAck port g else w) := by
  subst hb
  refine next_congr ?_
  exact (if_neg (by simp [hx, hok])).trans (if_neg (Nat.not_lt.mpr herr))

theorem codeword_taken (hx : (s.port port).carries = true) {b : BitVec 1} (hok : ((s.port port).group b.toNat).ok = true)
    (herr : (err.map (·.2)).sum ≤ 15) (c n : Nat) :
    leads (exec (.codeword port b ((s.port port).group b.toNat).recvSeq err c n) s) fun t =>
      ((t.port port).group b.toNat).recvSeq = ((s.port port).group b.toNat).recvSeq + 1 ∧
        ((t.port port).group b.toNat).discarding = false := by
  refine ⟨_, codeword_readable hx hok herr rfl _ c n, ?_⟩
  dsimp only
  rw [if_neg (not_not_intro rfl)]
  generalize hw : State.bump (State.setPort _ _ _) _ _ = w
  have hwp : (w.port port).group b.toNat = { (s.port port).group b.toNat with
      recvSeq := ((s.port port).group b.toNat).recvSeq + 1, discarding := false } := by
    rw [← hw, (bump_aside _ _ _).port, State.port_setPort, group_setGroup]
  split
  · have hk := sendAck_keeps w port b.toNat
    rw [hk.recvSeq, hk.discarding, hwp]
    exact ⟨rfl, rfl⟩
  · rw [hwp]
    exact ⟨rfl, rfl⟩

theorem codeword_outOfOrder (hx : (s.port port).carries = true) {b : BitVec 1} (hok : ((s.port port).group b.toNat).ok = true)
    (herr : (err.map (·.2)).sum ≤ 15) (c n : Nat) {l : BitVec 10} (hl : l ≠ ((s.port port).group b.toNat).recvSeq) :
    leads (exec (.codeword port b l err c n) s) fun t => t.port port = s.port port := by
  refine ⟨_, codeword_readable hx hok herr rfl _ c n, ?_⟩
  dsimp only
  rw [if_pos hl]
  exact (countsSymbols_aside s _ _ err).port port

/-- What a codeword with more symbol errors does on a healthy group (R283, R285). -/
theorem codeword_failed (hx : (s.port port).carries = true) (hok : ((s.port port).group g).ok = true)
    (herr : 15 < (err.map (·.2)).sum) {b : BitVec 1} (hb : b.toNat = g) (l : BitVec 10) (c n : Nat) :
    exec (.codeword port b l err c n) s = .next
      (let v := (s.bump (portBase port + 0x20)).bump (portBase port + 0x30)
       let y := (s.port port).group g
       if y.discarding ∧ l ≠ y.recvSeq then v
       else ((v.setPort port ((s.port port).setGroup g { y with discarding := true })).bump (portBase port + 0x38)).linkOut port 2
         [g, y.recvSeq.toNat]) := by
  subst hb
  refine next_congr ?_
  exact (if_neg (by simp [hx, hok])).trans (if_pos herr)

/-- A codeword that cannot be read, on a group that is not discarding already, begins a discard with a NAK. -/
theorem codeword_discards (hx : (s.port port).carries = true) {b : BitVec 1} (hok : ((s.port port).group b.toNat).ok = true)
    (herr : 15 < (err.map (·.2)).sum) (c n : Nat) {l : BitVec 10}
    (hl : ((s.port port).group b.toNat).discarding = false ∨ l = ((s.port port).group b.toNat).recvSeq) :
    leads (exec (.codeword port b l err c n) s) fun t =>
      ((t.port port).group b.toNat).discarding = true ∧
        ((t.port port).group b.toNat).recvSeq = ((s.port port).group b.toNat).recvSeq ∧
        ((s.port port).sendsAtOnce → t.out = .link port 2 [b.toNat, ((s.port port).group b.toNat).recvSeq.toNat] :: s.out) := by
  refine ⟨_, codeword_failed hx hok herr rfl _ c n, ?_⟩
  dsimp only
  rw [if_neg fun h => hl.elim (fun hd => by rw [hd] at h; exact absurd h.1 (by decide)) h.2]
  generalize hw : State.bump (State.setPort _ _ _) _ = w
  have hwp : w.port port = (s.port port).setGroup b.toNat { (s.port port).group b.toNat with discarding := true } := by
    rw [← hw, (bump_aside _ _ _).port, State.port_setPort]
  have hwg : (w.port port).group b.toNat = { (s.port port).group b.toNat with discarding := true } := by rw [hwp, group_setGroup]
  have hk := (linkOut_atPort w port 2 [b.toNat, ((s.port port).group b.toNat).recvSeq.toNat]).here.group b.toNat
  refine ⟨by rw [hk.discarding, hwg], by rw [hk.recvSeq, hwg], fun h => ?_⟩
  have hwo : w.out = s.out := by rw [← hw]; rfl
  rw [← hwo]
  refine linkOut_atOnce (g := b.toNat) 2 _ ?_ ?_ ?_
  · rw [hwp, (setGroup_rest _ _ _).2.2.2]
    exact hx
  · rw [hwg]
    exact hok
  · rw [hwp]
    exact h.setGroup rfl

/-! ### A group lost (R288) -/

/-- A port with one group lost (R288). -/
def Port.onOther (x : Port) (g cause : Nat) : Port :=
  { x.setGroup g { x.group g with ok := false } with
      st := if x.st = .up then PortState.degraded else x.st, cause := BitVec.ofNat 4 cause }

theorem onOther_group (x : Port) (g cause h : Nat) : (x.onOther g cause).group h = (x.setGroup g { x.group g with ok := false }).group h :=
  rfl

/-- A group lost, the other healthy: the port goes on with the other. -/
theorem loseGroup_degrades {b : BitVec 1} (hx : (s.port p).carries = true) (hok : ((s.port p).group b.toNat).ok = true)
    (hother : ((s.port p).group (1 - b.toNat)).ok = true) (cause : Nat) :
    s.linkOnly (s.loseGroup p b.toNat cause) ∧ ((s.port p).onOther b.toNat cause).moves ((s.loseGroup p b.toNat cause).port p) ∧
      s.raises (s.loseGroup p b.toNat cause) evPortDegraded := by
  unfold State.loseGroup
  dsimp only
  rw [if_neg (by simp [hx, hok]), if_pos hother]
  generalize hv : (State.setPort _ p _) = v
  have hvl : s.linkOnly v := hv ▸ (bump_aside s _ _).tolinkOnly.trans (setPort_linkOnly _ p _)
  have hvp : v.port p = (s.port p).onOther b.toNat cause := by
    rw [← hv]
    exact State.port_setPort _ _ _
  have hl := linkOut_atPort v p 6 [b.toNat, (((s.port p).group b.toNat).recvSeq - 1).toNat]
  generalize State.linkOut v p 6 _ = w at hl
  have hr := raise_aside w evPortDegraded none [(p, 1), (b.toNat, 1), (cause, 1)] [] 1
  have hraises := w.raise_raises evPortDegraded none [(p, 1), (b.toNat, 1), (cause, 1)] [] 1
  generalize w.raise evPortDegraded none _ [] = z at hr hraises
  have hd := portDegrade_aside z p
  refine ⟨hvl.trans (hl.tolinkOnly.trans (hr.tolinkOnly.trans hd.tolinkOnly)), ?_, ?_⟩
  · rw [hd.port, hr.port, ← hvp]
    exact hl.here
  · exact raises_of_suffix_right (raises_of_suffix_left (hvl.log.trans hl.log) hraises) hd.log

/-- A group lost, the other lost before: the port goes down. -/
theorem loseGroup_downs {b : BitVec 1} (hx : (s.port p).carries = true) (hok : ((s.port p).group b.toNat).ok = true)
    (hother : ((s.port p).group (1 - b.toNat)).ok = false) (cause : Nat) :
    s.loseGroup p b.toNat cause = (s.bump (portBase p + 0x40)).portDown p cause := by
  unfold State.loseGroup
  dsimp only
  rw [if_neg (by simp [hx, hok]), if_neg (by simp [hother])]

/-- A healthy group lost is not healthy after. -/
theorem loseGroup_ok {b : BitVec 1} (hx : (s.port p).carries = true) (hok : ((s.port p).group b.toNat).ok = true) (cause : Nat) :
    (((s.loseGroup p b.toNat cause).port p).group b.toNat).ok = false := by
  cases hother : ((s.port p).group (1 - b.toNat)).ok with
  | true =>
    obtain ⟨-, hmv, -⟩ := loseGroup_degrades hx hok hother cause
    rw [(hmv.group b.toNat).ok, onOther_group, group_setGroup]
  | false =>
    rw [loseGroup_downs hx hok hother, (portDown_keeps _ p cause).2.1]
    unfold Port.group
    split <;> rfl

theorem loseGroup_log (s : State) (p g cause : Nat) : s.events <:+ (s.loseGroup p g cause).events := by
  unfold State.loseGroup
  dsimp only
  split
  · exact List.suffix_rfl
  · have hb := bump_aside s (portBase p + 0x40) 1
    generalize s.bump (portBase p + 0x40) = u at hb
    refine hb.log.trans ?_
    split
    · refine List.IsSuffix.trans ?_ (portDegrade_aside _ p).log
      refine List.IsSuffix.trans ?_ (raise_aside _ _ _ _ _ _).log
      exact List.IsSuffix.trans (setPort_linkOnly u p _).log (linkOut_atPort _ p _ _).log
    · exact (portDown_keeps u p cause).1.log

/-! ### NAK (R285, R288) -/

/-- The NAKs of a group within the last millisecond, with one that comes now. -/
def State.recentNaks (s : State) (y : Group) : List Nat :=
  (s.tick :: y.naks).filter fun t => decide (s.ticksNs (s.tick - t) < 1000000)

/-- What a NAK does on a healthy group. -/
theorem nak_counted (hx : (s.port port).carries = true) {b : BitVec 1} (hok : ((s.port port).group b.toNat).ok = true)
    (l : BitVec 10) :
    exec (.nak port b l) s = .next
      (let y := (s.port port).group b.toNat
       let recent := s.recentNaks y
       let v := (s.setPort port ((s.port port).setGroup b.toNat { y with naks := recent })).bump (portBase port + 0x38)
       if recent.length > bits (v.reg (portBase port + 0x60)) 0 16 then
         (v.raise evLinkRetryStorm none [(port.val, 1), (b.toNat, 1), (recent.length, 4)] []).loseGroup port b.toNat 4
       else v.resend port (y.held.dropWhile fun h => h.lseq ≠ l)) := by
  refine next_congr ?_
  exact if_neg (by simp [hx, hok])

theorem retryLimit_kept (s : State) (p : Nat) (x : Port) :
    ((s.setPort p x).bump (portBase p + 0x38)).reg (portBase p + 0x60) = s.reg (portBase p + 0x60) :=
  State.reg_bump_ne (s.setPort p x) 1 (by omega)

theorem nak_resends (hx : (s.port port).carries = true) {b : BitVec 1} (hok : ((s.port port).group b.toNat).ok = true)
    (l : BitVec 10)
    (hrate : (s.recentNaks ((s.port port).group b.toNat)).length ≤ bits (s.reg (portBase port + 0x60)) 0 16) :
    leads (exec (.nak port b l) s) fun t =>
      t.port port = (s.port port).setGroup b.toNat
        { (s.port port).group b.toNat with naks := s.recentNaks ((s.port port).group b.toNat) } ∧
      t.out = (((((s.port port).group b.toNat).held.dropWhile fun h => h.lseq ≠ l).flatMap (·.items)).map (·.out port)).reverse ++
        s.out := by
  refine ⟨_, nak_counted hx hok l, ?_⟩
  dsimp only
  rw [retryLimit_kept, if_neg (Nat.not_lt.mpr hrate), resend_ports, resend_out, (bump_aside _ _ _).port, State.port_setPort]
  exact ⟨rfl, rfl⟩

theorem nak_storm (hx : (s.port port).carries = true) {b : BitVec 1} (hok : ((s.port port).group b.toNat).ok = true)
    (l : BitVec 10)
    (hrate : bits (s.reg (portBase port + 0x60)) 0 16 < (s.recentNaks ((s.port port).group b.toNat)).length) :
    leads (exec (.nak port b l) s) fun t =>
      ((t.port port).group b.toNat).ok = false ∧ s.raises t evLinkRetryStorm := by
  refine ⟨_, nak_counted hx hok l, ?_⟩
  dsimp only
  rw [retryLimit_kept, if_pos hrate]
  generalize hv : State.bump (State.setPort _ _ _) _ = v
  have hvp : v.port port = (s.port port).setGroup b.toNat
      { (s.port port).group b.toNat with naks := s.recentNaks ((s.port port).group b.toNat) } := by
    rw [← hv, (bump_aside _ _ _).port, State.port_setPort]
  have hve : v.events = s.events := by rw [← hv]; rfl
  have hraises := v.raise_raises evLinkRetryStorm none
    [(port.val, 1), (b.toNat, 1), ((s.recentNaks ((s.port port).group b.toNat)).length, 4)] [] 1
  have hr := raise_aside v evLinkRetryStorm none
    [(port.val, 1), (b.toNat, 1), ((s.recentNaks ((s.port port).group b.toNat)).length, 4)] [] 1
  generalize v.raise evLinkRetryStorm none _ [] = w at hraises hr
  refine ⟨loseGroup_ok ?_ ?_ 4, ?_⟩
  · rw [hr.port, hvp, (setGroup_rest _ _ _).2.2.2]
    exact hx
  · rw [hr.port, hvp, group_setGroup]
    exact hok
  · exact raises_of_suffix_left (t := v) (by rw [hve]) (raises_of_suffix_right hraises (loseGroup_log w _ _ _))

/-! ### ACK and CREDIT at a port with nothing to send (R285, R293) -/

/-- A port with nothing to send, where no packet waits for a channel, is set and does no more. -/
theorem settles {x : Port} (hq : x.queued = []) (hc : x.ctrl = []) (hst : x.st ≠ .draining) (hw : s.fabWait = []) :
    ((s.setPort p x).pump p).retryWaiting.port p = x := by
  have hport : (s.setPort p x).port p = x := State.port_setPort s p x
  rw [pump_of_empty (by rw [hport, hq]) (by rw [hport, hc]) (by rw [hport]; exact hst),
    retryWaiting_of_none (s := s.setPort p x) hw, hport]

theorem ack_retires (hx : (s.port port).carries = true) (hq : (s.port port).queued = []) (hc : (s.port port).ctrl = [])
    (hst : (s.port port).st ≠ .draining) (hw : s.fabWait = []) (b : BitVec 1) (l : BitVec 10)
    (hl : ((s.port port).group b.toNat).held.any (fun h => h.lseq = l) = true) :
    leads (exec (.ack port b l) s) fun t => t.port port = (s.port port).setGroup b.toNat
      { (s.port port).group b.toNat with held := (((s.port port).group b.toNat).held.dropWhile fun h => h.lseq ≠ l).drop 1 } := by
  refine ⟨_, next_congr (if_pos hx), ?_⟩
  obtain ⟨gst, gq, gc, -⟩ := setGroup_rest (s.port port) b.toNat (((s.port port).group b.toNat).acked l)
  rw [settles (by rw [gq, hq]) (by rw [gc, hc]) (by rw [gst]; exact hst) hw, Group.acked, if_pos hl]

theorem credit_adds (hx : (s.port port).carries = true) (hq : (s.port port).queued = []) (hc : (s.port port).ctrl = [])
    (hst : (s.port port).st ≠ .draining) (hw : s.fabWait = []) (vc : Fin 25) (n : Nat) :
    leads (exec (.credit port vc n) s) fun t =>
      t.port port = { s.port port with credits := (s.port port).credits.put vc ((s.port port).credit vc + n) } :=
  ⟨_, next_congr (if_pos hx), settles hq hc hst hw⟩

end Sys2Proof.Machine

/-- Settles O33: each command of the link layer on a healthy group, whatever the port sends meanwhile leaving what it receives. -/
theorem linkLayer : Obligations.LinkLayer := by
  unfold Obligations.LinkLayer
  intro port s x atOnce hx
  refine ⟨fun g => ?groups, fun hq hc hw hst => ⟨fun g l hl => ?ack, fun vc n => ?credit⟩⟩
  case ack => exact ack_retires hx hq hc hst hw g l hl
  case credit => exact credit_adds hx hq hc hst hw vc n
  intro y hok
  refine ⟨fun err c n => ⟨fun herr => ⟨?taken, fun l hl => ?outOfOrder⟩, fun herr l => ⟨fun hd hl => ?still, fun hl => ?discards⟩⟩,
    ?interval, fun l => ⟨fun hrate => ?resends, fun hrate => ?storm⟩⟩
  case taken => exact codeword_taken hx hok herr c n
  case outOfOrder => exact codeword_outOfOrder hx hok herr c n hl
  case still =>
    refine ⟨_, codeword_failed hx hok herr rfl l c n, ?_⟩
    dsimp only
    rw [if_pos ⟨hd, hl⟩]
    exact ((bump_aside s _ _).trans (bump_aside _ _ _)).port port
  case discards =>
    obtain ⟨t, ht, hd, hr, hout⟩ := codeword_discards hx hok herr c n hl
    exact ⟨t, ht, hd, hr, fun ⟨a, b, c, d, e⟩ => hout ⟨a, b, c, d, e⟩⟩
  case interval =>
    refine ⟨_, next_congr (if_pos (by rw [hx, hok]; rfl)), (sendAck_keeps s port g.toNat).lastAck, fun ⟨a, b, c, d, e⟩ => ?_⟩
    exact sendAck_out hx hok ⟨a, b, c, d, e⟩
  case resends => exact nak_resends hx hok l hrate
  case storm => exact nak_storm hx hok l hrate
end

section
/-! Port states: training, draining, PORT_CTL, groups lost (R281, R282, R286 to R290). -/

open Sys2Proof Sys2Proof.Machine

namespace Sys2Proof.Machine

variable {s t u : State} {x : Port} {p g : Nat} {port : Fin 64}

/-! ### Training (R282, R286) -/

theorem startTraining_port (s : State) (p : Nat) : (s.startTraining p).port p = { s.port p with st := .training } := by
  unfold State.startTraining
  rw [(send_aside _ _).port, (bump_aside _ _ _).port, State.port_updPort]

theorem startTraining_out (s : State) (p : Nat) :
    (s.startTraining p).out = .link p 5 [s.feid, p, 1, s.boot.cfg.domainId.toNat] :: s.out := rfl

theorem greetChild_atPort (s : State) (p : Nat) : State.atPort p s (s.greetChild p) := by
  unfold State.greetChild
  dsimp only
  split
  · exact (State.still.refl s).atPort p
  · exact enqueue_atPort s p _ _

/-- A port that has come up sends what waits for it (R286, R313). -/
theorem greets_port (s : State) (p : Nat) : (s.port p).moves (((s.greetChild p).pump p).retryWaiting.port p) :=
  ((greetChild_atPort s p).trans (pump_atPort _ p)).here.trans ((retryWaiting_routed _).moved p)

/-- A port whose training finds a group, a peer that speaks Verux 1 and is another module. -/
theorem trained_of_locked {o : TrainObs} {feid : Nat} (hv : o.peerVerux1 = true) (hf : o.peerFeid.toNat ≠ feid)
    (hg : trainGroup o 0 = true ∨ trainGroup o 1 = true) : ∃ cause spare lane,
      x.trained o feid = { x.observe o with
        st := if trainGroup o 0 ∧ trainGroup o 1 then .up else .degraded
        g0 := { ok := trainGroup o 0 }, g1 := { ok := trainGroup o 1 }, attempts := 0, credits := fullCredits
        cause := cause, spare := spare, spareLane := lane } := by
  unfold Port.trained
  dsimp only
  have h1 : ¬ (!trainGroup o 0 ∧ !trainGroup o 1) := by
    rintro ⟨h0, h1⟩
    rcases hg with h | h
    · rw [h] at h0; cases h0
    · rw [h] at h1; cases h1
  rw [if_neg (by simpa using h1), if_neg (by simp [hv]), if_neg hf]
  exact ⟨_, _, _, rfl⟩

theorem trained_of_dark {o : TrainObs} {feid : Nat} (h0 : trainGroup o 0 = false) (h1 : trainGroup o 1 = false) :
    ∃ spare lane, x.trained o feid = { x with st := .down, cause := trainWhy o, spare := spare, spareLane := lane } := by
  unfold Port.trained
  dsimp only
  rw [if_pos (by simp [h0, h1])]
  exact ⟨_, _, rfl⟩

/-- A port comes up, DEGRADED where one group is missing (R286). -/
theorem finishTraining_up {o : TrainObs} (hv : o.peerVerux1 = true) (hf : o.peerFeid.toNat ≠ s.feid)
    (hg : trainGroup (s.fuseLanes p o) 0 = true ∨ trainGroup (s.fuseLanes p o) 1 = true) :
    ((s.port p).trained (s.fuseLanes p o) s.feid).moves ((s.finishTraining p o).port p) := by
  unfold State.finishTraining
  dsimp only
  obtain ⟨cause, spare, lane, htr⟩ := trained_of_locked (x := s.port p) (o := s.fuseLanes p o) hv hf hg
  have hst : ((s.port p).trained (s.fuseLanes p o) s.feid).st = .up ∨
      ((s.port p).trained (s.fuseLanes p o) s.feid).st = .degraded := by
    rw [htr]
    dsimp only
    split
    · exact .inl rfl
    · exact .inr rfl
  generalize (s.port p).trained (s.fuseLanes p o) s.feid = y at hst
  generalize hv : s.setPort p y = v
  have hvp : v.port p = y := by rw [← hv]; exact State.port_setPort s p y
  rcases hst with h | h
  · rw [h]
    dsimp only
    rw [← hvp]
    exact greets_port v p
  · rw [h]
    dsimp only
    have hr := raise_aside v evPortDegraded none
      [(p, 1), (if trainGroup (s.fuseLanes p o) 0 = true then 1 else 0, 1), (y.cause.toNat, 1)] [] 1
    generalize v.raise evPortDegraded none _ [] = w at hr
    rw [← hvp, ← hr.port]
    exact greets_port w p

/-- A port neither group of which locks goes down with the cause found (R286, R287). -/
theorem finishTraining_down {o : TrainObs} (hen : (s.port p).en = true) (h0 : trainGroup (s.fuseLanes p o) 0 = false)
    (h1 : trainGroup (s.fuseLanes p o) 1 = false) :
    ((s.finishTraining p o).port p).st = .down ∧ ((s.finishTraining p o).port p).cause = trainWhy (s.fuseLanes p o) ∧
      s.raises (s.finishTraining p o) evPortDown := by
  unfold State.finishTraining
  dsimp only
  obtain ⟨spare, lane, htr⟩ := trained_of_dark (x := s.port p) (o := s.fuseLanes p o) (feid := s.feid) h0 h1
  have hst : ((s.port p).trained (s.fuseLanes p o) s.feid).st = .down := by rw [htr]
  have hyen : ((s.port p).trained (s.fuseLanes p o) s.feid).en = true := by rw [htr]; exact hen
  have hyc : ((s.port p).trained (s.fuseLanes p o) s.feid).cause = trainWhy (s.fuseLanes p o) := by rw [htr]
  generalize (s.port p).trained (s.fuseLanes p o) s.feid = y at hst hyen hyc
  rw [hst]
  dsimp only
  generalize hv : State.setPort (State.setPort s p y) p _ = v
  have hvp : v.port p = { y with st := .training } := by rw [← hv]; exact State.port_setPort _ _ _
  have hve : v.events = s.events := by rw [← hv]; rfl
  obtain ⟨-, hport, hraises⟩ := portDown_keeps v p y.cause.toNat
  rw [hport, hvp]
  refine ⟨?_, ?_, ?_⟩
  · change (if y.en = true then PortState.down else .disabled) = .down
    rw [if_pos hyen]
  · change BitVec.ofNat 4 y.cause.toNat = _
    rw [hyc, BitVec.ofNat_toNat, BitVec.setWidth_eq]
  · exact raises_of_suffix_left (t := v) (by rw [hve]) hraises

theorem trainGroup_of_spared {o : TrainObs} (htx : o.txBad.dedup.length ≤ 1) (hrx : o.rxBad.dedup.length ≤ 1) (g : Nat) :
    trainGroup o g = (if g = 0 then o.group0 else o.group1) := by
  have hone {l : List (Fin 17)} (h : l.dedup.length ≤ 1) : elecLost l g = false := by
    rw [elecLost, decide_eq_false (by omega), Bool.false_and]
  rw [trainGroup, hone htx, hone hrx, Bool.not_false, Bool.and_true, Bool.and_true]

/-- Two bad lanes of a direction lose their groups (R282). -/
theorem trainGroup_of_two {o : TrainObs} {i j : Fin 17} (hij : i ≠ j) (hi : i ∈ o.txBad) (hj : j ∈ o.txBad) {g : Nat}
    (hg : i.val / 8 = g) : trainGroup o g = false := by
  have htwo : 2 ≤ o.txBad.dedup.length := by
    have hsub : [i, j] ⊆ o.txBad.dedup := by
      intro k hk
      rcases List.mem_pair.mp hk with rfl | rfl
      · exact List.mem_dedup.mpr hi
      · exact List.mem_dedup.mpr hj
    exact (List.subperm_of_subset (List.nodup_cons.mpr ⟨by simpa using hij, List.nodup_singleton j⟩) hsub).length_le
  have hlost : elecLost o.txBad g = true := by
    rw [elecLost, decide_eq_true htwo, Bool.true_and]
    exact List.any_eq_true.mpr ⟨i, hi, decide_eq_true hg⟩
  rw [trainGroup, hlost, Bool.not_true, Bool.and_false, Bool.false_and]

/-! ### Draining (R290) -/

/-- What forming codewords leaves of a port that pump may still change. -/
def Port.standing (x : Port) : PortState × Bool × List FabPkt := (x.st, x.en, x.parkedRed)

theorem fill_standing : ∀ (n : Nat) (x : Port), (x.fill n).1.standing = x.standing
  | 0, _ => rfl
  | n + 1, x => by
    unfold Port.fill
    split
    · rfl
    next q _ =>
      refine (fill_standing n _).trans ?_
      unfold Port.takeFlit
      dsimp only
      split <;> rfl

theorem setGroup_standing (x : Port) (g : Nat) (y : Group) : (x.setGroup g y).standing = x.standing := by
  unfold Port.setGroup
  split <;> rfl

theorem formCodeword_standing (h : s.formCodeword p = some t) : (t.port p).standing = (s.port p).standing := by
  unfold State.formCodeword at h
  dsimp only at h
  split at h
  · cases h
  next g _ =>
    split_ifs at h
    cases h
    rw [(sendItems_aside _ p _).port, (retryPeak_aside _ p _).port, (bump_aside _ _ _).port, State.port_setPort, setGroup_standing,
      fill_standing]
    rfl

theorem pumpLoop_standing (p : Nat) : ∀ (n : Nat) (s : State), ((s.pumpLoop p n).port p).standing = (s.port p).standing
  | 0, _ => rfl
  | n + 1, s => by
    unfold State.pumpLoop
    split
    · rfl
    next t h => exact (pumpLoop_standing p n t).trans (formCodeword_standing h)

/-- A port told to drain drains, or has nothing more and is DISABLED with the REDUCE packets that waited. -/
theorem pump_drains (hst : (s.port p).st = .draining) :
    ((s.pump p).port p).en = (s.port p).en ∧
      (((s.pump p).port p).st = .draining ∨ (((s.pump p).port p).st = .disabled ∧
        ((s.pump p).port p).queued = (s.port p).parkedRed.map fun k => (24, k, pFlits k))) := by
  unfold State.pump
  dsimp only
  generalize hn : (s.port p).ctrl.length + _ = n
  have hloop := pumpLoop_standing p n s
  generalize s.pumpLoop p n = t at hloop
  obtain ⟨htst, hten, htp⟩ : (t.port p).st = (s.port p).st ∧ (t.port p).en = (s.port p).en ∧
      (t.port p).parkedRed = (s.port p).parkedRed := by
    simpa only [Port.standing, Prod.mk.injEq] using hloop
  split
  next h =>
    rw [(timeLane_aside _).port, State.port_setPort]
    refine ⟨hten, .inr ⟨rfl, ?_⟩⟩
    have hq : (t.port p).queued = [] := List.isEmpty_iff.mp h.2.1
    change (t.port p).queued ++ (t.port p).parkedRed.map _ = _
    rw [hq, htp, List.nil_append]
  · exact ⟨hten, .inl (htst.trans hst)⟩

/-- A drain that takes too long ends with what the port owes discarded. -/
theorem portDrainTimeout_ends (hst : (s.port port).st = .draining) : leads (exec (.portDrainTimeout port) s) fun t =>
    (t.port port).st = .disabled ∧ (t.port port).queued = (s.port port).parkedRed.map fun k => (24, k, pFlits k) := by
  refine ⟨_, next_congr (if_pos hst), ?_⟩
  have hu : (s.port port).usable = false := by rw [Port.usable, hst]; rfl
  obtain ⟨-, hport, -⟩ := discardOwed_port hu noticeDrain
  generalize s.discardOwed port noticeDrain = v at hport
  have hc := chargeTags_aside v (s.port port).owed
  dsimp only
  rw [(timeLane_aside _).port, State.port_updPort, hc.port, hport]
  exact ⟨rfl, rfl⟩

/-! ### PORT_CTL (R287, R290) -/

/-- The gate changes guards only. -/
theorem gate_guards {path : RegPath} {o : Nat} {rwk b : Bool} (h : s.gate path o rwk = (t, b)) :
    ∃ guards, t = { s with guards := guards } := by
  have harm (n : Nat) : ∃ guards, s.consumeArm path n = { s with guards := guards } := by
    cases path <;> exact ⟨_, rfl⟩
  obtain ⟨guards, hguards⟩ := harm ((blockOf o).getD 0)
  have ht : t = (s.gate path o rwk).1 := by rw [h]
  rw [ht]
  unfold State.gate
  dsimp only
  rw [hguards]
  split_ifs <;> exact ⟨_, rfl⟩

/-- A port switched on trains, where it is there and was DISABLED. -/
theorem portCtlWrite_on (s : State) (p : Nat) : ((s.portCtlWrite p true).port p).en = true ∧ ((s.port p).st = .disabled →
    ((s.portCtlWrite p true).port p).st = (if s.portThere p then .training else .disabled)) := by
  unfold State.portCtlWrite
  dsimp only
  rw [if_pos rfl]
  generalize hv : s.setPort p _ = v
  have hvp : v.port p = { s.port p with en := true } := by rw [← hv]; exact State.port_setPort _ _ _
  have hvt : v.portThere p = s.portThere p := by rw [← hv]; rfl
  rw [hvt]
  split
  next h =>
    rw [startTraining_port, hvp, if_pos h.2]
    exact ⟨rfl, fun _ => rfl⟩
  next h =>
    rw [hvp]
    refine ⟨rfl, fun hst => ?_⟩
    rw [if_neg fun ht => h ⟨hst, ht⟩]
    exact hst

/-- A port switched off drains, or is DISABLED. -/
theorem portCtlWrite_off (s : State) (p : Nat) : ((s.portCtlWrite p false).port p).en = false ∧
    (((s.port p).st = .up ∨ (s.port p).st = .degraded) → ((s.portCtlWrite p false).port p).st = .draining ∨
      (((s.portCtlWrite p false).port p).st = .disabled ∧
        ((s.portCtlWrite p false).port p).queued = (s.port p).parkedRed.map fun k => (24, k, pFlits k))) := by
  unfold State.portCtlWrite
  dsimp only
  rw [if_neg (by decide)]
  generalize hv : s.setPort p _ = v
  have hvp : v.port p = { s.port p with en := false } := by rw [← hv]; exact State.port_setPort _ _ _
  have hdrain : (((v.updPort p fun x => { x with st := .draining }).pump p).port p).en = false ∧
      ((((v.updPort p fun x => { x with st := .draining }).pump p).port p).st = .draining ∨
        ((((v.updPort p fun x => { x with st := .draining }).pump p).port p).st = .disabled ∧
          (((v.updPort p fun x => { x with st := .draining }).pump p).port p).queued =
            (s.port p).parkedRed.map fun k => (24, k, pFlits k))) := by
    generalize hw : v.updPort p _ = w
    have hwp : w.port p = { s.port p with en := false, st := .draining } := by rw [← hw, State.port_updPort, hvp]
    have h := pump_drains (s := w) (p := p) (by rw [hwp])
    rw [hwp] at h
    exact h
  split
  · exact ⟨hdrain.1, fun _ => hdrain.2⟩
  · exact ⟨hdrain.1, fun _ => hdrain.2⟩
  next hst =>
    rw [hvp]
    exact ⟨rfl, fun h => by rw [hst] at h; simp at h⟩
  next hup hdeg _ =>
    rw [(timeLane_aside _).port, State.port_updPort, hvp]
    exact ⟨rfl, fun h => absurd h (not_or.mpr ⟨hup, hdeg⟩)⟩

/-! ### Groups lost here and at the peer (R288) -/

theorem groupLost_goesOn {b : BitVec 1} (hx : (s.port port).carries = true) (hok : ((s.port port).group b.toNat).ok = true)
    (hother : ((s.port port).group (1 - b.toNat)).ok = true) (cause : BitVec 4) :
    leads (exec (.groupLost port b cause) s) fun t =>
      ((t.port port).group b.toNat).ok = false ∧ ((t.port port).group (1 - b.toNat)).ok = true ∧ s.raises t evPortDegraded ∧
        ((s.port port).st = .up → (t.port port).st = .degraded) := by
  obtain ⟨-, hmv, hraises⟩ := loseGroup_degrades hx hok hother cause.toNat
  refine ⟨_, rfl, loseGroup_ok hx hok _, ?_, hraises, fun hup => ?_⟩
  · rw [(hmv.group (1 - b.toNat)).ok, onOther_group, group_setGroup_ne _ _ (otherGroup_ne b)]
    exact hother
  · have hst : ((s.port port).onOther b.toNat cause.toNat).st = .degraded := if_pos hup
    rw [hmv.st_eq (by rw [hst]; decide), hst]

theorem groupLost_downs {b : BitVec 1} (hx : (s.port port).carries = true) (hok : ((s.port port).group b.toNat).ok = true)
    (hother : ((s.port port).group (1 - b.toNat)).ok = false) (cause : BitVec 4) :
    leads (exec (.groupLost port b cause) s) fun t =>
      (t.port port).st = (if (s.port port).en then .down else .disabled) ∧ (t.port port).queued = [] ∧ (t.port port).ctrl = [] ∧
        s.raises t evPortDown := by
  have hrun : exec (.groupLost port b cause) s = .next ((s.bump (portBase port + 0x40)).portDown port cause.toNat) :=
    next_congr (loseGroup_downs hx hok hother cause.toNat)
  obtain ⟨-, hport, hraises⟩ := portDown_keeps (s.bump (portBase port + 0x40)) port cause.toNat
  refine ⟨_, hrun, ?_⟩
  dsimp only
  rw [hport, (bump_aside _ _ _).port]
  exact ⟨rfl, rfl, rfl, raises_of_suffix_left (bump_aside s _ _).log hraises⟩

theorem hold_ok (l : List Codeword) : ∀ y : Group, (l.foldl (fun (z : Group) c => z.hold c.ctrlMap c.items c.flits) y).ok = y.ok := by
  induction l with
  | nil => exact fun _ => rfl
  | cons c t ih => exact fun y => ih _

/-- GFAIL of a port with the other group healthy: what the lost group held goes out on the other (R288). -/
theorem gfail_moves {b : BitVec 1} (hx : (s.port port).carries = true) (hok : ((s.port port).group b.toNat).ok = true)
    (hother : ((s.port port).group (1 - b.toNat)).ok = true) (hst : (s.port port).st ≠ .draining) (l : BitVec 10) :
    leads (exec (.gfail port b l) s) fun t => ((t.port port).group b.toNat).held = [] ∧
      ((t.port port).group b.toNat).ok = false ∧ ((t.port port).group (1 - b.toNat)).ok = true := by
  obtain ⟨-, hmv, -⟩ := loseGroup_degrades hx hok hother 7
  have hst' : ((s.port port).onOther b.toNat 7).st = .degraded := by
    change (if (s.port port).st = .up then PortState.degraded else (s.port port).st) = .degraded
    split
    · rfl
    next hup =>
      rw [Port.carries, decide_eq_true_eq] at hx
      exact (hx.resolve_left hup).resolve_right hst
  have hvst : ((s.loseGroup port b.toNat 7).port port).st = .degraded := (hmv.st_eq (by rw [hst']; decide)).trans hst'
  have hvok : (((s.loseGroup port b.toNat 7).port port).group (1 - b.toNat)).ok = true := by
    rw [(hmv.group (1 - b.toNat)).ok, onOther_group, group_setGroup_ne _ _ (otherGroup_ne b)]
    exact hother
  refine ⟨_, rfl, ?_⟩
  generalize s.loseGroup port b.toNat 7 = v at hvst hvok
  rw [if_neg (by simp [Port.carries, hvst, hvok]), resend_ports, (retryPeak_aside _ _ _).port, State.port_setPort, group_setGroup,
    group_setGroup_ne _ _ (otherGroup_ne b).symm, group_setGroup, hold_ok, group_setGroup_ne _ _ (otherGroup_ne b)]
  exact ⟨rfl, rfl, hvok⟩

/-! ### Commands of training (R286, R287) -/

theorem portTraining_starts (hth : s.portThere port = true) (hen : (s.port port).en = true)
    (hst : (s.port port).st = .disabled ∨ (s.port port).st = .down) :
    leads (exec (.portTraining port) s) fun t => t.port port = { s.port port with st := .training } ∧
      t.out = .link port 5 [s.feid, port, 1, s.boot.cfg.domainId.toNat] :: s.out :=
  ⟨_, next_congr (if_pos ⟨hth, hen, hst⟩), startTraining_port s port, startTraining_out s port⟩

theorem retrainTimer_starts (hth : s.portThere port = true) (hen : (s.port port).en = true) (hst : (s.port port).st = .down) :
    leads (exec (.retrainTimer port) s) fun t =>
      t.port port = { s.port port with st := .training, attempts := (s.port port).attempts + 1 } := by
  refine ⟨_, next_congr ((if_neg (by simp [hth, hen])).trans (if_pos hst)), ?_⟩
  dsimp only
  rw [startTraining_port, State.port_updPort]

/-- A training that ends at a port that is there. -/
theorem trainingComplete_finishes (hst : (s.port port).st = .training) (hth : s.portThere port = true) (o : TrainObs) :
    exec (.trainingComplete port o) s = .next (s.finishTraining port o) := by
  refine next_congr ?_
  rw [hst]
  exact if_pos hth

end Sys2Proof.Machine

/-- Settles O34: each command that changes a port's state, with what the port sends and discards meanwhile. -/
theorem portStates : Obligations.PortStates := by
  unfold Obligations.PortStates
  intro port s x freed
  refine ⟨fun hth hen => ⟨portTraining_starts hth hen, retrainTimer_starts hth hen⟩, fun hst o => ?training,
    fun o g => ⟨fun htx hrx => trainGroup_of_spared htx hrx g, fun i j hij hi hj hg => trainGroup_of_two hij hi hj hg⟩,
    fun path v t hg => ?ctl, portDrainTimeout_ends, fun g hx hok => ?lost⟩
  case training =>
    refine ⟨next_congr (if_pos hst), fun hth hv hf hgr => ?up, fun hth hen h0 h1 => ?down⟩
    case up =>
      refine ⟨_, trainingComplete_finishes hst hth o, ?_⟩
      have hmv := finishTraining_up hv hf hgr
      obtain ⟨cause, spare, lane, htr⟩ := trained_of_locked (x := s.port port) (o := s.fuseLanes port o) hv hf hgr
      rw [htr] at hmv
      obtain ⟨_, _, _, _, _, _, _, _, _, _, heq, hst'⟩ := hmv
      have hup := hst'.resolve_right fun h => by
        have h1 := h.1
        dsimp only at h1
        split at h1 <;> cases h1
      dsimp only
      rw [heq]
      exact ⟨hup.1, rfl, rfl, rfl⟩
    case down => exact ⟨_, trainingComplete_finishes hst hth o, finishTraining_down hen h0 h1⟩
  case ctl =>
    have hrun : exec (.portCtl path port v) s = .next (t.portCtlWrite port (bit v 0)) := next_congr (writeNow_passes hg _)
    obtain ⟨guards, hgate⟩ := gate_guards hg
    have hport : t.port port = s.port port := by rw [hgate]; rfl
    have hth : t.portThere port = s.portThere port := by rw [hgate]; rfl
    refine ⟨_, hrun, ?_⟩
    have hon := portCtlWrite_on t port
    have hoff := portCtlWrite_off t port
    rw [hport, hth] at hon
    rw [hport] at hoff
    cases bit v 0 with
    | true => exact ⟨hon.1, fun _ => hon.2, fun h => Bool.noConfusion h⟩
    | false => exact ⟨hoff.1, fun h => Bool.noConfusion h, fun _ => hoff.2⟩
  case lost =>
    exact ⟨fun cause => ⟨fun ho => groupLost_goesOn hx hok ho cause, fun ho => groupLost_downs hx hok ho cause⟩,
      fun l ho hst => gfail_moves hx hok ho hst l⟩
end

section
/-! Packets at this module: requests at their target, answers to a requester, remote increments and the route table (R262, R298, R299,
R303, R304, R318). -/

open Sys2Proof Sys2Proof.Machine

namespace Sys2Proof.Machine

variable {s t u v : State} {port : Fin 64} {k : FabPkt} {id : Nat} {r : Req}

/-! ### Arrival (R297, R298) -/

/-- A packet is for this module where its route entry is valid and says so, whatever the ports do. -/
theorem routeOf_here : s.routeOf k = .here ↔ bit (s.route (pDst k)) 72 = true ∧ bit (s.route (pDst k)) 71 = true := by
  unfold State.routeOf
  dsimp only
  cases h72 : bit (s.route (pDst k)) 72 with
  | false => simp
  | true =>
    cases h71 : bit (s.route (pDst k)) 71 with
    | true => simp
    | false =>
      simp only [Bool.not_true, Bool.false_eq_true, if_false, and_false, iff_false]
      generalize s.bestOf (s.adaptive (s.route (pDst k)) k) = b
      cases b with
      | none => split_ifs <;> simp
      | some c => split_ifs <;> simp

theorem State.linkOnly.routes (h : s.linkOnly t) : t.routes = s.routes := by
  obtain ⟨_, _, _, _, _, _, _, _, _, _, _, _, _, _, _, _, _, rfl⟩ := h.rest
  rfl

theorem State.linkOnly.routeOf_here (h : s.linkOnly t) (hk : s.routeOf k = .here) : t.routeOf k = .here := by
  rw [Machine.routeOf_here, State.route, h.routes]
  exact Machine.routeOf_here.mp hk

theorem State.linkOnly.sameImage (h : s.linkOnly t) : s.sameImage t := by
  obtain ⟨_, _, _, _, _, _, _, _, _, _, _, _, _, _, _, _, _, rfl⟩ := h.rest
  exact ⟨⟨rfl, rfl, rfl⟩, rfl⟩

theorem returnCredit_wireOnly (s : State) (p : Nat) (k : FabPkt) : s.wireOnly (s.returnCredit p k) :=
  (linkOut_atPort s p _ _).towireOnly

/-- What is left of a state by the way of a packet for this module to its command's meaning: wires, and the packets in the hub. -/
def State.arrived (s t : State) : Prop := s.wireOnly t ∨ ∃ l, t = { s with fabLocal := l }

theorem State.arrived.linkOnly (h : s.arrived t) : s.linkOnly t := by
  rcases h with h | ⟨l, rfl⟩
  · exact h.linkOnly
  · exact (keepLocal_aside s l).tolinkOnly

/-- A packet for this module, with hops left, comes to its command's meaning (R297). -/
theorem arrive_here {typ : Nat} (hx : (s.port port).carries = true) (hm : pMalformed k = false) (hty : pType k = typ)
    (hh : pHops k ≠ 0) (hr : s.routeOf (pHop k) = .here) (f : State → State) :
    ∃ v, s.arrived v ∧ s.arrive port k typ f = f v := by
  unfold State.arrive
  by_cases hl : pType k = typ ∧ s.fabLocal.contains k
  · rw [if_pos hl]
    exact ⟨_, .inr ⟨_, rfl⟩, rfl⟩
  · rw [if_neg hl, if_neg (by simp [hx]), if_neg (by simp [hm]), if_neg (by simp [hty])]
    have hw := returnCredit_wireOnly s port k
    dsimp only
    generalize s.returnCredit port k = v at hw
    rw [if_neg hh, hw.linkOnly.routeOf_here hr]
    exact ⟨v, .inl hw, rfl⟩

/-! ### Answers (R304) -/

theorem State.arrived.reqs (h : s.arrived t) : t.reqs = s.reqs := by
  rcases h with h | ⟨l, rfl⟩
  · obtain ⟨_, _, _, _, _, _, _, _, _, rfl⟩ := h.rest
    rfl
  · rfl

theorem waiting_congr (h : t.reqs = s.reqs) (n : Nat) : t.waiting n = s.waiting n := by
  rw [State.waiting, h, State.waiting]

/-- A response that is not ABORTED gives the request its status and, of a load that succeeded, its bytes. -/
theorem respHere_answers (h : s.waiting (pRtag k) = some (id, r)) (hst : pStatus k ≠ 4) : (s.respHere k).reqs.find? id = some
    { r with stage := .toCarter, status := BitVec.ofNat 4 (pStatus k)
             data := if r.ch = .load ∧ pStatus k = 0 then (pData k).take r.piece.len else []
             poison := if r.ch = .load ∧ pStatus k = 0 then (rowsOf r.addr r.piece.len).map fun _ => decide (pPoison k % 2 = 1)
               else [] } := by
  unfold State.respHere
  rw [h]
  dsimp only
  rw [if_neg hst]
  exact Tab.find?_put_self _ _ _

theorem chargeCur_reqs (s : State) (a : Nat) : (s.chargeCur a).reqs = s.reqs := by
  unfold State.chargeCur State.chargeRun
  split <;> rfl

/-- A request given up is answered ABORTED. -/
theorem abortReq_answers (s : State) (id : Nat) (r : Req) : (s.abortReq id r).reqs.find? id =
    some { r with stage := .toCarter, status := 4, data := [], poison := [] } := by
  unfold State.abortReq
  dsimp only
  split
  · rw [chargeCur_reqs]
    exact Tab.find?_put_self _ _ _
  · exact Tab.find?_put_self _ _ _

theorem noticeLost_reqs (s : State) (rtag reason typ tag : Nat) : (s.noticeLost rtag reason typ tag).reqs = s.reqs := by
  unfold State.noticeLost
  split
  · rfl
  · exact raise_reqs s _ _ _ _ _

/-- A NOTICE of a READ, a WRITE or an answer to one gives up the request that waits (R304). -/
theorem notice_aborts (h : s.waiting (pRtag k) = some (id, r)) (h1 : 1 ≤ pBody k 33 1) (h4 : pBody k 33 1 ≤ 4) :
    ((s.noticeLost (pRtag k) (pBody k 32 1) (pBody k 33 1) (pTag k)).noticeHere (pRtag k) (pBody k 33 1)).reqs.find? id =
      some { r with stage := .toCarter, status := 4, data := [], poison := [] } := by
  have hw := (waiting_congr (noticeLost_reqs s (pRtag k) (pBody k 32 1) (pBody k 33 1) (pTag k)) (pRtag k)).trans h
  generalize s.noticeLost (pRtag k) (pBody k 32 1) (pBody k 33 1) (pTag k) = u at hw
  unfold State.noticeHere
  rw [if_neg (by omega), hw]
  exact abortReq_answers u id r

/-! ### Remote increments (R262) -/

/-- What a tally operation at a tally outside the cores changes: tallies, waiters and the cores released, and what it reports. -/
def State.tallyOnly (s t : State) : Prop :=
  (∃ cores parishes hub hubWait stirred allots events regs out ses unread pins, t = { s with
    cores := cores, parishes := parishes, hub := hub, hubWait := hubWait, stirred := stirred, allots := allots, events := events,
    regs := regs, out := out, ses := ses, unreadBoard := unread, pins := pins }) ∧ s.events <:+ t.events

theorem State.tallyOnly.trans (h : s.tallyOnly t) (g : t.tallyOnly u) : s.tallyOnly u := by
  refine ⟨?_, h.2.trans g.2⟩
  obtain ⟨_, _, _, _, _, _, _, _, _, _, _, _, rfl⟩ := h.1
  obtain ⟨_, _, _, _, _, _, _, _, _, _, _, _, rfl⟩ := g.1
  exact ⟨_, _, _, _, _, _, _, _, _, _, _, _, rfl⟩

theorem State.tallyOnly.refl (s : State) : s.tallyOnly s := ⟨⟨_, _, _, _, _, _, _, _, _, _, _, _, rfl⟩, List.suffix_rfl⟩

theorem tallyOnly_foldl {α : Type} (f : State → α → State) (hf : ∀ (s : State) (a : α), s.tallyOnly (f s a)) (l : List α) :
    ∀ s : State, s.tallyOnly (l.foldl f s) := by
  induction l with
  | nil => exact .refl
  | cons a t ih => exact fun s => (hf s a).trans (ih _)

theorem setTally_tallyOnly (s : State) (h : THome) (v : Nat) : s.tallyOnly (s.setTally h v) := by
  have hstir : s.tallyOnly (s.stirTally h) := by
    unfold State.stirTally
    split
    · exact ⟨⟨_, _, _, _, _, _, _, _, _, _, _, _, rfl⟩, List.suffix_rfl⟩
    · split <;> exact ⟨⟨_, _, _, _, _, _, _, _, _, _, _, _, rfl⟩, List.suffix_rfl⟩
  unfold State.setTally
  split
  · exact .refl s
  · dsimp only
    refine hstir.trans ?_
    split <;> exact ⟨⟨_, _, _, _, _, _, _, _, _, _, _, _, rfl⟩, List.suffix_rfl⟩

theorem setWaiters_tallyOnly (s : State) (h : THome) (l : List Waiter) : s.tallyOnly (s.setWaiters h l) := by
  unfold State.setWaiters
  split <;> exact ⟨⟨_, _, _, _, _, _, _, _, _, _, _, _, rfl⟩, List.suffix_rfl⟩

theorem updCore_tallyOnly (s : State) (p : Pos) (f : Core → Core) : s.tallyOnly (s.updCore p f) :=
  ⟨⟨_, _, _, _, _, _, _, _, _, _, _, _, rfl⟩, List.suffix_rfl⟩

theorem release_tallyOnly (s : State) (h : THome) : s.tallyOnly (s.release h) := by
  unfold State.release
  dsimp only
  refine State.tallyOnly.trans ?_ (tallyOnly_foldl _ (fun s w => updCore_tallyOnly s _ _) _ _)
  exact (setTally_tallyOnly s h _).trans (setWaiters_tallyOnly _ h _)

theorem misuse_tallyOnly (s : State) (code : Nat) (h : THome) (payload : List (Nat × Nat)) : s.tallyOnly (s.misuse code h payload) := by
  have hlog : s.events <:+ (s.misuse code h payload).events := by
    unfold State.misuse
    split
    · exact List.suffix_rfl
    · dsimp only
      refine List.IsSuffix.trans ?_ (chargeCur_aside _ _).log
      split
      · exact List.suffix_rfl
      · exact (raise_aside s _ _ _ _ _).log
  obtain ⟨_, _, _, _, _, _, _, he⟩ := misuse_eq s code h payload
  rw [he] at hlog ⊢
  exact ⟨⟨_, _, _, _, _, _, _, _, _, _, _, _, rfl⟩, hlog⟩

/-- An increment of a hub tally. -/
theorem tallyInc_tallyOnly (s : State) {h : THome} (hl : h.lvl = 2) (n src : Nat) : s.tallyOnly (s.tallyInc h n src) := by
  unfold State.tallyInc
  dsimp only
  rw [if_neg (by omega)]
  refine State.tallyOnly.trans ?_ (release_tallyOnly _ h)
  split
  · exact (setTally_tallyOnly s h _).trans (misuse_tallyOnly _ _ _ _)
  · exact setTally_tallyOnly s h _

theorem State.tallyOnly.fabLocal (h : s.tallyOnly t) : t.fabLocal = s.fabLocal := by
  obtain ⟨_, _, _, _, _, _, _, _, _, _, _, _, rfl⟩ := h.1
  rfl

theorem State.tallyOnly.sameImage (h : s.tallyOnly t) : s.sameImage t := by
  obtain ⟨_, _, _, _, _, _, _, _, _, _, _, _, rfl⟩ := h.1
  exact ⟨⟨rfl, rfl, rfl⟩, rfl⟩

/-- The hub tally that a TALLY_INC names. -/
def incHome (k : FabPkt) : THome := { lvl := 2, core := { parish := 0, col := 0, row := 0 }, idx := pBody k 32 2 % 4096 }

/-- An increment of the owner of its tally is applied (R262). -/
theorem tallyIncHere_adds {a : Nat} (ha : s.allotOfTag (pTag k) = some a) (ho : s.hubOwner (pBody k 32 2 % 4096) = some a) :
    s.tallyIncHere k = s.tallyInc (incHome k) (pBody k 34 4) (pSrc k) := by
  unfold State.tallyIncHere
  dsimp only
  rw [ho, ha]
  exact if_pos ⟨rfl, rfl⟩

theorem tallyIncHere_tally {a : Nat} (ha : s.allotOfTag (pTag k) = some a) (ho : s.hubOwner (pBody k 32 2 % 4096) = some a)
    (hw : s.waitersAt (incHome k) = []) :
    (s.tallyIncHere k).tally (incHome k) = Nat.min (s.tally (incHome k) + pBody k 34 4) 4294967295 := by
  rw [tallyIncHere_adds ha ho, tallyInc_tally (.inr rfl) hw]
  rfl

/-- What the arrival of an increment reads of a state. -/
structure State.sameHub (s t : State) (k : FabPkt) : Prop where
  tag : t.allotOfTag (pTag k) = s.allotOfTag (pTag k)
  owner : t.hubOwner (pBody k 32 2 % 4096) = s.hubOwner (pBody k 32 2 % 4096)
  waiters : t.waitersAt (incHome k) = s.waitersAt (incHome k)
  tally : t.tally (incHome k) = s.tally (incHome k)
  tables : ∀ a b, t.crierOpen a b = s.crierOpen a b

theorem State.arrived.sameHub (h : s.arrived t) : s.sameHub t k := by
  rcases h with h | ⟨l, rfl⟩
  · obtain ⟨_, _, _, _, _, _, _, _, _, rfl⟩ := h.rest
    exact ⟨rfl, rfl, rfl, rfl, fun _ _ => rfl⟩
  · exact ⟨rfl, rfl, rfl, rfl, fun _ _ => rfl⟩

/-! ### The route table's registers (R299, R318) -/

theorem routeOf_entry_put (s : State) (i : Nat) (e : BitVec 128) : ({ s with routes := s.routes.put i e } : State).route i = e :=
  Tab.get_put_self _ _ _ _

/-- A route entry that is not refused is in every replica, whatever waits for a channel does then. -/
theorem amendRoute_route {i : Nat} {e : BitVec 128} (h : s.badRoute e = false) :
    ∃ t, s.amendRoute i e = some t ∧ t.route i = setBits e 79 49 0 := by
  refine ⟨_, if_neg (by simp [h]), ?_⟩
  generalize hv : ({ s with routes := s.routes.put i (setBits e 79 49 0) } : State) = v
  rw [State.route, (retryWaiting_routed v).tolinkOnly.routes, ← State.route, ← hv]
  exact routeOf_entry_put s i _

/-- A command of ROUTE is dropped while another is in progress. -/
theorem routeCmd_busy {path : RegPath} (hg : s.gate path 0x900018 true = (t, true)) (h : t.routeIsBusy = true) (f : State → State) :
    s.writeNow path 0x900018 true (fun s => s.routeCmd f) = t.orReg 0x900020 4 :=
  (writeNow_passes hg _).trans (if_pos h)

theorem routeCmd_free {path : RegPath} (hg : s.gate path 0x900018 true = (t, true)) (h : t.routeIsBusy = false) (f : State → State) :
    s.writeNow path 0x900018 true (fun s => s.routeCmd f) = f t :=
  (writeNow_passes hg _).trans (if_neg (by simp [h]))

/-- The entry that the data registers of ROUTE hold. -/
def State.routeData (s : State) : BitVec 128 := BitVec.ofNat 128 ((s.reg 0x900008).toNat + 2 ^ 64 * (s.reg 0x900010).toNat)

/-- What a WRITE command of ROUTE leaves. -/
def State.routeWritten (s : State) : State :=
  match (s.setReg 0x900018 2).amendRoute (bits (s.reg 0x900000) 0 18) s.routeData with
  | some t => { t with routeBusy := some t.tick }
  | none => (s.setReg 0x900018 2).orReg 0x900020 2

theorem routeCmdWrite_writes {path : RegPath} (hg : s.gate path 0x900018 true = (t, true)) (h : t.routeIsBusy = false) :
    exec (.routeCmdWrite path) s = .next t.routeWritten := by
  refine next_congr ((routeCmd_free hg h _).trans ?_)
  dsimp only
  rw [show (t.setReg (routeBase + 0x18) 2).reg routeBase = t.reg 0x900000 from reg_setReg_ne t _ (by decide)]
  rfl

theorem routeWritten_good (h : s.badRoute s.routeData = false) :
    s.routeWritten.route (bits (s.reg 0x900000) 0 18) = setBits s.routeData 79 49 0 := by
  obtain ⟨u, hu, hroute⟩ := amendRoute_route (s := s.setReg 0x900018 2) (i := bits (s.reg 0x900000) 0 18) (e := s.routeData) h
  unfold State.routeWritten
  rw [hu]
  exact hroute

theorem routeWritten_bad (h : s.badRoute s.routeData = true) :
    s.routeWritten = (s.setReg 0x900018 2).orReg 0x900020 2 := by
  have hnone : (s.setReg 0x900018 2).amendRoute (bits (s.reg 0x900000) 0 18) s.routeData = none := if_pos h
  unfold State.routeWritten
  rw [hnone]

/-! ### Requests at their target (R298, R303, R306) -/

theorem respHere_linkOnly (s : State) (k : FabPkt) : s.linkOnly (s.respHere k) := by
  have hput (id : Nat) (r : Req) : s.linkOnly { s with reqs := s.reqs.put id r } :=
    ⟨⟨_, _, _, _, _, _, _, _, _, _, _, _, _, _, _, _, _, rfl⟩, List.suffix_rfl⟩
  unfold State.respHere
  split
  · split
    · exact (bump_aside s _ _).tolinkOnly
    · refine State.linkOnly.trans ?_ (guestAnswer_aside _ _ _ _ _ _ _ _).tolinkOnly
      exact ⟨⟨_, _, _, _, _, _, _, _, _, _, _, _, _, _, _, _, _, rfl⟩, List.suffix_rfl⟩
  · split
    · exact (abortReq_aside s _ _).tolinkOnly
    · exact hput _ _

theorem inject_linkOnly {f : State → State} (hf : s.linkOnly (f s)) (k : FabPkt) : s.linkOnly (s.inject k f) := by
  unfold State.inject
  split
  · exact hf
  · exact (forward_routed s k none).tolinkOnly

theorem countRx_sameImage (s : State) (a tag tid src : Nat) : s.sameImage (s.countRx a tag tid src) := by
  have hset (i : Nat) (x : Rx) : s.sameImage (s.setRx i x) := ⟨⟨rfl, rfl, rfl⟩, rfl⟩
  unfold State.countRx
  split
  · exact .refl s
  next i x _ =>
    dsimp only
    generalize hv : (if x.count ≥ 0xFFFFFFFF then _ else _ : State) = v
    have hsv : s.sameImage v := by
      rw [← hv]
      refine State.sameImage_ite (State.sameImage_ite (hset _ _) ?_) (hset _ _)
      exact (hset _ _).trans ((raise_aside _ _ _ _ _ _).trans (chargeCur_aside _ _)).tolinkOnly.sameImage
    split
    · exact hsv.trans (tallyInc_tallyOnly v rfl _ _).sameImage
    · exact hsv

theorem serveRead_sameImage (s : State) (k : FabPkt) (source core : Nat) : s.sameImage (s.serveRead k source core).1 := by
  unfold State.serveRead
  dsimp only
  split
  · exact .refl s
  · exact ((s.access_sameImage _).trans (State.touchMem_sameImage _ _ _ _ _ _)).trans (State.bump_sameImage _ _ _)

/-- A READ within its tag's quota answers the bytes from its address (R303). -/
theorem serveRead_data {d : Nat} (hj : s.judgeFabric (pTag k) (pAddr k) (readSpan (pAddr k)) = (0, d)) (source core : Nat) :
    (s.serveRead k source core).2.data = flitsOf (s.memBytes (s.memKey d) (readSpan (pAddr k))) := by
  unfold State.serveRead
  dsimp only
  rw [hj, if_neg (not_not_intro rfl)]
  have hi := (s.access_sameImage (s.memKey d)).trans
    (State.touchMem_sameImage _ source core (s.allotOfTag (pTag k)) (s.memKey d) (readSpan (pAddr k)))
  rw [sameImage.memBytes hi]
  rfl

/-- The bytes that a WRITE stores: those of its data within its sector. -/
def pStored (k : FabPkt) : List Byte := (pData k).take (min (pBytes k) (readSpan (pAddr k)))

/-- A WRITE within its tag's quota stores its bytes and no others (R303). -/
theorem serveWrite_bytes {d : Nat} (hj : s.judgeFabric (pTag k) (pAddr k) (min (pBytes k) (readSpan (pAddr k))) = (0, d))
    (source core : Nat) :
    (∀ i, i < (pStored k).length → (s.serveWrite k source core).1.memByte (s.memKey d + i) = ((pStored k)[i]?).getD 0) ∧
      ∀ a, a < s.memKey d ∨ s.memKey d + (pStored k).length ≤ a → (s.serveWrite k source core).1.memByte a = s.memByte a := by
  unfold State.serveWrite
  dsimp only
  rw [hj, if_neg (not_not_intro rfl)]
  have haccess := (s.access_sameImage (s.memKey d)).memByte
  have hafter (u : State) (o n a tag tid src : Nat) : ((u.bump o n).countRx a tag tid src).memByte = u.memByte :=
    ((u.bump_sameImage o n).trans (countRx_sameImage _ _ _ _ _)).memByte
  rw [hafter, ← haccess]
  exact storeMem_memByte (s.access (s.memKey d)) source core (s.allotOfTag (pTag k)) (s.memKey d) (pStored k) _

/-- What follows the service of a request touches no memory (R196, R303). -/
theorem serveHere_image (s : State) (k : FabPkt) (ns : Nat) : (s.served k 7 0xFFFFFFFF).1.sameImage (s.serveHere k ns) := by
  unfold State.serveHere
  dsimp only
  generalize s.served k 7 0xFFFFFFFF = r
  refine State.sameImage.trans ?_ (inject_linkOnly (f := fun s => s.respHere r.2) (respHere_linkOnly _ r.2) r.2).sameImage
  exact State.sameImage_ite (r.1.noteLatency_sameImage _ _ _ _) (.refl _)

theorem State.arrived.judgeFabric (h : s.arrived t) (tag addr n : Nat) : t.judgeFabric tag addr n = s.judgeFabric tag addr n := by
  rcases h with h | ⟨l, rfl⟩
  · obtain ⟨_, _, _, _, _, _, _, _, _, rfl⟩ := h.rest
    rfl
  · rfl

/-- A packet out of hops is dropped with UNROUTABLE (R298). -/
theorem arrive_spent {typ : Nat} (hx : (s.port port).carries = true) (hm : pMalformed k = false) (hty : pType k = typ)
    (hh : pHops k = 0) (hl : s.fabLocal.contains k = false) (f : State → State) : s.raises (s.arrive port k typ f) evUnroutable := by
  unfold State.arrive
  rw [if_neg fun h => by rw [hl] at h; exact absurd h.2 (by decide), if_neg (by simp [hx]), if_neg (by simp [hm]), if_neg (by simp [hty])]
  have hw := returnCredit_wireOnly s port k
  dsimp only
  generalize s.returnCredit port k = v at hw
  rw [if_pos hh]
  refine raises_of_suffix_left hw.log ?_
  unfold State.dropLost
  refine raises_of_suffix_right ?_ (notify_routed _ k _).log
  exact raises_of_suffix_left (bump_aside v _ _).log (State.raise_raises _ _ _ _ _ _)

end Sys2Proof.Machine

/-- Settles O37: each answer finds the request by its tag, as the way here changes wires only. -/
theorem fabricAnswers : Obligations.FabricAnswers := by
  unfold Obligations.FabricAnswers
  intro id r s hstage aborted
  refine ⟨fun port k hx hm hh hr hw => ⟨fun hty hch hst => ?load, fun hty hch hst => ?store, fun hty h1 h4 => ?notice⟩, fun hreq => ?timeout⟩
  case load =>
    obtain ⟨v, hv, harr⟩ := arrive_here hx hm hty hh hr fun s => s.respHere k
    refine ⟨_, next_congr harr, ?_⟩
    have h := respHere_answers ((waiting_congr hv.reqs _).trans hw) (by rw [hst]; decide)
    rw [if_pos ⟨hch, hst⟩, if_pos ⟨hch, hst⟩, hst] at h
    exact h
  case store =>
    obtain ⟨v, hv, harr⟩ := arrive_here hx hm hty hh hr fun s => s.respHere k
    refine ⟨_, next_congr harr, ?_⟩
    have h := respHere_answers ((waiting_congr hv.reqs _).trans hw) hst
    rw [if_neg (by simp [hch]), if_neg (by simp [hch])] at h
    exact h
  case notice =>
    obtain ⟨v, hv, harr⟩ := arrive_here hx hm hty hh hr fun s =>
      (s.noticeLost (pRtag k) (pBody k 32 1) (pBody k 33 1) (pTag k)).noticeHere (pRtag k) (pBody k 33 1)
    exact ⟨_, next_congr harr, notice_aborts ((waiting_congr hv.reqs _).trans hw) h1 h4⟩
  case timeout =>
    have hrun : exec (.transferTimeout id) s = .next ((s.raise evTransferTimeout (s.allotOf r.core.parish)
        [(r.core.id, 4), (r.window, 2), (r.feid.toNat, 4), (r.addr, 8)]
        (((s.allotOf r.core.parish).map Dest.allot).toList)).abortReq id r) := by
      refine next_congr ?_
      rw [hreq]
      exact if_neg (not_not_intro hstage)
    exact ⟨_, hrun, abortReq_answers _ id r, raises_of_suffix_right (s.raise_raises _ _ _ _ _) (abortReq_aside _ id r).log⟩

/-- Settles O38: an increment at its owner's tally, and the two commands of ROUTE. -/
theorem fabricTables : Obligations.FabricTables := by
  unfold Obligations.FabricTables
  intro s
  refine ⟨fun k a ha ho => ?inc, fun path t hg hb => ⟨?_, ?_⟩, fun path t hg hb => ?_⟩
  case inc =>
    intro h hw
    refine ⟨fun hl => ?_, fun port hx hm hty hh hr hopen => ?_⟩
    · refine ⟨_, next_congr (if_pos hl), ?_, ?_⟩
      · exact tallyIncHere_tally (s := { s with fabLocal := s.fabLocal.erase k }) ha ho hw
      · rw [tallyIncHere_adds (s := { s with fabLocal := s.fabLocal.erase k }) ha ho]
        exact (tallyInc_tallyOnly _ rfl _ _).fabLocal
    · obtain ⟨v, hv, harr⟩ := arrive_here hx hm hty hh hr fun s => s.tallyIncFrom port k
      refine ⟨_, next_congr harr, ?_⟩
      have hs := hv.sameHub (k := k)
      have hfrom : v.tallyIncFrom port k = v.tallyIncHere k := if_pos ((hs.tables _ _).trans hopen)
      have htally := tallyIncHere_tally (hs.tag.trans ha) (hs.owner.trans ho) (hs.waiters.trans hw)
      rw [hs.tally] at htally
      dsimp only
      rw [hfrom]
      exact htally
  · exact next_congr (routeCmd_busy hg hb _)
  · exact next_congr (routeCmd_busy hg hb _)
  · intro i e
    refine ⟨⟨_, next_congr (routeCmd_free hg hb _), ?_, ?_, rfl⟩, fun hgood => ?_, fun hbad => ?_⟩
    · exact (reg_setReg_ne _ _ (by decide)).trans (State.reg_setReg_self _ _ _)
    · exact State.reg_setReg_self _ _ _
    · exact ⟨_, routeCmdWrite_writes hg hb, routeWritten_good hgood⟩
    · refine ⟨_, routeCmdWrite_writes hg hb, ?_⟩
      rw [routeWritten_bad hbad]
      exact ⟨rfl, bit_orReg _ 0x900020 1 (by decide)⟩

/-- Settles O36: a READ or WRITE for this module is served once, and what follows its service touches no memory. -/
theorem fabricTarget : Obligations.FabricTarget := by
  unfold Obligations.FabricTarget
  intro port k s hx hm
  refine ⟨fun hty hh hl ns => ⟨_, rfl, arrive_spent hx hm hty hh hl _⟩, fun hh hr => ⟨fun hty d hj => ⟨?data, fun ns => ?read⟩, ?write⟩⟩
  case data => exact serveRead_data hj 7 0xFFFFFFFF
  case read =>
    obtain ⟨v, hv, harr⟩ := arrive_here hx hm hty hh hr fun s => s.serveHere k ns
    refine ⟨_, next_congr harr, fun a => ?_⟩
    have hserved : v.served k 7 0xFFFFFFFF = v.serveRead k 7 0xFFFFFFFF := if_pos hty
    have hi := serveHere_image v k ns
    rw [hserved] at hi
    have hmem := (hv.linkOnly.sameImage.trans ((serveRead_sameImage v k 7 0xFFFFFFFF).trans hi)).memByte
    exact congrFun hmem a
  case write =>
    intro hty l d hj ns
    obtain ⟨v, hv, harr⟩ := arrive_here hx hm hty hh hr fun s => s.serveHere k ns
    refine ⟨_, next_congr harr, ?_⟩
    have hserved : v.served k 7 0xFFFFFFFF = v.serveWrite k 7 0xFFFFFFFF := if_neg (by rw [hty]; decide)
    have hi := (serveHere_image v k ns).memByte
    rw [hserved] at hi
    have hbytes := serveWrite_bytes ((hv.judgeFabric _ _ _).trans hj) 7 0xFFFFFFFF
    rw [hv.linkOnly.sameImage.memKey, hv.linkOnly.sameImage.memByte] at hbytes
    dsimp only
    rw [hi]
    exact hbytes
end

section
/-! The schedule domain: markers received and sent, admission, STRETCH and DOMAIN packets (R240, R249, R250, R311 to R314). -/

open Sys2Proof Sys2Proof.Machine

namespace Sys2Proof.Machine

variable {s t u : State} {port : Fin 64} {k : FabPkt} {p : Nat}

/-! ### Markers received (R240, R250, R312) -/

theorem raise_bell (s : State) (code : Nat) (al : Option Nat) (payload : List (Nat × Nat)) (l : List Dest) (count : Nat) :
    (s.raise code al payload l count).bell = s.bell := by
  obtain ⟨_, _, _, _, _, _, _, h⟩ := s.raise_eq code al payload l count
  rw [h]

/-- A phase error raised leaves the count and the parent's flag, and the module out of step. -/
theorem phaseError_bell (s : State) (cause : Nat) (hstep : s.bell.errRaised = true → s.bell.outOfStep = true) :
    (s.phaseError cause).bell.count = s.bell.count ∧ (s.phaseError cause).bell.parentOos = s.bell.parentOos ∧
      (s.phaseError cause).bell.outOfStep = true ∧ ∀ o, o < 0x60180 → (s.phaseError cause).reg o = s.reg o := by
  unfold State.phaseError
  split
  next h => exact ⟨rfl, rfl, hstep h, fun _ _ => rfl⟩
  · rw [raise_bell]
    exact ⟨rfl, rfl, rfl, fun o ho => (raise_reportsLow _ _ _ _ _ _).2 o ho⟩

/-- A marker judged is published in PHASE_ERR, and the count and the parent's flag stay (R240, R250). -/
theorem judgePhase_bell (s : State) (err : Word) (hstep : s.bell.outOfStep = (s.bell.errRaised || s.bell.parentOos)) :
    (s.judgePhase err).bell.parentOos = s.bell.parentOos ∧ (s.judgePhase err).bell.count = s.bell.count ∧
      (s.bell.parentOos = true → (s.judgePhase err).bell.outOfStep = true) ∧
      (s.judgePhase err).reg (clkBase + 0x48) = BitVec.ofNat 64 (err.toNat + 2 ^ 63) := by
  have hout (h : s.bell.parentOos = true) : s.bell.outOfStep = true := by rw [hstep, h, Bool.or_true]
  unfold State.judgePhase
  dsimp only
  generalize hv : s.setReg (clkBase + 0x48) _ = v
  have hb : v.bell = s.bell := by rw [← hv]; rfl
  have hreg : v.reg (clkBase + 0x48) = BitVec.ofNat 64 (err.toNat + 2 ^ 63) := by
    rw [← hv]
    exact State.reg_setReg_self _ _ _
  rw [hb]
  split
  · split
    · exact ⟨rfl, rfl, fun h => by simp [State.setBell, Bell.stepState, h], hreg⟩
    · exact ⟨rfl, rfl, hout, hreg⟩
  · generalize hw : v.setBell _ = w
    have hwb : w.bell = { s.bell with bad := s.bell.bad + 1, good := 0 } := by rw [← hw]; rfl
    have hwr : w.reg (clkBase + 0x48) = BitVec.ofNat 64 (err.toNat + 2 ^ 63) := by rw [← hw]; exact hreg
    split
    · obtain ⟨hcount, hpar, hoos, hregs⟩ := phaseError_bell w 0 (by rw [hwb, hstep]; exact fun h => by rw [h]; rfl)
      refine ⟨by rw [hpar, hwb], by rw [hcount, hwb], fun _ => hoos, ?_⟩
      rw [hregs _ (by decide), hwr]
    · exact ⟨by rw [hwb], by rw [hwb], fun h => by rw [hwb]; exact hout h, hwr⟩

/-! ### Admission (R246, R313) -/

theorem joinDomain_admits {count : DWord} {id : Half} {level : Nat} {oos : Bool} {ex : Half × Nat × Bool × Nat}
    (hex : s.bell.parentDomain = some ex) (h : s.admission ex id level = none) :
    s.joinDomain count id level oos =
      s.setBell ({ s.bell with count := count, member := true, parentOos := oos, guardG := guardOf s.boot.cfg true } : Bell).stepState := by
  unfold State.joinDomain
  rw [hex]
  dsimp only
  rw [h]

theorem joinDomain_refuses {count : DWord} {id : Half} {level : Nat} {oos : Bool} {ex : Half × Nat × Bool × Nat}
    (hex : s.bell.parentDomain = some ex) (h : s.admission ex id level ≠ none) :
    (s.joinDomain count id level oos).bell = s.bell ∧ s.raises (s.joinDomain count id level oos) evDomainRefused := by
  obtain ⟨r, hr⟩ := Option.ne_none_iff_exists'.mp h
  unfold State.joinDomain
  rw [hex]
  dsimp only
  rw [hr]
  exact ⟨raise_bell _ _ _ _ _ _, s.raise_raises _ _ _ _ _⟩

/-! ### Markers sent (R312) -/

theorem State.wireOnly.bell (h : s.wireOnly t) : t.bell = s.bell := by
  obtain ⟨_, _, _, _, _, _, _, _, _, rfl⟩ := h.rest
  rfl

/-- A control flit that waits at a port or has left it. -/
def State.carriesOut (s : State) (p : Nat) (c : Byte × List Nat) : Prop := Out.link p c.1 c.2 ∈ s.out ∨ c ∈ (s.port p).ctrl

theorem fill_ctrl : ∀ (n : Nat) (x : Port), (x.fill n).1.ctrl = x.ctrl
  | 0, _ => rfl
  | n + 1, x => by
    unfold Port.fill
    split
    · rfl
    next q _ =>
      refine (fill_ctrl n _).trans ?_
      unfold Port.takeFlit
      dsimp only
      split <;> rfl

/-- The control flits of a codeword leave, and the others go on waiting. -/
theorem formCodeword_carriesOut {c : Byte × List Nat} (h : s.formCodeword p = some t) (hc : s.carriesOut p c) : t.carriesOut p c := by
  rcases hc with hc | hc
  · exact .inl ((formCodeword_atPort h).sent.subset hc)
  unfold State.formCodeword at h
  dsimp only at h
  split at h
  · cases h
  next g _ =>
    split_ifs at h
    cases h
    rw [← List.take_append_drop 10 (s.port p).ctrl] at hc
    rcases List.mem_append.mp hc with hc | hc
    · left
      rw [sendItems_out]
      refine List.mem_append_left _ (List.mem_reverse.mpr (List.mem_map.mpr ⟨.control c.1 c.2, ?_, rfl⟩))
      exact List.mem_append_left _ (List.mem_map.mpr ⟨c, hc, rfl⟩)
    · right
      rw [(sendItems_aside _ p _).port, (retryPeak_aside _ p _).port, (bump_aside _ _ _).port, State.port_setPort,
        (setGroup_rest _ _ _).2.2.1, fill_ctrl]
      exact hc

theorem pumpLoop_carriesOut {c : Byte × List Nat} : ∀ (n : Nat) {s : State}, s.carriesOut p c → (s.pumpLoop p n).carriesOut p c
  | 0, _, h => h
  | n + 1, s, h => by
    unfold State.pumpLoop
    split
    · exact h
    next t ht => exact pumpLoop_carriesOut n (formCodeword_carriesOut ht h)

theorem pump_carriesOut {c : Byte × List Nat} (h : s.carriesOut p c) : (s.pump p).carriesOut p c := by
  unfold State.pump
  dsimp only
  generalize hn : (s.port p).ctrl.length + _ = n
  have hloop := pumpLoop_carriesOut n h
  generalize s.pumpLoop p n = v at hloop
  split
  · generalize hw : v.setPort p _ = w
    have ht := timeLane_still w
    rcases hloop with hl | hl
    · refine .inl (ht.sent.subset ?_)
      rw [← hw]
      exact hl
    · right
      rw [ht.aside.port, ← hw, State.port_setPort]
      exact hl
  · exact hloop

/-- A control flit for a port that carries traffic leaves it or waits there. -/
theorem linkOut_carriesOut (kind : Byte) (args : List Nat) (hx : (s.port p).carries = true) :
    (s.linkOut p kind args).carriesOut p (kind, args) := by
  unfold State.linkOut
  dsimp only
  rw [if_pos hx]
  refine pump_carriesOut (.inr ?_)
  rw [State.port_setPort]
  exact List.mem_append_right _ List.mem_cons_self

/-- What one port sends takes nothing away from what another sent or holds. -/
theorem linkOut_carriesOut_ne {q : Nat} (hq : q ≠ p) (kind : Byte) (args : List Nat) {c : Byte × List Nat} (h : s.carriesOut q c) :
    (s.linkOut p kind args).carriesOut q c := by
  have hp := linkOut_atPort s p kind args
  rcases h with h | h
  · exact .inl (hp.sent.subset h)
  · exact .inr (by rw [hp.others q hq]; exact h)

/-- Every port of a list that carries traffic is sent a control flit. -/
theorem linkOut_all (kind : Byte) (args : List Nat) (l : List Nat) : ∀ s : State, l.Nodup → (∀ p ∈ l, (s.port p).carries = true) →
    ∀ p ∈ l, (l.foldl (fun s p => s.linkOut p kind args) s).carriesOut p (kind, args) := by
  induction l with
  | nil => exact fun _ _ _ p hp => nomatch hp
  | cons q l ih =>
    intro s hn hx p hp
    obtain ⟨hql, hn'⟩ := List.nodup_cons.mp hn
    have hat := linkOut_atPort s q kind args
    have hhere := linkOut_carriesOut kind args (hx q List.mem_cons_self)
    rw [List.foldl_cons]
    generalize s.linkOut q kind args = v at hat hhere
    rcases List.mem_cons.mp hp with rfl | hpl
    · refine List.foldlRecOn (motive := fun t : State => t.carriesOut p (kind, args)) l _ hhere fun t ht r hr => ?_
      have hpr : p ≠ r := fun h => hql (h ▸ hr)
      exact linkOut_carriesOut_ne hpr kind args ht
    · refine ih v hn' (fun r hr => ?_) p hpl
      rw [hat.others r fun h => hql (h ▸ hr)]
      exact hx r (List.mem_cons_of_mem _ hr)

theorem linkOuts_wireOnly (kind : Byte) (args : List Nat) (l : List Nat) (s : State) :
    s.wireOnly (l.foldl (fun s p => s.linkOut p kind args) s) :=
  List.foldlRecOn l _ (State.wireOnly.refl s) fun t h p _ => h.trans (linkOut_atPort t p kind args).towireOnly

/-! ### STRETCH and DOMAIN (R255, R292, R313, R314) -/

theorem spread_requests (s : State) (up : Bool) (q : StretchReq) : (s.spread up q).bell.requests = s.bell.requests := by
  unfold State.spread
  dsimp only
  split
  · rfl
  · generalize hv : s.setBell _ = v
    have hvb : v.bell.requests = s.bell.requests := by rw [← hv]; rfl
    rw [← hvb]
    refine List.foldlRecOn (motive := fun t : State => t.bell.requests = v.bell.requests) _ _ rfl fun t h p _ => ?_
    rw [(enqueue_atPort t p _ _).towireOnly.bell, h]

/-- A request in time, not seen, is recorded (R255). -/
theorem stretchHere_records (hmem : s.bell.member = true) (ht : s.tick ≤ (stretchReqOf k).td)
    (hnew : s.bell.requests.contains (stretchReqOf k) = false) (p : Nat) :
    (s.stretchHere p k).bell.requests = s.bell.requests ++ [stretchReqOf k] := by
  unfold State.stretchHere
  rw [if_neg (by simp [hmem])]
  dsimp only
  rw [spread_requests, Bell.record, if_neg fun h => h.elim (fun h => absurd ht (Nat.not_le.mpr h)) fun h => by
    rw [hnew] at h
    exact absurd h (by decide)]
  rfl

end Sys2Proof.Machine

/-- Settles O35: what a marker sets, who is admitted, and what the tree's packets leave of the bell. -/
theorem scheduleDomain : Obligations.ScheduleDomain := by
  unfold Obligations.ScheduleDomain
  intro s c b
  refine ⟨fun hup hdom hroot count period dom lvl oos atPeriod atPs => ?marker, fun hup hmem hroot herr => ?lost,
    fun hup hmem hdue => ?send, fun port k hx hm => ⟨fun hty hopen hmem htd hnew => ?stretch, fun hty hdom hport => ?domain⟩⟩
  case marker =>
    have hon : ¬ (!s.up ∨ !c.domain ∨ c.root) := by simp [hup, hdom, hroot]
    refine ⟨fun hmem => ?_, fun hmem ex hex => ⟨fun hadm => ?_, fun href => ?_⟩⟩
    · refine ⟨_, next_congr ((if_neg hon).trans (if_pos hmem)), ?_⟩
      exact judgePhase_bell (s.setBell ({ s.bell with parentOos := oos } : Bell).stepState) _ rfl
    · have hrun := joinDomain_admits (count := count) (oos := oos) hex hadm
      refine ⟨_, next_congr ((if_neg hon).trans ((if_neg (by simp [b] at hmem; simp [hmem])).trans hrun)), rfl, rfl, rfl⟩
    · exact ⟨_, next_congr ((if_neg hon).trans (if_neg (by simp [b] at hmem; simp [hmem]))), joinDomain_refuses hex href⟩
  case lost =>
    have herr' : ¬ s.bell.errRaised = true := by rw [show s.bell.errRaised = false from herr]; decide
    refine ⟨_, next_congr ((if_pos ⟨hup, hmem, by simp [c] at hroot; simp [hroot]⟩).trans (if_neg herr')), ?_, ?_⟩
    · rw [raise_bell]
      rfl
    · exact raises_of_suffix_left (t := s.setBell _) List.suffix_rfl (State.raise_raises _ _ _ _ _ _)
  case send =>
    refine ⟨_, next_congr (if_pos ⟨hup, hmem, hdue⟩), ?_, if b.markersDue = 1 then 0 else bits s.draw 0 8 % b.markersDue, ?_, ?_⟩
    · exact (linkOuts_wireOnly _ _ _ s).bell
    · split
      · exact hdue
      · exact Nat.mod_lt _ hdue
    · intro p hp
      have hn : s.children.Nodup := List.nodup_range.filter _
      have hall : ∀ p ∈ s.children, (s.port p).carries = true := fun p hp =>
        (Bool.and_eq_true_iff.mp (List.mem_filter.mp hp).2).2
      exact linkOut_all 4 _ s.children s hn hall p hp
  case stretch =>
    have hw := returnCredit_wireOnly s port k
    refine ⟨_, next_congr ((if_neg (by simp [hx])).trans ((if_neg (by simp [hm])).trans (if_neg (not_not_intro hty)))), ?_⟩
    dsimp only
    generalize s.returnCredit port k = v at hw
    have hb := hw.bell
    rw [if_pos (((State.arrived.sameHub (.inl hw) (k := k)).tables _ _).trans hopen),
      stretchHere_records (by rw [hb]; exact hmem) (by rw [State.tick, hb]; exact htd) (by rw [hb]; exact hnew), hb]
  case domain =>
    have hw := returnCredit_wireOnly s port k
    refine ⟨_, next_congr ((if_neg (by simp [hx])).trans ((if_neg (by simp [hm])).trans (if_neg (not_not_intro hty)))), ?_⟩
    dsimp only
    generalize s.returnCredit port k = v at hw
    have hcfg : v.boot.cfg = s.boot.cfg := by
      obtain ⟨_, _, _, _, _, _, _, _, _, rfl⟩ := hw.rest
      rfl
    rw [hcfg, if_pos ⟨hdom, hport⟩]
    rfl
end

section
/-! The reduction table: packets staged, the LOCAL contribution, stalls, poison fills and drops (R307 to R310). -/

open Sys2Proof Sys2Proof.Machine

namespace Sys2Proof.Machine

variable {s t u v : State} {port : Fin 64} {k : FabPkt} {p : Nat} {x : Red}

/-! ### What leaves the table and the reduction channels -/

/-- The reduction table and the packets that wait on the reduction channels stay; the events are added to the log. -/
structure State.tableKept (s t : State) : Prop where
  reds : t.reds = s.reds
  redQ : ∀ p, (t.port p).redQ = (s.port p).redQ
  log : s.events <:+ t.events

theorem State.tableKept.refl (s : State) : s.tableKept s := ⟨rfl, fun _ => rfl, List.suffix_rfl⟩

theorem State.tableKept.trans (h : s.tableKept t) (g : t.tableKept u) : s.tableKept u :=
  ⟨g.reds.trans h.reds, fun p => (g.redQ p).trans (h.redQ p), h.log.trans g.log⟩

theorem State.tableKept.red (h : s.tableKept t) (i : Nat) : t.red i = s.red i := by
  rw [State.red, h.reds, State.red]

theorem State.tableKept.redOf (h : s.tableKept t) (p : Nat) (k : FabPkt) : t.redOf p k = s.redOf p k := by
  rw [State.redOf, h.reds, State.redOf]

theorem State.aside.tableKept (h : s.aside t) : s.tableKept t := by
  refine ⟨?_, fun p => by rw [h.port], h.log⟩
  obtain ⟨_, _, _, _, _, _, _, _, _, _, _, _, _, _, _, _, _, rfl⟩ := h.rest
  rfl

theorem Port.moves.redQ {x y : Port} (h : x.moves y) : y.redQ = x.redQ := by
  obtain ⟨_, _, _, _, _, _, _, _, _, _, rfl, -⟩ := h
  rfl

theorem State.atPort.tableKept (h : State.atPort p s t) : s.tableKept t := by
  refine ⟨?_, fun q => ?_, h.log⟩
  · obtain ⟨_, _, _, _, _, _, _, _, _, rfl⟩ := h.rest
    rfl
  · by_cases hq : q = p
    · rw [hq]
      exact h.here.redQ
    · rw [h.others q hq]

theorem returnCredit_tableKept (s : State) (p : Nat) (k : FabPkt) : s.tableKept (s.returnCredit p k) :=
  (linkOut_atPort s p _ _).tableKept

theorem fabricDrop_aside (s : State) (cause port : Nat) (k : FabPkt) (l : List Dest) (al : Option Nat) :
    s.aside (s.fabricDrop cause port k l al) := (bump_aside s _ _).trans (raise_aside _ _ _ _ _ _)

theorem fabricDrop_raises (s : State) (cause port : Nat) (k : FabPkt) (l : List Dest) (al : Option Nat) :
    s.raises (s.fabricDrop cause port k l al) evFabricDrop :=
  raises_of_suffix_left (bump_aside s _ _).log (State.raise_raises _ _ _ _ _ _)

theorem State.memoryOnly.tableKept (h : s.memoryOnly t) : s.tableKept t := by
  have hlog := h.suffix
  obtain ⟨_, _, _, _, _, _, _, _, _, _, _, _, _, _, _, rfl⟩ := h
  exact ⟨rfl, fun _ => rfl, hlog⟩

theorem State.tallyOnly.tableKept (h : s.tallyOnly t) : s.tableKept t := by
  refine ⟨?_, ?_, h.2⟩
  all_goals obtain ⟨_, _, _, _, _, _, _, _, _, _, _, _, rfl⟩ := h.1
  · rfl
  · exact fun _ => rfl

theorem noteLatency_log (s : State) (m : Nat) (al : Option Nat) (ns : Nat) (clean : Bool) :
    s.events <:+ (s.noteLatency m al ns clean).events := by
  unfold State.noteLatency
  dsimp only
  split
  · exact List.suffix_rfl
  · generalize hv : State.bump (s.setReg _ _) _ = v
    have hs : s.events <:+ v.events := by rw [← hv]; exact List.suffix_rfl
    split
    · exact hs
    · split
      · exact hs
      · exact hs.trans (raise_suffix v _ _ _ _ _)

theorem noteLatency_tableKept (s : State) (m : Nat) (al : Option Nat) (ns : Nat) (clean : Bool) :
    s.tableKept (s.noteLatency m al ns clean) := by
  have hlog := noteLatency_log s m al ns clean
  obtain ⟨_, _, _, _, _, _, _, heq⟩ := noteLatency_latencyOnly s m al ns clean
  rw [heq] at hlog ⊢
  exact ⟨rfl, fun _ => rfl, hlog⟩

theorem noteSlow_tableKept (s t : State) (al : Option Nat) (l : List (Fin 64 × Nat)) : t.tableKept (s.noteSlow t al l) :=
  List.foldlRecOn (motive := fun u : State => t.tableKept u) l _ (.refl t) fun u h e _ => by
    split
    · exact h.trans (noteLatency_tableKept u _ _ _ _)
    · exact h

theorem noteRed_tableKept (s t : State) (i : Option Nat) (slow : List (Fin 64 × Nat)) : t.tableKept (s.noteRed t i slow) := by
  unfold State.noteRed
  split
  · split
    · exact .refl t
    · exact noteSlow_tableKept s t _ slow
  · exact .refl t

/-- Noting latencies leaves the hub's tallies. -/
theorem noteSlow_hub (s t : State) (al : Option Nat) (l : List (Fin 64 × Nat)) : (s.noteSlow t al l).hub = t.hub :=
  List.foldlRecOn (motive := fun u : State => u.hub = t.hub) l _ rfl fun u h e _ => by
    split
    · obtain ⟨_, _, _, _, _, _, _, heq⟩ := noteLatency_latencyOnly u e.1 al e.2 (decide (t.memUe.length = s.memUe.length))
      rw [heq]
      exact h
    · exact h

/-- A level 2 tally is read in the hub. -/
theorem tally_congr_hub {h : THome} (hl : h.lvl = 2) (hh : t.hub = s.hub) : t.tally h = s.tally h := by
  unfold State.tally
  simp only [hl, hh]

theorem noteRed_hub (s t : State) (i : Option Nat) (slow : List (Fin 64 × Nat)) : (s.noteRed t i slow).hub = t.hub := by
  unfold State.noteRed
  split
  · split
    · rfl
    · exact noteSlow_hub s t _ slow
  · rfl

theorem countRx_tableKept (s : State) (a tag tid src : Nat) : s.tableKept (s.countRx a tag tid src) := by
  have hset (i : Nat) (x : Rx) : s.tableKept (s.setRx i x) := ⟨rfl, fun _ => rfl, List.suffix_rfl⟩
  unfold State.countRx
  split
  · exact .refl s
  next i x _ =>
    dsimp only
    generalize hv : (if x.count ≥ 0xFFFFFFFF then _ else _ : State) = v
    have hsv : s.tableKept v := by
      rw [← hv]
      split
      · split
        · exact hset _ _
        · exact (hset _ _).trans ((raise_aside _ _ _ _ _ _).trans (chargeCur_aside _ _)).tableKept
      · exact hset _ _
    split
    · exact hsv.trans (tallyInc_tallyOnly v rfl _ _).tableKept
    · exact hsv

theorem enqueueRed_tableKept (s : State) (p : Nat) (k : FabPkt) : s.tableKept (s.enqueueRed p k) := by
  unfold State.enqueueRed
  split
  · refine ⟨rfl, fun q => ?_, List.suffix_rfl⟩
    by_cases hq : q = p
    · rw [hq, State.port_updPort]
    · rw [State.updPort, State.port_setPort_ne s _ hq]
  · exact (enqueue_atPort s p 24 k).tableKept

theorem emitRed_tableKept (s : State) (x : Red) (seq : Nat) (l : List (BitVec 512 × Bool)) (bytes : Nat) :
    s.tableKept (s.emitRed x seq l bytes) := by
  unfold State.emitRed
  dsimp only
  split
  · split
    · split
      · exact (writeRange_memoryOnly s _ _ _ _ _).tableKept.trans (countRx_tableKept _ _ _ _ _)
      · exact .refl s
    · exact .refl s
  · exact enqueueRed_tableKept s _ _

theorem outputRed_tableKept (s : State) (x : Red) (q : Nat) (l : List (BitVec 512 × Bool)) : s.tableKept (s.outputRed x q l) := by
  unfold State.outputRed
  dsimp only
  split
  · split
    · exact (emitRed_tableKept s _ _ _ _).trans (emitRed_tableKept _ _ _ _ _)
    · exact emitRed_tableKept s _ _ _ _
  · exact emitRed_tableKept s _ _ _ _

/-! ### Draining the reduction channels (R308, R310) -/

/-- No packet waits on a reduction channel. -/
def State.idleChannels (s : State) : Prop := ∀ p, (s.port p).redQ = []

theorem State.tableKept.idleChannels (h : s.tableKept t) (hs : s.idleChannels) : t.idleChannels := fun p => (h.redQ p).trans (hs p)

/-- A fold in which one element may act, and only the first time. -/
theorem foldl_once {α β : Type} {f : β → α → β} {s v : β} {a : α} (hs : ∀ b, b ≠ a → f s b = s) (ha : f s a = v)
    (hv : ∀ b, f v b = v) : ∀ l : List α, a ∈ l → l.foldl f s = v
  | b :: l, hl => by
    rw [List.foldl_cons]
    by_cases hb : b = a
    · rw [hb, ha]
      exact List.foldlRecOn (motive := fun t => t = v) l _ rfl fun t ht c _ => by rw [ht, hv]
    · rw [hs b hb]
      exact foldl_once hs ha hv l ((List.mem_cons.mp hl).resolve_left fun h => hb h.symm)

theorem drainRed_none (s : State) (p : Nat) (h : (s.port p).redQ = []) : s.drainRed p (s.port p).redQ.length = s := by
  rw [h]
  rfl

theorem redWaiting_of_idle (h : s.idleChannels) : s.redWaiting = 0 := by
  unfold State.redWaiting
  have hz : (List.range 64).map (fun p => (s.port p).redQ.length) = (List.range 64).map fun _ => 0 :=
    List.map_congr_left fun p _ => by rw [h p]; rfl
  rw [hz]
  rfl

theorem drainRound_of_idle (h : s.idleChannels) (l : List Nat) :
    l.foldl (fun s p => s.drainRed p ((s.port p).redQ.length)) s = s :=
  List.foldlRecOn (motive := fun t => t = s) l _ rfl fun t ht p _ => by rw [ht, drainRed_none s p (h p)]

theorem drainLoop_of_idle (h : s.idleChannels) (n : Nat) : s.drainLoop n = s := by
  cases n with
  | zero => rfl
  | succ n =>
    unfold State.drainLoop
    dsimp only
    rw [drainRound_of_idle h, if_pos rfl]

theorem drainAll_of_idle (h : s.idleChannels) : s.drainAll = s := drainLoop_of_idle h _

/-- One packet that waits, on one channel, is taken once. -/
theorem drainAll_of_one (hp : (s.port port).redQ = [k]) (hq : ∀ q, q ≠ port.val → (s.port q).redQ = [])
    (hv : s.drainRed port 1 = v) (hidle : v.idleChannels) : s.drainAll = v := by
  have hround : (List.range 64).foldl (fun s p => s.drainRed p ((s.port p).redQ.length)) s = v := by
    refine foldl_once (a := port.val) (fun q hne => drainRed_none s q (hq q hne)) ?_ (fun q => drainRed_none v q (hidle q)) _
      (List.mem_range.mpr port.isLt)
    rw [hp]
    exact hv
  unfold State.drainAll State.drainLoop
  dsimp only
  rw [hround]
  split
  · rfl
  · exact drainLoop_of_idle hidle _

/-- An entry that lacks an input of its SEQ does not run. -/
theorem runRed_of_missing {i q : Nat} (hmem : q ∈ (s.red i).ports) (hq : (s.red i).hasPort q (s.red i).seq = false) (n : Nat) :
    s.runRed i n = s := by
  cases n with
  | zero => rfl
  | succ n =>
    have hnone : s.redReady i = none := by
      unfold State.redReady
      dsimp only
      refine if_pos (.inr (.inr ?_))
      have hall : (s.red i).ports.all (fun p => (s.red i).hasPort p (s.red i).seq) = false :=
        List.all_eq_false.mpr ⟨q, hmem, by rw [hq]; decide⟩
      rw [hall]
      rfl
    unfold State.runRed
    rw [hnone]

theorem red_setRed (s : State) (i : Nat) (x : Red) : (s.setRed i x).red i = x := Tab.get_put_self _ _ _ _

/-- A port whose reduction channel holds one packet. -/
def State.holding (s : State) (p : Nat) (k : FabPkt) : State := s.updPort p fun y => { y with redQ := [k] }

/-- The packet at the head of a channel is taken: its credit goes back. -/
def State.takesHead (s : State) (p : Nat) (k : FabPkt) : State := (s.updPort p fun y => { y with redQ := [] }).returnCredit p k

theorem takesHead_log (s : State) (p : Nat) (k : FabPkt) : s.events <:+ (s.takesHead p k).events :=
  (setPort_linkOnly s p _).log.trans (returnCredit_wireOnly _ p k).log

theorem takesHead_idle (hq : ∀ q, q ≠ p → (s.port q).redQ = []) : (s.takesHead p k).idleChannels ∧ (s.takesHead p k).reds = s.reds := by
  have hk := returnCredit_tableKept (s.updPort p fun y => { y with redQ := [] }) p k
  refine ⟨hk.idleChannels fun q => ?_, hk.reds⟩
  by_cases h : q = p
  · rw [h, State.port_updPort]
  · rw [State.updPort, State.port_setPort_ne s _ h, hq q h]

/-- A packet that its entry accepts, while another input is missing, is staged (R308). -/
theorem drainRed_stages {i q : Nat} (hp : (s.port p).redQ = [k]) (hi : s.redOf p k = some i) (hacc : (s.red i).accepts p k = true)
    (hmem : q ∈ (s.red i).ports) (hne : q ≠ p) (hmiss : (s.red i).hasPort q (s.red i).seq = false) :
    s.drainRed p 1 = (s.takesHead p k).setRed i { s.red i with
      ins := (s.red i).ins.put p { next := ((s.red i).input p).next + 1,
                                   staged := ((s.red i).input p).staged.put (pSeq k) (k.data, BitVec.ofNat 32 (pPoison k)) }
      filled := (s.red i).filled.erase (p, pSeq k) } := by
  unfold State.drainRed
  rw [hp]
  dsimp only
  rw [hi]
  dsimp only
  rw [if_pos hacc]
  unfold State.drainRed
  refine runRed_of_missing (q := q) ?_ ?_ 65536
  · rw [red_setRed]
    exact hmem
  · rw [red_setRed]
    change ((Tab.get ({} : RedIn) ((s.red i).ins.put p _) q).staged.find? (s.red i).seq).isSome = false
    rw [Tab.get_put_ne _ _ _ hne]
    exact hmiss

/-- A packet of a SEQ completed without it is late (R309). -/
theorem drainRed_late {i : Nat} (hp : (s.port p).redQ = [k]) (hi : s.redOf p k = some i) (hacc : (s.red i).accepts p k = false)
    (hf : (s.red i).filled.contains (p, pSeq k) = true) :
    s.drainRed p 1 = ((s.takesHead p k).setRed i { s.red i with filled := (s.red i).filled.erase (p, pSeq k) }).bump
      (fabricBase + 0x58) := by
  unfold State.drainRed
  rw [hp]
  dsimp only
  rw [hi]
  dsimp only
  rw [if_neg (by simp [hacc]), if_pos hf]
  rfl

/-! ### REDUCE (R300, R308, R310) -/

/-- What a REDUCE packet of a tag that is known does at its port. -/
theorem reduce_queues {slow : List (Fin 64 × Nat)} (hx : (s.port port).carries = true) (hm : pMalformed k = false)
    (hty : pType k = 5) {a : Nat} (ha : s.allotOfTag (pTag k) = some a) :
    exec (.reduce port ⟨k, slow⟩) s = .next
      (s.noteRed (s.updPort port fun x => { x with redQ := x.redQ ++ [k] }).drainAll (s.redOf port k) slow) := by
  refine next_congr ?_
  refine (if_neg (by simp [hx])).trans ((if_neg (by simp [hm])).trans ((if_neg (not_not_intro hty)).trans (if_neg ?_)))
  change ¬ (s.allotOfTag (pTag k)).isNone = true
  rw [ha]
  exact Bool.false_ne_true

/-- A port's channel with one packet, the others empty, is drained at once where the entry takes it. -/
theorem reduce_drains {slow : List (Fin 64 × Nat)} (hidle : s.idleChannels) (hx : (s.port port).carries = true)
    (hm : pMalformed k = false) (hty : pType k = 5) {a : Nat} (ha : s.allotOfTag (pTag k) = some a)
    (hdrain : (s.holding port k).drainRed port 1 = v) (hv : v.idleChannels) :
    leads (exec (.reduce port ⟨k, slow⟩) s) fun t => t.reds = v.reds ∧ (t.port port).redQ = [] := by
  refine ⟨_, reduce_queues hx hm hty ha, ?_⟩
  have hq : (s.updPort port fun x => { x with redQ := x.redQ ++ [k] }) = s.holding port k := by
    unfold State.holding State.updPort
    dsimp only
    rw [hidle port, List.nil_append]
  have hwp : ((s.holding port k).port port).redQ = [k] := by rw [State.holding, State.port_updPort]
  have hwq (q : Nat) (h : q ≠ port.val) : ((s.holding port k).port q).redQ = [] := by
    rw [State.holding, State.updPort, State.port_setPort_ne s _ h, hidle q]
  rw [hq, drainAll_of_one hwp hwq hdrain hv]
  have hk := noteRed_tableKept s v (s.redOf port k) slow
  exact ⟨hk.reds, (hk.redQ port).trans (hv port)⟩

/-- The channel of a port holds one packet, and the table stays. -/
theorem channel_holds (s : State) (p : Nat) (k : FabPkt) :
    ((s.holding p k).port p).redQ = [k] ∧
      (s.holding p k).reds = s.reds := by
  rw [State.holding, State.port_updPort]
  exact ⟨rfl, rfl⟩

theorem channel_idle (hidle : s.idleChannels) (p : Nat) (k : FabPkt) :
    ((s.holding p k).takesHead p k).idleChannels :=
  (takesHead_idle fun q hq => by rw [State.holding, State.updPort, State.port_setPort_ne s _ hq, hidle q]).1

theorem setRed_idle (hidle : s.idleChannels) (i : Nat) (x : Red) : (s.setRed i x).idleChannels := hidle

/-! ### The LOCAL contribution, stalls and drops (R308 to R310) -/

theorem setTally_tally_le (s : State) {h : THome} (hl : h.lvl = 2) (n : Nat) : (s.setTally h (s.tally h - n)).tally h = s.tally h - n :=
  setTally_tally s (.inr hl) (Nat.le_trans (Nat.sub_le _ _) (tally_le_max s (.inr hl)))

/-- What a stall reports leaves the table and the channels. -/
theorem stallEvent_aside (s : State) (i stage : Nat) : s.aside (s.stallEvent i stage) := raise_aside s _ _ _ _ _

theorem stallEvent_raises (s : State) (i stage : Nat) : s.raises (s.stallEvent i stage) evReductionStall :=
  s.raise_raises _ _ _ _ _

theorem localIn_tableKept {q : Nat} {r : State × Staged} (h : s.localIn x q = some r) : s.tableKept r.1 := by
  unfold State.localIn at h
  split at h
  · cases h
  · dsimp only at h
    split at h
    · cases h
    · split at h
      · cases h
      · cases h
        exact (readRange_memoryOnly s _ _ _ _ _).tableKept

/-- A SEQ that completes with a further one to come: the entry goes on to it (R308). -/
theorem completeSeq_next {i : Nat} (h : (s.red i).seq + 1 < (s.red i).seqs) (ins : List Staged) :
    ∃ u, s.tableKept u ∧ s.completeSeq i ins = u.setRed i { s.red i with
      ins := (s.red i).ins.mapVals fun _ y => { y with staged := y.staged.del (s.red i).seq }
      seq := (s.red i).seq + 1, stalls := 0 } := by
  refine ⟨_, outputRed_tableKept s (s.red i) (s.red i).seq ((s.red i).combine ins), ?_⟩
  exact if_pos h

/-- The missing inputs are taken as owing the next SEQ; what they have staged stays. -/
theorem foldl_put_staged (f : Nat → RedIn) (l : List Nat) (q : Nat) (hf : ∀ p, (f p).staged = (x.input p).staged) :
    ∀ m : Tab RedIn, (Tab.get {} m q).staged = (x.input q).staged →
      (Tab.get {} (l.foldl (fun t p => t.put p (f p)) m) q).staged = (x.input q).staged := by
  induction l with
  | nil => exact fun _ h => h
  | cons p l ih =>
    refine fun m h => ih _ ?_
    by_cases hp : q = p
    · rw [hp, Tab.get_put_self, hf]
    · rw [Tab.get_put_ne _ _ _ hp, h]

/-- The SEQs after the present one keep what they have staged as the present one goes. -/
theorem hasPort_del {q n m : Nat} (hnm : m ≠ n) (t : Tab RedIn) :
    (Tab.get ({} : RedIn) (t.mapVals fun _ y => { y with staged := y.staged.del n }) q).staged.find? m =
      (Tab.get ({} : RedIn) t q).staged.find? m := by
  simp only [Tab.get, Tab.find?_mapVals]
  cases t.find? q with
  | none => rfl
  | some y => exact Tab.find?_del_ne _ hnm

/-- An entry as its second RED_TIMEOUT leaves it: the missing inputs owe the next SEQ (R309). -/
def Red.filledIn (x : Red) : Red :=
  let miss := x.ports.filter fun p => !x.hasPort p x.seq
  { x with filled := x.filled ++ miss.map fun p => (p, x.seq)
           ins := miss.foldl (fun t p => t.put p { x.input p with next := x.seq + 1 }) x.ins }

/-- A SEQ that is filled with poison completes, and the entry goes on to the next, which waits for its inputs (R309). -/
theorem fill_completes {i q : Nat} (hnext : x.seq + 1 < x.seqs) (hmem : q ∈ x.ports) (hmiss : x.hasPort q (x.seq + 1) = false)
    (hidle : s.idleChannels) (ins : List Staged) :
    ((((s.setRed i x.filledIn).completeSeq i ins).runRed i 65536).drainAll.red i).seq = x.seq + 1 ∧
      ((((s.setRed i x.filledIn).completeSeq i ins).runRed i 65536).drainAll.red i).stalls = 0 ∧
      s.events <:+ (((s.setRed i x.filledIn).completeSeq i ins).runRed i 65536).drainAll.events := by
  have hred := red_setRed s i x.filledIn
  obtain ⟨u, hu, hrun⟩ := completeSeq_next (s := s.setRed i x.filledIn) (i := i) (by rw [hred]; exact hnext) ins
  rw [hred] at hrun
  rw [hrun]
  have hui := hu.idleChannels hidle
  generalize hy : ({ x.filledIn with ins := _, seq := _, stalls := 0 } : Red) = y
  have hyr := red_setRed u i y
  have hyports : y.ports = x.ports := by rw [← hy]; rfl
  have hyseq : y.seq = x.seq + 1 := by rw [← hy]; rfl
  have hystalls : y.stalls = 0 := by rw [← hy]
  have hyin : y.hasPort q (x.seq + 1) = false := by
    rw [← hy, ← hmiss]
    unfold Red.hasPort
    refine congrArg Option.isSome ?_
    refine (hasPort_del (Nat.succ_ne_self _) _).trans ?_
    refine congrArg (fun m : Tab (List (BitVec 512) × BitVec 32) => m.find? (x.seq + 1)) ?_
    exact foldl_put_staged (x := x) (fun p => { x.input p with next := x.seq + 1 }) _ q (fun _ => rfl) x.ins rfl
  rw [runRed_of_missing (s := u.setRed i y) (q := q) (by rw [hyr, hyports]; exact hmem) (by rw [hyr, hyseq]; exact hyin),
    drainAll_of_idle (setRed_idle hui i y), hyr]
  exact ⟨hyseq, hystalls, hu.log⟩

/-- A LOCAL contribution that its trigger starts, while an input is missing (R308). -/
theorem reductionTrigger_starts {i : BitVec 12} {q : Nat} (hidle : s.idleChannels) (hmem : q ∈ (s.red i.toNat).ports)
    (hmiss : (s.red i.toNat).hasPort q (s.red i.toNat).seq = false) (hvalid : (s.red i.toNat).valid = true)
    (hlocal : (s.red i.toNat).localIn = true) (hstart : (s.red i.toNat).started = false)
    (htrig : (s.red i.toNat).trigEn = true →
      (s.red i.toNat).trigN ≤ s.tally { lvl := 2, core := { parish := 0, col := 0, row := 0 }, idx := (s.red i.toNat).trigIdx })
    (slow : List (Fin 64 × Nat)) :
    leads (exec (.reductionTrigger ⟨i, slow⟩) s) fun t => (t.red i.toNat).started = true ∧ ((s.red i.toNat).trigEn = true →
      t.tally { lvl := 2, core := { parish := 0, col := 0, row := 0 }, idx := (s.red i.toNat).trigIdx } =
        s.tally { lvl := 2, core := { parish := 0, col := 0, row := 0 }, idx := (s.red i.toNat).trigIdx } - (s.red i.toNat).trigN) := by
  refine ⟨_, next_congr (if_neg ?_), ?_⟩
  · rintro (h | h | h | ⟨he, hlt⟩)
    · rw [hvalid] at h
      exact absurd h (by decide)
    · rw [hlocal] at h
      exact absurd h (by decide)
    · rw [hstart] at h
      exact absurd h (by decide)
    · exact absurd (htrig he) (Nat.not_le.mpr hlt)
  dsimp only
  generalize hh : ({ lvl := 2, core := { parish := 0, col := 0, row := 0 }, idx := (s.red i.toNat).trigIdx } : THome) = h
  have hl : h.lvl = 2 := by rw [← hh]
  generalize hx : s.red i.toNat = x at hmem hmiss
  have htaken : ∃ v, (if x.trigEn = true then s.setTally h (s.tally h - x.trigN) else s) = v ∧ s.tableKept v ∧
      (x.trigEn = true → v.tally h = s.tally h - x.trigN) := by
    refine ⟨_, rfl, ?_, fun he => ?_⟩
    · split
      · exact (setTally_tallyOnly s h _).tableKept
      · exact .refl s
    · rw [if_pos he]
      exact setTally_tally_le s hl _
  obtain ⟨v, hv, hk, htally⟩ := htaken
  rw [hv]
  have hwr := red_setRed v i.toNat { x with started := true }
  have hwi := setRed_idle (hk.idleChannels hidle) i.toNat { x with started := true }
  rw [runRed_of_missing (s := v.setRed i.toNat { x with started := true }) (q := q) (by rw [hwr]; exact hmem)
    (by rw [hwr]; exact hmiss), drainAll_of_idle hwi]
  refine ⟨by rw [(noteRed_tableKept _ _ _ _).red, hwr], fun he => ?_⟩
  rw [← htally he]
  exact tally_congr_hub hl (noteRed_hub v (v.setRed i.toNat { x with started := true }) _ slow)

/-- The run of the allotment a dropped packet belongs to is charged. -/
def State.chargesOwner (s : State) (a : Option Nat) : State :=
  match a with
  | some a => s.chargeCur a
  | none => s

theorem chargesOwner_aside (s : State) (a : Option Nat) : s.aside (s.chargesOwner a) := by
  cases a with
  | none => exact .refl s
  | some a => exact chargeCur_aside s a

theorem noEntryTimeout_eq (hone : (u.port port).redQ = [k]) (hi : u.redOf port k = none) (slow : List (Fin 64 × Nat)) :
    exec (.noEntryTimeout ⟨port, slow⟩) u = .next
      (let a := u.allotOfTag (pTag k)
       let c := ((u.takesHead port k).fabricDrop 2 port k ((a.map Dest.allot).toList) a).chargesOwner a
       c.noteSlow c.drainAll a slow) := by
  refine next_congr ?_
  dsimp only
  rw [hone]
  dsimp only
  rw [if_neg (by rw [hi]; exact Bool.false_ne_true)]
  rfl

theorem noEntryTimeout_drops (hone : (u.port port).redQ = [k]) (hq : ∀ q, q ≠ port.val → (u.port q).redQ = [])
    (hi : u.redOf port k = none) (slow : List (Fin 64 × Nat)) :
    leads (exec (.noEntryTimeout ⟨port, slow⟩) u) fun t => u.raises t evFabricDrop ∧ (t.port port).redQ = [] := by
  refine ⟨_, noEntryTimeout_eq hone hi slow, ?_⟩
  dsimp only
  generalize u.allotOfTag (pTag k) = a
  generalize hd : (u.takesHead port k).fabricDrop 2 port k ((a.map Dest.allot).toList) a = d
  have hdu : u.raises d evFabricDrop := by
    rw [← hd]
    exact raises_of_suffix_left (takesHead_log u port k) (fabricDrop_raises _ _ _ _ _ _)
  have hdi : d.idleChannels := by
    rw [← hd]
    exact (fabricDrop_aside _ _ _ _ _ _).tableKept.idleChannels (takesHead_idle hq).1
  have hdc := chargesOwner_aside d a
  generalize d.chargesOwner a = c at hdc
  have hci := hdc.tableKept.idleChannels hdi
  rw [drainAll_of_idle hci]
  have hn := noteSlow_tableKept c c a slow
  exact ⟨raises_of_suffix_right hdu (hdc.log.trans hn.log), (hn.redQ port).trans (hci port)⟩

/-- The state after the LOCAL contribution of a SEQ is read, where it answers, and the data of the missing inputs drawn. -/
def State.localRead (s : State) (x : Red) : State :=
  (match s.localIn x x.seq with
    | some (t, _) => t
    | none => s).drawn

theorem localRead_tableKept (s : State) (x : Red) : s.tableKept (s.localRead x) := by
  unfold State.localRead
  refine State.tableKept.trans ?_ (drawn_aside _).tableKept
  split
  next t _ h => exact localIn_tableKept h
  · exact .refl s

theorem reductionPoisonFill_completes {i : BitVec 12} {q : Nat} (hidle : s.idleChannels) (hpart : (s.red i.toNat).partial' = true)
    (hst : (s.red i.toNat).stalls ≠ 0) (hnext : (s.red i.toNat).seq + 1 < (s.red i.toNat).seqs) (hmem : q ∈ (s.red i.toNat).ports)
    (hmiss : (s.red i.toNat).hasPort q ((s.red i.toNat).seq + 1) = false) (slow : List (Fin 64 × Nat)) :
    leads (exec (.reductionPoisonFill ⟨i, slow⟩) s) fun t => s.raises t evReductionStall ∧
      (t.red i.toNat).seq = (s.red i.toNat).seq + 1 ∧ (t.red i.toNat).stalls = 0 := by
  have hrun : ∃ ins, exec (.reductionPoisonFill ⟨i, slow⟩) s = .next
      ((s.stallEvent i.toNat 1).noteRed
        (((((s.stallEvent i.toNat 1).localRead (s.red i.toNat)).setRed i.toNat (s.red i.toNat).filledIn).completeSeq i.toNat ins).runRed
          i.toNat 65536).drainAll (some i.toNat) slow) := by
    refine ⟨_, next_congr (if_neg ?_)⟩
    rintro (h | h)
    · rw [hpart] at h
      exact absurd h (by decide)
    · exact hst h
  obtain ⟨ins, hrun⟩ := hrun
  refine ⟨_, hrun, ?_⟩
  dsimp only
  have hraises := stallEvent_raises s i.toNat 1
  have hstall := (stallEvent_aside s i.toNat 1).tableKept
  generalize s.stallEvent i.toNat 1 = v at hraises hstall
  have hread := localRead_tableKept v (s.red i.toNat)
  generalize v.localRead (s.red i.toNat) = w at hread
  obtain ⟨hseq, hstalls, hlog⟩ :=
    fill_completes (s := w) (i := i.toNat) hnext hmem hmiss (hread.idleChannels (hstall.idleChannels hidle)) ins
  generalize (((w.setRed i.toNat (s.red i.toNat).filledIn).completeSeq i.toNat ins).runRed i.toNat 65536).drainAll = z
    at hseq hstalls hlog
  have hn := noteRed_tableKept v z (some i.toNat) slow
  exact ⟨raises_of_suffix_right hraises (hread.log.trans (hlog.trans hn.log)), by rw [hn.red, hseq], by rw [hn.red, hstalls]⟩

/-- REDUCE packets that waited for a port that is down are dropped (R309). -/
theorem reduceOutPortTimeout_drops (hx : (s.port port).carries = false) : leads (exec (.reduceOutPortTimeout port) s) fun t =>
    ∀ q ∈ (t.port port).queued, q.1 ≠ 24 := by
  have hu : (s.port port).usable = false := by
    cases h : (s.port port).usable with
    | false => rfl
    | true =>
      rw [Port.usable, decide_eq_true_eq] at h
      rw [Port.carries, decide_eq_false_iff_not] at hx
      exact absurd (h.elim .inl fun h => .inr (.inl h)) hx
  refine ⟨_, next_congr (if_neg (by simp [hx])), ?_⟩
  dsimp only
  generalize hw : State.bump (State.setPort _ _ _) _ _ = w
  have hwp : w.port port = { s.port port with queued := (s.port port).queued.filter fun q => q.1 ≠ 24 } := by
    rw [← hw, (bump_aside _ _ _).port, State.port_setPort]
  have hc := chargeTags_aside w (((s.port port).queued.filter fun q => q.1 = 24).map fun q => q.2.1)
  generalize w.chargeTags _ = c at hc
  have hcp : (c.port port).usable = false := by rw [hc.port, hwp]; exact hu
  have hr := routed_foldl (fun s k => State.notify s k noticeDown) (fun s k => notify_routed s k noticeDown)
    (((s.port port).queued.filter fun q => q.1 = 24).map fun q => q.2.1) c
  rw [hr.idle port hcp, hc.port, hwp]
  intro q hq
  exact of_decide_eq_true (List.mem_filter.mp hq).2

end Sys2Proof.Machine

/-- Settles O39: with every channel empty but the packet's own, an entry takes at most that packet, and one that lacks an input does
not run. -/
theorem reductionTable : Obligations.ReductionTable := by
  unfold Obligations.ReductionTable
  intro s hidle
  refine ⟨fun port k hx hm hty slow => ⟨fun ha => ?noTag, fun a i q ha hi => ?staged, fun a i ha hi hacc hf => ?late⟩,
    fun i slow => ?entry, fun port k hi => ?noEntry, fun port hx => ?noPort⟩
  case noTag =>
    have hrun : exec (.reduce port ⟨k, slow⟩) s = .next ((s.fabricDrop 1 port k [] none).returnCredit port k) := by
      refine next_congr ((if_neg (by simp [hx])).trans ((if_neg (by simp [hm])).trans ((if_neg (not_not_intro hty)).trans (if_pos ?_))))
      change (s.allotOfTag (pTag k)).isNone = true
      rw [ha]
      rfl
    refine ⟨_, hrun, raises_of_suffix_right (fabricDrop_raises s _ _ _ _ _) (returnCredit_wireOnly _ _ _).log, ?_⟩
    exact ((fabricDrop_aside s _ _ _ _ _).tableKept.trans (returnCredit_tableKept _ _ _)).reds
  case staged =>
    intro x hacc hmem hne hmiss staged
    obtain ⟨hone, hreds⟩ := channel_holds s port k
    have hwred : (s.holding port k).red i = x := by rw [State.red, hreds]; rfl
    have hwidle := channel_idle hidle port k
    have hdrain := drainRed_stages (s := s.holding port k) (p := port) (k := k) (i := i) (q := q) hone (by rw [State.redOf, hreds]; exact hi)
      (by rw [hwred]; exact hacc) (by rw [hwred]; exact hmem) hne (by rw [hwred]; exact hmiss)
    rw [hwred] at hdrain
    obtain ⟨t, ht, htr, htq⟩ := reduce_drains (slow := slow) hidle hx hm hty ha hdrain (setRed_idle hwidle i _)
    refine ⟨t, ht, ?_, htq⟩
    rw [State.red, htr, ← State.red, red_setRed]
  case late =>
    obtain ⟨hone, hreds⟩ := channel_holds s port k
    have hwred : (s.holding port k).red i = s.red i := by rw [State.red, hreds]; rfl
    have hwidle := channel_idle hidle port k
    have hdrain := drainRed_late (s := s.holding port k) (p := port) (k := k) (i := i) hone (by rw [State.redOf, hreds]; exact hi)
      (by rw [hwred]; exact hacc) (by rw [hwred]; exact hf)
    rw [hwred] at hdrain
    obtain ⟨t, ht, htr, htq⟩ := reduce_drains (slow := slow) hidle hx hm hty ha hdrain
      ((bump_aside _ _ _).tableKept.idleChannels (setRed_idle hwidle i _))
    refine ⟨t, ht, ?_, htq⟩
    rw [State.red, htr, ← State.red, (bump_aside _ _ _).tableKept.red, red_setRed]
  case entry =>
    intro x h
    refine ⟨fun q hmem hmiss hvalid hlocal hstart htrig => reductionTrigger_starts hidle hmem hmiss hvalid hlocal hstart htrig slow,
      fun hpart hst => ⟨_, next_congr (if_pos ⟨hpart, hst⟩), stallEvent_raises s i.toNat 0, red_setRed _ _ _⟩,
      fun hpart hst hnext q hmem hmiss => reductionPoisonFill_completes hidle hpart hst hnext hmem hmiss slow⟩
  case noEntry =>
    intro u slow
    obtain ⟨hone, hreds⟩ := channel_holds s port k
    have hsu : s.events <:+ u.events := List.suffix_rfl
    obtain ⟨t, ht, hraises, hq⟩ := noEntryTimeout_drops (u := u) (port := port) (k := k) hone
      (fun q hne => (congrArg Port.redQ (State.port_setPort_ne s _ hne)).trans (hidle q))
      (show (s.holding port k).redOf port k = none by rw [State.redOf, hreds]; exact hi) slow
    exact ⟨t, ht, raises_of_suffix_left hsu hraises, hq⟩
  case noPort => exact reduceOutPortTimeout_drops hx
end

section
/-! The orderly end of service and the warm restart (R364, R450, R452): what they leave of the boot state, what the reports on
their way leave, and the statement about restarts. -/

open Sys2Proof Sys2Proof.Machine

namespace Sys2Proof.Machine
variable {s t u : State}

/-! ### What the parts of a stop and of a start leave of the boot state -/

/-- The boot state, the queue pairs, the clock and the posted writes stay; the events are added to the log. A memory error may
leave a PPR record due. -/
structure State.bootStays (s t : State) : Prop where
  boot : ∃ due, t.boot = { s.boot with pprDue := due }
  qps : t.qps = s.qps
  clk : t.clk = s.clk
  posted : t.posted = s.posted
  log : s.events <:+ t.events

theorem State.bootStays.refl (s : State) : s.bootStays s := ⟨⟨_, rfl⟩, rfl, rfl, rfl, List.suffix_rfl⟩

theorem State.bootStays.trans (h : s.bootStays t) (g : t.bootStays u) : s.bootStays u := by
  refine ⟨?_, g.qps.trans h.qps, g.clk.trans h.clk, g.posted.trans h.posted, h.log.trans g.log⟩
  obtain ⟨_, hb⟩ := h.boot
  obtain ⟨_, hc⟩ := g.boot
  exact ⟨_, by rw [hc, hb]⟩

theorem bootStays_foldl {α : Type} (f : State → α → State) (hf : ∀ (s : State) (a : α), s.bootStays (f s a)) (l : List α) :
    ∀ s : State, s.bootStays (l.foldl f s) := by
  induction l with
  | nil => exact .refl
  | cons a t ih => exact fun s => (hf s a).trans (ih _)

theorem bootStays_ite {c : Prop} [Decidable c] (ht : s.bootStays t) (hu : s.bootStays u) : s.bootStays (if c then t else u) := by
  split
  · exact ht
  · exact hu

theorem State.bootStays.epoch (h : s.bootStays t) : t.boot.epoch = s.boot.epoch := by
  obtain ⟨_, hb⟩ := h.boot
  rw [hb]

theorem State.memoryOnly.bootStays (h : s.memoryOnly t) : s.bootStays t := by
  have hlog := h.suffix
  obtain ⟨_, _, _, _, _, _, _, _, _, _, _, _, _, _, _, rfl⟩ := h
  exact ⟨⟨_, rfl⟩, rfl, rfl, rfl, hlog⟩

theorem State.commandsOnly.bootStays (h : s.commandsOnly t) : s.bootStays t := by
  obtain ⟨_, _, _, _, _, rfl⟩ := h.rest
  exact ⟨⟨_, rfl⟩, rfl, rfl, rfl, List.suffix_rfl⟩

theorem raise_bootStays (s : State) (code : Nat) (al : Option Nat) (payload : List (Nat × Nat)) (l : List Dest) (count : Nat := 1) :
    s.bootStays (s.raise code al payload l count) := (raise_memoryOnly s code al payload l count).bootStays

theorem setReg_bootStays (s : State) (o : Nat) (v : DWord) : s.bootStays (s.setReg o v) := (setReg_memoryOnly s o v).bootStays

theorem bump_bootStays (s : State) (o n : Nat) : s.bootStays (s.bump o n) := setReg_bootStays s _ _

theorem setAllot_bootStays (s : State) (a : Nat) (x : Allot) : s.bootStays (s.setAllot a x) :=
  ⟨⟨_, rfl⟩, rfl, rfl, rfl, List.suffix_rfl⟩

theorem setCore_bootStays (s : State) (p : Pos) (c : Core) : s.bootStays (s.setCore p c) :=
  ⟨⟨_, rfl⟩, rfl, rfl, rfl, List.suffix_rfl⟩

theorem updSes_bootStays (s : State) (id : Nat) (f : Session → Session) : s.bootStays (s.updSes id f) := by
  unfold State.updSes
  split
  · exact ⟨⟨_, rfl⟩, rfl, rfl, rfl, List.suffix_rfl⟩
  · exact .refl s

theorem setStore_bootStays (s : State) (x : Store) (r : Ras) : s.bootStays { s with store := x, ras := r } :=
  ⟨⟨_, rfl⟩, rfl, rfl, rfl, List.suffix_rfl⟩

/-! ### A release (R476) -/

theorem imbalanced_bootStays (s : State) (book a diff : Nat) : s.bootStays (s.imbalanced book a diff) :=
  (bump_bootStays s _ _).trans (raise_bootStays _ _ _ _ _)

theorem auditCore_bootStays (s : State) (a : Nat) (p : Pos) : s.bootStays (s.auditCore a p) :=
  bootStays_ite (.refl s) (bootStays_ite (bump_bootStays s _ _) (imbalanced_bootStays s _ _ _))

theorem auditReds_bootStays (s : State) (a tag : Nat) : s.bootStays (s.auditReds a tag) := by
  unfold State.auditReds
  dsimp only
  split
  · exact .refl s
  · refine State.bootStays.trans ?_ (imbalanced_bootStays _ _ _ _)
    refine State.bootStays.trans ?_ (bump_bootStays _ _ _)
    exact ⟨⟨_, rfl⟩, rfl, rfl, rfl, List.suffix_rfl⟩

theorem audit_bootStays (s : State) (a : Nat) : s.bootStays (s.audit a) :=
  (bump_bootStays s (rasBase + 0x30) 1).trans
    ((bootStays_foldl (fun s p => s.auditCore a p) (fun s p => auditCore_bootStays s a p) _ _).trans (auditReds_bootStays _ a _))

theorem emptyMesh_bootStays (s : State) (p : Pos) : s.bootStays (s.emptyMesh p) := ⟨⟨_, rfl⟩, rfl, rfl, rfl, List.suffix_rfl⟩

theorem idleCore_bootStays (s : State) (p : Pos) : s.bootStays (s.idleCore p) :=
  (bump_bootStays s _ _).trans (setCore_bootStays _ p _)

theorem zeroTallies_bootStays (s : State) (a : Nat) : s.bootStays (s.zeroTallies a) := by
  have hpar (u : State) (p : Fin 78) : u.bootStays (u.updParish p fun y => { y with tallies := [], waiters := [] }) :=
    ⟨⟨_, rfl⟩, rfl, rfl, rfl, List.suffix_rfl⟩
  have hcore (u : State) (p : Pos) : u.bootStays (u.updCore p fun c =>
      { c with t := Vector.replicate 16 0, tstart := Vector.replicate 16 0 }) := setCore_bootStays u p _
  unfold State.zeroTallies
  dsimp only
  refine State.bootStays.trans ?_ (bootStays_foldl _ hcore _ _)
  refine State.bootStays.trans (bootStays_foldl _ hpar (s.allot a).parishList s) ?_
  exact ⟨⟨_, rfl⟩, rfl, rfl, rfl, List.suffix_rfl⟩

theorem clearAllot_bootStays (s : State) (a : Nat) : s.bootStays (s.clearAllot a) := by
  have hidle (u : State) (l : List Pos) : u.bootStays (l.foldl (fun s p => s.idleCore p) u) :=
    bootStays_foldl _ (fun s p => idleCore_bootStays s p) l u
  have hempty (u : State) : u.bootStays (u.emptyAllot a) := bootStays_foldl _ (fun s p => emptyMesh_bootStays s p) _ u
  have hrules (u : State) : u.bootStays (u.clearRules a) := ⟨⟨_, rfl⟩, rfl, rfl, rfl, List.suffix_rfl⟩
  have hrest (u : State) (reqs : Tab Req) (rxs : Tab Rx) :
      u.bootStays (({ u with reqs := reqs, rxs := rxs }.zeroTallies a).clearRules a) := by
    refine State.bootStays.trans (State.bootStays.trans ?_ (zeroTallies_bootStays _ a)) (hrules _)
    exact ⟨⟨_, rfl⟩, rfl, rfl, rfl, List.suffix_rfl⟩
  exact (audit_bootStays s a).trans ((hempty _).trans ((hidle _ _).trans (hrest _ _ _)))

theorem releaseAllot_bootStays (s : State) (a : Nat) : s.bootStays (s.releaseAllot a) := by
  have hclear (u : State) (n : Nat) (hu : s.bootStays u) :
      s.bootStays ((if n = 0 then u else u.bump (fabricBase + 0x58) n).clearAllot a) :=
    hu.trans ((bootStays_ite (.refl u) (bump_bootStays u _ n)).trans (clearAllot_bootStays _ a))
  have hreds : s.bootStays { s with reds := s.reds.filter fun e => !(e.2.valid && decide (e.2.tag = (s.allot a).tag)) } :=
    ⟨⟨_, rfl⟩, rfl, rfl, rfl, List.suffix_rfl⟩
  unfold State.releaseAllot
  dsimp only
  refine State.bootStays.trans ?_ (updSes_bootStays _ _ _)
  generalize hv : State.clearAllot _ a = v
  have hsv : s.bootStays v := hv ▸ hclear _ _ hreds
  exact hsv.trans ⟨⟨_, rfl⟩, rfl, rfl, rfl, List.suffix_rfl⟩

/-! ### The queue pairs (R364) -/

theorem find?_of_mem_none {α : Type} {m : Tab α} {k : Nat} (h : m.find? k = none) {e : Nat × α} (he : e ∈ m) : e.1 ≠ k := by
  induction m with
  | nil => exact absurd he List.not_mem_nil
  | cons a l ih =>
    unfold Tab.find? at h
    split at h
    · exact absurd h (Option.some_ne_none _)
    next hne =>
      rcases List.mem_cons.mp he with rfl | he
      · exact hne
      · exact ih h he

/-- A queue pair that goes down takes itself out, and of its session only how it is attached. -/
theorem qpDown_eq (s : State) (qp : Nat) : ∃ ses, s.qpDown qp = { s with qps := s.qps.del qp, ses := ses } := by
  unfold State.qpDown
  split
  next h =>
    refine ⟨s.ses, ?_⟩
    have hd : s.qps.del qp = s.qps := List.filter_eq_self.mpr fun e he => by
      rw [decide_eq_true_iff]
      exact fun hk => absurd (find?_of_mem_none h he) (not_not_intro hk)
    rw [hd]
  next q h =>
    dsimp only
    split
    · unfold State.detach State.updSes
      split
      · exact ⟨_, rfl⟩
      · exact ⟨_, rfl⟩
    · exact ⟨_, rfl⟩

theorem qpsDown_eq (s : State) : ∃ ses, s.qpsDown = { s with qps := [], ses := ses } := by
  have hall (l : List (Nat × Qp)) : ∀ u : State, (∀ e ∈ u.qps, ∃ f ∈ l, f.1 = e.1) →
      ∃ ses, l.foldl (fun t e => t.qpDown e.1) u = { u with qps := [], ses := ses } := by
    induction l with
    | nil =>
      intro u h
      have hn : u.qps = [] := List.eq_nil_iff_forall_not_mem.mpr fun e he => by
        obtain ⟨_, hf, _⟩ := h e he
        exact absurd hf List.not_mem_nil
      cases u
      cases hn
      exact ⟨_, rfl⟩
    | cons a l ih =>
      intro u h
      obtain ⟨ses, hu⟩ := qpDown_eq u a.1
      rw [List.foldl_cons, hu]
      refine (ih _ fun e he => ?_).imp fun _ h => h
      obtain ⟨hmem, hne⟩ := mem_del.mp he
      obtain ⟨f, hf, hk⟩ := h e hmem
      rcases List.mem_cons.mp hf with rfl | hf
      · exact absurd hk.symm hne
      · exact ⟨f, hf, hk⟩
  exact hall s.qps s fun e he => ⟨e, he, rfl⟩

/-! ### R364 is applied, and the parts are taken down -/

/-- What R364 leaves behind. -/
structure State.restartApplied (s t : State) : Prop where
  boot : ∃ due, t.boot = { s.boot with epoch := s.boot.epoch + 1, pldmUpdate := false, pprDue := due }
  qps : t.qps = []
  clk : t.clk = s.clk
  jobTime : t.reeve.jobTime = false
  log : s.events <:+ t.events

theorem abortAll_bootStays (s : State) : s.bootStays s.abortAll :=
  bootStays_foldl _ (fun s l => (finishOne_commandsOnly s l 3 dRestart (s.abortResult l)).bootStays) _ s

theorem applyRestart_applied (s : State) : s.restartApplied s.applyRestart := by
  unfold State.applyRestart
  dsimp only
  generalize hv : (if s.staging = true then { s with store := s.store.setImage s.spareImage none } else s) = v
  have hsv : s.bootStays v := by
    rw [← hv]
    exact bootStays_ite ⟨⟨_, rfl⟩, rfl, rfl, rfl, List.suffix_rfl⟩ (.refl s)
  obtain ⟨ses, hdown⟩ := qpsDown_eq { v with boot := { v.boot with epoch := v.boot.epoch + 1 } }
  rw [hdown]
  generalize hw : ({ v with boot := { v.boot with epoch := v.boot.epoch + 1 }, qps := [], ses := ses } : State) = w
  have hkeep (u : State) : u.bootStays u.keepSessions := ⟨⟨_, rfl⟩, rfl, rfl, rfl, List.suffix_rfl⟩
  have hrel (u : State) : u.bootStays (u.liveAllots.foldl (fun s a => s.releaseAllot a) u) :=
    bootStays_foldl _ (fun s a => releaseAllot_bootStays s a) _ u
  have hx : w.bootStays (w.abortAll.keepSessions.liveAllots.foldl (fun s a => s.releaseAllot a) w.abortAll.keepSessions) :=
    ((abortAll_bootStays w).trans (hkeep _)).trans (hrel _)
  generalize List.foldl _ _ _ = x at hx ⊢
  obtain ⟨_, hb⟩ := hsv.boot
  obtain ⟨due, hc⟩ := hx.boot
  refine ⟨⟨due, ?_⟩, ?_, ?_, rfl, ?_⟩
  · dsimp only
    rw [hc, ← hw, hb]
  · exact hx.qps.trans (by rw [← hw])
  · exact hx.clk.trans (by rw [← hw]; exact hsv.clk)
  · exact (hsv.log.trans (by rw [← hw])).trans hx.log

/-- Mirroring the ledger is an access to device memory; it notes which entries the mirror holds. -/
theorem mirror_eq (s : State) : ∃ v ledger, s.memoryOnly v ∧ s.mirror = { v with ledger := ledger } := by
  unfold State.mirror
  split
  · exact ⟨s, s.ledger, .refl s, rfl⟩
  · exact ⟨_, _, memoryOnly_foldl _ (fun u i => writeRange_memoryOnly u _ _ _ _ _) _ s, rfl⟩

/-- What taking field and stacks down leaves. -/
structure State.partsDown (s t : State) : Prop where
  boot : ∃ due, t.boot = { s.boot with selfRefresh := true, pprDue := due }
  qps : t.qps = s.qps
  clk : t.clk = s.clk
  reeve : t.reeve = s.reeve
  cores : t.cores = []
  log : s.events <:+ t.events

theorem quiesceParts_down (s : State) : s.partsDown s.quiesceParts := by
  unfold State.quiesceParts
  dsimp only
  generalize hf : s.fieldOff = f
  have hboot : f.boot = s.boot := by rw [← hf]; rfl
  have hqps : f.qps = s.qps := by rw [← hf]; rfl
  have hclk : f.clk = s.clk := by rw [← hf]; rfl
  have hreeve : f.reeve = s.reeve := by rw [← hf]; rfl
  have hcores : f.cores = [] := by rw [← hf]; rfl
  have hevents : f.events = s.events := by rw [← hf]; rfl
  obtain ⟨v, ledger, hv, hm⟩ := mirror_eq f
  have hlog := hv.suffix
  obtain ⟨_, _, _, _, _, _, _, due, _, _, _, _, _, _, _, rfl⟩ := hv
  rw [hm]
  exact ⟨⟨due, by rw [hboot]⟩, hqps, hclk, hreeve, hcores, hevents ▸ hlog⟩

/-- What a warm restart has done when the module is RESTARTING (R450). -/
structure State.restarting (s t : State) : Prop where
  boot : ∃ due, t.boot = { s.boot with
    epoch := s.boot.epoch + 1, pldmUpdate := false, selfRefresh := true, pprDue := due, st := .restarting, warmHeld := false }
  qps : t.qps = []
  jobTime : t.reeve.jobTime = false
  cores : t.cores = []
  log : s.events <:+ t.events

theorem beginRestart_restarting (s : State) : s.restarting s.beginRestart := by
  have ha := applyRestart_applied s
  unfold State.beginRestart
  dsimp only
  generalize s.applyRestart = v at ha ⊢
  have hq := quiesceParts_down v
  generalize v.quiesceParts = w at hq ⊢
  obtain ⟨_, hb⟩ := ha.boot
  obtain ⟨due, hc⟩ := hq.boot
  refine ⟨⟨due, ?_⟩, hq.qps.trans ha.qps, (congrArg Reeve.jobTime hq.reeve).trans ha.jobTime, hq.cores, ha.log.trans hq.log⟩
  rw [hc, hb]

/-- The states in which a warm restart is honoured (R453). -/
theorem honours_iff : s.honours = true ↔ (s.boot.st = .ready ∨ s.boot.st = .degradedReady ∨ s.boot.st = .mgmtOnly ∨
    s.boot.st = .shutdownDone) ∧ s.boot.stopped = false := by
  unfold State.honours
  cases s.boot.st <;> simp

theorem requestWarm_honoured (hh : s.honours = true) (hs : s.clk.switching = none) : s.requestWarm = s.beginRestart := by
  unfold State.requestWarm
  rw [if_pos hh, hs]
  rfl

theorem requestWarm_waits (hh : s.honours = true) (hs : s.clk.switching.isSome = true) :
    s.requestWarm = { s with boot := { s.boot with warmHeld := true } } := by
  unfold State.requestWarm
  rw [if_pos hh, if_pos hs]

/-! ### An orderly shutdown (R452) -/

/-- What an orderly shutdown leaves. -/
structure State.stopped (s t : State) : Prop where
  boot : ∃ due, t.boot = { s.boot with
    epoch := s.boot.epoch + 1, pldmUpdate := false, selfRefresh := true, pprDue := due, st := .shutdownDone }
  cores : t.cores = []
  raised : s.raises t evShutdownDone

theorem appendWear_bootStays (s : State) (trims : List (Nat × Int)) (slack : List (Nat × Nat)) (a b : Bool) :
    s.bootStays (s.appendWear trims slack a b) := by
  unfold State.appendWear
  dsimp only
  refine State.bootStays.trans ?_ (appendFails_memoryOnly _ 1 a b).bootStays
  exact bootStays_ite (setStore_bootStays s _ _) (setStore_bootStays s _ s.ras)

theorem appendWear_cores (s : State) (trims : List (Nat × Int)) (slack : List (Nat × Nat)) (a b : Bool) :
    (s.appendWear trims slack a b).cores = s.cores := by
  unfold State.appendWear
  dsimp only
  generalize hv : (if (a || b) = true then _ else _ : State) = v
  have hc : v.cores = s.cores := by
    rw [← hv]
    split
    · rfl
    · rfl
  obtain ⟨_, _, _, _, _, _, _, _, _, _, _, _, _, _, _, h⟩ := appendFails_memoryOnly v 1 a b
  rw [h]
  exact hc

/-- The steps of an orderly shutdown, up to the restart held meanwhile. -/
def State.shutsDown (s : State) (slack : List (Fin 78 × Nat)) (ok : Bool × Bool) : State :=
  let s := { s with boot := { s.boot with st := .shuttingDown } }.applyRestart
  let s := s.quiesceParts.appendWear (s.movedTrims slack) (slack.map fun e => (e.1.val, e.2)) ok.1 ok.2
  let s := { s with boot := { s.boot with st := .shutdownDone } }
  s.raise evShutdownDone none [(s.tick, 8), (s.store.seq, 8)] []

theorem shutsDown_stopped (s : State) (slack : List (Fin 78 × Nat)) (ok : Bool × Bool) : s.stopped (s.shutsDown slack ok) := by
  unfold State.shutsDown
  dsimp only
  have ha := applyRestart_applied { s with boot := { s.boot with st := .shuttingDown } }
  generalize State.applyRestart _ = v at ha ⊢
  have hq := quiesceParts_down v
  have hw := appendWear_bootStays v.quiesceParts (v.movedTrims slack) (slack.map fun e => (e.1.val, e.2)) ok.1 ok.2
  have hcores := (appendWear_cores v.quiesceParts (v.movedTrims slack) (slack.map fun e => (e.1.val, e.2)) ok.1 ok.2).trans hq.cores
  generalize State.appendWear _ _ _ _ _ = w at hw hcores ⊢
  obtain ⟨_, hb⟩ := ha.boot
  obtain ⟨_, hc⟩ := hq.boot
  obtain ⟨due, hd⟩ := hw.boot
  refine ⟨⟨due, ?_⟩, ?_, ?_⟩
  · rw [raise_boot]
    dsimp only
    rw [hd, hc, hb]
  · rw [State.raise_cores]
    exact hcores
  · have hr : State.raises { w with boot := { w.boot with st := .shutdownDone } } _ evShutdownDone :=
      State.raise_raises _ evShutdownDone none [(State.tick { w with boot := { w.boot with st := .shutdownDone } }, 8), (w.store.seq, 8)] [] 1
    exact raises_of_suffix_left (ha.log.trans (hq.log.trans hw.log)) hr

theorem shutDown_eq (hst : s.boot.st = .ready ∨ s.boot.st = .degradedReady ∨ s.boot.st = .mgmtOnly) (slack : List (Fin 78 × Nat))
    (ok : Bool × Bool) : s.shutDown slack ok = if (s.shutsDown slack ok).boot.warmHeld && (s.shutsDown slack ok).clk.switching.isNone
      then (s.shutsDown slack ok).beginRestart else s.shutsDown slack ok := by
  unfold State.shutDown
  rcases hst with h | h | h <;> rw [h] <;> rfl

end Sys2Proof.Machine
end

section
/-! The parts of a start (R440 to R450): what each leaves of the boot state, how a start ends, and the statements about power and
reset and about restarts. -/

open Sys2Proof Sys2Proof.Machine

namespace Sys2Proof.Machine
variable {s t u : State}

/-! ### What the parts of a start leave -/

/-- The epoch, the straps, the image booted and the posted writes stay; the events are added to the log. -/
structure State.startsOn (s t : State) : Prop where
  epoch : t.boot.epoch = s.boot.epoch
  straps : t.boot.straps = s.boot.straps
  image : t.boot.imageB = s.boot.imageB
  posted : t.posted = s.posted
  log : s.events <:+ t.events

theorem State.startsOn.refl (s : State) : s.startsOn s := ⟨rfl, rfl, rfl, rfl, List.suffix_rfl⟩

theorem State.startsOn.trans (h : s.startsOn t) (g : t.startsOn u) : s.startsOn u :=
  ⟨g.epoch.trans h.epoch, g.straps.trans h.straps, g.image.trans h.image, g.posted.trans h.posted, h.log.trans g.log⟩

theorem startsOn_foldl {α : Type} (f : State → α → State) (hf : ∀ (s : State) (a : α), s.startsOn (f s a)) (l : List α) :
    ∀ s : State, s.startsOn (l.foldl f s) := by
  induction l with
  | nil => exact .refl
  | cons a t ih => exact fun s => (hf s a).trans (ih _)

theorem startsOn_ite {c : Prop} [Decidable c] (ht : s.startsOn t) (hu : s.startsOn u) : s.startsOn (if c then t else u) := by
  split
  · exact ht
  · exact hu

theorem State.bootStays.startsOn (h : s.bootStays t) : s.startsOn t := by
  obtain ⟨_, hb⟩ := h.boot
  exact ⟨by rw [hb], by rw [hb], by rw [hb], h.posted, h.log⟩

theorem State.linkOnly.startsOn (h : s.linkOnly t) : s.startsOn t := by
  have hlog := h.log
  obtain ⟨_, _, _, _, _, _, _, _, _, _, _, _, _, _, _, _, _, rfl⟩ := h.rest
  exact ⟨rfl, rfl, rfl, rfl, hlog⟩

theorem raise_startsOn (s : State) (code : Nat) (al : Option Nat) (payload : List (Nat × Nat)) (l : List Dest) (count : Nat := 1) :
    s.startsOn (s.raise code al payload l count) := (raise_bootStays s code al payload l count).startsOn

theorem setReg_startsOn (s : State) (o : Nat) (v : DWord) : s.startsOn (s.setReg o v) := (setReg_bootStays s o v).startsOn

theorem setAllot_startsOn (s : State) (a : Nat) (x : Allot) : s.startsOn (s.setAllot a x) := (setAllot_bootStays s a x).startsOn

theorem drawn_startsOn (s : State) : s.startsOn s.drawn := (drawn_memoryOnly s).bootStays.startsOn

/-! ### Fuse maps, clocks, sectors, host ports -/

theorem markDead_startsOn (s : State) (par col row : Nat) : s.startsOn (s.markDead par col row) :=
  (setReg_startsOn s _ _).trans (startsOn_ite (setReg_startsOn _ _ _) (.refl _))

theorem loadMaps_startsOn (s : State) (o : StartObs) : s.startsOn (s.loadMaps o) := by
  have hmarks (l : List (Nat × Nat × Nat)) (u : State) :
      u.startsOn (l.foldl (fun (t : State) (e : Nat × Nat × Nat) => t.markDead e.1 e.2.1 e.2.2) u) :=
    startsOn_foldl _ (fun t e => markDead_startsOn t _ _ _) l u
  have hdrop : s.startsOn s.dropParishRegs := ⟨rfl, rfl, rfl, rfl, List.suffix_rfl⟩
  unfold State.loadMaps
  dsimp only
  refine (hdrop.trans (hmarks s.fuses.sites _)).trans ?_
  exact ⟨rfl, rfl, rfl, rfl, List.suffix_rfl⟩

theorem applyClockPlan_startsOn (s : State) : s.startsOn s.applyClockPlan := ⟨rfl, rfl, rfl, rfl, List.suffix_rfl⟩

theorem startSectors_startsOn (s : State) (o : StartObs) : s.startsOn (s.startSectors o) := ⟨rfl, rfl, rfl, rfl, List.suffix_rfl⟩

theorem startHostPorts_startsOn (s : State) (o : StartObs) : s.startsOn (s.startHostPorts o) :=
  startsOn_foldl _ (fun t _ => State.startsOn.trans (t := t.setHp _ _) ⟨rfl, rfl, rfl, rfl, List.suffix_rfl⟩ (setReg_startsOn _ _ _)) _ s

theorem qpDown_startsOn (s : State) (qp : Nat) : s.startsOn (s.qpDown qp) := by
  obtain ⟨_, h⟩ := qpDown_eq s qp
  rw [h]
  exact ⟨rfl, rfl, rfl, rfl, List.suffix_rfl⟩

theorem setHp_startsOn (s : State) (h : Nat) (x : HostPort) : s.startsOn (s.setHp h x) := ⟨rfl, rfl, rfl, rfl, List.suffix_rfl⟩

theorem linkDown_startsOn (s : State) (h : Nat) : s.startsOn (s.linkDown h) :=
  startsOn_ite (.refl s) ((setHp_startsOn s h _).trans
    ((startsOn_foldl (fun t (e : Nat × Qp) => t.qpDown e.1) (fun t e => qpDown_startsOn t e.1) _ _).trans (raise_startsOn _ _ _ _ _)))

theorem warmHostPorts_startsOn (s : State) (o : StartObs) : s.startsOn (s.warmHostPorts o) :=
  startsOn_foldl _ (fun _ _ =>
    ((setReg_startsOn _ _ _).trans (startsOn_ite (.refl _) (linkDown_startsOn _ _))).trans (setHp_startsOn _ _ _)) _ s

/-! ### Fabric ports -/

theorem startTraining_linkOnly (s : State) (p : Nat) : s.linkOnly (s.startTraining p) :=
  (setPort_linkOnly s p _).trans ((bump_aside _ _ _).trans (send_aside _ _)).tolinkOnly

/-- A port that has come up greets its child and sends what waits. -/
theorem greets_linkOnly (s : State) (p : Nat) : s.linkOnly ((s.greetChild p).pump p).retryWaiting :=
  ((greetChild_atPort s p).trans (pump_atPort _ p)).tolinkOnly.trans (retryWaiting_routed _).tolinkOnly

theorem finishTraining_linkOnly (s : State) (p : Nat) (o : TrainObs) : s.linkOnly (s.finishTraining p o) := by
  unfold State.finishTraining
  dsimp only
  generalize (s.port p).trained (s.fuseLanes p o) s.feid = x
  have hx := setPort_linkOnly s p x
  generalize s.setPort p x = v at hx ⊢
  refine hx.trans ?_
  split
  · exact (setPort_linkOnly _ p _).trans (portDown_keeps _ p _).1
  · exact (raise_aside _ _ _ _ _ _).tolinkOnly.trans (greets_linkOnly _ p)
  · exact greets_linkOnly _ p

theorem startPort_linkOnly (s : State) (o : StartObs) (p : Fin 64) : s.linkOnly (s.startPort o p) := by
  unfold State.startPort
  split
  · exact setPort_linkOnly s p _
  · split
    · exact setPort_linkOnly s p _
    · dsimp only
      have ht := (setPort_linkOnly s p {}).trans (startTraining_linkOnly _ p)
      generalize (s.setPort p {}).startTraining p = v at ht ⊢
      refine ht.trans ?_
      split
      · exact finishTraining_linkOnly _ p _
      · exact .refl _

theorem startPorts_startsOn (s : State) (o : StartObs) : s.startsOn (s.startPorts o) :=
  startsOn_foldl _ (fun t p => (startPort_linkOnly t o p).startsOn) _ s

theorem warmPorts_startsOn (s : State) (old : Cfg) (o : StartObs) : s.startsOn (s.warmPorts old o) :=
  startsOn_foldl _ (fun t p => startsOn_ite (startPort_linkOnly t o p).startsOn
    (startsOn_ite (portDown_keeps t p 1).1.startsOn (.refl t))) _ s

theorem refusePort_startsOn (s : State) : s.startsOn s.refusePort := startsOn_ite (raise_startsOn s _ _ _ _) (.refl s)

theorem reachPrimary_startsOn (s : State) (o : StartObs) : s.startsOn (s.reachPrimary o) := by
  unfold State.reachPrimary
  refine startsOn_ite ?_ (.refl s)
  exact ⟨rfl, rfl, rfl, rfl, List.suffix_rfl⟩

/-! ### Guest sites -/

theorem setGuest_startsOn (s : State) (i : Nat) (g : Guest) : s.startsOn (s.setGuest i g) := ⟨rfl, rfl, rfl, rfl, List.suffix_rfl⟩

theorem askGuest_startsOn (s : State) (i step : Nat) : s.startsOn (s.askGuest i step) := ⟨rfl, rfl, rfl, rfl, List.suffix_rfl⟩

theorem fence_startsOn (s : State) (i cause : Nat) : s.startsOn (s.fence i cause) :=
  (setGuest_startsOn s i _).trans ((raise_startsOn _ _ _ _ _).trans (degrade_aside _ 5).tolinkOnly.startsOn)

theorem takeAnswer_startsOn (s : State) (i : Nat) (ans : GuestAnswer) : s.startsOn (s.takeAnswer i ans) := by
  unfold State.takeAnswer
  dsimp only
  split
  · exact .refl s
  have hset := setGuest_startsOn s i ((s.guest i).signed ans)
  generalize s.setGuest i ((s.guest i).signed ans) = v at hset ⊢
  refine hset.trans ?_
  split
  · exact fence_startsOn v i _
  split
  · exact startsOn_ite (fence_startsOn _ i _) (setGuest_startsOn _ i _)
  · exact askGuest_startsOn _ i _

theorem startGuest_startsOn (s : State) (o : StartObs) (warm : Bool) (g : Fin 4) : s.startsOn (s.startGuest o warm g) := by
  have hregs : s.startsOn (s.guestRegs g.val) := (setReg_startsOn s _ _).trans (setReg_startsOn _ _ _)
  have hasks (u : State) (x : Guest) (l : List GuestAnswer) :
      u.startsOn (l.foldl (fun s a => s.takeAnswer g.val a) ((u.setGuest g.val x).askGuest g.val 1)) :=
    ((setGuest_startsOn u g.val x).trans (askGuest_startsOn _ _ _)).trans
      (startsOn_foldl _ (fun s a => takeAnswer_startsOn s g.val a) l _)
  unfold State.startGuest
  dsimp only
  refine hregs.trans ?_
  split
  · exact setGuest_startsOn _ _ _
  split
  · exact setGuest_startsOn _ _ _
  split
  · exact hasks _ _ _
  split
  · exact setGuest_startsOn _ _ _
  · exact hasks _ _ _

theorem startGuests_startsOn (s : State) (o : StartObs) (warm : Bool) : s.startsOn (s.startGuests o warm) :=
  startsOn_foldl _ (fun t g => startGuest_startsOn t o warm g) _ s

/-! ### Stacks and the ledger -/

theorem stackFails_startsOn (s : State) (m cause : Nat) : s.startsOn (s.stackFails m cause) := raise_startsOn s _ _ _ _

theorem setMc_startsOn (s : State) (m : Nat) (x : Stack) : s.startsOn (s.setMc m x) := (setMc_memoryOnly s m x).bootStays.startsOn

theorem fixSet_startsOn (s : State) (good : List Nat) : s.startsOn (s.fixSet good) := by
  unfold State.fixSet
  dsimp only
  refine State.startsOn.trans (t := { s with boot := { s.boot with set := evenSet good } }) ⟨rfl, rfl, rfl, rfl, List.suffix_rfl⟩ ?_
  exact startsOn_foldl _ (fun t m => startsOn_ite (setMc_startsOn t m _) (.refl t)) _ _

theorem mcRegs_startsOn (s : State) (m : Nat) : s.startsOn (s.mcRegs m) := (setReg_startsOn s _ _).trans (setReg_startsOn _ _ _)

theorem quickRead_startsOn (s : State) (m : Nat) : s.startsOn (s.quickRead m) := by
  unfold State.quickRead
  dsimp only
  exact ((bump_memoryOnly s _ _).trans ((bump_memoryOnly _ _ _).trans
    (memoryOnly_foldl _ (fun t w => touchWord_memoryOnly t 10 0xFFFFFFFF none w) _ _))).bootStays.startsOn

theorem warmStacks_startsOn (s : State) (o : StartObs) : s.startsOn (s.warmStacks o) := by
  have hlose (u : State) : u.startsOn u.loseMemory := ⟨rfl, rfl, rfl, rfl, List.suffix_rfl⟩
  have hfill (u : State) (m : Nat) : u.startsOn (u.fillStack m) := ⟨rfl, rfl, rfl, rfl, List.suffix_rfl⟩
  have hfails (b : Nat → Bool) (c : Nat → Nat) (l : List Nat) (u : State) :
      u.startsOn (l.foldl (fun (s : State) m => if b m = true then s.stackFails m (c m) else s) u) :=
    startsOn_foldl _ (fun t m => startsOn_ite (stackFails_startsOn t m _) (.refl t)) l u
  unfold State.warmStacks
  dsimp only
  refine State.startsOn.trans ?_ (startsOn_foldl _ quickRead_startsOn _ _)
  refine State.startsOn.trans ?_ (startsOn_foldl _ mcRegs_startsOn _ _)
  refine State.startsOn.trans ?_ (fixSet_startsOn _ _)
  refine State.startsOn.trans ?_ (startsOn_foldl _ hfill _ _)
  refine State.startsOn.trans (State.startsOn.trans ?_ (hfails _ _ _ _)) (startsOn_ite (.refl _) (hlose _))
  exact ⟨rfl, rfl, rfl, rfl, List.suffix_rfl⟩

theorem checkEntry_startsOn (s : State) (i : Nat) : s.startsOn (s.checkEntry i) := by
  unfold State.checkEntry
  dsimp only
  split
  · exact .refl s
  · have hr : s.startsOn (if s.nSet = 0 then s else s.readRange 10 0xFFFFFFFF none (s.mirrorBase + 64 * i) 64) :=
      startsOn_ite (.refl s) (readRange_memoryOnly s _ _ _ _ _).bootStays.startsOn
    generalize (if s.nSet = 0 then s else s.readRange 10 0xFFFFFFFF none (s.mirrorBase + 64 * i) 64) = v at hr ⊢
    split
    · exact hr.trans ⟨rfl, rfl, rfl, rfl, List.suffix_rfl⟩
    · exact hr.trans ⟨rfl, rfl, rfl, rfl, List.suffix_rfl⟩

/-! ### What a halt leaves -/

/-- Besides what a start leaves, hub sectors, parishes, requests and the trip pin stay. -/
structure State.haltsOnly (s t : State) : Prop extends s.startsOn t where
  sectors : t.boot.sectors = s.boot.sectors
  parishes : t.parishes = s.parishes
  reqs : t.reqs = s.reqs
  thermtrip : t.pins.thermtripN = s.pins.thermtripN

theorem State.haltsOnly.refl (s : State) : s.haltsOnly s := ⟨.refl s, rfl, rfl, rfl, rfl⟩

theorem State.haltsOnly.trans (h : s.haltsOnly t) (g : t.haltsOnly u) : s.haltsOnly u :=
  ⟨h.tostartsOn.trans g.tostartsOn, g.sectors.trans h.sectors, g.parishes.trans h.parishes, g.reqs.trans h.reqs, g.thermtrip.trans h.thermtrip⟩

theorem haltsOnly_foldl {α : Type} (f : State → α → State) (hf : ∀ (s : State) (a : α), s.haltsOnly (f s a)) (l : List α) :
    ∀ s : State, s.haltsOnly (l.foldl f s) := by
  induction l with
  | nil => exact .refl
  | cons a t ih => exact fun s => (hf s a).trans (ih _)

theorem haltsOnly_ite {c : Prop} [Decidable c] (ht : s.haltsOnly t) (hu : s.haltsOnly u) : s.haltsOnly (if c then t else u) := by
  split
  · exact ht
  · exact hu

theorem raise_thermtrip (s : State) (code : Nat) (al : Option Nat) (payload : List (Nat × Nat)) (l : List Dest) (count : Nat := 1) :
    (s.raise code al payload l count).pins.thermtripN = s.pins.thermtripN := by
  unfold State.raise State.raiseEvent
  dsimp only
  split
  all_goals
    obtain ⟨_, _, _, h⟩ := State.onlyDelivers_foldl _ (fun (t : State) d => t.deliver_onlyDelivers _ d) l _
    rw [h]
    rfl

theorem raise_haltsOnly (s : State) (code : Nat) (al : Option Nat) (payload : List (Nat × Nat)) (l : List Dest) (count : Nat := 1) :
    s.haltsOnly (s.raise code al payload l count) := by
  have hs := raise_startsOn s code al payload l count
  have ht := raise_thermtrip s code al payload l count
  obtain ⟨_, _, _, _, _, _, _, h⟩ := s.raise_eq code al payload l count
  rw [h] at hs ht ⊢
  exact ⟨hs, rfl, rfl, rfl, ht⟩

theorem setAllot_haltsOnly (s : State) (a : Nat) (x : Allot) : s.haltsOnly (s.setAllot a x) :=
  ⟨setAllot_startsOn s a x, rfl, rfl, rfl, rfl⟩

theorem setReg_haltsOnly (s : State) (o : Nat) (v : DWord) : s.haltsOnly (s.setReg o v) := ⟨setReg_startsOn s o v, rfl, rfl, rfl, rfl⟩

theorem setReeve_haltsOnly (s : State) (r : Reeve) : s.haltsOnly (s.setReeve r) :=
  ⟨⟨rfl, rfl, rfl, rfl, List.suffix_rfl⟩, rfl, rfl, rfl, rfl⟩

theorem updAllot_haltsOnly (s : State) (a : Nat) (f : Allot → Allot) : s.haltsOnly (s.updAllot a f) := setAllot_haltsOnly s a _

theorem reportLive_haltsOnly (s : State) (a : Nat) : s.haltsOnly (s.reportLive a) := by
  have hdrawn (u : State) : u.haltsOnly u.drawn := ⟨drawn_startsOn u, rfl, rfl, rfl, rfl⟩
  have hlate (u : State) (i : Nat) : u.haltsOnly (u.reportLate a i) := by
    unfold State.reportLate
    split
    · exact .refl u
    · exact haltsOnly_ite (.refl u) ((raise_haltsOnly u _ _ _ _).trans (hdrawn _))
  unfold State.reportLive
  split
  · exact .refl s
  next e _ => exact haltsOnly_foldl _ (fun u k => hlate u (e.ended + k)) _ s

theorem State.commandsOnly.haltsOnly (h : s.commandsOnly t) : s.haltsOnly t := by
  have hs := h.bootStays.startsOn
  obtain ⟨_, _, _, _, _, rfl⟩ := h.rest
  exact ⟨hs, rfl, rfl, rfl, rfl⟩

theorem finish_haltsOnly (s : State) (lsn status detail : Nat) (result : BitVec 192) : s.haltsOnly (s.finish lsn status detail result) :=
  (finish_commandsOnly s lsn status detail result).haltsOnly

theorem completeRun_haltsOnly (s : State) (a status detail : Nat) (halted : Bool) (first : Option Nat) :
    s.haltsOnly (s.completeRun a status detail halted first) := by
  have hleave (u : State) : u.haltsOnly u.leaveRunning := haltsOnly_ite (.refl u) (setReeve_haltsOnly u _)
  have hv : s.haltsOnly ((if halted then s.reportLive a else s).deferEnds a) :=
    (haltsOnly_ite (reportLive_haltsOnly s a) (.refl s)).trans (setAllot_haltsOnly _ a _)
  unfold State.completeRun
  dsimp only
  generalize State.deferEnds _ a = v at hv ⊢
  split
  · exact hv
  · exact hv.trans ((setAllot_haltsOnly v a _).trans ((finish_haltsOnly _ _ _ _ _).trans (hleave _)))

theorem finishHalts_haltsOnly (s : State) (a : Nat) (effect : Bool) : s.haltsOnly (s.finishHalts a effect) :=
  (setAllot_haltsOnly s a _).trans
    (haltsOnly_foldl _ (fun u lsn => haltsOnly_ite (finish_haltsOnly u lsn _ _ _) (finish_haltsOnly u lsn _ _ _)) _ _)

theorem doHalt_haltsOnly (s : State) (a : Nat) (why : HaltWhy) : s.haltsOnly (s.doHalt a why) := by
  have hcompletes (u : State) (d : Nat) (e : Bool) (f : Option Nat) (h : Nat) : u.haltsOnly ((u.completeRun a h d true f).finishHalts a e) :=
    (completeRun_haltsOnly u a h d true f).trans (finishHalts_haltsOnly _ a e)
  unfold State.doHalt
  dsimp only
  split
  · exact .refl s
  split
  · exact .refl s
  split
  · exact haltsOnly_ite (updAllot_haltsOnly s a _) (hcompletes s _ _ _ _)
  · exact haltsOnly_ite (updAllot_haltsOnly s a _) (hcompletes s _ _ _ _)
  · exact (updAllot_haltsOnly s a _).trans (hcompletes _ _ _ _ _)

theorem failRun_haltsOnly (s : State) (a : Nat) (r : Option RunId) : s.haltsOnly (s.failRun a r) := by
  have hcharge : s.haltsOnly (s.chargeRun a r) := by
    cases r with
    | none => exact .refl s
    | some r => exact setAllot_haltsOnly s a _
  exact hcharge.trans (haltsOnly_ite (updAllot_haltsOnly _ a _) (.refl _))

/-- An allotment halted by a loss, its field done where no parish of it hears. -/
theorem failHalt_haltsOnly (s : State) (a : Nat) (r : Option RunId) :
    s.haltsOnly (if ((s.failRun a r).lead a).isNone then (s.failRun a r).doHalt a .fault else s.failRun a r) :=
  (failRun_haltsOnly s a r).trans (haltsOnly_ite (doHalt_haltsOnly _ a .fault) (.refl _))

theorem haltParish_haltsOnly (s : State) (par : Nat) : s.haltsOnly (s.haltParish par) := by
  unfold State.haltParish
  split
  · exact .refl s
  next a _ => exact haltsOnly_ite (failHalt_haltsOnly s a _) (updAllot_haltsOnly s a _)

theorem degrade_haltsOnly (s : State) (n : Nat) : s.haltsOnly (s.degrade n) := by
  have hset (u : State) (st : MState) (c : BitVec 12) : u.haltsOnly { u with boot := { u.boot with st := st, cause := c } } :=
    ⟨⟨rfl, rfl, rfl, rfl, List.suffix_rfl⟩, rfl, rfl, rfl, rfl⟩
  unfold State.degrade
  refine haltsOnly_ite ?_ (.refl s)
  exact (hset s _ _).trans (haltsOnly_ite (raise_haltsOnly _ _ _ _ _) (.refl _))

/-! ### The field: parishes, risers, the known-answer run -/

theorem setParish_startsOn (s : State) (p : Nat) (x : Parish) : s.startsOn (s.setParish p x) := ⟨rfl, rfl, rfl, rfl, List.suffix_rfl⟩

theorem losePlane_startsOn (s : State) (par : Nat) (plane : BitVec 1) : s.startsOn (s.losePlane par plane) := by
  unfold State.losePlane
  dsimp only
  generalize (if plane = 0 then _ else _ : Parish) = x
  refine (setParish_startsOn s par x).trans (startsOn_ite (.refl _) ?_)
  exact (setParish_startsOn _ par _).trans ((raise_startsOn _ _ _ _ _).trans
    ((haltParish_haltsOnly _ par).tostartsOn.trans (degrade_haltsOnly _ 0).tostartsOn))

theorem loseRisers_startsOn (s : State) (lost : Nat → Bool) : s.startsOn (s.loseRisers lost) := by
  have hp (u : State) (p : Nat) (b : BitVec 1) (c : Bool) : u.startsOn (if c = true then u.losePlane p b else u) :=
    startsOn_ite (losePlane_startsOn u p b) (.refl u)
  exact startsOn_foldl _ (fun u p => (hp u p 0 _).trans (hp _ p 1 _)) _ s

theorem startParish_startsOn (s : State) (o : StartObs) (p : Fin 78) : s.startsOn (s.startParish o p) := by
  unfold State.startParish
  split
  · exact setParish_startsOn s p _
  split
  · exact (setParish_startsOn s p _).trans (raise_startsOn _ _ _ _ _)
  · exact setParish_startsOn s p _

theorem startField_startsOn (s : State) (o : StartObs) : s.startsOn (s.startField o) := by
  unfold State.startField
  dsimp only
  refine State.startsOn.trans (State.startsOn.trans ?_ (startsOn_foldl _ (fun u p => startParish_startsOn u o p) _ _)) (loseRisers_startsOn _ _)
  exact ⟨rfl, rfl, rfl, rfl, List.suffix_rfl⟩

theorem katParish_startsOn (s : State) (o : StartObs) (p : Fin 78) : s.startsOn (s.katParish o p) := by
  unfold State.katParish
  dsimp only
  split
  · exact .refl s
  · exact startsOn_ite (.refl s) ((startsOn_foldl _ (fun u (e : Fin 78 × Fin 80 × Fin 100) => markDead_startsOn u _ _ _) _ s).trans
      (raise_startsOn _ _ _ _ _))

theorem knownAnswer_startsOn (s : State) (o : StartObs) : s.startsOn (s.knownAnswer o) :=
  startsOn_foldl _ (fun u p => katParish_startsOn u o p) _ s

theorem buildGeometry_startsOn (s : State) : s.startsOn s.buildGeometry := by
  have hwritten : s.startsOn s.geomWritten := by
    unfold State.geomWritten State.dpaWrite
    exact (writeRange_memoryOnly s _ _ _ _ _).bootStays.startsOn
  have hnoted (u : State) : u.startsOn u.geomNoted := ⟨rfl, rfl, rfl, rfl, List.suffix_rfl⟩
  exact (hwritten.trans (hnoted _)).trans ((setReg_startsOn _ _ _).trans (setReg_startsOn _ _ _))

/-! ### Readiness and what follows it -/

/-- The states a start that was not rejected ends in (R448, R449). -/
def MState.started (x : MState) : Prop := x = .ready ∨ x = .degradedReady ∨ x = .mgmtOnly

theorem measure_startsOn (s : State) : s.startsOn s.measure ∧ s.measure.boot.st = s.boot.st := by
  unfold State.measure
  split
  · exact ⟨.refl s, rfl⟩
  · exact ⟨⟨rfl, rfl, rfl, rfl, List.suffix_rfl⟩, rfl⟩

theorem advanceRollback_startsOn (s : State) : s.startsOn s.advanceRollback ∧ s.advanceRollback.boot.st = s.boot.st := by
  unfold State.advanceRollback
  split
  · exact ⟨.refl s, rfl⟩
  · exact ⟨⟨rfl, rfl, rfl, rfl, List.suffix_rfl⟩, rfl⟩

theorem reportReady_starts (s : State) (o : StartObs) : s.startsOn (s.reportReady o) ∧ (s.reportReady o).boot.st.started := by
  unfold State.reportReady
  dsimp only
  generalize hc : BitVec.ofNat 12 _ = c
  generalize hv : s.endPlan.countCores = v
  have hsv : s.startsOn v := hv ▸ ⟨rfl, rfl, rfl, rfl, List.suffix_rfl⟩
  split
  · exact ⟨hsv.trans ⟨rfl, rfl, rfl, rfl, List.suffix_rfl⟩, .inr (.inr rfl)⟩
  generalize hw : ({ v with boot := { v.boot with st := if c = 0 then .ready else .degradedReady, cause := c, step := 13 } } : State) = w
  have hvw : v.startsOn w := hw ▸ ⟨rfl, rfl, rfl, rfl, List.suffix_rfl⟩
  have hst : w.boot.st.started := by
    rw [← hw]
    dsimp only
    split
    · exact .inl rfl
    · exact .inr (.inl rfl)
  obtain ⟨ha, hast⟩ := advanceRollback_startsOn w
  obtain ⟨hm, hmst⟩ := measure_startsOn w.advanceRollback
  have hx := (hsv.trans hvw).trans (ha.trans hm)
  have hxst : w.advanceRollback.measure.boot.st.started := by
    rw [hmst, hast]
    exact hst
  generalize w.advanceRollback.measure = x at hx hxst ⊢
  generalize hy : State.setReeve _ _ = y
  have hxy : x.startsOn y := hy ▸ ⟨rfl, rfl, rfl, rfl, List.suffix_rfl⟩
  have hyst : y.boot.st.started := by
    rw [← hy]
    exact hxst
  split
  · exact ⟨hx.trans hxy, hyst⟩
  · exact ⟨(hx.trans hxy).trans (raise_startsOn _ _ _ _ _), by rw [raise_boot]; exact hyst⟩

theorem State.bootStays.st (h : s.bootStays t) : t.boot.st = s.boot.st := by
  obtain ⟨_, hb⟩ := h.boot
  rw [hb]

theorem appendPpr_bootStays (s : State) (a b : Bool) : s.bootStays (s.appendPpr a b) := by
  refine State.bootStays.trans ?_ (appendFails_memoryOnly _ 2 a b).bootStays
  exact setStore_bootStays s _ s.ras

theorem appendOwed_starts (s : State) (ok : Bool × Bool) : s.startsOn (s.appendOwed ok) ∧ (s.appendOwed ok).boot.st = s.boot.st := by
  unfold State.appendOwed
  dsimp only
  generalize hv : ({ s with boot := { s.boot with appendDue := none, pprDue := false } } : State) = v
  have hsv : s.startsOn v := hv ▸ ⟨rfl, rfl, rfl, rfl, List.suffix_rfl⟩
  have hst : v.boot.st = s.boot.st := by rw [← hv]
  have howed (w : State) (hvw : v.bootStays w) : s.startsOn (if s.boot.pprDue = true then w.appendPpr ok.1 ok.2 else w) ∧
      (if s.boot.pprDue = true then w.appendPpr ok.1 ok.2 else w).boot.st = s.boot.st := by
    have hx : v.bootStays (if s.boot.pprDue = true then w.appendPpr ok.1 ok.2 else w) :=
      hvw.trans (bootStays_ite (appendPpr_bootStays w _ _) (.refl w))
    exact ⟨hsv.trans hx.startsOn, hx.st.trans hst⟩
  refine howed _ ?_
  split
  · exact .refl v
  · exact appendWear_bootStays v _ _ _ _

theorem levelBreak_bootStays (s : State) (cause w us : Nat) : s.bootStays (s.levelBreak cause w us) :=
  (bump_bootStays s (reeveBase + 0x78) 1).trans (raise_bootStays _ _ _ _ _)

theorem reportUvlo_st (s : State) : s.reportUvlo.boot.st = s.boot.st ∧ s.reportUvlo.boot.imageB = s.boot.imageB := by
  unfold State.reportUvlo
  split
  · exact ⟨rfl, rfl⟩
  · dsimp only
    generalize hv : ({ s with boot := { s.boot with uvlo := false } } : State) = v
    have hb := levelBreak_bootStays v 3 (bits s.draw 0 15) (bits s.draw 32 32)
    generalize v.levelBreak 3 (bits s.draw 0 15) (bits s.draw 32 32) = w at hb ⊢
    refine ⟨hb.st.trans ?_, hb.startsOn.image.trans ?_⟩
    · rw [← hv]
    · rw [← hv]

theorem reportUvlo_started (h : s.boot.st.started) : s.reportUvlo.boot.st.started := by
  rw [(reportUvlo_st s).1]
  exact h

theorem wearAppended_started (trims : List (Nat × Int)) (slack : List (Nat × Nat)) (a b : Bool) (h : s.boot.st.started) :
    ((s.appendWear trims slack a b).appendPpr a b).boot.st.started := by
  have hst := ((appendWear_bootStays s trims slack a b).trans (appendPpr_bootStays (s.appendWear trims slack a b) a b)).st
  rw [hst]
  exact h

/-- What a cold start appends once the module computes (R436, R437). -/
def State.coldAppends (s : State) (a b : Bool) : State :=
  let s := { s with ras := { s.ras with colds := s.ras.colds + 1 } }
  (s.appendWear s.trims s.leastSlack a b).appendPpr a b

theorem coldAppends_started (a b : Bool) (h : s.boot.st.started) : (s.coldAppends a b).boot.st.started :=
  wearAppended_started (s := { s with ras := { s.ras with colds := s.ras.colds + 1 } }) _ _ a b h

/-- What a cold start does once it has reported how it ends. -/
def State.coldFinish (s : State) (o : StartObs) : State :=
  if s.computes then (s.coldAppends o.appendOk.1 o.appendOk.2).reportUvlo else s.reportUvlo

theorem coldFinish_started (o : StartObs) (h : s.boot.st.started) : (s.coldFinish o).boot.st.started := by
  unfold State.coldFinish
  split
  · exact reportUvlo_started (coldAppends_started _ _ h)
  · exact reportUvlo_started h

theorem coldField_eq (s : State) (o : StartObs) :
    s.coldField o = ((((s.startField o).knownAnswer o).coldStacks o).buildGeometry.reportReady o).coldFinish o := rfl

/-- The steps of a cold start that wait for the start-up slot end in a state in which the module serves. -/
theorem coldField_started (s : State) (o : StartObs) : (s.coldField o).boot.st.started := by
  rw [coldField_eq]
  generalize (((s.startField o).knownAnswer o).coldStacks o).buildGeometry = v
  exact coldFinish_started o (reportReady_starts v o).2

/-! ### The image booted (R440, R441) -/

/-- The epoch, the straps and the posted writes stay while an image is looked for; the events are added to the log. -/
structure State.picks (s t : State) : Prop where
  epoch : t.boot.epoch = s.boot.epoch
  straps : t.boot.straps = s.boot.straps
  posted : t.posted = s.posted
  log : s.events <:+ t.events

theorem State.picks.refl (s : State) : s.picks s := ⟨rfl, rfl, rfl, List.suffix_rfl⟩

theorem State.picks.trans (h : s.picks t) (g : t.picks u) : s.picks u :=
  ⟨g.epoch.trans h.epoch, g.straps.trans h.straps, g.posted.trans h.posted, h.log.trans g.log⟩

theorem State.startsOn.picks (h : s.startsOn t) : s.picks t := ⟨h.epoch, h.straps, h.posted, h.log⟩

theorem raise_store (s : State) (code : Nat) (al : Option Nat) (payload : List (Nat × Nat)) (l : List Dest) (count : Nat) :
    (s.raise code al payload l count).store = s.store := by
  obtain ⟨_, _, _, _, _, _, _, h⟩ := s.raise_eq code al payload l count
  rw [h]

theorem verify_good {bad : List (Bool × Bool)} {b : Bool} (h : s.imageFault bad b = none) : s.verify bad b = (s, true) := by
  unfold State.verify
  rw [h]

theorem verify_bad {bad : List (Bool × Bool)} {b : Bool} (h : s.imageFault bad b ≠ none) :
    (s.verify bad b).2 = false ∧ s.picks (s.verify bad b).1 ∧ (s.verify bad b).1.store = s.store := by
  unfold State.verify
  split
  next hf => exact absurd hf h
  next f _ =>
    have hr : s.picks (s.rejectImage (b2n b) f) := (raise_startsOn s _ _ _ _).picks
    have hst : (s.rejectImage (b2n b) f).store = s.store := raise_store s _ _ _ _ _
    dsimp only
    generalize s.rejectImage (b2n b) f = v at hr hst ⊢
    refine ⟨rfl, hr.trans ?_, ?_⟩
    · cases b
      · exact ⟨rfl, rfl, rfl, List.suffix_rfl⟩
      · exact ⟨rfl, rfl, rfl, List.suffix_rfl⟩
    · cases b
      · exact hst
      · exact hst

theorem verify_picks (s : State) (bad : List (Bool × Bool)) (b : Bool) : s.picks (s.verify bad b).1 := by
  by_cases h : s.imageFault bad b = none
  · rw [verify_good h]
    exact .refl s
  · exact (verify_bad h).2.1

theorem bootImage_picks (s : State) (b fallback : Bool) : s.picks (s.bootImage b fallback) := by
  have hload (u : State) (x : StoreImage) : u.picks (u.loadCfg x) := ⟨rfl, rfl, rfl, List.suffix_rfl⟩
  unfold State.bootImage
  split
  · exact .refl s
  next x _ =>
    refine State.picks.trans ?_ (hload _ x)
    exact State.picks.trans (t := { s with boot := { s.boot with imageB := b, fallback := fallback } })
      ⟨rfl, rfl, rfl, List.suffix_rfl⟩ (measure_startsOn _).1.picks

theorem recover_picks (s : State) : s.picks s.recover ∧ s.recover.boot.st = .recovery ∧ s.raises s.recover evRecoveryMode := by
  unfold State.recover
  dsimp only
  generalize hv : ({ s with boot := { s.boot with st := .recovery, step := 3 }, hps := [] } : State) = v
  have hsv : s.picks v := hv ▸ ⟨rfl, rfl, rfl, List.suffix_rfl⟩
  have hst : v.boot.st = .recovery := by rw [← hv]
  refine ⟨hsv.trans (raise_startsOn v _ _ _ _).picks, ?_, ?_⟩
  · rw [raise_boot]
    exact hst
  · have hr : v.raises _ evRecoveryMode :=
      State.raise_raises v evRecoveryMode none [(s.boot.rejectA.toNat, 1), (s.boot.rejectB.toNat, 1)] [] 1
    exact raises_of_suffix_left hsv.log hr

theorem pickImage_picks (s : State) (o : StartObs) (b : Bool) : s.picks (s.pickImage o b) := by
  unfold State.pickImage
  dsimp only
  generalize hv : ({ s with boot := { s.boot with rejectA := 0, rejectB := 0 } } : State) = v
  have hsv : s.picks v := hv ▸ ⟨rfl, rfl, rfl, List.suffix_rfl⟩
  have hw := hsv.trans (verify_picks v o.readFail b)
  generalize v.verify o.readFail b = w at hw ⊢
  split
  · exact hw.trans (bootImage_picks _ _ _)
  have hx := hw.trans (verify_picks w.1 o.readFail (!b))
  generalize w.1.verify o.readFail (!b) = x at hx ⊢
  split
  · exact hx.trans (bootImage_picks _ _ _)
  · exact hx.trans (recover_picks _).1

/-- The fault of an image is found in the store and by the fuses. -/
theorem imageFault_congr {bad : List (Bool × Bool)} {b : Bool} (hs : t.store.image b = s.store.image b) (hf : t.fuses = s.fuses) :
    t.imageFault bad b = s.imageFault bad b := by
  unfold State.imageFault
  rw [hs, hf]

theorem imageFault_of_none {bad : List (Bool × Bool)} {b : Bool} (h : s.store.image b = none) : s.imageFault bad b ≠ none := by
  unfold State.imageFault
  rw [h]
  exact Option.some_ne_none _

/-- Without an image in the store a start ends in RECOVERY. -/
theorem pickImage_recovers (h : ∀ b, s.store.image b = none) (o : StartObs) (b : Bool) :
    (s.pickImage o b).boot.st = .recovery ∧ s.raises (s.pickImage o b) evRecoveryMode := by
  unfold State.pickImage
  dsimp only
  generalize hv : ({ s with boot := { s.boot with rejectA := 0, rejectB := 0 } } : State) = v
  have hsv : s.picks v := hv ▸ ⟨rfl, rfl, rfl, List.suffix_rfl⟩
  have hvs : v.store = s.store := by rw [← hv]
  obtain ⟨hw, hpick, hws⟩ := verify_bad (s := v) (bad := o.readFail) (imageFault_of_none (b := b) (by rw [hvs]; exact h b))
  generalize v.verify o.readFail b = w at hw hpick hws ⊢
  rw [if_neg (by rw [hw]; exact Bool.false_ne_true)]
  obtain ⟨hx, hpick', -⟩ := verify_bad (s := w.1) (bad := o.readFail) (imageFault_of_none (b := !b) (by rw [hws, hvs]; exact h _))
  generalize w.1.verify o.readFail (!b) = x at hx hpick' ⊢
  rw [if_neg (by rw [hx]; exact Bool.false_ne_true)]
  obtain ⟨-, hst, hr⟩ := recover_picks x.1
  exact ⟨hst, raises_of_suffix_left ((hsv.trans hpick).trans hpick').log hr⟩

/-- The image preferred is booted where it verifies. -/
theorem pickImage_good {o : StartObs} {b : Bool} (h : s.imageFault o.readFail b = none) :
    (s.pickImage o b).boot.st = s.boot.st ∧ (s.pickImage o b).boot.imageB = b := by
  unfold State.pickImage
  dsimp only
  generalize hv : ({ s with boot := { s.boot with rejectA := 0, rejectB := 0 } } : State) = v
  have hst : v.boot.st = s.boot.st := by rw [← hv]
  have hg : v.imageFault o.readFail b = none := by
    rw [imageFault_congr (s := s) (by rw [← hv]) (by rw [← hv])]
    exact h
  rw [verify_good hg, if_pos rfl]
  unfold State.bootImage
  split
  next hn => exact absurd hg (imageFault_of_none hn)
  next x _ =>
    have hload (u : State) : (u.loadCfg x).boot.st = u.boot.st ∧ (u.loadCfg x).boot.imageB = u.boot.imageB := ⟨rfl, rfl⟩
    obtain ⟨hm, hmst⟩ := measure_startsOn { v with boot := { v.boot with imageB := b, fallback := false } }
    exact ⟨(hload _).1.trans (hmst.trans hst), (hload _).2.trans hm.image⟩

/-! ### A warm restart to its end (R450) -/

theorem finishRestart_ends (s : State) (o : StartObs) : (s.finishRestart o).boot.epoch = s.boot.epoch ∧ (s.finishRestart o).posted = [] ∧
    ((s.finishRestart o).boot.st = .recovery ∨ (s.finishRestart o).boot.st.started) := by
  have hcheck (u : State) : u.startsOn ((o.ledgerBad.map (·.toNat)).foldl State.checkEntry u) := startsOn_foldl _ checkEntry_startsOn _ u
  have hp := pickImage_picks s.clearForRestart o s.warmImage
  have howed (u : State) (hu : (s.clearForRestart.pickImage o s.warmImage).startsOn u ∧ u.boot.st.started) :
      (u.appendOwed o.appendOk).boot.epoch = s.boot.epoch ∧ (u.appendOwed o.appendOk).posted = [] ∧
        ((u.appendOwed o.appendOk).boot.st = .recovery ∨ (u.appendOwed o.appendOk).boot.st.started) := by
    obtain ⟨ha, hst⟩ := appendOwed_starts u o.appendOk
    have hx := hp.trans (hu.1.trans ha).picks
    exact ⟨hx.epoch, hx.posted, .inr (by rw [hst]; exact hu.2)⟩
  unfold State.finishRestart
  extract_lets old check s1 new stays bell s2 s3 ras s4 checked boot
  change s.clearForRestart.picks s1 at hp
  change ∀ u : State, s1.startsOn u ∧ u.boot.st.started → _ at howed
  have h12 : s1.startsOn s2 := by
    refine State.startsOn.trans ?_ (startSectors_startsOn _ o)
    refine State.startsOn.trans ?_ (applyClockPlan_startsOn _)
    refine State.startsOn.trans ?_ (loadMaps_startsOn _ o)
    exact ⟨rfl, rfl, rfl, rfl, List.suffix_rfl⟩
  clear_value s1 s2
  have h23 : s2.startsOn s3 := by
    refine State.startsOn.trans ?_ (startGuests_startsOn _ o true)
    refine State.startsOn.trans ?_ (reachPrimary_startsOn _ o)
    refine State.startsOn.trans ?_ (refusePort_startsOn _)
    exact (warmHostPorts_startsOn s2 o).trans (warmPorts_startsOn _ old o)
  clear_value s3
  have h34 : s3.startsOn s4 := ⟨rfl, rfl, rfl, rfl, List.suffix_rfl⟩
  have h14 := h12.trans (h23.trans h34)
  have hc : s4.startsOn checked := (hcheck s4).trans ⟨rfl, rfl, rfl, rfl, List.suffix_rfl⟩
  clear_value s4 checked
  split
  next hst => exact ⟨hp.epoch, hp.posted, .inl hst⟩
  split
  · exact howed _ ⟨h14.trans ⟨rfl, rfl, rfl, hc.posted, hc.log⟩, .inr (.inr rfl)⟩
  · have hb : s4.startsOn ((((check (s4.warmStacks o)).startField o).knownAnswer o).buildGeometry) :=
      ((warmStacks_startsOn s4 o).trans (hcheck _)).trans ((startField_startsOn _ o).trans
        ((knownAnswer_startsOn _ o).trans (buildGeometry_startsOn _)))
    generalize State.buildGeometry _ = v at hb ⊢
    obtain ⟨hr, hst⟩ := reportReady_starts v o
    exact howed _ ⟨h14.trans (hb.trans hr), hst⟩

/-! ### A cold start (R33, R440) -/

theorem coldParts_mgmt {o : StartObs} (hm : s.boot.straps.mgmt = true) :
    (s.coldParts o).boot.st = .mgmtOnly ∧ (s.coldParts o).boot.imageB = s.boot.imageB := by
  unfold State.coldParts
  extract_lets s1 s2 ended boot
  have h1 : s.startsOn s1 := (loadMaps_startsOn s o).trans ((applyClockPlan_startsOn _).trans (startSectors_startsOn _ o))
  have h2 : s1.startsOn s2 := ((startHostPorts_startsOn s1 o).trans (startPorts_startsOn _ o)).trans
    ((refusePort_startsOn _).trans ((reachPrimary_startsOn _ o).trans (startGuests_startsOn _ o false)))
  have h := h1.trans h2
  clear_value s2
  rw [if_pos (by rw [h.straps]; exact hm)]
  obtain ⟨hst, himg⟩ := reportUvlo_st { s2.endPlan with boot := { s2.boot with st := .mgmtOnly, step := 6 } }
  exact ⟨hst, himg.trans h.image⟩

/-- STRAP_TEST halts the start (R32). -/
theorem coldStart_test {o : StartObs} (ht : o.straps.test = true) :
    (s.coldStart o).boot.st = .strapHalt ∧ (s.coldStart o).pins.alertN = false := by
  unfold State.coldStart
  dsimp only
  rw [if_pos ht]
  exact ⟨rfl, rfl⟩

/-- A start past the test strap looks for its image. -/
theorem coldStart_picks {o : StartObs} (ht : o.straps.test = false) : ∃ v : State, v.boot.straps = o.straps ∧ v.boot.st = .booting ∧
    (∀ b, v.store.image b = s.store.image b) ∧ v.fuses = s.fuses ∧ v.events = s.events ∧
    s.coldStart o = if (v.pickImage o o.straps.img).boot.st = .recovery then v.pickImage o o.straps.img
      else (v.pickImage o o.straps.img).coldParts o := by
  refine ⟨{ s with boot := { s.boot with straps := o.straps, st := .booting, step := 2 }, store := s.store.load }, rfl, rfl,
    fun b => by cases b <;> rfl, rfl, rfl, ?_⟩
  unfold State.coldStart
  exact if_neg (by rw [ht]; exact Bool.false_ne_true)

/-- Without an image a start ends in RECOVERY (R441). -/
theorem coldStart_recovers {o : StartObs} (ht : o.straps.test = false) (ha : s.store.a = none) (hb : s.store.b = none) :
    (s.coldStart o).boot.st = .recovery ∧ s.raises (s.coldStart o) evRecoveryMode := by
  obtain ⟨v, -, -, himg, -, hev, heq⟩ := coldStart_picks (s := s) ht
  obtain ⟨hst, hr⟩ := pickImage_recovers (s := v) (fun b => (himg b).trans (by cases b <;> assumption)) o o.straps.img
  rw [heq, if_pos hst]
  exact ⟨hst, raises_of_suffix_left (by rw [hev]) hr⟩

/-- The management strap ends a start in MGMT_ONLY from the image it names (R32). -/
theorem coldStart_mgmt {o : StartObs} (ht : o.straps.test = false) (hm : o.straps.mgmt = true)
    (hg : s.imageFault o.readFail o.straps.img = none) :
    (s.coldStart o).boot.st = .mgmtOnly ∧ (s.coldStart o).boot.imageB = o.straps.img := by
  obtain ⟨v, hstraps, hst, himg, hfuses, -, heq⟩ := coldStart_picks (s := s) ht
  have hgood : v.imageFault o.readFail o.straps.img = none := (imageFault_congr (himg _) hfuses).trans hg
  obtain ⟨hpst, hpimg⟩ := pickImage_good hgood
  have hps := (pickImage_picks v o o.straps.img).straps
  rw [heq, if_neg (by rw [hpst, hst]; exact fun h => MState.noConfusion h)]
  obtain ⟨h1, h2⟩ := coldParts_mgmt (s := v.pickImage o o.straps.img) (o := o) (by rw [hps, hstraps]; exact hm)
  exact ⟨h1, h2.trans hpimg⟩

theorem find?_filter_key {α : Type} (m : Tab α) (k : Nat) : Tab.find? (m.filter fun e => decide (e.1 = k)) k = m.find? k := by
  induction m with
  | nil => rfl
  | cons a t ih =>
    by_cases h : a.1 = k
    · rw [List.filter_cons_of_pos (by rw [decide_eq_true h])]
      simp only [Tab.find?, h, if_true]
    · rw [List.filter_cons_of_neg (by simp [h]), ih]
      simp only [Tab.find?, h, if_false]

theorem regsDown_of_none (h : s.failedRegs = []) (r : Nat) : s.regsDown r = false := by
  have hr (b : Bool) : s.regFailed r b = false := by
    unfold State.regFailed
    rw [h]
    rfl
  unfold State.regsDown
  rw [hr, hr]
  exact ite_self _

theorem mayPower_eq (h : s.failedRegs = []) (mv : Nat) : s.mayPower mv = (!s.boot.uvlo || decide (mv > 47500)) := by
  unfold State.mayPower
  simp only [regsDown_of_none h, Bool.not_false, Bool.true_and]

end Sys2Proof.Machine

/-- Settles O54: each edge of a pin takes the state its case of the model gives; a start picks its image by the straps, and its
parts leave what the straps decided. -/
theorem powerAndReset : Obligations.PowerAndReset := by
  unfold Obligations.PowerAndReset
  intro s
  refine ⟨fun hen hregs => ⟨fun hu => ?_, fun hu => ?_⟩, ⟨_, rfl, rfl, rfl, rfl, rfl, rfl, rfl, rfl, rfl⟩, ?_, fun o hgood hstop => ?_,
    fun o hwait htrain hat => ⟨_, rfl, ?_⟩⟩
  · refine next_congr ?_
    rw [if_neg (by rw [hen]; exact Bool.false_ne_true), mayPower_eq hregs, hu]
    rfl
  · refine ⟨decide (bits s.draw 0 16 > 47500), next_congr ?_⟩
    rw [if_neg (by rw [hen]; exact Bool.false_ne_true), mayPower_eq hregs, hu]
    rfl
  · refine ⟨_, rfl, ?_⟩
    dsimp only
    split
    · refine ⟨rfl, rfl, fun _ => ⟨rfl, rfl, rfl, ?_⟩⟩
      exact congrArg (fun v : Option DWord => v.getD (regReset 0x20040)) (find?_filter_key s.regs 0x20040)
    next h => exact ⟨rfl, rfl, fun hp => absurd hp h⟩
  · have hstarts (c : Instr) (u : State) (hc : exec c s = .next (u.coldStart o)) (hs : u.store = s.store) (hf : u.fuses = s.fuses)
        (hev : u.events = s.events) :
        (o.straps.test = true → leads (exec c s) fun t => t.boot.st = .strapHalt ∧ t.pins.alertN = false) ∧
        (o.straps.test = false →
          (s.store.a = none → s.store.b = none → leads (exec c s) fun t => t.boot.st = .recovery ∧ s.raises t evRecoveryMode) ∧
          (o.straps.mgmt = true → s.imageFault o.readFail o.straps.img = none → leads (exec c s) fun t => t.boot.st = .mgmtOnly ∧
            t.boot.imageB = o.straps.img)) := by
      refine ⟨fun ht => ⟨_, hc, coldStart_test ht⟩, fun ht => ⟨fun ha hb => ⟨_, hc, ?_⟩, fun hm hg => ⟨_, hc, coldStart_mgmt ht hm ?_⟩⟩⟩
      · obtain ⟨hst, hr⟩ := coldStart_recovers (s := u) ht (by rw [hs]; exact ha) (by rw [hs]; exact hb)
        exact ⟨hst, raises_of_suffix_left (by rw [hev]) hr⟩
      · exact (imageFault_congr (by rw [hs]) hf).trans hg
    refine ⟨fun hr => ?_, fun hr hst => ?_⟩
    · refine hstarts _ { s with pins := { s.pins with resetN := true } } (next_congr (if_neg ?_)) rfl rfl rfl
      rw [hr, hgood, hstop]
      decide
    · refine hstarts _ s (next_congr (if_pos ?_)) rfl rfl rfl
      rw [hr, hgood, hst, hstop]
      decide
  · dsimp only
    rw [if_pos ⟨hwait, htrain, hat⟩]
    exact coldField_started _ o

/-- Settles O55: a restart applies R364 and takes the parts down, and its end raises no further epoch; a shutdown does the same and
stays. -/
theorem restarts : Obligations.Restarts := by
  unfold Obligations.Restarts
  intro s hst hstop
  have hh : s.honours = true := honours_iff.mpr ⟨hst, hstop⟩
  refine ⟨fun hp hsw => ?_, fun hsw => ⟨fun hp => ⟨s.beginRestart, ?_, ?_⟩, fun path t hg => ⟨_, next_congr (writeNow_passes hg _), ?_⟩,
    fun o => ⟨s.beginRestart.finishRestart o, ?_, ?_⟩⟩, fun path t l ok hg hnd hheld => ⟨_, next_congr (writeNow_passes hg _), ?_⟩,
    fun path v t hg hv => next_congr ((writeNow_passes hg _).trans (if_neg hv))⟩
  · exact next_congr ((if_pos hp).trans (requestWarm_waits hh hsw))
  · exact next_congr ((if_pos hp).trans (requestWarm_honoured hh hsw))
  · have hr := beginRestart_restarting s
    obtain ⟨_, hb⟩ := hr.boot
    dsimp only
    rw [hb]
    exact ⟨rfl, rfl, hr.qps, hr.jobTime, hr.cores, rfl⟩
  · obtain ⟨guards, rfl⟩ := gate_guards hg
    rw [requestWarm_honoured (s := State.setReg { s with guards := guards } _ _) hh hsw]
    obtain ⟨_, hb⟩ := (beginRestart_restarting (State.setReg { s with guards := guards } (configBase + 0x78) 1)).boot
    rw [hb]
    exact ⟨rfl, rfl⟩
  · refine next_congr ((if_neg ?_).trans (if_pos ⟨hh, by rw [hsw]; rfl⟩))
    rcases hst with h | h | h | h <;> rw [h] <;> exact fun h => MState.noConfusion h
  · obtain ⟨_, hb⟩ := (beginRestart_restarting s).boot
    generalize s.beginRestart = v at hb ⊢
    obtain ⟨he, hp, hend⟩ := finishRestart_ends v o
    exact ⟨by rw [he, hb], hp, hend⟩
  · obtain ⟨guards, rfl⟩ := gate_guards hg
    have hst' : s.boot.st = .ready ∨ s.boot.st = .degradedReady ∨ s.boot.st = .mgmtOnly := by
      rcases hst with h | h | h | h
      · exact .inl h
      · exact .inr (.inl h)
      · exact .inr (.inr h)
      · exact absurd h hnd
    generalize hv : State.setReg { s with guards := guards } (configBase + 0x80) 1 = v
    have hboot : v.boot = s.boot := by rw [← hv]; rfl
    have hev : v.events = s.events := by rw [← hv]; rfl
    obtain ⟨⟨due, hb⟩, hcores, hr⟩ := shutsDown_stopped v l ok
    rw [shutDown_eq (by rw [hboot]; exact hst'), if_neg (by rw [hb, hboot, hheld]; exact Bool.false_ne_true), hb, hboot]
    exact ⟨rfl, rfl, hcores, rfl, raises_of_suffix_left (by rw [hev]) hr⟩
end

section
/-! The side channel (R407, R413 to R415, R452, R504): the answers to SPDM and PLDM requests. -/

open Sys2Proof Sys2Proof.Machine

namespace Sys2Proof.Machine
variable {s t u : State}

theorem spdmServe_up (h : s.up = true) (f : State → State) : s.spdmServe f = f s := if_pos h

theorem spdmReady_agreed (h : s.up = true) (ha : s.spdmAlgo = true) (f : State → State) : s.spdmReady f = f s :=
  (spdmServe_up h _).trans (if_pos ha)

/-- The blocks asked for: none where their number is asked, all of them, or those of an index. -/
def State.blocksAsked (s : State) (index : Byte) : List (Nat × List Nat) :=
  if index = 0 then [] else if index = 0xFF then s.measurements else s.measurements.filter fun e => e.1 = index.toNat

/-- The guest sites have blocks, so that all blocks are some. -/
theorem measurements_ne_nil (s : State) : s.measurements ≠ [] := by
  unfold State.measurements
  exact List.append_ne_nil_of_right_ne_nil _ (List.cons_ne_nil _ _)

theorem blocksAsked_some {index : Byte} (h : index = 0 ∨ index = 0xFF ∨ ∃ v, (index.toNat, v) ∈ s.measurements) :
    ¬(index ≠ 0 ∧ (s.blocksAsked index).isEmpty = true) := by
  rintro ⟨h0, he⟩
  unfold State.blocksAsked at he
  rw [if_neg h0, List.isEmpty_iff] at he
  split at he
  · exact measurements_ne_nil s he
  next hall =>
    rcases h with h | h | ⟨v, hv⟩
    · exact h0 h
    · exact hall h
    · have hm : (index.toNat, v) ∈ s.measurements.filter fun e => decide (e.1 = index.toNat) :=
        List.mem_filter.mpr ⟨hv, decide_eq_true rfl⟩
      rw [he] at hm
      exact List.not_mem_nil hm

theorem getCertificate_portion {off len : Half} {n : Nat} (l : List Byte) (h : off.toNat < l.length) (hn : n = len.toNat) :
    ((l.drop off.toNat).take n).length = min len.toNat (l.length - off.toNat) ∧
      ((l.drop off.toNat).take n).length + (l.length - off.toNat - ((l.drop off.toNat).take n).length) + off.toNat = l.length := by
  rw [List.length_take, List.length_drop, hn]
  omega

/-! ### PLDM -/

theorem mctp_guard (h : s.mctp = true) {α : Type} (x y : α) : (if (!s.mctp) = true then x else y) = y :=
  if_neg (by rw [h]; exact Bool.false_ne_true)

/-- A module that serves an orderly shutdown ends it, whether a restart was held meanwhile or not (R452, R454). -/
theorem shutDown_ends (hst : s.boot.st = .ready ∨ s.boot.st = .degradedReady ∨ s.boot.st = .mgmtOnly) (slack : List (Fin 78 × Nat))
    (ok : Bool × Bool) : ((s.shutDown slack ok).boot.st = .shutdownDone ∨ (s.shutDown slack ok).boot.st = .restarting) ∧
      (s.shutDown slack ok).cores = [] ∧ (s.shutDown slack ok).boot.selfRefresh = true ∧ s.raises (s.shutDown slack ok) evShutdownDone := by
  rw [shutDown_eq hst]
  obtain ⟨⟨_, hb⟩, hcores, hr⟩ := shutsDown_stopped s slack ok
  generalize s.shutsDown slack ok = v at hb hcores hr ⊢
  split
  · have hv := beginRestart_restarting v
    obtain ⟨_, hc⟩ := hv.boot
    rw [hc]
    exact ⟨.inr rfl, hv.cores, rfl, raises_of_suffix_right hr hv.log⟩
  · rw [hb]
    exact ⟨.inl rfl, hcores, rfl, hr⟩

/-- An image that is rejected is written nowhere (R412). -/
theorem pldmImage_rejected {img : StoreImage} {f : Nat × Nat} (h : imgFault img s.fuses = some f) :
    (s.pldmImage img).store = s.store ∧ (s.pldmImage img).boot = s.boot ∧ s.raises (s.pldmImage img) evImageRejected := by
  have hr : s.raises (s.rejectImage 2 f) evImageRejected :=
    State.raise_raises s evImageRejected none [(2, 1), (f.1, 1), (f.2, 1)] [.sessions] 1
  have hstore : (s.rejectImage 2 f).store = s.store := raise_store s _ _ _ _ _
  have hboot : (s.rejectImage 2 f).boot = s.boot := raise_boot s _ _ _ _ _
  have heq : s.pldmImage img = (s.rejectImage 2 f).pldm 0x05 [0x21, f.2] := by
    unfold State.pldmImage
    rw [h]
  rw [heq]
  generalize s.rejectImage 2 f = v at hr hstore hboot
  exact ⟨hstore, hboot, raises_of_suffix_right hr List.suffix_rfl⟩

theorem image_setImage (x : Store) (b : Bool) (y : Option StoreImage) :
    (x.setImage b y).image b = y ∧ (x.setImage b y).image (!b) = x.image (!b) := by
  cases b
  · exact ⟨rfl, rfl⟩
  · exact ⟨rfl, rfl⟩

/-- An image that verifies is written beside the running one, in RECOVERY to device A (R412, R441). -/
theorem pldmImage_written {img : StoreImage} (h : imgFault img s.fuses = none) :
    let b := if s.boot.st = .recovery then false else !s.boot.imageB
    (s.pldmImage img).store.image b = some { img with dir := directoryFor b img } ∧
      (s.pldmImage img).store.image (!b) = s.store.image (!b) ∧ (s.pldmImage img).boot = s.boot ∧
      (s.pldmImage img).out = .pldm 0x05 [0, if s.boot.st = .recovery then 2 else 1] :: s.out := by
  unfold State.pldmImage
  rw [h]
  by_cases hr : s.boot.st = .recovery
  · simp only [hr, if_true]
    exact ⟨(image_setImage s.store false _).1, (image_setImage s.store false _).2, rfl, rfl⟩
  · simp only [hr, if_false]
    exact ⟨(image_setImage s.store (!s.boot.imageB) _).1, (image_setImage s.store (!s.boot.imageB) _).2, rfl, rfl⟩

end Sys2Proof.Machine

/-- Settles O49: every request finds the service up, and each answer is the model's case for it. -/
theorem spdmAnswers : Obligations.SpdmAnswers := by
  unfold Obligations.SpdmAnswers
  intro s hup
  refine ⟨next_congr (spdmServe_up hup _), fun v => next_congr (spdmServe_up hup _), fun asym hash meas hver => ?_, fun ha =>
    ⟨next_congr (spdmReady_agreed hup ha _), fun off len hoff => ?_, fun slot off len hslot =>
      next_congr ((spdmReady_agreed hup ha _).trans (if_pos (.inl hslot))), fun nonce =>
      ⟨_, next_congr ((spdmReady_agreed hup ha _).trans (if_neg (not_not_intro rfl))), rfl, _, _, rfl⟩, fun index nonce hidx =>
      ⟨_, next_congr ((spdmReady_agreed hup ha _).trans (if_neg (blocksAsked_some hidx))), rfl, _, rfl⟩⟩⟩
  · refine next_congr ((spdmServe_up hup _).trans (if_neg ?_))
    rw [hver]
    exact Bool.false_ne_true
  · have hp := getCertificate_portion Config.certificateChain hoff (len := len) rfl
    generalize hc : Config.certificateChain = chain at hoff hp
    refine ⟨((chain.drop off.toNat).take len.toNat).length, _, ((chain.drop off.toNat).take len.toNat).map (·.toNat), List.length_map _,
      hp.1, hp.2, ?_⟩
    refine next_congr ((spdmReady_agreed hup ha _).trans ?_)
    dsimp only
    rw [hc]
    exact if_neg (not_or.mpr ⟨not_not_intro rfl, Nat.not_le.mpr hoff⟩)

/-- Settles O50: every PLDM request finds MCTP up; an update's image is written or rejected, and a shutdown is the orderly one. -/
theorem pldmAnswers : Obligations.PldmAnswers := by
  unfold Obligations.PldmAnswers
  intro s hm
  refine ⟨⟨_, next_congr (if_pos hm), rfl, _, ?_, rfl⟩, next_congr (if_pos hm), fun typ => ⟨fun ht => ?_, fun ht => ?_, fun ht => ?_⟩,
    fun id v hst hv => ?_, ⟨next_congr (mctp_guard hm _ _), next_congr (mctp_guard hm _ _)⟩, fun img => ⟨fun hu => ?_, fun hu => ?_⟩,
    fun l ok hup hst => ⟨_, next_congr (if_pos hup), ?_⟩⟩
  · exact Nat.mod_lt _ (by decide)
  · exact ⟨_, next_congr ((mctp_guard hm _ _).trans (if_pos ht)), _, rfl⟩
  · have hno : ¬ (!s.pldmTypes.contains typ.toNat) = true := by
      rw [ht]
      exact Bool.false_ne_true
    by_cases h0 : typ = 0
    · exact ⟨_, next_congr ((mctp_guard hm _ _).trans ((if_neg hno).trans (if_pos h0))), _, rfl⟩
    · exact ⟨_, next_congr ((mctp_guard hm _ _).trans ((if_neg hno).trans (if_neg h0))), _, rfl⟩
  · refine ⟨next_congr ((mctp_guard hm _ _).trans (if_neg ?_)), next_congr ((mctp_guard hm _ _).trans (if_pos ?_))⟩
    · rw [ht]
      exact Bool.false_ne_true
    · rw [ht]
      rfl
  · refine next_congr ((if_neg ?_).trans ?_)
    · rintro (h | h)
      · rw [hm] at h
        exact Bool.false_ne_true h
      · exact hst h
    · rw [hv]
      rfl
  · exact next_congr ((mctp_guard hm _ _).trans (if_neg (by rw [hu]; exact Bool.false_ne_true)))
  · have hexec : exec (.pldmFirmwareUpdate (.image img)) s =
        .next (({ s with boot := { s.boot with pldmUpdate := false } } : State).pldmImage img) :=
      next_congr ((mctp_guard hm _ _).trans (if_pos hu))
    refine ⟨fun hf => ⟨_, hexec, ?_⟩, fun f hf => ⟨_, hexec, ?_⟩⟩
    · exact pldmImage_written (s := { s with boot := { s.boot with pldmUpdate := false } }) hf
    · obtain ⟨hstore, hboot, hr⟩ := pldmImage_rejected (s := { s with boot := { s.boot with pldmUpdate := false } }) hf
      exact ⟨hstore, by rw [hboot], hr⟩
  · obtain ⟨h1, h2, h3, h4⟩ := shutDown_ends hst l ok
    exact ⟨h1, h2, h3, raises_of_suffix_right h4 List.suffix_rfl⟩
end

section
/-! Droop and heat (R383 to R385), loans (R395 to R399): the throttles of a parish and of a stack, and the loan table. -/

open Sys2Proof Sys2Proof.Machine

namespace Sys2Proof.Machine
variable {s t u : State}

/-! ### Strikes against a parish (R466) -/

/-- What a strike against a parish leaves: every droop, the reeve; the events are added to the log. -/
structure State.strikes (s t : State) : Prop where
  droop : ∀ q, (t.parish q).droop = (s.parish q).droop
  reeve : t.reeve = s.reeve
  log : s.events <:+ t.events

theorem State.strikes.refl (s : State) : s.strikes s := ⟨fun _ => rfl, rfl, List.suffix_rfl⟩

theorem State.strikes.trans (h : s.strikes t) (g : t.strikes u) : s.strikes u :=
  ⟨fun q => (g.droop q).trans (h.droop q), g.reeve.trans h.reeve, h.log.trans g.log⟩

theorem raise_reeve (s : State) (code : Nat) (al : Option Nat) (payload : List (Nat × Nat)) (l : List Dest) (count : Nat := 1) :
    (s.raise code al payload l count).reeve = s.reeve := by
  obtain ⟨_, _, _, _, _, _, _, h⟩ := s.raise_eq code al payload l count
  rw [h]

theorem raise_strikes (s : State) (code : Nat) (al : Option Nat) (payload : List (Nat × Nat)) (l : List Dest) (count : Nat := 1) :
    s.strikes (s.raise code al payload l count) :=
  ⟨fun q => by rw [raise_parish], raise_reeve s _ _ _ _ _, raise_suffix s _ _ _ _ _⟩

theorem setParish_strikes {p : Nat} {x : Parish} (h : x.droop = (s.parish p).droop) : s.strikes (s.setParish p x) := by
  refine ⟨fun q => ?_, rfl, List.suffix_rfl⟩
  by_cases hq : q = p
  · rw [hq, State.parish_setParish, h]
  · rw [State.parish_setParish_ne s x hq]

theorem setRas_strikes (s : State) (r : Ras) : s.strikes { s with ras := r } := ⟨fun _ => rfl, rfl, List.suffix_rfl⟩

theorem strikeParish_strikes (s : State) (par : Nat) : s.strikes (s.strikeParish par) := by
  unfold State.strikeParish
  extract_lets r v x ras w limited
  have hv : s.strikes v := setRas_strikes s _
  have hx : x.droop = (v.parish par).droop := rfl
  have hw : v.strikes w := by
    unfold w
    split
    · exact setRas_strikes v _
    · exact .refl v
  clear_value r v x w
  have hset (y : Parish) (hy : y.droop = x.droop) : s.strikes (w.setParish par y) :=
    hv.trans (hw.trans (setParish_strikes (by rw [hy, hx, hw.droop])))
  split
  · have hl : s.strikes limited := hset _ rfl
    split
    · exact hl.trans (raise_strikes _ _ _ _ _)
    · exact hl
  · exact hset _ rfl

/-! ### Droop and heat -/

theorem raise_mc (s : State) (code : Nat) (al : Option Nat) (payload : List (Nat × Nat)) (l : List Dest) (m : Nat) :
    (s.raise code al payload l).mc m = s.mc m := by
  rw [State.mc, raise_mcs, ← State.mc]

theorem settleGrant_rest (x : Parish) (ns : Nat) : (x.settleGrant ns).grant = x.grant ∧ (x.settleGrant ns).throttle = x.throttle := by
  unfold Parish.settleGrant
  split
  · exact ⟨rfl, rfl⟩
  · exact ⟨rfl, rfl⟩

theorem note_parish (s : State) (a kind key par : Nat) (r : Option RunId) : (s.note a kind key r).parish par = s.parish par := rfl

/-- A droop is reported, and a storm of them is a strike besides; the droop stays (R383). -/
theorem droop_reported {par : Nat} (hd : (s.parish par).droop = true) (a : Option Nat) (payload : List (Nat × Nat)) (l : List Dest)
    (storm : Bool) :
    let t := s.raise evDroop a payload l
    ((if storm = true then t.strikeParish par else t).parish par).droop = true ∧
      s.raises (if storm = true then t.strikeParish par else t) evDroop := by
  have hr : s.raises (s.raise evDroop a payload l) evDroop := State.raise_raises s _ _ _ _ 1
  have ht := (raise_strikes s evDroop a payload l).droop par
  dsimp only
  generalize s.raise evDroop a payload l = t at hr ht
  have hs := strikeParish_strikes t par
  split
  · exact ⟨(hs.droop par).trans (ht.trans hd), raises_of_suffix_right hr hs.log⟩
  · exact ⟨ht.trans hd, hr⟩

/-- The droops of a parish within the last second, with one at `ns` past the tick (R466). -/
def State.droopsWithin (s : State) (par ns : Nat) : List Nat :=
  let t := s.ticksNs s.tick + ns
  t :: (s.parish par).droopTimes.filter fun u => decide (1000000000 + u > t)

/-- A droop as it sets the parish and is counted (R383). -/
def State.droopSet (s : State) (par ns : Nat) : State :=
  let times := s.droopsWithin par ns
  ((s.setParish par { (s.parish par).settleGrant ns with
      droop := true, droopEnd := s.ticksNs s.tick + ns + 200, droopTimes := if decide (times.length > 100) then [] else times }).bump
    (parishBase par + 0x4028)).bump (reeveBase + 0x60)

theorem droopSet_droop (s : State) (par ns : Nat) : ((s.droopSet par ns).parish par).droop = true :=
  congrArg Parish.droop (State.parish_setParish s par _)

/-- The report of a throttle leaves the parishes. -/
theorem throttleEvent_parish (s : State) (par deciC q : Nat) (b : Bool) : (s.throttleEvent par deciC b).parish q = s.parish q := by
  unfold State.throttleEvent
  dsimp only
  split
  · split
    · exact raise_parish s _ _ _ _ _ _
    · rfl
  split
  · split
    · exact raise_parish s _ _ _ _ _ _
    · rfl
  split
  · rfl
  · exact raise_parish s _ _ _ _ _ _

/-- A throttle that begins is reported unless its run has had the report (R384). -/
theorem throttleEvent_begins {par : Nat} (deciC : Nat) (h : ∀ a, s.allotOf par = some a → s.noted a evParishThrottle par = false) :
    s.raises (s.throttleEvent par deciC true) evParishThrottle := by
  unfold State.throttleEvent
  dsimp only
  split
  · exact State.raise_raises s _ _ _ _ 1
  next a ha =>
    split
    · exact State.raise_raises s _ _ _ _ 1
    · rw [if_neg (by rw [h a ha]; exact Bool.false_ne_true)]
      have hr : s.raises (s.raiseA evParishThrottle a [(par, 1), (deciC, 2), ((s.parish par).throttle, 2)]) evParishThrottle :=
        State.raise_raises s _ _ _ _ 1
      exact raises_of_suffix_right hr List.suffix_rfl

/-- The stack whose heat is read keeps what was read through the reports. -/
theorem notes_mc (s : State) (l : List Nat) (kind key m : Nat) : (l.foldl (fun s a => s.note a kind key) s).mc m = s.mc m :=
  List.foldlRecOn (motive := fun u : State => u.mc m = s.mc m) l _ rfl fun _ h _ _ => h

/-! ### The loan table -/

/-- A packet that arrives here keeps the reeve, the bell, the allotments and the configuration. -/
theorem State.arrived.loanState (h : s.arrived t) : t.reeve = s.reeve ∧ t.bell = s.bell ∧ t.allots = s.allots ∧ t.boot.cfg = s.boot.cfg := by
  rcases h with h | ⟨_, rfl⟩
  · obtain ⟨_, _, _, _, _, _, _, _, _, rfl⟩ := h.rest
    exact ⟨rfl, rfl, rfl, rfl⟩
  · exact ⟨rfl, rfl, rfl, rfl⟩

/-- A LOAN packet of the module's domain, for this module, comes to its meaning (R396). -/
theorem loanArrive_here {port : Fin 64} {k : FabPkt} {kind : Nat} (hx : (s.port port).carries = true) (hm : pMalformed k = false)
    (hty : pType k = 9) (hh : pHops k ≠ 0) (hr : s.routeOf (pHop k) = .here) (hd : pBody k 34 2 = s.boot.cfg.domainId.toNat)
    (hdom : s.boot.cfg.domain = true) (hk : pBody k 32 1 = kind) (f : State → State) :
    ∃ v, v.reeve = s.reeve ∧ v.bell = s.bell ∧ v.allots = s.allots ∧ v.boot.cfg = s.boot.cfg ∧ s.loanArrive port k kind f = f v := by
  unfold State.loanArrive
  rw [if_pos (.inr hk)]
  obtain ⟨v, hv, heq⟩ := arrive_here hx hm hty hh hr
    (fun s => if pBody k 34 2 = s.boot.cfg.domainId.toNat ∧ s.boot.cfg.domain then f s else s)
  obtain ⟨h1, h2, h3, h4⟩ := hv.loanState
  refine ⟨v, h1, h2, h3, h4, heq.trans (if_pos ⟨?_, ?_⟩)⟩
  · rw [h4, hd]
  · rw [h4, hdom]

theorem expiryFits_congr (hb : t.bell = s.bell) (ha : t.allots = s.allots) (a exp : Nat) : t.expiryFits a exp = s.expiryFits a exp := by
  unfold State.expiryFits State.allot State.tick
  rw [hb, ha]

theorem shift_envelope (r : Reeve) (n : Nat) :
    (r.shift (n : Int)).envelope = r.envelope + 1000000 * n ∧ (r.shift (-(n : Int))).envelope = r.envelope - 1000000 * n := by
  constructor
  · show (((r.envelope : Int) + 1000000 * (n : Int)).toNat) = _
    omega
  · show (((r.envelope : Int) + 1000000 * -(n : Int)).toNat) = _
    omega

/-- What a GRANT does once it has arrived. -/
def State.granted (s : State) (k : FabPkt) : State :=
  let r := s.reeve
  let mine := r.asked.any fun a =>
    decide (a.1.toNat = pSrc k ∧ a.2.1.toNat = pBody k 52 4) && s.expiryFits a.2.2 (pBody k 40 8)
  let s := s.setReeve (r.answered k)
  match r.freeLoan with
  | some i =>
    if mine then
      s.setReeve (s.reeve.book i { feid := BitVec.ofNat 24 (pSrc k), borrowed := true, amount := pBody k 36 4
                                   expiry := pBody k 40 8, id := BitVec.ofNat 32 (pBody k 52 4) })
    else s
  | none => s

/-- A GRANT asked for, with an expiry the run can hold to, is booked in a free entry (R397). -/
theorem granted_books {k : FabPkt} {i : Nat} (hi : s.reeve.freeLoan = some i)
    (ha : ∃ a ∈ s.reeve.asked, a.1.toNat = pSrc k ∧ a.2.1.toNat = pBody k 52 4 ∧ s.expiryFits a.2.2 (pBody k 40 8) = true) :
    (s.granted k).reeve.loans.find? i = some { feid := BitVec.ofNat 24 (pSrc k), borrowed := true, amount := pBody k 36 4
                                               expiry := pBody k 40 8, id := BitVec.ofNat 32 (pBody k 52 4) } ∧
      (s.granted k).reeve.envelope = s.reeve.envelope + 1000000 * pBody k 36 4 := by
  obtain ⟨a, hmem, hfeid, hid, hfits⟩ := ha
  have hmine : (s.reeve.asked.any fun a =>
      decide (a.1.toNat = pSrc k ∧ a.2.1.toNat = pBody k 52 4) && s.expiryFits a.2.2 (pBody k 40 8)) = true :=
    List.any_eq_true.mpr ⟨a, hmem, by rw [decide_eq_true ⟨hfeid, hid⟩, hfits]; rfl⟩
  unfold State.granted
  dsimp only
  rw [hi]
  dsimp only
  rw [if_pos hmine]
  exact ⟨Tab.find?_put_self _ _ _, (shift_envelope (Reeve.answered s.reeve k) _).1⟩

theorem forward_reeve (s : State) (k : FabPkt) (arr : Option Nat) : (s.forward k arr).reeve = s.reeve := by
  obtain ⟨_, _, _, _, _, _, _, _, _, _, _, _, _, _, _, _, _, h⟩ := (forward_routed s k arr).rest
  rw [h]

/-- A request that the budget can serve is granted with an entry of the loan table (R397). -/
theorem serveLoan_grants {q : BitVec 24 × Nat × Int × Word} {i : Nat} (hi : s.reeve.freeLoan = some i) (hon : s.loansOn = true)
    (ha : 0 < min q.2.1 (s.reeve.budget - s.reeve.demandW - 1000)) :
    (s.serveLoan q).reeve.collecting = s.reeve.collecting ∧ ∃ exp, s.tick < exp ∧ exp ≤ s.tick + 1024 ∧
      (s.serveLoan q).reeve.loans.find? i = some { feid := q.1, borrowed := false
                                                   amount := min q.2.1 (s.reeve.budget - s.reeve.demandW - 1000)
                                                   expiry := exp, id := q.2.2.2 } := by
  have hfree : bits s.draw 0 10 < 1024 := Nat.mod_lt _ (by decide)
  unfold State.serveLoan
  dsimp only
  rw [hi]
  dsimp only
  rw [if_pos ⟨ha, hon⟩, forward_reeve]
  exact ⟨rfl, s.tick + 1 + bits s.draw 0 10, by omega, by omega, Tab.find?_put_self _ _ _⟩

end Sys2Proof.Machine

/-- Settles O47: each command changes the parish or stack it names, and its report leaves both. -/
theorem droopAndHeat : Obligations.DroopAndHeat := by
  unfold Obligations.DroopAndHeat
  intro par s
  refine ⟨fun hon hdark => ?_, ⟨_, rfl, ?_⟩, fun m deciC hup => ⟨_, rfl, ?_⟩⟩
  · have hlit : ¬((!(s.parish par).railOn) = true ∨ (s.parish par).dark = true) := by
      rw [hon, hdark]
      decide
    refine ⟨fun ns => ⟨_, next_congr (if_neg hlit), ?_⟩, fun deciC hthr hhot => ⟨_, next_congr (if_neg ?_), ?_⟩, fun hthr =>
      ⟨⟨_, next_congr ((if_neg ?_).trans (if_pos rfl)), ?_⟩, ⟨_, next_congr ((if_neg ?_).trans (if_neg Bool.false_ne_true)), ?_⟩⟩⟩
    · have hd := droop_reported (droopSet_droop s par ns) (s.allotOf par)
        [((par : Nat), 1), ((s.parish par).setPoint, 2), (bits ((s.droopSet par ns).reg (parishBase par + 0x4028)) 0 32, 4)]
        ((s.allotOf par).map Dest.allot).toList (decide ((s.droopsWithin par ns).length > 100))
      exact ⟨hd.1, raises_of_suffix_left (t := s.droopSet par ns) List.suffix_rfl hd.2⟩
    · rintro (h | h | h | h)
      · exact hlit (.inl h)
      · exact hlit (.inr h)
      · omega
      · omega
    · refine ⟨?_, fun hn => ?_⟩
      · rw [throttleEvent_parish]
        exact congrArg Parish.throttle (State.parish_setParish s par _)
      · exact raises_of_suffix_left (t := s.setParish par _) List.suffix_rfl (throttleEvent_begins _ hn)
    · rintro (h | h | h)
      · exact hlit (.inl h)
      · exact hlit (.inr h)
      · omega
    · dsimp only
      rw [throttleEvent_parish]
      exact congrArg Parish.throttle (State.parish_setParish s par _)
    · rintro (h | h | h)
      · exact hlit (.inl h)
      · exact hlit (.inr h)
      · omega
    · exact congrArg Parish.throttle (State.parish_setParish s par _)
  · have hself := State.parish_setParish s par
      { (s.parish par).settleGrant ((s.parish par).droopEnd - s.ticksNs s.tick) with droop := false }
    obtain ⟨hg, ht⟩ := settleGrant_rest (s.parish par) ((s.parish par).droopEnd - s.ticksNs s.tick)
    refine ⟨congrArg Parish.droop hself, (congrArg Parish.grant hself).trans hg, (congrArg Parish.throttle hself).trans ht,
      fun q hq => State.parish_setParish_ne s _ fun h => hq (Fin.ext h)⟩
  · have hkeep : ∀ v : State, v.mc m = (s.mc m).heat deciC.toNat →
        (v.mc m).hot = decide (850 < deciC.toNat) ∧ (v.mc m).halved = decide (850 ≤ deciC.toNat) ∧ (v.mc m).deciC = deciC.toNat := by
      intro v hv
      rw [hv]
      exact ⟨rfl, rfl, rfl⟩
    refine hkeep _ ?_
    rw [if_neg (by rw [hup]; exact Bool.false_ne_true)]
    have hself := State.mc_setMc s m ((s.mc m).heat deciC.toNat)
    dsimp only
    split
    · exact hself
    split
    · exact hself
    · rw [notes_mc, raise_mc]
      exact hself

/-- Settles O46: a LOAN packet of the domain reaches its meaning, a request the budget can serve is booked, and an expiry takes its
entry out. -/
theorem loans : Obligations.Loans := by
  unfold Obligations.Loans
  intro s
  refine ⟨fun port k hx hm hty hh hr hd hdom => ⟨fun hk hl hmem hpart => ?_, fun hk i hi ⟨a, hasked, hfeid, hid, hfits⟩ => ?_, fun hk => ?_⟩,
    fun peer want slack id i hc hi hon hamt => ⟨_, rfl, ?_⟩, fun k x hk hdue => ⟨_, rfl, ?_⟩⟩
  · obtain ⟨v, hreeve, hbell, hallots, hcfg, heq⟩ := loanArrive_here hx hm hty hh hr hd hdom hk (fun s =>
      if s.boot.cfg.loans ∧ s.bell.member ∧ s.boot.cfg.partners.contains (BitVec.ofNat 24 (pSrc k)) then
        s.setReeve { s.reeve with collecting := s.reeve.collecting ++
          [(BitVec.ofNat 24 (pSrc k), pBody k 36 4, (BitVec.ofNat 32 (pBody k 48 4)).toInt, BitVec.ofNat 32 (pBody k 52 4))] }
      else s)
    refine ⟨_, next_congr (heq.trans (if_pos ⟨by rw [hcfg, hl], by rw [hbell, hmem], by rw [hcfg, hpart]⟩)), ?_⟩
    dsimp only [State.setReeve]
    rw [hreeve]
  · obtain ⟨v, hreeve, hbell, hallots, -, heq⟩ := loanArrive_here hx hm hty hh hr hd hdom hk (fun s => s.granted k)
    refine ⟨_, next_congr heq, ?_⟩
    obtain ⟨h1, h2⟩ := granted_books (s := v) (k := k) (i := i) (by rw [hreeve]; exact hi)
      ⟨a, by rw [hreeve]; exact hasked, hfeid, hid, (expiryFits_congr hbell hallots _ _).trans hfits⟩
    exact ⟨h1, h2.trans (by rw [hreeve])⟩
  · obtain ⟨v, hreeve, -, -, -, heq⟩ := loanArrive_here hx hm hty hh hr hd hdom hk (fun s => s.setReeve (s.reeve.answered k))
    refine ⟨_, next_congr heq, ?_⟩
    dsimp only [State.setReeve]
    rw [hreeve]
  · rw [hc]
    exact serveLoan_grants (s := s.setReeve { s.reeve with collecting := [] }) (q := (peer, want, slack, id)) hi hon hamt
  · rw [hk]
    dsimp only
    rw [if_neg (Nat.not_lt.mpr hdue)]
    refine ⟨Tab.find?_del_self _ _, fun hb => ?_, fun hb => ?_⟩
    · rw [if_pos hb, hb]
      exact ⟨Bool.or_true _, (shift_envelope _ _).2⟩
    · rw [if_neg (by rw [hb]; exact Bool.false_ne_true)]
      exact (shift_envelope _ _).1
end

section
/-! The reeve (R372 to R403): what its decisions leave of its readings, the bounds of a grant, its registers. -/

open Sys2Proof Sys2Proof.Machine

namespace Sys2Proof.Machine
variable {s t u : State}

/-! ### What the reeve's decisions leave of its readings -/

/-- The reeve's readings and meters stay: of the reeve change the envelope and what tells how it is held, and the requests for
loans. -/
def State.readingsStay (s t : State) : Prop :=
  ∃ env ramp cut parked ids asked, t.reeve = { s.reeve with
    envelope := env, rampHeld := ramp, loanCut := cut, parked := parked, loanIds := ids, asked := asked }

theorem State.readingsStay.refl (s : State) : s.readingsStay s := ⟨_, _, _, _, _, _, rfl⟩

theorem State.readingsStay.trans (h : s.readingsStay t) (g : t.readingsStay u) : s.readingsStay u := by
  obtain ⟨_, _, _, _, _, _, ht⟩ := h
  obtain ⟨env, ramp, cut, parked, ids, asked, hu⟩ := g
  exact ⟨env, ramp, cut, parked, ids, asked, by rw [hu, ht]⟩

theorem readingsStay_of_reeve (h : t.reeve = s.reeve) : s.readingsStay t := ⟨_, _, _, _, _, _, h⟩

theorem readingsStay_ite {c : Prop} [Decidable c] (ht : s.readingsStay t) (hu : s.readingsStay u) :
    s.readingsStay (if c then t else u) := by
  split
  · exact ht
  · exact hu

theorem readingsStay_foldl {α : Type} (f : State → α → State) (hf : ∀ (s : State) (a : α), s.readingsStay (f s a)) (l : List α) :
    ∀ s : State, s.readingsStay (l.foldl f s) := by
  induction l with
  | nil => exact .refl
  | cons a t ih => exact fun s => (hf s a).trans (ih _)

theorem raise_readingsStay (s : State) (code : Nat) (al : Option Nat) (payload : List (Nat × Nat)) (l : List Dest) (count : Nat := 1) :
    s.readingsStay (s.raise code al payload l count) := readingsStay_of_reeve (raise_reeve s code al payload l count)

theorem levelBreak_readingsStay (s : State) (cause w us : Nat) : s.readingsStay (s.levelBreak cause w us) :=
  (readingsStay_of_reeve rfl : s.readingsStay (s.bump (reeveBase + 0x78))).trans (raise_readingsStay _ _ _ _ _)

theorem setAllot_readingsStay (s : State) (a : Nat) (x : Allot) : s.readingsStay (s.setAllot a x) := readingsStay_of_reeve rfl

theorem updExec_readingsStay (s : State) (a : Nat) (f : Exec → Exec) : s.readingsStay (s.updExec a f) := setAllot_readingsStay s a _

theorem updAllot_readingsStay (s : State) (a : Nat) (f : Allot → Allot) : s.readingsStay (s.updAllot a f) := setAllot_readingsStay s a _

theorem setParish_readingsStay (s : State) (p : Nat) (x : Parish) : s.readingsStay (s.setParish p x) := readingsStay_of_reeve rfl

theorem drawn_readingsStay (s : State) : s.readingsStay s.drawn := readingsStay_of_reeve rfl

theorem State.linkOnly.readingsStay (h : s.linkOnly t) : s.readingsStay t := by
  obtain ⟨_, _, _, _, _, _, _, _, _, _, _, _, _, _, _, _, _, rfl⟩ := h.rest
  exact readingsStay_of_reeve rfl

theorem fieldFall_readingsStay (s : State) : s.readingsStay s.fieldFall := by
  unfold State.fieldFall
  refine readingsStay_ite (State.readingsStay.trans ?_ (levelBreak_readingsStay _ _ _ _)) (.refl s)
  exact ⟨_, _, _, _, _, _, rfl⟩

theorem moveEnvelope_readingsStay (s : State) (l : List Share) : s.readingsStay (s.moveEnvelope l) := by
  have hset (e : Nat) : s.readingsStay (s.setReeve { s.reeve with envelope := e }) := ⟨_, _, _, _, _, _, rfl⟩
  unfold State.moveEnvelope
  exact readingsStay_ite ((hset _).trans (levelBreak_readingsStay _ _ _ _))
    (readingsStay_ite ((hset _).trans (levelBreak_readingsStay _ _ _ _)) (hset _))

theorem capEvent_readingsStay (s : State) (a kind limitW floorW : Nat) : s.readingsStay (s.capEvent a kind limitW floorW) :=
  (readingsStay_of_reeve rfl : s.readingsStay (s.bump (reeveBase + 0x68))).trans
    ((raise_readingsStay _ _ _ _ _).trans (updExec_readingsStay _ a _))

theorem deferRun_readingsStay (s : State) (a kind limitW floorW : Nat) : s.readingsStay (s.deferRun a kind limitW floorW) :=
  readingsStay_ite (updExec_readingsStay s a _) ((updExec_readingsStay s a _).trans (capEvent_readingsStay _ _ _ _ _))

theorem deferral_readingsStay (s : State) (l : List Share) (x : Share) : s.readingsStay (s.deferral l x) :=
  readingsStay_ite (readingsStay_ite (.refl s) (deferRun_readingsStay s _ _ _ _))
    (readingsStay_ite (deferRun_readingsStay s _ _ _ _) ((updExec_readingsStay s _ _).trans (updAllot_readingsStay _ _ _)))

theorem deferCap_readingsStay (s : State) (x : Share) : s.readingsStay (s.deferCap x) :=
  readingsStay_ite ((updExec_readingsStay s _ _).trans (updAllot_readingsStay _ _ _))
    (readingsStay_ite (.refl s) (readingsStay_ite (updExec_readingsStay s _ _)
      ((updExec_readingsStay s _ _).trans ((capEvent_readingsStay _ _ _ _ _).trans (drawn_readingsStay _)))))

theorem rampLimit_readingsStay (s : State) (l : List Share) (x : Share) : s.readingsStay (s.rampLimit l x) :=
  readingsStay_ite ((raise_readingsStay s _ _ _ _).trans (updExec_readingsStay _ x.a _)) (.refl s)

theorem updParish_readingsStay (s : State) (p : Nat) (f : Parish → Parish) : s.readingsStay (s.updParish p f) :=
  setParish_readingsStay s p _

theorem giveGrant_readingsStay (s : State) (l : List Share) (x : Share) : s.readingsStay (s.giveGrant l x) :=
  readingsStay_foldl _ (fun u (p : Fin 78) => updParish_readingsStay u p _) _ s

theorem setBallast_readingsStay (s : State) : s.readingsStay s.setBallast := by
  have hset (u : State) (b : Bool) : u.readingsStay (u.setReeve { u.reeve with parked := b }) := ⟨_, _, _, _, _, _, rfl⟩
  unfold State.setBallast
  extract_lets r gap l q filled
  have hf : s.readingsStay filled :=
    readingsStay_foldl _ (fun u (e : Nat × Nat) => readingsStay_ite (.refl u) (updParish_readingsStay u e.1 _)) l s
  exact hf.trans (hset filled _)

theorem spread_readingsStay (s : State) (up : Bool) (q : StretchReq) : s.readingsStay (s.spread up q) := by
  have hset (b : Bell) : s.readingsStay (s.setBell b) := readingsStay_of_reeve rfl
  have hsend (l : List Nat) (u : State) :
      u.readingsStay (l.foldl (fun s p => s.enqueue p (chanOf 0 false 0) (stretchPkt q)) u) :=
    readingsStay_foldl _ (fun u p => (enqueue_atPort u p _ _).tolinkOnly.readingsStay) l u
  exact readingsStay_ite (.refl s) ((hset _).trans (hsend _ _))

theorem stretchFor_readingsStay (s : State) (a i : Nat) : s.readingsStay (s.stretchFor a i) := by
  have hcount (u : State) (b : Bell) (o : Nat) : u.readingsStay ((u.setBell b).bump o) := readingsStay_of_reeve rfl
  have hbump (u : State) (o : Nat) : u.readingsStay (u.bump o) := readingsStay_of_reeve rfl
  have hlate (u : State) (c : Nat) (p : List (Nat × Nat)) : u.readingsStay ((u.bump (bellBase + 0x30)).raiseA c a p) :=
    (hbump u _).trans (raise_readingsStay _ _ _ _ _)
  unfold State.stretchFor
  dsimp only
  split
  · refine readingsStay_ite (.refl s) ?_
    generalize hv : State.updExec s a _ = v
    have hsv : s.readingsStay v := hv ▸ updExec_readingsStay s a _
    refine hsv.trans ?_
    exact readingsStay_ite (readingsStay_ite ((hcount _ _ _).trans (spread_readingsStay _ true _)) (hcount _ _ _)) (hlate _ _ _)
  · exact .refl s

theorem requestStretch_readingsStay (s : State) (a : Nat) : s.readingsStay (s.requestStretch a) :=
  readingsStay_foldl _ (fun u i => stretchFor_readingsStay u a i) _ s

theorem askLoan_readingsStay (s : State) (l : List Share) (x : Share) : s.readingsStay (s.askLoan l x) := by
  have hset (u : State) (n : Nat) (q : List (BitVec 24 × Word × Nat)) :
      u.readingsStay (u.setReeve { u.reeve with loanIds := n, asked := q }) := ⟨_, _, _, _, _, _, rfl⟩
  unfold State.askLoan
  dsimp only
  split
  · refine readingsStay_ite (State.readingsStay.trans (readingsStay_ite (drawn_readingsStay s) (.refl s)) (readingsStay_ite (.refl _) ?_)) (.refl s)
    exact readingsStay_foldl _ (fun u p => (hset u _ _).trans (forward_routed _ _ _).tolinkOnly.readingsStay) _ _
  · exact .refl s

theorem steer_readingsStay (s : State) : s.readingsStay s.steer := by
  have hset (u : State) (b c : Bool) : u.readingsStay (u.setReeve { u.reeve with rampHeld := b, loanCut := c }) := ⟨_, _, _, _, _, _, rfl⟩
  unfold State.steer
  extract_lets l moved deferred limited r full held named granted ballasted stretched
  have h1 : s.readingsStay moved := (fieldFall_readingsStay s).trans (moveEnvelope_readingsStay _ l)
  have h2 : moved.readingsStay deferred :=
    readingsStay_foldl _ (fun u x => (deferral_readingsStay u l x).trans (deferCap_readingsStay _ x)) l moved
  have h3 : deferred.readingsStay limited := readingsStay_foldl _ (fun u x => rampLimit_readingsStay u l x) l deferred
  have h4 : limited.readingsStay named := hset limited _ _
  have h5 : named.readingsStay granted := readingsStay_foldl _ (fun u x => giveGrant_readingsStay u l x) l named
  have h6 : granted.readingsStay ballasted := setBallast_readingsStay granted
  have h7 : ballasted.readingsStay stretched := readingsStay_foldl _ (fun u x => requestStretch_readingsStay u x.a) l ballasted
  have h8 := readingsStay_foldl _ (fun u x => askLoan_readingsStay u l x) l stretched
  exact (h1.trans (h2.trans h3)).trans ((h4.trans h5).trans ((h6.trans h7).trans h8))

/-! ### A telemetry set (R373) -/

/-- The reeve's own readings from a telemetry set. -/
def Reeve.reads (r : Reeve) (o : Telemetry) : Reeve :=
  { r with
    inputW := o.inputW, inputMv := o.inputMv, inputDeciA := o.inputDeciA, overheadW := o.overheadW
    demandW := o.demandW, parishW := o.parishW, meanW := o.meanW, plates := o.plates
    engines := o.engines, regulators := o.regulators
    activity := o.parishes.foldl (fun t e => t.put e.parish e.activity) r.activity }

/-- The temperatures and the parishes of a telemetry set enter their registers, with the strikes of their sentinels. -/
def State.readUnits (s : State) (o : Telemetry) : State :=
  let s := o.stackTemps.foldl (fun s t => s.setMc t.1 ((s.mc t.1).heat t.2.toNat)) s
  let tel := o.parishes.filter fun t => (s.parish t.parish).railOn
  let s := tel.foldl State.readParish s
  tel.foldl State.sentinel s

theorem reeveTelemetry_eq (hup : s.up = true) (o : Telemetry) : exec (.reeveTelemetry o) s =
    .next ((if ((s.setReeve (s.reeve.reads o)).readUnits o).reeve.failing then (s.setReeve (s.reeve.reads o)).readUnits o
      else ((s.setReeve (s.reeve.reads o)).readUnits o).steer).meter o) :=
  next_congr (if_neg (by rw [hup]; decide))

theorem readUnits_reeve (s : State) (o : Telemetry) : (s.readUnits o).reeve = s.reeve := by
  have hfold {α : Type} (f : State → α → State) (hf : ∀ (s : State) (a : α), (f s a).reeve = s.reeve) (l : List α) :
      ∀ s : State, (l.foldl f s).reeve = s.reeve := by
    induction l with
    | nil => exact fun _ => rfl
    | cons a l ih => exact fun s => (ih _).trans (hf s a)
  have hsentinel (u : State) (x : ParishTel) : (u.sentinel x).reeve = u.reeve := by
    unfold State.sentinel
    split
    · exact (raise_reeve _ _ _ _ _).trans (strikeParish_strikes u x.parish).reeve
    · rfl
  have hset (v : State) (o : Nat) (w : DWord) : (v.setReg o w).reeve = v.reeve := rfl
  have hparish (u : State) (x : ParishTel) : (u.readParish x).reeve = u.reeve := by
    unfold State.readParish
    dsimp only
    rw [hset, hset, hset, hset]
  unfold State.readUnits
  dsimp only
  rw [hfold State.sentinel hsentinel, hfold State.readParish hparish]
  exact hfold (fun (s : State) (t : Fin 64 × Half) => s.setMc t.1 ((s.mc t.1).heat t.2.toNat)) (fun _ _ => rfl) _ _

/-! ### The bounds of a grant (R379 to R381) -/

theorem share_le_ceiling {x : Share} (h : x.floor ≤ x.ceiling) (l : List Share) (q : Nat) : x.share l q ≤ x.ceiling := by
  unfold Share.share
  split
  · exact Nat.le_refl _
  split
  · exact h
  next hq h0 =>
    have hlt : q - floors l ≤ headroom l := by omega
    have hdiv : (x.ceiling - x.floor) * (q - floors l) / headroom l ≤ x.ceiling - x.floor := by
      rw [Nat.div_le_iff_le_mul_add_pred (Nat.pos_of_ne_zero h0)]
      have := Nat.mul_le_mul_left (x.ceiling - x.floor) hlt
      rw [Nat.mul_comm (headroom l)]
      omega
    omega

theorem floor_le_share {x : Share} (h : x.floor ≤ x.ceiling) (l : List Share) (q : Nat) : x.floor ≤ x.share l q := by
  unfold Share.share
  split
  · exact h
  split
  · exact Nat.le_refl _
  · exact Nat.le_add_right _ _

/-- Without an emergency, and with no limit whose deferral is over, a run keeps its floor (R380). -/
theorem floor_le_hardGrant {x : Share} {l : List Share} (h : x.floor ≤ x.ceiling)
    (hh : floors l ≤ s.reeve.field s.reeve.hard (floors l + headroom l)) (hd : s.deferPast x.a = false) : x.floor ≤ s.hardGrant l x := by
  unfold State.hardGrant
  dsimp only
  rw [if_neg (Nat.not_lt.mpr hh), if_neg (by rw [hd]; exact fun g => Bool.false_ne_true g.1)]
  exact floor_le_share h l _

end Sys2Proof.Machine

/-- Settles O45: what the reeve decides leaves its readings, and the rest is the model's equation for each command. -/
theorem reevePower : Obligations.ReevePower := by
  unfold Obligations.ReevePower
  intro s
  refine ⟨fun o hup => ⟨_, reeveTelemetry_eq hup o, ?_⟩, fun l x hx => ⟨?_, fun hh hd => ?_⟩, fun a e he => ?_, fun hj => next_congr (if_pos hj),
    fun hup hsb => ⟨_, next_congr (if_pos ⟨hup, hsb⟩), ?_⟩, fun path v t hg => next_congr (writeNow_passes hg _),
    fun path v t hg => next_congr (writeNow_passes hg _), ⟨_, rfl, rfl, rfl, rfl, rfl, rfl, rfl⟩⟩
  · have hread := readUnits_reeve (s.setReeve (s.reeve.reads o)) o
    generalize (s.setReeve (s.reeve.reads o)).readUnits o = v at hread ⊢
    have hw : v.readingsStay (if v.reeve.failing then v else v.steer) := readingsStay_ite (.refl v) (steer_readingsStay v)
    generalize (if v.reeve.failing then v else v.steer) = w at hw ⊢
    obtain ⟨_, _, _, _, _, _, hw⟩ := hw
    dsimp only [State.meter, State.setReeve]
    rw [hw, hread]
    exact ⟨rfl, rfl, rfl, rfl, rfl, rfl, rfl, rfl, rfl, rfl, rfl⟩
  · exact Nat.le_trans (Nat.min_le_right _ _) (share_le_ceiling hx l _)
  · exact Nat.le_min.mpr ⟨floor_le_hardGrant hx hh hd, floor_le_share hx l _⟩
  · refine next_congr ?_
    unfold State.deferEnds State.updAllot
    simp only [he, Option.map_some, Option.getD_some]
  · have hr := State.raise_raises (s.setReeve { s.reeve with
        steward := 3 - s.reeve.steward, standby := s.reeve.failing && !s.ras.retired.contains s.reeve.steward, failing := false })
      evReeveFailover none [(s.reeve.steward, 1), (3 - s.reeve.steward, 1), (s.tick, 8)] [] 1
    exact ⟨raise_reeve _ _ _ _ _, hr⟩
end

section
/-! Rails, trips and the loss of service (R22, R25, R386, R471 to R473). -/

open Sys2Proof Sys2Proof.Machine

namespace Sys2Proof.Machine
variable {s t u : State}

/-! ### A parish's rail (R386, R471) -/

theorem levelBreak_haltsOnly (s : State) (cause w us : Nat) : s.haltsOnly (s.levelBreak cause w us) :=
  (setReg_haltsOnly s _ _).trans (raise_haltsOnly _ _ _ _ _)

theorem powerStep_haltsOnly (s : State) (always : Bool) (w : Nat) : s.haltsOnly (s.powerStep always w) :=
  (haltsOnly_ite (levelBreak_haltsOnly s _ _ _) (.refl s)).trans (setReeve_haltsOnly _ _)

/-- What the loss of a parish's rail leaves. -/
structure State.parishLost (s t : State) (par : Nat) : Prop where
  railOn : (t.parish par).railOn = false
  dark : (t.parish par).dark = true
  reqs : ∀ e ∈ t.reqs, e.2.core.parish.val ≠ par
  thermtrip : t.pins.thermtripN = s.pins.thermtripN
  raised : s.raises t evRailFault

theorem parishRailLost_lost {par : Nat} (hon : (s.parish par).railOn = true) (cause : Nat) :
    s.parishLost (s.parishRailLost par cause) par := by
  have hend (v : State) (al : Option Nat) (payload : List (Nat × Nat)) (l : List Dest) (w : Nat) :
      v.haltsOnly ((((v.raise evRailFault al payload l).haltParish par).powerStep true w).degrade 0) ∧
        v.raises ((((v.raise evRailFault al payload l).haltParish par).powerStep true w).degrade 0) evRailFault := by
    have h1 := (haltParish_haltsOnly (v.raise evRailFault al payload l) par).trans
      ((powerStep_haltsOnly _ true w).trans (degrade_haltsOnly _ 0))
    exact ⟨(raise_haltsOnly v _ _ _ _).trans h1, raises_of_suffix_right (State.raise_raises v _ _ _ _ 1) h1.log⟩
  unfold State.parishRailLost
  extract_lets x a w lit set ras cut
  rw [if_neg (by rw [show x.railOn = true from hon]; decide)]
  have hpar : cut.parish par = { x with railOn := false, dark := true, tripped := true, droop := false, ballast := 0, droopTimes := [] } :=
    State.parish_setParish s par _
  have hreqs : ∀ e ∈ cut.reqs, e.2.core.parish.val ≠ par := fun e he => of_decide_eq_true (List.mem_filter.mp he).2
  have hpins : cut.pins = s.pins := rfl
  have hev : cut.events = s.events := rfl
  clear_value cut
  obtain ⟨h, hr⟩ := hend cut a [(par, 1), (cause, 1)] (Option.map Dest.allot a).toList w
  have hp : _ = cut.parish par := congrArg (fun m : Tab Parish => m.get {} par) h.parishes
  refine ⟨?_, ?_, ?_, h.thermtrip.trans (congrArg Pins.thermtripN hpins), raises_of_suffix_left (by rw [hev]) hr⟩
  · exact (congrArg Parish.railOn hp).trans (congrArg Parish.railOn hpar)
  · exact (congrArg Parish.dark hp).trans (congrArg Parish.dark hpar)
  · rw [h.reqs]
    exact hreqs

/-- A parish's rail that is up is lost as a rail (R386). -/
theorem railLost_lost {par : Nat} (hlt : par < 78) (hon : (s.parish par).railOn = true) (hup : s.boot.railsOff.contains par = false)
    (cause : Nat) : s.parishLost (s.railLost par cause) par := by
  unfold State.railLost
  rw [if_neg (by rw [State.railUp, hup]; decide), if_pos hlt]
  exact parishRailLost_lost hon cause

theorem failReg_rest (s : State) (rail : Nat) (b : Bool) : ∃ l, s.failReg rail b = { s with failedRegs := l } := by
  unfold State.failReg
  split
  · exact ⟨_, rfl⟩
  · exact ⟨_, rfl⟩

theorem failRegs_rest (s : State) (rail : Nat) : ∃ l, s.failRegs rail = { s with failedRegs := l } := by
  unfold State.failRegs
  split
  · obtain ⟨l, h⟩ := failReg_rest s rail false
    obtain ⟨m, g⟩ := failReg_rest (s.failReg rail false) rail true
    exact ⟨m, by rw [g, h]⟩
  · exact failReg_rest s rail false

/-- Regulators that fail change nothing that the loss of their rail is told by. -/
theorem parishLost_of_regs {l : List (Nat × Bool)} {par : Nat} (h : State.parishLost { s with failedRegs := l } t par) : s.parishLost t par :=
  ⟨h.railOn, h.dark, h.reqs, h.thermtrip, h.raised⟩

/-! ### A hub sector (R472) -/

/-- The hub sectors in service stay; the events are added to the log. -/
structure State.sectorsStay (s t : State) : Prop where
  sectors : t.boot.sectors = s.boot.sectors
  log : s.events <:+ t.events

theorem State.sectorsStay.refl (s : State) : s.sectorsStay s := ⟨rfl, List.suffix_rfl⟩

theorem State.sectorsStay.trans (h : s.sectorsStay t) (g : t.sectorsStay u) : s.sectorsStay u :=
  ⟨g.sectors.trans h.sectors, h.log.trans g.log⟩

theorem sectorsStay_foldl {α : Type} (f : State → α → State) (hf : ∀ (s : State) (a : α), s.sectorsStay (f s a)) (l : List α) :
    ∀ s : State, s.sectorsStay (l.foldl f s) := by
  induction l with
  | nil => exact .refl
  | cons a t ih => exact fun s => (hf s a).trans (ih _)

theorem sectorsStay_ite {c : Prop} [Decidable c] (ht : s.sectorsStay t) (hu : s.sectorsStay u) : s.sectorsStay (if c then t else u) := by
  split
  · exact ht
  · exact hu

theorem State.haltsOnly.sectorsStay (h : s.haltsOnly t) : s.sectorsStay t := ⟨h.sectors, h.log⟩

theorem State.linkOnly.sectorsStay (h : s.linkOnly t) : s.sectorsStay t := by
  have hlog := h.log
  obtain ⟨_, _, _, _, _, _, _, _, _, _, _, _, _, _, _, _, _, rfl⟩ := h.rest
  exact ⟨rfl, hlog⟩

theorem raise_sectorsStay (s : State) (code : Nat) (al : Option Nat) (payload : List (Nat × Nat)) (l : List Dest) :
    s.sectorsStay (s.raise code al payload l) := (raise_haltsOnly s code al payload l).sectorsStay

theorem offline_sectorsStay (s : State) (m cause : Nat) : s.sectorsStay (s.offline m cause) := by
  have hset (x : Stack) : s.sectorsStay (s.setMc m x) := ⟨rfl, List.suffix_rfl⟩
  exact sectorsStay_ite (.refl s) ((hset _).trans ((raise_sectorsStay _ _ _ _ _).trans (degrade_haltsOnly _ 2).sectorsStay))

theorem loseGuest_sectorsStay (s : State) (site cause : Nat) : s.sectorsStay (s.loseGuest site cause) := by
  have hset (u : State) (g : Guest) : u.sectorsStay (u.setGuest site g) := ⟨rfl, List.suffix_rfl⟩
  have hoff (u : State) (l : List Nat) : u.sectorsStay { u with boot := { u.boot with railsOff := l } } := ⟨rfl, List.suffix_rfl⟩
  unfold State.loseGuest
  refine sectorsStay_ite (.refl s) ?_
  refine (hset s _).trans (State.sectorsStay.trans (sectorsStay_ite ?_ (.refl _))
    ((raise_sectorsStay _ _ _ _ _).trans (degrade_haltsOnly _ 5).sectorsStay))
  exact (hoff _ _).trans (raise_sectorsStay _ _ _ _ _)

theorem qpDown_sectorsStay (s : State) (qp : Nat) : s.sectorsStay (s.qpDown qp) := by
  obtain ⟨_, h⟩ := qpDown_eq s qp
  rw [h]
  exact ⟨rfl, List.suffix_rfl⟩

theorem linkDown_sectorsStay (s : State) (h : Nat) : s.sectorsStay (s.linkDown h) := by
  have hset (x : HostPort) : s.sectorsStay (s.setHp h x) := ⟨rfl, List.suffix_rfl⟩
  exact sectorsStay_ite (.refl s) ((hset _).trans ((sectorsStay_foldl _ (fun t (e : Nat × Qp) => qpDown_sectorsStay t e.1) _ _).trans
    (raise_sectorsStay _ _ _ _ _)))

theorem haltAllot_haltsOnly (s : State) (a : Nat) : s.haltsOnly (s.haltAllot a) :=
  haltsOnly_ite (failHalt_haltsOnly s a _) (updAllot_haltsOnly s a _)

theorem losePlane_sectorsStay (s : State) (par : Nat) (plane : BitVec 1) : s.sectorsStay (s.losePlane par plane) := by
  have hset (u : State) (x : Parish) : u.sectorsStay (u.setParish par x) := ⟨rfl, List.suffix_rfl⟩
  unfold State.losePlane
  dsimp only
  generalize (if plane = 0 then _ else _ : Parish) = x
  refine (hset s x).trans (sectorsStay_ite (.refl _) ?_)
  exact (hset _ _).trans ((raise_sectorsStay _ _ _ _ _).trans
    ((haltParish_haltsOnly _ par).sectorsStay.trans (degrade_haltsOnly _ 0).sectorsStay))

theorem loseRisers_sectorsStay (s : State) (lost : Nat → Bool) : s.sectorsStay (s.loseRisers lost) := by
  have hp (u : State) (p : Nat) (b : BitVec 1) (c : Bool) : u.sectorsStay (if c = true then u.losePlane p b else u) :=
    sectorsStay_ite (losePlane_sectorsStay u p b) (.refl u)
  exact sectorsStay_foldl _ (fun u p => (hp u p 0 _).trans (hp _ p 1 _)) _ s

theorem loseTimeLane_sectorsStay (s : State) (h : Nat) : s.sectorsStay (s.loseTimeLane h) :=
  (timeLane_aside s).tolinkOnly.sectorsStay.trans
    (sectorsStay_ite (edgeGap_still _ (.inr rfl)).aside.tolinkOnly.sectorsStay (.refl _))

/-- A sector that is lost is out of service, and is reported (R472). -/
theorem loseSector_lost {h : Nat} (hup : s.sectorUp h = true) (cause : Nat) :
    (s.loseSector h cause).sectorUp h = false ∧ s.raises (s.loseSector h cause) evHubSectorLost := by
  unfold State.loseSector
  extract_lets st pt al boot cut raised offs downs gone hosts halted risers
  rw [if_neg (by rw [hup]; decide)]
  have hsector : cut.sectorUp h = false := by
    show bit (setBit s.boot.sectors h false) h = false
    rw [bit_setBit, if_pos rfl, Bool.and_false]
  have hev : cut.events = s.events := rfl
  have hr : cut.raises raised evHubSectorLost := State.raise_raises cut _ _ _ _ 1
  have h1 : cut.sectorsStay raised := raise_sectorsStay cut _ _ _ _
  have h2 : raised.sectorsStay offs := sectorsStay_foldl _ (fun u m => offline_sectorsStay u m 2) st raised
  have h3 : offs.sectorsStay downs := sectorsStay_foldl _ (fun u p =>
    sectorsStay_ite (portDown_keeps u p 1).1.sectorsStay (setPort_linkOnly u p _).sectorsStay) pt offs
  have h4 : downs.sectorsStay gone :=
    sectorsStay_foldl _ (fun u g => sectorsStay_ite (loseGuest_sectorsStay u g 1) (.refl u)) (List.range 4) downs
  have h5 : gone.sectorsStay hosts :=
    sectorsStay_foldl _ (fun u g => sectorsStay_ite (linkDown_sectorsStay u g) (.refl u)) (List.range 4) gone
  have h6 : hosts.sectorsStay halted := sectorsStay_foldl _ (fun u a => (haltAllot_haltsOnly u a).sectorsStay) al hosts
  have h7 : halted.sectorsStay risers := loseRisers_sectorsStay halted _
  clear_value cut raised offs downs gone hosts halted risers
  have h8 : risers.sectorsStay (((risers.loseTimeLane h).degrade 3).degrade 9) :=
    (loseTimeLane_sectorsStay risers h).trans ((degrade_haltsOnly _ 3).sectorsStay.trans (degrade_haltsOnly _ 9).sectorsStay)
  have hrest := (h2.trans (h3.trans h4)).trans ((h5.trans (h6.trans h7)).trans h8)
  refine ⟨?_, raises_of_suffix_left (by rw [hev]) (raises_of_suffix_right hr hrest.log)⟩
  rw [State.sectorUp, (h1.trans hrest).sectors]
  exact hsector

theorem cutStore_uvlos (s : State) : s.cutStore.uvlos = s.store.uvlos := by
  unfold State.cutStore
  dsimp only
  split
  · unfold Store.setImage
    split
    · rfl
    · rfl
  · rfl

/-! ### The commands -/

/-- A trip of a parish's rail takes the parish out, with its regulators where they failed (R386). -/
theorem railFault_lost {rail : Fin 112} {par : Nat} (hrail : rail.val = par) (hlt : par < 78) (hon : (s.parish par).railOn = true)
    (hup : s.boot.railsOff.contains par = false) (o : RailObs) :
    s.parishLost ((if o = .regulator then s.failRegs rail else s).railLost rail (railCause o)) par := by
  rw [hrail]
  split
  · obtain ⟨l, hl⟩ := failRegs_rest s par
    generalize hv : s.failRegs par = v at hl
    have hvon : (v.parish par).railOn = true := by rw [hl]; exact hon
    have hvup : v.boot.railsOff.contains par = false := by rw [hl]; exact hup
    have h := railLost_lost hlt hvon hvup (railCause o)
    rw [hl] at h ⊢
    exact parishLost_of_regs h
  · exact railLost_lost hlt hon hup _

/-- A field sensor at its bound takes the parish out, with THERMTRIP_N low (R32, R386). -/
theorem fieldTrip_lost {par : Nat} (hon : (s.parish par).railOn = true) (a : Option Nat) (payload : List (Nat × Nat)) (l : List Dest)
    (pins : Pins) (hp : pins.thermtripN = false) :
    (((({ s with pins := pins } : State).raise evThermalTrip a payload l).parishRailLost par rcThermal).pins.thermtripN = false) ∧
      (((({ s with pins := pins } : State).raise evThermalTrip a payload l).parishRailLost par rcThermal).parish par).dark = true ∧
      s.raises ((({ s with pins := pins } : State).raise evThermalTrip a payload l).parishRailLost par rcThermal) evThermalTrip := by
  generalize hv : ({ s with pins := pins } : State) = v
  have hvon : (v.parish par).railOn = true := by rw [← hv]; exact hon
  have hvp : v.pins.thermtripN = false := by rw [← hv]; exact hp
  have hev : v.events = s.events := by rw [← hv]
  have hr := State.raise_raises v evThermalTrip a payload l 1
  have hw := raise_haltsOnly v evThermalTrip a payload l
  have hwon : ((v.raise evThermalTrip a payload l).parish par).railOn = true := by
    rw [raise_parish]
    exact hvon
  generalize v.raise evThermalTrip a payload l = w at hr hw hwon
  have h := parishRailLost_lost hwon rcThermal
  refine ⟨h.thermtrip.trans (hw.thermtrip.trans hvp), h.dark, raises_of_suffix_left (by rw [hev]) (raises_of_suffix_right hr ?_)⟩
  obtain ⟨l, hl, -⟩ := h.raised
  exact ⟨l, hl.symm⟩

/-- The first regulator of a field rail that fails is carried by the other (R22). -/
theorem failReg_first {rail : Nat} (h : s.failedRegs = []) (hlt : rail < 78) :
    s.failReg rail false = { s with failedRegs := [(rail, false)] } ∧ (s.failReg rail false).regsDown rail = false := by
  have hf (b : Bool) : s.regFailed rail b = false := by
    unfold State.regFailed
    rw [h]
    rfl
  have heq : s.failReg rail false = { s with failedRegs := [(rail, false)] } := by
    unfold State.failReg
    rw [if_neg (by rw [hf]; exact Bool.false_ne_true), h]
  refine ⟨heq, ?_⟩
  rw [heq]
  unfold State.regsDown twoRegulators
  rw [if_pos (decide_eq_true (.inl (Nat.lt_succ_of_lt hlt)))]
  exact Bool.and_eq_false_iff.mpr (.inr (by simp [State.regFailed]))

/-- The second regulator of a field rail that fails takes the rail (R22). -/
theorem failReg_second {rail : Nat} (h : (rail, false) ∈ s.failedRegs) (hlt : rail < 78) : (s.failReg rail true).regsDown rail = true := by
  unfold State.regsDown twoRegulators
  rw [if_pos (decide_eq_true (.inl (Nat.lt_succ_of_lt hlt)))]
  have hfirst : (s.failReg rail true).regFailed rail false = true := by
    unfold State.failReg
    split
    · exact List.contains_iff_mem.mpr h
    · exact List.contains_iff_mem.mpr (List.mem_cons_of_mem _ h)
  have hsecond : (s.failReg rail true).regFailed rail true = true := by
    unfold State.failReg
    split
    next hc => exact hc
    · exact List.contains_iff_mem.mpr List.mem_cons_self
  rw [hfirst, hsecond]
  rfl

theorem regulatorLoss_lost {rail : Fin 112} {par : Nat} (hrail : rail.val = par) (hlt : par < 78) (hon : (s.parish par).railOn = true)
    (hup : s.boot.railsOff.contains par = false) :
    s.parishLost ((s.failReg rail true).railLost rail rcRegulator) par := by
  rw [hrail]
  obtain ⟨l, hl⟩ := failReg_rest s par true
  generalize s.failReg par true = v at hl
  have hvon : (v.parish par).railOn = true := by rw [hl]; exact hon
  have hvup : v.boot.railsOff.contains par = false := by rw [hl]; exact hup
  have h := railLost_lost hlt hvon hvup rcRegulator
  rw [hl] at h ⊢
  exact parishLost_of_regs h

/-- A hub sector other than HS00 that is lost leaves service, whether its rail or its regulator is lost (R472). -/
theorem hubSector_lost {h : Nat} (hup : s.sectorUp h = true) (c : Prop) [Decidable c] (rail cause w : Nat) :
    let t := ((if c then s.failRegs rail else s).loseSector h cause).powerStep false w
    t.sectorUp h = false ∧ s.raises t evHubSectorLost := by
  have hlost (v : State) (hv : v.sectorUp h = true) (hev : v.events = s.events) :
      ((v.loseSector h cause).powerStep false w).sectorUp h = false ∧ s.raises ((v.loseSector h cause).powerStep false w) evHubSectorLost := by
    obtain ⟨h1, h2⟩ := loseSector_lost hv cause
    have hp := (powerStep_haltsOnly (v.loseSector h cause) false w).sectorsStay
    refine ⟨?_, raises_of_suffix_left (by rw [hev]) (raises_of_suffix_right h2 hp.log)⟩
    rw [State.sectorUp, hp.sectors]
    exact h1
  dsimp only
  split
  · obtain ⟨l, hl⟩ := failRegs_rest s rail
    exact hlost _ (by rw [hl]; exact hup) (by rw [hl])
  · exact hlost s hup rfl

theorem serviceEnds_off (s : State) : s.serviceEnds.pins.pwrGood = false ∧ s.serviceEnds.boot.stopped = true ∧ s.serviceEnds.up = false :=
  ⟨rfl, rfl, rfl⟩

end Sys2Proof.Machine

/-- Settles O48: what trips a parish's rail takes the parish out, a sector lost leaves service, and what ends service is the state
with every rail off. -/
theorem railsAndLoss : Obligations.RailsAndLoss := by
  unfold Obligations.RailsAndLoss
  intro s hgood
  have hpower {c : Prop} (hc : ¬c) : ¬((!s.pins.pwrGood) = true ∨ c) := by
    rintro (h | h)
    · rw [hgood] at h
      exact absurd h (by decide)
    · exact hc h
  have hdown : ¬(!s.pins.pwrGood) = true := by
    rw [hgood]
    decide
  refine ⟨fun par rail hrail hon hoff => ⟨fun o htrips => ?trip, fun deciA hin => next_congr (if_pos (.inr ?current)),
      fun mv hin => next_congr (if_pos (.inr ?voltage)), fun deciC => ⟨fun hhot => ?hot, fun hcool => next_congr (if_pos (.inr hcool))⟩,
      fun hregs => ?first, fun hfirst => ?second⟩,
    fun h cause => ⟨fun h0 hup => ?sector, fun h0 => ⟨_, next_congr ((if_neg hdown).trans (if_pos h0)), serviceEnds_off _⟩⟩,
    fun hup => ⟨fun hheld => ?none, fun p k hheld hk => ?one⟩, fun hen => ⟨_, next_congr (if_pos hen), rfl, rfl, rfl, rfl, rfl, ?store⟩⟩
  case trip =>
    rw [hrail] at hoff
    have h := railFault_lost hrail par.isLt hon hoff o
    exact ⟨_, next_congr (if_neg (hpower (by rw [htrips]; decide))), h.railOn, h.dark, h.raised, fun e he hp => h.reqs e he (congrArg Fin.val hp)⟩
  case current =>
    rw [State.trips, decide_eq_false (Nat.not_lt.mpr hin)]
    rfl
  case voltage =>
    rw [State.trips, decide_eq_false (Nat.not_lt.mpr hin)]
    rfl
  case hot =>
    refine ⟨_, next_congr ((if_neg (hpower (Nat.not_lt.mpr hhot))).trans ((if_neg Bool.false_ne_true).trans (if_neg (by rw [hon]; decide)))), ?_⟩
    exact fieldTrip_lost hon _ _ _ _ rfl
  case first =>
    obtain ⟨heq, hnd⟩ := failReg_first (rail := rail) hregs (by rw [hrail]; exact par.isLt)
    refine next_congr ((if_neg hdown).trans ((if_neg ?_).trans heq))
    rw [hnd]
    exact Bool.false_ne_true
  case second =>
    rw [hrail] at hoff
    have h := regulatorLoss_lost hrail par.isLt hon hoff
    exact ⟨_, next_congr ((if_neg hdown).trans (if_pos (failReg_second hfirst (by rw [hrail]; exact par.isLt)))), h.dark, h.raised⟩
  case sector =>
    have hup' : (if cause = 1 then s.failRegs (hubRail h) else s).sectorUp h = true := by
      split
      · obtain ⟨l, hl⟩ := failRegs_rest s (hubRail h)
        rw [hl]
        exact hup
      · exact hup
    exact ⟨_, next_congr ((if_neg hdown).trans ((if_neg h0).trans (if_pos hup'))), hubSector_lost hup (cause = 1) _ _ _⟩
  case none =>
    refine next_congr ((if_pos hup).trans ?_)
    rw [hheld]
    rfl
  case one =>
    refine next_congr ((if_pos hup).trans ?_)
    rw [hheld]
    exact if_neg hk
  case store =>
    change ({ s.cutStore with uvlos := s.cutStore.uvlos + 1 } : Store) = _
    rw [cutStore_uvlos]
    rfl
end

section
/-! Queue pairs, host ports, the time of day (R320 to R331, R370) and the board controller's read of events (R32). -/

open Sys2Proof Sys2Proof.Machine

namespace Sys2Proof.Machine
variable {s t u : State}

/-! ### Frames that reach their meaning (R320) -/

/-- A frame that its QP takes, unmarked, comes to its meaning. -/
theorem qpFrame_takes {qp : Nat} {q : Qp} {f : Frame} (hq : s.qps.find? qp = some q) (hup : s.hpUp q.port = true) (ht : q.takes f)
    (n : Nat) (k : Qp → State → State) : s.qpFrame qp f n k = k q (s.rxFrame q.port n) := by
  obtain ⟨hfcs, hlen, hv, hce⟩ := ht
  simp [State.qpFrame, hq, State.frameIn_takes hup hfcs hlen, hv, hce]

/-- A frame that its QP takes, marked CE, is answered with a CNP where none was sent (R323). -/
theorem qpFrame_marked {qp : Nat} {q : Qp} {f : Frame} (hq : s.qps.find? qp = some q) (hup : s.hpUp q.port = true)
    (hfcs : f.fcsBad = false) (hlen : f.bytes ≤ 9216) (hv : f.vlan = q.vlan) (hce : f.ce = true) (n : Nat) (k : Qp → State → State) :
    s.qpFrame qp f n k = k q ((s.rxFrame q.port n).ceMark qp q) := by
  simp [State.qpFrame, hq, State.frameIn_takes hup hfcs hlen, hv, hce]

/-- A first CE mark of a QP sends its CNP and notes the tick. -/
theorem ceMark_first {qp : Nat} {q : Qp} (hn : q.cnpTick = none) :
    (s.ceMark qp q).out = .cnp qp :: s.out ∧ (s.ceMark qp q).qps = s.qps.put qp { q with cnpTick := some s.tick } := by
  unfold State.ceMark
  dsimp only
  rw [hn]
  exact ⟨rfl, rfl⟩

/-! ### Links (R321) -/

/-- Queue pairs that go down take themselves out, and of the sessions only how they are attached. -/
theorem qpDowns_eq (l : List (Nat × Qp)) : ∀ s : State, ∃ ses,
    l.foldl (fun t e => t.qpDown e.1) s = { s with qps := l.foldl (fun m e => m.del e.1) s.qps, ses := ses } := by
  induction l with
  | nil => exact fun s => ⟨s.ses, rfl⟩
  | cons a l ih =>
    intro s
    obtain ⟨ses, h⟩ := qpDown_eq s a.1
    rw [List.foldl_cons, h, List.foldl_cons]
    exact ih _

theorem find?_del_of_none {α : Type} {m : Tab α} {k : Nat} (h : m.find? k = none) (j : Nat) : (m.del j).find? k = none := by
  by_cases hk : k = j
  · rw [hk, Tab.find?_del_self]
  · rw [Tab.find?_del_ne m hk, h]

theorem find?_dels {α β : Type} {k : Nat} (l : List (Nat × β)) : ∀ {m : Tab α}, (m.find? k = none ∨ ∃ e ∈ l, e.1 = k) →
    (l.foldl (fun m e => m.del e.1) m).find? k = none := by
  induction l with
  | nil =>
    rintro m (h | ⟨_, h, _⟩)
    · exact h
    · exact absurd h List.not_mem_nil
  | cons a l ih =>
    rintro m (h | ⟨e, he, hk⟩)
    · exact ih (.inl (find?_del_of_none h a.1))
    · rcases List.mem_cons.mp he with rfl | he
      · exact ih (.inl (hk ▸ Tab.find?_del_self m e.1))
      · exact ih (.inr ⟨e, he, hk⟩)

/-- A link that drops leaves its port down, takes the port's queue pairs out and is reported. -/
theorem linkDown_drops {h : Nat} (hup : (s.hp h).up = true) : ((s.linkDown h).hp h).up = false ∧
    ((s.linkDown h).hp h).en = (s.hp h).en ∧ s.raises (s.linkDown h) evHostPortDown ∧
    ∀ e ∈ s.qps, e.2.port = h → (s.linkDown h).qps.find? e.1 = none := by
  unfold State.linkDown
  rw [if_neg (by rw [hup]; decide)]
  dsimp only
  generalize hl : List.filter (fun e : Nat × Qp => decide (e.2.port = h)) s.qps = l
  obtain ⟨ses, hd⟩ := qpDowns_eq l (s.setHp h { s.hp h with up := false, paused := none })
  rw [hd]
  generalize hv : ({ s.setHp h { s.hp h with up := false, paused := none } with
    qps := l.foldl (fun m e => m.del e.1) (s.setHp h { s.hp h with up := false, paused := none }).qps, ses := ses } : State) = v
  have hhp : v.hp h = { s.hp h with up := false, paused := none } := by
    rw [← hv]
    exact Tab.get_put_self _ _ _ _
  have hqps : v.qps = l.foldl (fun m e => m.del e.1) s.qps := by
    rw [← hv]
    rfl
  have hev : v.events = s.events := by
    rw [← hv]
    rfl
  have hr := State.raise_raises v evHostPortDown none [(h, 1), (l.length, 4)] [.sessions] 1
  obtain ⟨e, _, _, _, _, _, hcode, heq⟩ := v.raise_eq evHostPortDown none [(h, 1), (l.length, 4)] [.sessions] 1
  rw [heq] at hr ⊢
  refine ⟨(congrArg HostPort.up hhp).trans rfl, (congrArg HostPort.en hhp).trans rfl, raises_of_suffix_left (by rw [hev]) hr, fun e he hp => ?_⟩
  show v.qps.find? e.1 = none
  rw [hqps]
  exact find?_dels l (.inr ⟨e, hl ▸ List.mem_filter.mpr ⟨he, decide_eq_true hp⟩, rfl⟩)

/-- A port whose EN is cleared has no link. -/
theorem linkDown_off (s : State) (h : Nat) : ((s.linkDown h).hp h).up = false ∧ ((s.linkDown h).hp h).en = (s.hp h).en := by
  by_cases hup : (s.hp h).up = true
  · obtain ⟨h1, h2, -⟩ := linkDown_drops hup
    exact ⟨h1, h2⟩
  · have hf : (s.hp h).up = false := by simpa using hup
    rw [State.linkDown, if_pos (by rw [hf]; rfl)]
    exact ⟨hf, rfl⟩

theorem hp_setHp (s : State) (h : Nat) (x : HostPort) : (s.setHp h x).hp h = x := Tab.get_put_self _ _ _ _

/-- The session of a queue pair that goes down is detached (R331). -/
theorem qpDown_detaches {qp id : Nat} {q : Qp} {x : Session} (hq : s.qps.find? qp = some q) (hid : q.ses = some id)
    (hx : s.ses.find? id = some x) :
    (s.qpDown qp).qps.find? qp = none ∧ (s.qpDown qp).ses.find? id = some { x with st := .detached, qp := 0 } := by
  unfold State.qpDown
  rw [hq]
  dsimp only
  rw [hid]
  dsimp only
  unfold State.detach State.updSes
  dsimp only
  rw [Tab.find?_mapVals, hx]
  refine ⟨Tab.find?_del_self _ _, ?_⟩
  dsimp only [Option.map]
  rw [State.setSes, Tab.find?_put_self]
  split
  · rfl
  · rfl

end Sys2Proof.Machine

/-- Settles O44: each frame that its port or QP takes reaches the model's answer; a link that drops takes its QPs with it. -/
theorem hostPorts : Obligations.HostPorts := by
  unfold Obligations.HostPorts
  intro port s
  refine ⟨fun qp q hq => ⟨fun id x hid hx => ⟨_, rfl, ?detach⟩, fun hup f => ⟨fun hrate ht => ?cnp, fun msg hses hopen hcnp hok hfcs hlen hv hce => ?marked⟩⟩,
    fun hup => ?down, fun hup hthere hen => next_congr (if_pos ⟨hup, hthere, hen⟩), fun path v t hg => ?ctl, fun hup f hfcs hlen => ?frames,
    fun hv => ?lost, fun hup => next_congr (if_pos hup), fun path hr => next_congr (if_pos hr), fun e l hl => ?board⟩
  case detach => exact qpDown_detaches hq hid hx
  case cnp =>
    refine ⟨_, next_congr (qpFrame_takes hq hup ht 1 _), ?_⟩
    dsimp only
    rw [if_neg (Nat.pos_iff_ne_zero.mp hrate)]
    have hget : s.qps.get q qp = q := by
      rw [Tab.get, hq]
      rfl
    exact ⟨s.draw.toNat % q.rate, Nat.mod_lt _ hrate, (Tab.find?_put_self _ _ _).trans
      (congrArg (fun y : Qp => some { y with rate := s.draw.toNat % q.rate }) hget)⟩
  case marked =>
    obtain ⟨hout, hqps⟩ := ceMark_first (s := s.rxFrame q.port 1) (qp := qp) hcnp
    refine ⟨_, next_congr (qpFrame_marked hq hup hfcs hlen hv hce 1 _), ?_⟩
    dsimp only
    have hq' : ((s.rxFrame q.port 1).ceMark qp q).qps.find? qp = some { q with cnpTick := some s.tick } := by
      rw [hqps]
      exact Tab.find?_put_self _ _ _
    rw [State.sendOn_open hq' hses hopen hok]
    exact ⟨hout, Tab.find?_put_self _ _ _⟩
  case down =>
    obtain ⟨h1, -, h3, h4⟩ := linkDown_drops hup
    exact ⟨_, rfl, h1, h3, h4⟩
  case ctl =>
    refine ⟨_, next_congr (writeNow_passes hg _), ?_⟩
    dsimp only
    have hset := hp_setHp t port { t.hp port with en := bit v 0 }
    split
    next hb => exact ⟨congrArg HostPort.en hset, fun h => absurd (h.symm.trans hb) Bool.false_ne_true⟩
    · obtain ⟨h1, h2⟩ := linkDown_off (t.setHp port { t.hp port with en := bit v 0 }) port
      exact ⟨h2.trans (congrArg HostPort.en hset), fun _ => h1⟩
  case frames =>
    have htakes (k : State → State) : s.frameIn port.val f 1 k = k (s.rxFrame port.val 1) := State.frameIn_takes hup hfcs hlen 1 k
    refine ⟨fun qp mtu ip => ⟨fun hip => ?_, fun hip => ⟨fun hmtu hqp hroom hfree => ?_, fun hbad => ?_⟩⟩, fun target hip => ?_,
      fun target => ⟨fun hip => ?_, fun l hlen' hip => ?_, fun hip => ?_⟩, fun prio => ?_, fun dom sec ns off hsrc => ?_⟩
    · exact next_congr ((htakes _).trans (if_pos (by rw [show (s.rxFrame port).hasIp port ip.dst f.vlan = false from hip]; rfl)))
    · refine ⟨_, next_congr ((htakes _).trans ((if_neg ?_).trans (if_pos ⟨hmtu, hroom, hqp, congrArg Option.isNone hfree⟩))), rfl,
        Tab.find?_put_self _ _ _⟩
      rw [show (s.rxFrame port).hasIp port ip.dst f.vlan = true from hip]
      decide
    · refine ⟨_, next_congr ((htakes _).trans ((if_neg ?_).trans (if_neg ?_))), rfl, rfl⟩
      · rw [show (s.rxFrame port).hasIp port ip.dst f.vlan = true from hip]
        decide
      · rintro ⟨hm, hr, -⟩
        rcases hbad with h | h
        · exact h hm
        · exact absurd hr (Nat.not_lt.mpr h)
    · exact ⟨_, next_congr ((htakes _).trans (if_pos hip)), rfl⟩
    · exact ⟨_, next_congr ((htakes _).trans (if_pos hip)), rfl⟩
    · exact ⟨_, next_congr ((htakes _).trans (if_pos ⟨hlen', hip⟩)), rfl⟩
    · exact next_congr ((htakes _).trans (if_neg (by rw [show (s.rxFrame port).hasIp port target f.vlan = false from hip]; exact Bool.false_ne_true)))
    · refine ⟨_, next_congr (htakes _), ?_⟩
      dsimp only
      split
      next hp =>
        rw [hp_setHp, if_pos (show s.boot.cfg.pfcPrio = some prio.toNat from hp)]
      next hp =>
        rw [if_neg (show ¬ s.boot.cfg.pfcPrio = some prio.toNat from hp)]
        rfl
    · refine ⟨_, next_congr (htakes _), ?_⟩
      dsimp only
      by_cases hd : dom = s.boot.cfg.ptpDomain
      · rw [if_neg (not_not_intro hd)]
        exact (congrArg State.tod (if_pos ⟨hsrc, hd⟩)).trans rfl
      · rw [if_pos hd]
        exact (congrArg State.tod (if_neg fun h => hd h.2)).trans rfl
  case lost =>
    have hr := State.raise_raises { s with tod := { s.tod with valid := false, holdover := true } } evHostTodLost none
      [(s.tod.port, 1), (s.tod.offset.toNat, 4)] [.sessions] 1
    refine ⟨_, next_congr (if_pos hv), ?_, hr⟩
    obtain ⟨_, _, _, _, _, _, _, heq⟩ := State.raise_eq { s with tod := { s.tod with valid := false, holdover := true } } evHostTodLost none
      [(s.tod.port, 1), (s.tod.offset.toNat, 4)] [.sessions] 1
    exact (congrArg State.tod heq).trans rfl
  case board =>
    refine next_congr ?_
    rw [hl]
end

section
/-! Host reads and writes of device memory and registers, and the consumer counts of rings (R320, R323 to R325, R329, R330, R462). -/

open Sys2Proof Sys2Proof.Machine

namespace Sys2Proof.Machine
variable {s t u : State}

/-! ### Writes of one sector (R199, R325) -/

/-- A range within one 64-byte sector is one piece. -/
theorem sectorsOf_one {d n : Nat} (h0 : 0 < n) (h : d % 64 + n ≤ 64) : sectorsOf d n = [(d, 0, n)] := by
  have hfuel : ∃ k, n / 64 + 2 = k + 2 := ⟨_, rfl⟩
  obtain ⟨k, hk⟩ := hfuel
  have hmin : min n (64 - d % 64) = n := by omega
  rw [sectorsOf, hk, sectors, if_neg (by omega), Nat.add_zero]
  dsimp only
  rw [hmin, Nat.sub_self, sectors, if_pos rfl]

/-- A host write within one sector stores its bytes and no others. -/
theorem hostWrite_memByte {al : Option Nat} {d : Nat} {l : List Byte} (hl : l ≠ []) (hd : d % 64 + l.length ≤ 64)
    (hup : s.rangeUp d l.length = true) :
    (∀ i, i < l.length → (s.hostWrite al d l).memByte (s.memKey d + i) = (l[i]?).getD 0) ∧
      ∀ k, k < s.memKey d ∨ s.memKey d + l.length ≤ k → (s.hostWrite al d l).memByte k = s.memByte k := by
  have hone := sectorsOf_one (List.length_pos_of_ne_nil hl) hd
  have hst : s.stackUp (s.memKey d / 2 ^ 36) = true := by
    rw [State.rangeUp, hone, List.all_cons, Bool.and_eq_true] at hup
    exact hup.1
  rw [State.hostWrite, State.writeRange, hone, List.foldl_cons, List.foldl_nil]
  dsimp only
  rw [if_pos hst, List.drop_zero, List.take_length]
  obtain ⟨hin, hout⟩ := storeMem_memByte (s.access (s.memKey d)) 5 0xFFFFFFFF al (s.memKey d) l
    ((List.range (rowsOf (s.memKey d) l.length).length).map fun _ => false)
  rw [(State.bump_sameImage _ _ _).memByte]
  exact ⟨hin, fun k hk => (hout k hk).trans (congrFun (s.access_sameImage _).memByte k)⟩

/-! ### Reads (R198, R462) -/

/-- Bytes and markers of device memory are the same in both states, what waits to be found in error too, and what was sent stays
sent. -/
structure State.readsOnly (s t : State) : Prop where
  image : s.sameImage t
  poison : t.memPoison = s.memPoison
  errors : t.memUe = s.memUe ∧ t.memCe = s.memCe
  sent : s.out <:+ t.out

theorem State.readsOnly.refl (s : State) : s.readsOnly s := ⟨.refl s, rfl, ⟨rfl, rfl⟩, List.suffix_rfl⟩

theorem State.readsOnly.trans (h : s.readsOnly t) (g : t.readsOnly u) : s.readsOnly u :=
  ⟨h.image.trans g.image, g.poison.trans h.poison, ⟨g.errors.1.trans h.errors.1, g.errors.2.trans h.errors.2⟩,
    h.sent.trans g.sent⟩

theorem setReg_readsOnly (s : State) (o : Nat) (v : DWord) : s.readsOnly (s.setReg o v) :=
  ⟨⟨⟨rfl, rfl, rfl⟩, rfl⟩, rfl, ⟨rfl, rfl⟩, List.suffix_rfl⟩

theorem bump_readsOnly (s : State) (o n : Nat) : s.readsOnly (s.bump o n) := setReg_readsOnly s _ _

theorem send_readsOnly (s : State) (o : Out) : s.readsOnly (s.send o) :=
  ⟨⟨⟨rfl, rfl, rfl⟩, rfl⟩, rfl, ⟨rfl, rfl⟩, List.suffix_cons o _⟩

theorem setMc_readsOnly (s : State) (m : Nat) (x : Stack) : s.readsOnly (s.setMc m x) :=
  ⟨⟨⟨rfl, rfl, rfl⟩, rfl⟩, rfl, ⟨rfl, rfl⟩, List.suffix_rfl⟩

theorem drawn_readsOnly (s : State) : s.readsOnly s.drawn := ⟨⟨⟨rfl, rfl, rfl⟩, rfl⟩, rfl, ⟨rfl, rfl⟩, List.suffix_rfl⟩

theorem updAllot_readsOnly (s : State) (a : Nat) (f : Allot → Allot) : s.readsOnly (s.updAllot a f) :=
  ⟨⟨⟨rfl, rfl, rfl⟩, rfl⟩, rfl, ⟨rfl, rfl⟩, List.suffix_rfl⟩

theorem updExec_readsOnly (s : State) (a : Nat) (f : Exec → Exec) : s.readsOnly (s.updExec a f) :=
  ⟨⟨⟨rfl, rfl, rfl⟩, rfl⟩, rfl, ⟨rfl, rfl⟩, List.suffix_rfl⟩

theorem note_readsOnly (s : State) (a kind key : Nat) (r : Option RunId) : s.readsOnly (s.note a kind key r) :=
  updExec_readsOnly s a _

theorem raise_readsOnly (s : State) (code : Nat) (al : Option Nat) (payload : List (Nat × Nat)) (l : List Dest) (count : Nat) :
    s.readsOnly (s.raise code al payload l count) := by
  have hsent := (raise_reportsLow s code al payload l count).1
  obtain ⟨_, _, _, _, _, _, _, h⟩ := s.raise_eq code al payload l count
  rw [h] at hsent ⊢
  exact ⟨⟨⟨rfl, rfl, rfl⟩, rfl⟩, rfl, ⟨rfl, rfl⟩, hsent⟩

theorem access_readsOnly (s : State) (k : Nat) : s.readsOnly (s.access k) := by
  have hact : s.readsOnly (s.activate k) := by
    unfold State.activate
    dsimp only
    split
    · exact (((bump_readsOnly s _ _).trans (setMc_readsOnly _ _ _)).trans (drawn_readsOnly _)).trans (bump_readsOnly _ _ _)
    · exact (bump_readsOnly s _ _).trans (setMc_readsOnly _ _ _)
  exact (hact.trans (bump_readsOnly _ _ _)).trans (drawn_readsOnly _)

/-- With no error waiting, a read finds none. -/
theorem touchMem_of_clean (hue : s.memUe = []) (hce : s.memCe = []) (source core : Nat) (al : Option Nat) (k n : Nat) :
    s.touchMem source core al k n = s := by
  unfold State.touchMem
  induction wordsOf (k / 16 * 16) ((k % 16 + n + 15) / 16 * 16) with
  | nil => rfl
  | cons w l ih =>
    have hw : s.touchWord source core al w = s := by simp [State.touchWord, hue, hce]
    rw [List.foldl_cons, hw, ih]

theorem readRange_readsOnly (hue : s.memUe = []) (hce : s.memCe = []) (source core : Nat) (al : Option Nat) (d n : Nat) :
    s.readsOnly (s.readRange source core al d n) := by
  unfold State.readRange
  refine List.foldlRecOn (motive := s.readsOnly) _ _ (.refl s) fun t ht p _ => ht.trans ?_
  dsimp only
  split
  · have ha := access_readsOnly t (t.memKey p.1)
    rw [touchMem_of_clean (ha.errors.1.trans (ht.errors.1.trans hue)) (ha.errors.2.trans (ht.errors.2.trans hce))]
    exact ha.trans (bump_readsOnly _ _ _)
  · exact .refl t

theorem chargeRun_readsOnly (s : State) (a : Nat) (r : Option RunId) : s.readsOnly (s.chargeRun a r) := by
  cases r with
  | none => exact .refl s
  | some r => exact updExec_readsOnly s a _

theorem haltNext_readsOnly (s : State) (a : Nat) (why : HaltWhy) : s.readsOnly (s.haltNext a why) := by
  unfold State.haltNext
  split
  · exact updAllot_readsOnly _ _ _
  · exact .refl _

theorem failRun_readsOnly (s : State) (a : Nat) (r : Option RunId) : s.readsOnly (s.failRun a r) := by
  exact (chargeRun_readsOnly s a r).trans (haltNext_readsOnly _ a _)

theorem hostPoison_readsOnly (s : State) (id : Nat) (a : Option Nat) (l : List Nat) : s.readsOnly (s.hostPoison id a l) := by
  unfold State.hostPoison
  cases l with
  | nil => exact .refl s
  | cons d l =>
    cases a with
    | none => exact raise_readsOnly s _ _ _ _ _
    | some a =>
      dsimp only
      split
      · unfold State.observe
        dsimp only
        rw [if_pos rfl]
        refine State.readsOnly.trans ?_ (failRun_readsOnly _ a _)
        refine State.readsOnly.trans (bump_readsOnly s (0x60100 + 8 * a) 1) ?_
        split
        · exact .refl _
        · exact (raise_readsOnly _ _ _ _ _ _).trans (note_readsOnly _ _ _ _ _)
      · exact (bump_readsOnly s _ _).trans (raise_readsOnly _ _ _ _ _ _)

theorem State.readsOnly.cleanBytes (h : s.readsOnly t) (d n : Nat) : t.cleanBytes d n = s.cleanBytes d n := by
  have hw : t.wordPoison = s.wordPoison := by
    funext w
    rw [State.wordPoison, State.wordPoison, h.poison, h.image.1.2.1]
  simp only [State.cleanBytes, hw, h.image.memKey, h.image.memByte]

/-! ### The consumer counts of rings (R329, R330) -/

/-- Whether a session is ending, and the consumer count of each of its rings. -/
def State.consumers (s : State) (id : Nat) : Option (Bool × (Nat → Nat)) :=
  (s.ses.find? id).map fun y => (y.ending, fun j => (y.ring j).cons)

theorem setSes_consumers {id k : Nat} {x y : Session} (hx : s.ses.find? k = some x) (he : y.ending = x.ending)
    (hc : ∀ j, (y.ring j).cons = (x.ring j).cons) (ht : t.ses = s.ses.put k y) : t.consumers id = s.consumers id := by
  rw [State.consumers, State.consumers, ht]
  by_cases hk : id = k
  · rw [hk, Tab.find?_put_self, hx, Option.map_some, Option.map_some, he, funext hc]
  · rw [Tab.find?_put_ne _ _ hk]

theorem consumers_congr (h : t.ses = s.ses) (id : Nat) : t.consumers id = s.consumers id := by
  rw [State.consumers, State.consumers, h]

/-- A session with an event ring put anew, with its consumer count as it was. -/
def Session.withRing (x : Session) (j : Nat) (r : Ring) (n : Nat) : Session :=
  { x with erings := x.erings.put j r, evWritten := n }

/-- A ring put anew with its consumer count kept leaves every count. -/
theorem withRing_consumers {id k j n : Nat} {x : Session} {r : Ring} (hx : s.ses.find? k = some x) (hr : r.cons = (x.ering j).cons)
    (ht : t.ses = s.ses.put k (x.withRing j r n)) : t.consumers id = s.consumers id := by
  refine setSes_consumers (y := x.withRing j r n) hx rfl (fun i => ?_) ht
  unfold Session.ring
  split
  · rfl
  · by_cases hi : i = j
    · rw [Session.ering, Session.withRing, hi, Tab.find?_put_self, Option.getD_some, hr]
    · rw [Session.ering, Session.withRing, Tab.find?_put_ne _ _ hi]
      rfl

theorem hold_cons (r : Ring) (e : Event) : (r.hold e).cons = r.cons := by
  unfold Ring.hold
  split_ifs <;> rfl

theorem writeEvent_ses (s : State) (id j : Nat) (x : Session) (r : Ring) (e : Event) : (s.writeEvent id j x r e).ses = s.ses := by
  rw [State.writeEvent, State.writeSlot_ses, State.send_ses]

theorem postEvent_consumers (s : State) (id k j : Nat) (e : Event) : (s.postEvent k j e).consumers id = s.consumers id := by
  unfold State.postEvent
  split
  · rfl
  next x hx =>
    dsimp only
    split
    · rw [consumers_congr (writeEvent_ses _ _ _ _ _ _)]
      exact withRing_consumers (r := { x.ering j with prod := (x.ering j).prod + 1 }) (n := x.evWritten + 1) hx rfl rfl
    · exact withRing_consumers (n := x.evWritten) hx (hold_cons (x.ering j) e) rfl

theorem raise_consumers (s : State) (code : Nat) (al : Option Nat) (payload : List (Nat × Nat)) (l : List Dest) (count : Nat)
    (id : Nat) : (s.raise code al payload l count).consumers id = s.consumers id := by
  unfold State.raise State.raiseEvent
  dsimp only
  refine List.foldlRecOn (motive := fun t : State => t.consumers id = s.consumers id) l _ ?_ fun t ht d _ => ?_
  · split <;> rfl
  · exact State.deliver_induction (fun t k j h => (postEvent_consumers t id k j _).trans h) ht d

theorem writeRecord_consumers (s : State) (id k : Nat) (e : LEntry) (status : Byte) (reack journalled : Bool) :
    (s.writeRecord k e status reack journalled).consumers id = s.consumers id := by
  unfold State.writeRecord
  split
  · rfl
  next x hx =>
    dsimp only
    rw [consumers_congr (State.writeSlot_ses _ _ _ _), consumers_congr (State.send_ses _ _)]
    refine setSes_consumers hx ?_ (fun j => ?_) rfl
    · rfl
    · unfold Session.ring
      split <;> rfl

theorem flushHeld_consumers (id : Nat) : ∀ (fuel : Nat) (s : State), (s.flushHeld id fuel).consumers id = s.consumers id
  | 0, _ => rfl
  | fuel + 1, s => by
    unfold State.flushHeld
    split
    · rfl
    next x hx =>
      split
      · rfl
      next e l _ =>
        split
        · rw [flushHeld_consumers id fuel, writeRecord_consumers]
          exact setSes_consumers (y := { x with heldRecs := l }) hx rfl (fun _ => rfl) rfl
        · rfl

theorem flushRing_consumers (id j : Nat) : ∀ (fuel : Nat) (s : State), (s.flushRing id j fuel).consumers id = s.consumers id
  | 0, _ => rfl
  | fuel + 1, s => by
    unfold State.flushRing
    split
    · rfl
    next x hx =>
      dsimp only
      split
      · rfl
      next l _ =>
        split
        · rw [flushRing_consumers id j fuel]
          rw [consumers_congr (writeEvent_ses _ _ _ _ _ _)]
          exact withRing_consumers (r := { x.ering j with prod := (x.ering j).prod + 1, waiting := l }) (n := x.evWritten + 1) hx rfl rfl
        · rfl

theorem ringRoom_consumers (s : State) (id j : Nat) : (s.ringRoom id j).consumers id = s.consumers id := by
  have hf := flushRing_consumers id j 257 s
  unfold State.ringRoom
  dsimp only
  generalize s.flushRing id j 257 = t at hf
  rw [← hf]
  split
  · rfl
  next x hx =>
    split
    · rw [raise_consumers]
      exact withRing_consumers (r := { x.ering j with lost := 0, polling := false }) (n := x.evWritten) hx rfl rfl
    · rfl

theorem endIfDone_consumers {id : Nat} {c : Nat → Nat} (h : s.consumers id = some (false, c)) : (s.endIfDone id).consumers id =
    some (false, c) := by
  unfold State.endIfDone
  split
  · exact h
  next x hx =>
    have he : x.ending = false := by
      rw [State.consumers, hx, Option.map_some, Option.some.injEq, Prod.mk.injEq] at h
      exact h.1
    rw [if_neg fun hc => Bool.false_ne_true (he.symm.trans hc.1)]
    exact h

theorem ring_setRing (x : Session) (j : Nat) (r : Ring) : (x.setRing j r).ring j = r := by
  unfold Session.ring Session.setRing
  by_cases hj : j = 17
  · rw [if_pos hj, if_pos hj]
  · rw [if_neg hj, if_neg hj, Session.ering, Tab.find?_put_self, Option.getD_some]

theorem setRing_ending (x : Session) (j : Nat) (r : Ring) : (x.setRing j r).ending = x.ending := by
  unfold Session.setRing
  split <;> rfl

/-! ### Accesses through a region (R324) -/

/-- A NAK ends its QP and stores nothing. -/
theorem nak_ends (s : State) (qp port : Nat) : (s.nak qp port).qps.find? qp = none ∧ (s.nak qp port).mem = s.mem := by
  rw [State.nak]
  generalize hv : ((s.bump (hpBase port + 0x60)).txFrame port).send (.rdmaNak qp) = v
  have hm : v.mem = s.mem := hv ▸ rfl
  obtain ⟨ses, h⟩ := qpDown_eq v qp
  rw [h]
  exact ⟨Tab.find?_del_self _ _, hm⟩

section
variable {qp : Nat} {q : Qp} {id : Nat} {x : Session} {rkey : Word} {f : Frame}
variable (hq : s.qps.find? qp = some q) (hup : s.hpUp q.port = true) (hid : q.ses = some id) (hx : s.ses.find? id = some x)
variable (hf : q.takes f)
include hq hid hx

theorem rxFrame_qpSession (n : Nat) : (s.rxFrame q.port n).qpSession qp = some (q.port, id, x) := by
  simp only [State.qpSession, State.rxFrame, State.bump_qps, State.bump_ses, hq, hid, hx, Option.bind_some, Option.map_some]

include hup hf

theorem rdmaWrite_devmem {a : Nat} (hr : s.regionOf id x rkey = some (.devmem a)) (va : Nat) (l : List Byte) :
    exec (.rdmaWrite ⟨qp, f⟩ rkey va l) s = .next
      (if va + l.length > (s.allot a).stripeCount * s.stripe ∨ !s.rangeUp ((s.allot a).stripeFirst * s.stripe + va) l.length
        then (s.rxFrame q.port (mtuFrames l.length)).nak qp q.port
        else (s.rxFrame q.port (mtuFrames l.length)).hostWrite (some a) ((s.allot a).stripeFirst * s.stripe + va) l) := by
  have hses := rxFrame_qpSession hq hid hx (mtuFrames l.length)
  have hreg : (s.rxFrame q.port (mtuFrames l.length)).regionOf id x rkey = some (.devmem a) := hr
  refine next_congr ((qpFrame_takes hq hup hf _ _).trans ?_)
  dsimp only
  rw [hses]
  dsimp only
  rw [hreg]
  rfl

theorem rdmaRead_devmem {a : Nat} (hr : s.regionOf id x rkey = some (.devmem a)) {va n : Nat}
    (hlen : va + n ≤ (s.allot a).stripeCount * s.stripe)
    (hru : s.rangeUp ((s.allot a).stripeFirst * s.stripe + va) n = true) :
    let d := (s.allot a).stripeFirst * s.stripe + va
    let t := (s.rxFrame q.port 1).hostTouch (some a) d n
    exec (.rdmaRead ⟨qp, f⟩ rkey va n) s = .next
      (((t.txFrame q.port (mtuFrames n)).send (.rdmaRead qp (t.cleanBytes d n))).hostPoison id (some a) (t.poisonedIn d n)) := by
  have hses := rxFrame_qpSession hq hid hx 1
  have hreg : (s.rxFrame q.port 1).regionOf id x rkey = some (.devmem a) := hr
  have hno : ¬(va + n > (s.allot a).stripeCount * s.stripe ∨
      (!s.rangeUp ((s.allot a).stripeFirst * s.stripe + va) n) = true) := by
    rw [hru]
    exact not_or.mpr ⟨Nat.not_lt.mpr hlen, Bool.false_ne_true⟩
  refine next_congr ((qpFrame_takes hq hup hf _ _).trans ?_)
  dsimp only
  rw [hses]
  dsimp only
  rw [hreg]
  exact if_neg hno

theorem rdmaWrite_regs (hr : s.regionOf id x rkey = some .regs) {va : Nat} (hva : va % 8 = 0) (hlt : va < 2 ^ 24) {l : List Byte}
    (hl : l.length = 8) : exec (.rdmaWrite ⟨qp, f⟩ rkey va l) s =
      exec (.registerWrite (.session (BitVec.ofNat 12 id)) (BitVec.ofNat 24 va) (BitVec.ofNat 64 (leNat l)))
        (s.rxFrame q.port) := by
  have hses := rxFrame_qpSession hq hid hx 1
  have hreg : (s.rxFrame q.port 1).regionOf id x rkey = some .regs := hr
  have hno : ¬(l.length ≠ 8 ∨ va % 8 ≠ 0 ∨ va ≥ 2 ^ 24) := by omega
  have hone : mtuFrames l.length = 1 := by rw [hl]; rfl
  have hoff : (BitVec.ofNat 24 va).toNat = va := by rw [BitVec.toNat_ofNat, Nat.mod_eq_of_lt hlt]
  refine next_congr ((qpFrame_takes hq hup hf _ _).trans ?_)
  dsimp only
  rw [hone, hses]
  dsimp only
  rw [hreg]
  dsimp only
  rw [if_neg hno, hoff]

end

/-! ### Polls and their answers (R329) -/

section
variable {qp : Nat} {q : Qp} {ses : BitVec 12} {x : Session} {ring : Fin 18} {f : Frame}
variable (hx : s.ses.find? ses.toNat = some x)
include hx

theorem ringPoll_sent (ha : x.attached = true) (hroom : (x.ring ring).room = false) (hn : x.reads < 16)
    (ht : ∀ t, (x.ring ring).polledAt = some t → 10000 ≤ s.ticksNs (s.tick - t)) :
    leads (exec (.ringConsumerPoll ses ring) s) fun t =>
      t.out = .ringRead ses.toNat ring (x.ring ring).rkey ((x.ring ring).addr + 8) :: s.out := by
  have hmay : s.mayPoll x (x.ring ring) = true := by
    rw [State.mayPoll, ha, hroom, decide_eq_true hn]
    cases hp : (x.ring ring).polledAt with
    | none => rfl
    | some t => simpa using ht t hp
  have he : exec (.ringConsumerPoll ses ring) s = .next (((s.setSes ses.toNat
      (x.setRing ring { x.ring ring with polling := true, polledAt := some s.tick })).txOn x.qp 1).send
        (.ringRead ses.toNat ring (x.ring ring).rkey ((x.ring ring).addr + 8))) := by
    refine next_congr ?_
    rw [hx]
    exact if_pos hmay
  exact ⟨_, he, rfl⟩

theorem ringPoll_early {t : Nat} (ht : (x.ring ring).polledAt = some t) (h : s.ticksNs (s.tick - t) < 10000) :
    exec (.ringConsumerPoll ses ring) s = .next s := by
  have hmay : s.mayPoll x (x.ring ring) = false := by
    have hge : ¬ s.ticksNs (s.tick - t) ≥ 10000 := Nat.not_le.mpr h
    rw [State.mayPoll, ht]
    dsimp only
    rw [decide_eq_false hge, Bool.and_false]
  refine next_congr ?_
  rw [hx]
  exact if_neg (Bool.eq_false_iff.mp hmay)

variable (hq : s.qps.find? x.qp = some q) (hup : s.hpUp q.port = true) (hpoll : (x.ring ring).polling = true) (hf : q.takes f)
include hq hup hpoll hf

/-- A count that is taken. -/
theorem ringRead_taken (hend : x.ending = false) {c : DWord} (hlo : (x.ring ring).cons ≤ c.toNat) (hhi : c.toNat ≤ (x.ring ring).prod) :
    leads (exec (.rdmaReadResponse ⟨ses, f⟩ ring c) s) fun t =>
      (t.ses.find? ses.toNat).map (fun y => (y.ring ring).cons) = some c.toNat := by
  have hno : ¬(c.toNat < (x.ring ring).cons ∨ c.toNat > (x.ring ring).prod) := by omega
  let y := x.setRing ring { x.ring ring with cons := c.toNat, polling := false }
  let u := (s.rxFrame q.port 1).setSes ses.toNat y
  have he : exec (.rdmaReadResponse ⟨ses, f⟩ ring c) s =
      .next (if ring = 17 then (u.flushHeld ses.toNat 65536).endIfDone ses.toNat else u.ringRoom ses.toNat ring) := by
    refine next_congr ?_
    rw [hx]
    dsimp only
    rw [hpoll, Bool.not_true, if_neg Bool.false_ne_true]
    refine (qpFrame_takes hq hup hf _ _).trans ?_
    exact if_neg hno
  have hu : u.consumers ses.toNat = some (false, fun j => (y.ring j).cons) := by
    rw [State.consumers, State.find?_setSes_self, Option.map_some, setRing_ending, hend]
  refine ⟨_, he, ?_⟩
  clear_value u
  have hfin : State.consumers (if ring = 17 then (u.flushHeld ses.toNat 65536).endIfDone ses.toNat
      else u.ringRoom ses.toNat ring) ses.toNat = some (false, fun j => (y.ring j).cons) := by
    split
    · exact endIfDone_consumers ((flushHeld_consumers _ _ _).trans hu)
    · exact (ringRoom_consumers _ _ _).trans hu
  generalize (if ring = 17 then (u.flushHeld ses.toNat 65536).endIfDone ses.toNat else u.ringRoom ses.toNat ring) = t at hfin
  obtain ⟨z, hz, heq⟩ := Option.map_eq_some_iff.mp hfin
  have hcons : (z.ring ring).cons = (y.ring ring).cons := congrFun (Prod.mk.inj heq).2 ring
  rw [hz, Option.map_some, hcons, ring_setRing]

/-- A count that decreases or exceeds PRODUCER is ignored. -/
theorem ringRead_ignored {c : DWord} (hbad : c.toNat < (x.ring ring).cons ∨ (x.ring ring).prod < c.toNat) :
    leads (exec (.rdmaReadResponse ⟨ses, f⟩ ring c) s) fun t =>
      (t.ses.find? ses.toNat).map (fun y => (y.ring ring).cons) = some (x.ring ring).cons ∧ t.out = s.out := by
  have he : exec (.rdmaReadResponse ⟨ses, f⟩ ring c) s = .next (((s.rxFrame q.port 1).setSes ses.toNat
      (x.setRing ring { x.ring ring with polling := false })).bump (hostBase + 0x4040)) := by
    refine next_congr ?_
    rw [hx]
    dsimp only
    rw [hpoll, Bool.not_true, if_neg Bool.false_ne_true]
    refine (qpFrame_takes hq hup hf _ _).trans ?_
    exact if_pos hbad
  refine ⟨_, he, ?_, rfl⟩
  rw [State.bump_ses, State.find?_setSes_self, Option.map_some, ring_setRing]

end

end Sys2Proof.Machine

/-- Settles O43: each access through the frame's checks and its region; a consumer count by the ring it is kept in. -/
theorem hostMemory : Obligations.HostMemory := by
  unfold Obligations.HostMemory
  intro qp q id x rkey va s hq hup hid hx
  refine ⟨fun l n f hf => ?_, fun a f hr hf => ?_, fun hr hva hlt l f hl hf => rdmaWrite_regs hq hup hid hx hf hr hva hlt hl,
    fun ses ring hsid hxq => ?_⟩
  · simp [exec, execRdmaWrite, execRdmaRead, State.qpFrame, hq, State.frameIn, hup, hf]
  · refine ⟨fun l hne hva hst hlen hru => ?_, fun l hlen => ?_, fun n hlen hru hue hce => ?_⟩
    · refine ⟨_, rdmaWrite_devmem hq hup hid hx hf hr va l, ?_⟩
      have hno : ¬(va + l.length > (s.allot a).stripeCount * s.stripe ∨
          (!s.rangeUp ((s.allot a).stripeFirst * s.stripe + va) l.length) = true) := by
        rw [hru]
        exact not_or.mpr ⟨Nat.not_lt.mpr hlen, Bool.false_ne_true⟩
      have hd : ((s.allot a).stripeFirst * s.stripe + va) % 64 + l.length ≤ 64 := by
        rw [Nat.add_mod, Nat.mul_mod, hst, Nat.mul_zero, Nat.zero_mod, Nat.zero_add, Nat.mod_mod]
        exact hva
      dsimp only
      rw [if_neg hno]
      exact hostWrite_memByte (s := s.rxFrame q.port (mtuFrames l.length)) hne hd hru
    · refine ⟨_, rdmaWrite_devmem hq hup hid hx hf hr va l, ?_⟩
      dsimp only
      rw [if_pos (.inl hlen)]
      exact nak_ends (s.rxFrame q.port (mtuFrames l.length)) qp q.port
    · refine ⟨_, rdmaRead_devmem hq hup hid hx hf hr hlen hru, ?_⟩
      dsimp only
      have ht : s.readsOnly ((s.rxFrame q.port 1).hostTouch (some a) ((s.allot a).stripeFirst * s.stripe + va) n) :=
        (bump_readsOnly s _ _).trans (readRange_readsOnly (s := s.rxFrame q.port 1) hue hce _ _ _ _ _)
      generalize (s.rxFrame q.port 1).hostTouch (some a) ((s.allot a).stripeFirst * s.stripe + va) n = t at ht
      rw [ht.cleanBytes]
      generalize hv : (t.txFrame q.port (mtuFrames n)).send _ = v
      have hsv : s.readsOnly v := hv ▸ (ht.trans (bump_readsOnly t _ _)).trans (send_readsOnly _ _)
      have hout := (hostPoison_readsOnly v id (some a) (t.poisonedIn ((s.allot a).stripeFirst * s.stripe + va) n))
      refine ⟨(hsv.trans hout).image.1.1, hout.sent.subset ?_⟩
      rw [← hv]
      exact List.mem_cons_self
  · subst hsid hxq
    exact ⟨ringPoll_sent hx, fun t ht h => ringPoll_early hx ht h, fun hp he c f hf =>
      ⟨ringRead_taken hx hq hup hp hf he, ringRead_ignored hx hq hup hp hf⟩⟩
end

section
/-! Guest sites: training, attestation, fencing, loss, and their rules (R419, R423, R426 to R430). -/

open Sys2Proof Sys2Proof.Machine

namespace Sys2Proof.Machine
variable {s t u : State}

/-! ### What leaves the sites as they are -/

theorem State.linkOnly.guests (h : s.linkOnly t) : t.guests = s.guests := by
  obtain ⟨_, _, _, _, _, _, _, _, _, _, _, _, _, _, _, _, _, rfl⟩ := h.rest
  rfl

theorem State.linkOnly.guest (h : s.linkOnly t) (i : Nat) : t.guest i = s.guest i := by
  rw [State.guest, State.guest, h.guests]

theorem guest_setGuest (s : State) (i : Nat) (g : Guest) : (s.setGuest i g).guest i = g := Tab.get_put_self _ _ _ _

/-- A report and the degradation that follows it leave the sites, and the report stands. -/
theorem reportGuest (s : State) (code n : Nat) (payload : List (Nat × Nat)) (l : List Dest) :
    ((s.raise code none payload l).degrade n).guests = s.guests ∧ s.raises ((s.raise code none payload l).degrade n) code :=
  ⟨((raise_aside s code none payload l 1).trans (degrade_aside _ n)).tolinkOnly.guests,
    raises_of_suffix_right (s.raise_raises code none payload l 1) (degrade_aside _ n).tolinkOnly.log⟩

/-! ### Fences, loss and questions -/

theorem fence_fenced (s : State) (i c : Nat) : ((s.fence i c).guest i).st = .fenced ∧
    ((s.fence i c).guest i).cause = BitVec.ofNat 4 c ∧ s.raises (s.fence i c) evGuestFenced := by
  unfold State.fence
  dsimp only
  generalize hv : s.setGuest i { s.guest i with st := .fenced, cause := BitVec.ofNat 4 c, step := 0, draining := true } = v
  have hg : v.guest i = { s.guest i with st := .fenced, cause := BitVec.ofNat 4 c, step := 0, draining := true } :=
    hv ▸ guest_setGuest s i _
  have hev : v.events = s.events := hv ▸ rfl
  obtain ⟨hguests, hraise⟩ := reportGuest v evGuestFenced 5 [(i, 1), (c, 1)] ((s.guest i).named.map Dest.allot)
  rw [State.guest, hguests, ← State.guest, hg]
  exact ⟨rfl, rfl, raises_of_suffix_left (hev ▸ List.suffix_rfl) hraise⟩

theorem loseGuest_lost {i : Nat} (c : Nat) (h : (s.guest i).st = .opened ∨ (s.guest i).st = .attesting ∨ (s.guest i).st = .fenced ∨
    (s.guest i).st = .training) : ((s.loseGuest i c).guest i).st = .lost ∧ s.raises (s.loseGuest i c) evGuestLost := by
  have hno : ¬((s.guest i).st = .lost ∨ (s.guest i).st = .absent ∨ (s.guest i).st = .off) := by
    rintro (hs | hs | hs) <;> simp [hs] at h
  unfold State.loseGuest
  dsimp only
  rw [if_neg hno]
  generalize hv : s.setGuest i { s.guest i with
    st := .lost, step := 0, draining := false, mods := 0, side := false, heldAt := none } = v
  have hg : (v.guest i).st = .lost := by
    rw [← hv, guest_setGuest]
  have hev : v.events = s.events := hv ▸ rfl
  generalize hw : (if c = 2 then
    ({ v with boot := { v.boot with railsOff := guestRail i :: v.boot.railsOff } } : State).raise evRailFault none
      [(guestRail i, 1), (0, 1)] ((s.guest i).named.map Dest.allot) else v) = w
  have hvw : w.guests = v.guests ∧ v.events <:+ w.events := by
    rw [← hw]
    split
    · have hr := raise_aside ({ v with boot := { v.boot with railsOff := guestRail i :: v.boot.railsOff } } : State) evRailFault none
        [(guestRail i, 1), (0, 1)] ((s.guest i).named.map Dest.allot) 1
      exact ⟨hr.tolinkOnly.guests, hr.tolinkOnly.log⟩
    · exact ⟨rfl, List.suffix_rfl⟩
  obtain ⟨hguests, hraise⟩ := reportGuest w evGuestLost 5 [(i, 1), (c, 1)] ((s.guest i).named.map Dest.allot)
  rw [State.guest, hguests, hvw.1, ← State.guest, hg]
  exact ⟨rfl, raises_of_suffix_left (hev ▸ hvw.2) hraise⟩

/-- The nonce that goes with a step's question: none before the challenge (R426). -/
def State.nonceFor (s : State) (step : Nat) : BitVec 256 := if step ≥ 5 then s.draw.setWidth 256 else 0

theorem askGuest_asks (s : State) (i step : Nat) : (s.askGuest i step).guest i = { s.guest i with step := step, nonce := s.nonceFor step } ∧
    (s.askGuest i step).out = .guestAsk i step (s.nonceFor step) :: s.out := ⟨guest_setGuest s i _, rfl⟩

/-- The first question is asked without a nonce. -/
theorem askGuest_first (s : State) (i : Nat) : (s.askGuest i 1).guest i = { s.guest i with step := 1, nonce := 0 } :=
  (askGuest_asks s i 1).1

/-- A site put anew, asked its first question. -/
theorem askGuest_setGuest (s : State) (i : Nat) (g : Guest) : ((s.setGuest i g).askGuest i 1).guest i = { g with step := 1, nonce := 0 } := by
  rw [askGuest_first, guest_setGuest]

/-! ### Answers (R426 to R428) -/

section
variable {i : Nat} {ans : GuestAnswer}
variable (hst : (s.guest i).st = .attesting ∨ (s.guest i).st = .opened) (hstep : (s.guest i).step = answerStep ans)
include hst hstep

theorem takeAnswer_awaited : ¬((s.guest i).step ≠ answerStep ans ∨ ((s.guest i).st ≠ .attesting ∧ (s.guest i).st ≠ .opened)) := by
  rintro (h | ⟨h, g⟩)
  · exact h hstep
  · exact hst.elim h g

/-- An answer that fails fences the site. -/
theorem takeAnswer_fails {c : Nat} (hf : attestFault s.boot.cfg i (s.guest i).nonce ans = some c) :
    ((s.takeAnswer i ans).guest i).st = .fenced ∧ ((s.takeAnswer i ans).guest i).cause = BitVec.ofNat 4 c ∧
      s.raises (s.takeAnswer i ans) evGuestFenced := by
  have he : s.takeAnswer i ans = (s.setGuest i ((s.guest i).signed ans)).fence i c := by
    unfold State.takeAnswer
    dsimp only
    rw [if_neg (takeAnswer_awaited hst hstep)]
    have hf' : attestFault (s.setGuest i ((s.guest i).signed ans)).boot.cfg i (s.guest i).nonce ans = some c := hf
    rw [hf']
  rw [he]
  exact fence_fenced _ i c

/-- An answer that passes, of a step before the last, leads to the next question. -/
theorem takeAnswer_passes (hf : attestFault s.boot.cfg i (s.guest i).nonce ans = none) (hlt : answerStep ans < 6) :
    ∃ n, (s.takeAnswer i ans).guest i = { s.guest i with step := (s.guest i).step + 1, nonce := n } ∧
      (s.takeAnswer i ans).out = .guestAsk i ((s.guest i).step + 1) n :: s.out := by
  have hsign : (s.guest i).signed ans = s.guest i := by
    cases ans with
    | measurements => exact absurd hlt (Nat.lt_irrefl 6)
    | _ => rfl
  have he : s.takeAnswer i ans = (s.setGuest i (s.guest i)).askGuest i ((s.guest i).step + 1) := by
    unfold State.takeAnswer
    dsimp only
    rw [if_neg (takeAnswer_awaited hst hstep), hsign]
    have hf' : attestFault (s.setGuest i (s.guest i)).boot.cfg i (s.guest i).nonce ans = none := hf
    rw [hf']
    cases ans with
    | measurements => exact absurd hlt (Nat.lt_irrefl 6)
    | _ => rfl
  obtain ⟨hg, hout⟩ := askGuest_asks (s.setGuest i (s.guest i)) i ((s.guest i).step + 1)
  rw [guest_setGuest] at hg
  rw [he]
  exact ⟨_, hg, hout⟩

end

/-- Measurements that match open the site, unless it was to be fenced on this tick (R427, R430). -/
theorem takeAnswer_measured {i : Nat} (hst : (s.guest i).st = .attesting ∨ (s.guest i).st = .opened) (hstep : (s.guest i).step = 6)
    {l : List (Byte × BitVec 256)} (hl : measureOk (expectedOf s.boot.cfg i) l = true) (d : BitVec 256) :
    s.takeAnswer i (.measurements (s.guest i).nonce true l d) =
      if (s.guest i).fenceAt = some s.tick then (s.setGuest i { s.guest i with digest := d }).fence i fManual
      else (s.setGuest i { s.guest i with digest := d }).setGuest i
        { s.guest i with digest := d, st := .opened, cause := 0, step := 0 } := by
  have hf : attestFault s.boot.cfg i (s.guest i).nonce (.measurements (s.guest i).nonce true l d) = none := by
    simp [attestFault, hl]
  have hsign : (s.guest i).signed (.measurements (s.guest i).nonce true l d) = { s.guest i with digest := d } := by
    simp [Guest.signed]
  unfold State.takeAnswer
  dsimp only
  rw [if_neg (takeAnswer_awaited (ans := .measurements (s.guest i).nonce true l d) hst hstep), hsign]
  have hf' : attestFault (s.setGuest i { s.guest i with digest := d }).boot.cfg i (s.guest i).nonce
      (.measurements (s.guest i).nonce true l d) = none := hf
  rw [hf']
  rfl

/-! ### Rules (R421, R423) -/

/-- The rule that RULE_W holds. -/
def State.ruleRegs (s : State) (i : Nat) : BitVec 256 :=
  BitVec.ofNat 256 (((List.range 4).map fun j => (s.reg (gsBase i + 0x38 + 8 * j)).toNat * 2 ^ (64 * j)).sum)

/-- The bits of a rule, one word after the other. -/
theorem ruleWords_reg (r : BitVec 256) (b : Nat) (s : State) {j : Nat} (hj : j < 4) :
    ((List.range 4).foldl (fun s k => s.setReg (b + 0x38 + 8 * k) (BitVec.ofNat 64 (bits r (64 * k) 64))) s).reg (b + 0x38 + 8 * j) =
      BitVec.ofNat 64 (bits r (64 * j) 64) := by
  have hr : List.range 4 = [0, 1, 2, 3] := rfl
  rw [hr]
  simp only [List.foldl_cons, List.foldl_nil]
  have hcase : j = 0 ∨ j = 1 ∨ j = 2 ∨ j = 3 := by omega
  rcases hcase with rfl | rfl | rfl | rfl <;> simp [reg_setReg_ne, State.reg_setReg_self]

end Sys2Proof.Machine

/-- Settles O52: each command by what it leaves of the site. -/
theorem guestSites : Obligations.GuestSites := by
  unfold Obligations.GuestSites
  intro site s i g
  refine ⟨fun hthere hup hst m hm => ?_, fun hst => ?_, fun hst => ⟨fun ans hstep => ⟨fun c hf => ?_, fun hf hlt => ?_⟩,
      fun l d hstep hl => ?_, fun hpos => ?_⟩, fun hst hstep hoff => ?_, fun c hst => ?_, fun path t hsite => ⟨fun hgate => ?_, fun hgate => ?_⟩⟩
  · have hno : ¬(!s.guestThere i ∨ !s.up ∨ (g.st ≠ .off ∧ g.st ≠ .training)) := by
      rw [hthere, hup]
      rintro (h | h | ⟨h, h'⟩)
      · exact Bool.false_ne_true h
      · exact Bool.false_ne_true h
      · exact hst.elim h h'
    exact ⟨_, next_congr ((if_neg hno).trans (if_neg hm)), askGuest_setGuest s i _⟩
  · exact ⟨_, next_congr (if_pos hst), loseGuest_lost 0 (.inr (.inr (.inr hst)))⟩
  · exact ⟨_, rfl, takeAnswer_fails hst hstep hf⟩
  · exact ⟨_, rfl, takeAnswer_passes hst hstep hf hlt⟩
  · refine ⟨_, next_congr (takeAnswer_measured hst hstep hl d), fun hn => ?_, fun hn => ?_⟩
    · dsimp only
      rw [if_neg hn]
      exact guest_setGuest _ i _
    · dsimp only
      rw [if_pos hn]
      obtain ⟨hf, hc, -⟩ := fence_fenced (s.setGuest i { g with digest := d }) i fManual
      exact ⟨hf, hc⟩
  · obtain ⟨hf, hc, -⟩ := fence_fenced s i fTimeout
    exact ⟨_, next_congr (if_pos ⟨hpos, hst⟩), hf, hc⟩
  · exact ⟨_, next_congr (if_pos ⟨hst, hstep, by rw [hoff]; rfl⟩), askGuest_first s i⟩
  · refine ⟨_, rfl, loseGuest_lost _ ?_⟩
    rcases hst with h | h | h
    · exact .inl h
    · exact .inr (.inl h)
    · exact .inr (.inr (.inl h))
  · have hw := writeNow_passes hgate
    obtain ⟨guards, ht⟩ := gate_guards hgate
    have hg : t.guest i = g := ht ▸ rfl
    have hthere : t.guestSite i = true := by
      rw [ht]
      exact decide_eq_true hsite
    have htick : t.tick = s.tick := ht ▸ rfl
    clear ht
    refine ⟨fun hst => ?_, fun hst => ?_, fun hst => ?_⟩
    · have he : exec (.gsCtlFence path site) s = .next (t.fence i fManual) := by
        refine next_congr ((hw _).trans ?_)
        dsimp only
        rw [hthere]
        exact if_pos (hg ▸ hst)
      obtain ⟨hf, hc, -⟩ := fence_fenced t i fManual
      exact ⟨_, he, hf, hc⟩
    · have he : exec (.gsCtlFence path site) s = .next (t.setGuest i { g with fenceAt := some s.tick }) := by
        refine next_congr ((hw _).trans ?_)
        dsimp only
        rw [hthere, hg, htick, Bool.not_true, if_neg Bool.false_ne_true, if_neg (by rw [hst]; decide), if_pos hst]
      exact ⟨_, he, guest_setGuest t i _⟩
    · have he : exec (.gsCtlReattest path site) s = .next ((t.setGuest i { g with st := .attesting }).askGuest i 1) := by
        refine next_congr ((hw _).trans ?_)
        dsimp only
        rw [hthere, hg, Bool.not_true, if_neg Bool.false_ne_true, if_neg (by rw [hst]; simp), if_pos hst]
      exact ⟨_, he, askGuest_setGuest t i _⟩
  · have hw := writeNow_passes hgate
    obtain ⟨guards, ht⟩ := gate_guards hgate
    have hg : t.guest i = g := ht ▸ rfl
    have hthere : t.guestSite i = true := by
      rw [ht]
      exact decide_eq_true hsite
    clear ht
    refine ⟨?_, fun hbad => ?_, fun hbad => ?_⟩
    · have he : exec (.ruleCmdRead path site) s = .next ((List.range 4).foldl (fun s j => s.setReg (gsBase i + 0x38 + 8 * j)
          (BitVec.ofNat 64 (bits (g.rules.get 0 (bits (t.reg (gsBase i + 0x30)) 0 5)) (64 * j) 64))) (t.setReg (gsBase i + 0x58) 1)) := by
        refine next_congr ((hw _).trans ?_)
        dsimp only
        rw [hthere, hg]
        rfl
      exact ⟨_, he, fun j hj => ruleWords_reg _ (gsBase i) _ hj⟩
    · have he : exec (.ruleCmdWrite path site) s = .next ((t.setReg (gsBase i + 0x58) 2).setGuest i
          { g with rules := g.rules.put (bits (t.reg (gsBase i + 0x30)) 0 5) (t.ruleRegs i) }) := by
        refine next_congr ((hw _).trans ?_)
        have hbad' : (t.setReg (gsBase i + 0x58) 2).badRule i (t.ruleRegs i) = false := hbad
        dsimp only
        rw [hthere, Bool.not_true, if_neg Bool.false_ne_true]
        refine (if_neg (Bool.eq_false_iff.mp hbad')).trans ?_
        rw [reg_setReg_ne t 2 (by omega), State.guest, State.setReg_guests, ← State.guest, hg]
        rfl
      exact ⟨_, he, guest_setGuest _ i _⟩
    · have he : exec (.ruleCmdWrite path site) s = .next ((t.setReg (gsBase i + 0x58) 2).orReg (gsBase i + 0x60) 1) := by
        refine next_congr ((hw _).trans ?_)
        have hbad' : (t.setReg (gsBase i + 0x58) 2).badRule i (t.ruleRegs i) = true := hbad
        dsimp only
        rw [hthere, Bool.not_true, if_neg Bool.false_ne_true]
        exact if_pos hbad'
      exact ⟨_, he, rfl, bit_orReg _ _ 0 (by decide)⟩
end

section
/-! What a guest's packets and requests do at the gatehouse (R418 to R429). -/

open Sys2Proof Sys2Proof.Machine

namespace Sys2Proof.Machine
variable {s t u : State}

/-! ### A packet reaches its judgement (R420, R425) -/

/-- What counting and pacing change before a packet is judged: registers but the site's class register, and the site's buckets. -/
structure State.paced (s t : State) (i : Nat) : Prop where
  rest : ∃ regs guests, t = { s with regs := regs, guests := guests }
  rules : (t.guest i).rules = (s.guest i).rules
  classes : t.reg (gsBase i + 0x10) = s.reg (gsBase i + 0x10)

theorem State.paced.trans {i : Nat} (h : s.paced t i) (g : t.paced u i) : s.paced u i := by
  refine ⟨?_, g.rules.trans h.rules, g.classes.trans h.classes⟩
  obtain ⟨_, _, rfl⟩ := h.rest
  obtain ⟨_, _, rfl⟩ := g.rest
  exact ⟨_, _, rfl⟩

theorem State.paced.refl (s : State) (i : Nat) : s.paced s i := ⟨⟨_, _, rfl⟩, rfl, rfl⟩

theorem bump_paced (s : State) (i : Nat) {o : Nat} (n : Nat) (h : gsBase i + 0x10 ≠ o) : s.paced (s.bump o n) i :=
  ⟨⟨_, _, rfl⟩, rfl, State.reg_bump_ne s n h⟩

theorem setGuest_paced {i : Nat} {g : Guest} (h : g.rules = (s.guest i).rules) : s.paced (s.setGuest i g) i :=
  ⟨⟨_, _, rfl⟩, by rw [guest_setGuest, h], rfl⟩

theorem countHeld_paced (s : State) (i : Nat) (on : Bool) : s.paced (s.countHeld i on) i := by
  unfold State.countHeld
  dsimp only
  split
  · exact setGuest_paced rfl
  · exact (bump_paced s i _ (by omega)).trans (setGuest_paced rfl)

theorem fillBuckets_rules (s : State) (i : Nat) : (s.fillBuckets i).rules = (s.guest i).rules := by
  unfold State.fillBuckets
  dsimp only
  split <;> rfl

/-- At an OPEN site whose credits are not withheld a packet is judged. -/
theorem guestPacket_judged {site : Fin 4} {k : FabPkt} (hthere : s.guestThere site = true) (hst : (s.guest site).st = .opened)
    (hheld : s.withheld site k = false) (slow : List (Fin 64 × Nat)) :
    ∃ t, exec (.guestPacket site ⟨k, slow⟩) s = .next (t.judgeGuest site k slow) ∧ s.paced t site := by
  have hthere' : ¬(!s.guestThere site) = true := by
    rw [hthere]
    exact Bool.false_ne_true
  have hseen := bump_paced s site.val (o := gsBase site + 0x80) (pFlits k) (by omega)
  generalize hv : (s.bump (gsBase site + 0x80) (pFlits k)).countHeld site false = v
  have hsv : s.paced v site := hv ▸ hseen.trans (countHeld_paced _ _ _)
  refine ⟨_, next_congr ((if_neg hthere').trans ?_), hsv.trans (setGuest_paced (g := { v.fillBuckets site with
    byteTok := (v.fillBuckets site).byteTok - 64 * pFlits k, packetTok := (v.fillBuckets site).packetTok - 1000 })
    (fillBuckets_rules v site))⟩
  dsimp only
  rw [hst]
  dsimp only
  rw [hheld, if_neg Bool.false_ne_true, hv]

/-! ### Refusals (R424) -/

/-- Device memory, the requests of guests and the allotments are the same in both states. -/
def State.sameBehind (s t : State) : Prop := t.mem = s.mem ∧ t.guestReqs = s.guestReqs ∧ t.allots = s.allots

theorem State.sameBehind.trans (h : s.sameBehind t) (g : t.sameBehind u) : s.sameBehind u :=
  ⟨g.1.trans h.1, g.2.1.trans h.2.1, g.2.2.trans h.2.2⟩

theorem State.sameBehind.refl (s : State) : s.sameBehind s := ⟨rfl, rfl, rfl⟩

theorem State.paced.sameBehind {i : Nat} (h : s.paced t i) : s.sameBehind t := by
  obtain ⟨_, _, rfl⟩ := h.rest
  exact ⟨rfl, rfl, rfl⟩

/-- Pacing leaves what the fabric asks of the state. -/
theorem State.paced.target {i : Nat} (h : s.paced t i) : t.feid = s.feid ∧ t.memKey = s.memKey ∧ t.memByte = s.memByte ∧
    t.judgeFabric = s.judgeFabric ∧ t.events = s.events := by
  obtain ⟨_, _, rfl⟩ := h.rest
  exact ⟨rfl, rfl, rfl, rfl, rfl⟩

theorem raiseEvent_sameBehind (s : State) (e : Event) (l : List Dest) : s.sameBehind (s.raiseEvent e l) := by
  obtain ⟨_, _, _, _, _, h⟩ := s.raiseEvent_eq e l
  rw [h]
  exact ⟨rfl, rfl, rfl⟩

theorem setGuest_sameBehind (s : State) (i : Nat) (g : Guest) : s.sameBehind (s.setGuest i g) := ⟨rfl, rfl, rfl⟩

theorem reportDenied_sameBehind (s : State) (i : Nat) : s.sameBehind (s.reportDenied i) := by
  unfold State.reportDenied
  dsimp only
  split
  · exact .refl s
  · split
    · exact .refl s
    · exact List.foldlRecOn (motive := s.sameBehind) _ _ ⟨rfl, rfl, rfl⟩ fun t ht e _ => ht.trans (raiseEvent_sameBehind t e _)

theorem deny_sameBehind (s : State) (i dir : Nat) (why : Deny) (typ dst addr : Nat) (a : Option Nat) :
    s.sameBehind (s.deny i dir why typ dst addr a) := by
  have hb : s.sameBehind (s.bump (gsBase i + 0x68)) := ⟨rfl, rfl, rfl⟩
  have hset {v : State} (h : s.sameBehind v) (g : Guest) : s.sameBehind (v.setGuest i g) := h.trans (setGuest_sameBehind v i g)
  unfold State.deny
  dsimp only
  have hr := hb.trans (reportDenied_sameBehind (s.bump (gsBase i + 0x68)) i)
  generalize (s.bump (gsBase i + 0x68)).reportDenied i = v at hr
  split
  · exact (hset hr _).trans (raiseEvent_sameBehind _ _ _)
  · exact hset hr _

theorem denyGuest_answers (s : State) (i : Nat) {k : FabPkt} (hk : pType k = 1 ∨ pType k = 2) (why : Deny) :
    s.sameBehind (s.denyGuest i k why) ∧ ∃ a, Out.guest i a ∈ (s.denyGuest i k why).out := by
  have hd := deny_sameBehind s i 0 why (pType k) (pDst k) (pAddr k) none
  unfold State.denyGuest
  dsimp only
  rw [if_pos hk]
  generalize s.deny i 0 why (pType k) (pDst k) (pAddr k) none = v at hd
  exact ⟨hd.trans ⟨rfl, rfl, rfl⟩, _, List.mem_cons_self⟩

/-! ### Judgement (R421, R422) -/

section
variable {i : Nat} {k : FabPkt} (hp : s.paced t i) (hclass : bit (s.reg (gsBase i + 0x10)) (s.guestClass k) = true)
variable (slow : List (Fin 64 × Nat))
include hp hclass

/-- Past the types and the classes the site's rules decide. -/
theorem judgeGuest_ruled (hk : pType k = 1 ∨ pType k = 2) :
    ((s.guest i).rule (s.ruleFits k) = none → t.judgeGuest i k slow = t.denyGuest i k .noRule) ∧
      ∀ r, (s.guest i).rule (s.ruleFits k) = some r → t.judgeGuest i k slow = t.admitGuest i k r slow := by
  have hfits : t.ruleFits k = s.ruleFits k := by
    obtain ⟨_, _, rfl⟩ := hp.rest
    rfl
  have hcls : bit (t.reg (gsBase i + 0x10)) (t.guestClass k) = true := by
    have hc : t.guestClass k = s.guestClass k := by
      obtain ⟨_, _, rfl⟩ := hp.rest
      rfl
    rw [hc, hp.classes, hclass]
  have hrule : (t.guest i).rule (t.ruleFits k) = (s.guest i).rule (s.ruleFits k) := by
    rw [Guest.rule, hp.rules, hfits, Guest.rule]
  unfold State.judgeGuest
  rw [if_neg (by omega), if_neg (by omega), hcls, Bool.not_true, if_neg Bool.false_ne_true, hrule]
  refine ⟨fun h => ?_, fun r h => ?_⟩ <;> rw [h]

/-- An admitted packet passes, with the header the gate gives it at first. -/
theorem judgeGuest_admitted (hk : pType k = 1) {r : BitVec 256} (hr : (s.guest i).rule (s.ruleFits k) = some r) :
    t.judgeGuest i k slow = t.passGuest i (gateHdr s k (s.allot (rAllot r)).tag (rBg r)) slow := by
  rw [(judgeGuest_ruled hp hclass slow (.inl hk)).2 r hr, State.admitGuest]
  obtain ⟨_, _, rfl⟩ := hp.rest
  rfl

end

/-- A write to this module stores its bytes; what follows the service touches none (R303). -/
theorem passGuest_stores {i : Nat} {k : FabPkt} (hm : pMalformed k = false) (hlen : pLen k ≤ 1) (hty : pType k = 1)
    (hdst : pDst k = s.feid) {d : Nat} (hj : s.judgeFabric (pTag k) (pAddr k) (min (pBytes k) (readSpan (pAddr k))) = (0, d))
    (slow : List (Fin 64 × Nat)) :
    (∀ i', i' < (pStored k).length → (s.passGuest i k slow).memByte (s.memKey d + i') = ((pStored k)[i']?).getD 0) ∧
      ∀ a, a < s.memKey d ∨ s.memKey d + (pStored k).length ≤ a → (s.passGuest i k slow).memByte a = s.memByte a := by
  have hno : ¬((pMalformed k) = true ∨ pLen k > 1) := by
    rw [hm]
    exact not_or.mpr ⟨Bool.false_ne_true, Nat.not_lt.mpr hlen⟩
  have hserved : s.served k 8 0xFFFFFFFF = s.serveWrite k 8 0xFFFFFFFF := if_neg (by omega)
  have himage : (s.serveWrite k 8 0xFFFFFFFF).1.sameImage (s.passGuest i k slow) := by
    unfold State.passGuest
    rw [if_neg hno, if_neg (by omega), if_pos hdst]
    dsimp only
    rw [hserved]
    generalize s.serveWrite k 8 0xFFFFFFFF = a
    refine State.sameImage.trans (State.sameImage_ite (State.noteSlow_sameImage _ _ _ _) (.refl _)) (guestAnswer_aside _ _ _ _ _ _ _ _).tolinkOnly.sameImage
  rw [himage.memByte]
  exact serveWrite_bytes hj 8 0xFFFFFFFF

theorem passGuest_drops {i : Nat} {k : FabPkt} (h : pMalformed k = true ∨ 1 < pLen k) (slow : List (Fin 64 × Nat)) :
    (s.passGuest i k slow).mem = s.mem ∧ s.raises (s.passGuest i k slow) evFabricDrop := by
  have he : s.passGuest i k slow = s.fabricDrop 0 0xFF k [] none := if_pos h
  rw [he]
  have hb : (s.bump (fabricBase + 0x40)).mem = s.mem ∧ (s.bump (fabricBase + 0x40)).events = s.events := ⟨rfl, rfl⟩
  unfold State.fabricDrop
  generalize s.bump (fabricBase + 0x40) = v at hb ⊢
  obtain ⟨hm, hev⟩ := hb
  exact ⟨(raise_readsOnly v _ _ _ _ _).image.1.1.trans hm,
    raises_of_suffix_left (hev ▸ List.suffix_rfl) (v.raise_raises evFabricDrop none _ [] 1)⟩

/-! ### Requests that no guest answers (R425, R429) -/

/-- A core's request to a guest ends TARGET_ERROR. -/
def State.unanswered (s : State) (id : Nat) (r : Req) : State :=
  { s with reqs := s.reqs.put id { r with stage := .toCarter, status := 3, data := [], poison := [] } }

theorem unanswered_keeps (s : State) (id : Nat) (r : Req) :
    (s.unanswered id r).reqs.find? id = some { r with stage := .toCarter, status := 3, data := [], poison := [] } ∧
      (s.unanswered id r).events = s.events := ⟨Tab.find?_put_self _ _ _, rfl⟩

theorem guestNoResponse_eq {id : Nat} {r : Req} (hid : s.reqs.find? id = some r) (hat : r.stage = .atGuest) :
    exec (.guestNoResponse id) s = .next ((s.unanswered id r).raise evGuestNoResponse (s.allotOf r.core.parish)
      [(r.site, 1), (r.core.id, 4), (r.addr % 2 ^ 36, 8)] ((s.allotOf r.core.parish).map Dest.allot).toList) := by
  refine next_congr ?_
  rw [hid]
  exact if_neg (not_not_intro hat)

/-- A core's request to a site, ended by the site's drain. -/
def Req.drained (i : Nat) (r : Req) : Req :=
  if r.stage = .atGuest ∧ r.site = i then { r with stage := .toCarter, status := 4, data := [], poison := [] } else r

/-- The core requests outstanding at a site. -/
def State.atSite (s : State) (i : Nat) : Nat := (s.reqs.filter fun e => decide (e.2.stage = .atGuest ∧ e.2.site = i)).length

theorem drained_of_outstanding {i : Nat} {r : Req} (hat : r.stage = .atGuest) (hsite : r.site = i) :
    r.drained i = { r with stage := .toCarter, status := 4, data := [], poison := [] } := if_pos ⟨hat, hsite⟩

/-- The drain ends, the core requests of the site are counted and ended, and the guest's forgotten. -/
def State.drainOver (s : State) (i : Nat) : State :=
  { (s.setGuest i { s.guest i with draining := false }).bump (gsBase i + 0x70) (s.atSite i) with
    guestReqs := s.guestReqs.filter fun e => e.2.site ≠ i, reqs := s.reqs.mapVals fun _ r => r.drained i }

theorem fenceDrain_eq {site : Fin 4} (h : (s.guest site).draining = true) :
    exec (.fenceDrainTimeout site) s = .next (s.drainOver site) := by
  refine next_congr (if_neg ?_)
  rw [h]
  exact Bool.false_ne_true

theorem drainOver_keeps (s : State) (i : Nat) : (s.drainOver i).guest i = { s.guest i with draining := false } ∧
    (s.drainOver i).guestReqs = s.guestReqs.filter (fun e => e.2.site ≠ i) ∧
    (s.drainOver i).reqs = s.reqs.mapVals (fun _ r => r.drained i) ∧
    (s.drainOver i).reg (gsBase i + 0x70) = count48 (s.reg (gsBase i + 0x70)) (s.atSite i) :=
  ⟨guest_setGuest s i _, rfl, rfl, State.reg_setReg_self (s.setGuest i { s.guest i with draining := false }) _ _⟩

end Sys2Proof.Machine

/-- Settles O51: a packet by the rule that decides it; a request by the end it meets. -/
theorem guestTraffic : Obligations.GuestTraffic := by
  unfold Obligations.GuestTraffic
  intro site s g
  refine ⟨fun k slow hthere hst hheld hclass => ⟨fun r hty hr => ⟨fun hbad => ?_, fun hm hlen hty' hdst d hj => ?_⟩, fun hty hr => ?_⟩,
    fun id r hid hat => ?_, fun hdrain => ?_⟩
  · obtain ⟨t, he, hp⟩ := guestPacket_judged hthere hst hheld slow
    rw [judgeGuest_admitted hp hclass slow hty hr] at he
    obtain ⟨hm, hraise⟩ := passGuest_drops (s := t) (i := site) hbad slow
    obtain ⟨-, -, -, -, hev⟩ := hp.target
    exact ⟨_, he, hm.trans hp.sameBehind.1, raises_of_suffix_left (hev ▸ List.suffix_rfl) hraise⟩
  · obtain ⟨t, he, hp⟩ := guestPacket_judged hthere hst hheld slow
    rw [judgeGuest_admitted hp hclass slow hty hr] at he
    obtain ⟨hfeid, hkey, hbyte, hjudge, -⟩ := hp.target
    rw [← hfeid] at hdst
    rw [← hjudge] at hj
    have hstores := passGuest_stores (i := site) hm hlen hty' hdst hj slow
    rw [hkey, hbyte] at hstores
    exact ⟨_, he, hstores⟩
  · obtain ⟨t, he, hp⟩ := guestPacket_judged hthere hst hheld slow
    have hj := (judgeGuest_ruled hp hclass slow hty).1 hr
    obtain ⟨hsame, hout⟩ := denyGuest_answers t site hty .noRule
    obtain ⟨hm, hreqs, hal⟩ := hp.sameBehind.trans hsame
    rw [← hj] at hm hreqs hal hout
    exact ⟨_, he, hm, hreqs, hal, hout⟩
  · obtain ⟨hreqs, hev⟩ := unanswered_keeps s id r
    have he := guestNoResponse_eq hid hat
    generalize s.unanswered id r = v at he hreqs hev
    refine ⟨_, he, ?_, raises_of_suffix_left (hev ▸ List.suffix_rfl) (v.raise_raises evGuestNoResponse _ _ _ 1)⟩
    rw [raise_reqs, hreqs]
  · obtain ⟨hguest, hguestReqs, hreqs, hreg⟩ := drainOver_keeps s site
    refine ⟨_, fenceDrain_eq hdrain, ?_, fun e he => ?_, hreg, fun id r hid hat hsite => ?_⟩
    · rw [hguest]
    · rw [hguestReqs] at he
      exact of_decide_eq_true (List.mem_filter.mp he).2
    · rw [hreqs, Tab.find?_mapVals, hid, Option.map_some, drained_of_outstanding hat hsite]
end

section
/-! Immediate commands (R339, R349): the CLOSE of a session that is already ending. -/

open Sys2Proof Sys2Proof.Machine

namespace Sys2Proof.Machine
variable {s : State}

/-- A CLOSE accepted by a session that is already ending begins, and nothing more happens: what closes a session stops where it is
ending (R345, R349). -/
theorem close_of_ending {ses : BitVec 12} {lsn : Nat} {x : Session} {e : LEntry} (hx : s.ses.find? ses.toNat = some x)
    (hhead : s.immHead ses.toNat 0x02 = some (lsn, x, e)) (hpos : 0 < lsn) (hcl : x.closing = none) (hend : x.ending = true)
    (hown : s.ownedBy ses.toNat = []) :
    exec (.close ses) s = .next ((s.executing lsn).setSes ses.toNat { x with closing := some lsn }) := by
  have hses : (s.executing lsn).ses = s.ses := by
    unfold State.executing State.updEntry
    split <;> rfl
  have hupd : (s.executing lsn).updSes ses.toNat (fun y => { y with closing := some lsn }) =
      (s.executing lsn).setSes ses.toNat { x with closing := some lsn } := by
    rw [State.updSes, hses, hx]
  refine next_congr ?_
  rw [hhead]
  dsimp only
  rw [hcl, Option.isSome_none, if_neg Bool.false_ne_true, hown, List.isEmpty_nil, Bool.not_true, if_neg (fun h => Bool.false_ne_true h.1),
    hupd, State.closeOn, State.find?_setSes_self]
  dsimp only
  rw [hend, if_pos rfl, if_neg hpos.ne']

/-- A session that is ending and holds one accepted command. -/
def endingSession : Session := { imm := [1], ending := true }

/-- Its command: a CLOSE. -/
def closeEntry : LEntry := { opcode := 2, lsn := 1 }

/-- The state just after reset, but for that session and its command. -/
def endingState : State :=
  { State.reset with ses := [(0, endingSession)], ledger := { State.reset.ledger with entries := [(0, closeEntry)] } }

theorem endingState_executes : endingState.executes 0 0x02 1 endingSession closeEntry where
  head := rfl
  only := rfl
  alone := fun _ hy hne => absurd (congrArg Prod.fst (List.mem_singleton.mp hy)) hne
  mine := rfl
  attached := rfl

/-- The CLOSE begins and is never done. -/
theorem endingState_entry : ((endingState.executing 1).setSes 0 { endingSession with closing := some 1 }).entryOf 1 =
    some (0, { closeEntry with st := 1 }) := rfl

end Sys2Proof.Machine

/-- Refutes O41: its clause on CLOSE asks that no close is under way, not that the session is still open. At a session that is already
ending the CLOSE begins and is not done. -/
theorem not_immediateCommands : ¬ Obligations.ImmediateCommands := by
  unfold Obligations.ImmediateCommands
  intro h
  obtain ⟨hclose, -⟩ := h 0 1 endingSession closeEntry endingState
  obtain ⟨hfree, -⟩ := hclose endingState_executes Nat.one_pos rfl
  obtain ⟨t, ht, ⟨i, e, he, hst, -, -⟩, -⟩ := hfree rfl
  have hexec := close_of_ending (s := endingState) (ses := 0) rfl endingState_executes.head Nat.one_pos rfl rfl rfl
  rw [hexec] at ht
  cases ht
  rw [show (0 : BitVec 12).toNat = 0 from rfl, endingState_entry] at he
  cases he
  exact absurd hst (by decide)
end
